-- ==== Sys2Proof/Word.lean ====
section
/-! DEFINITION. The words of the TH16: the 32-bit register word, the byte, lane and session numbers, and the plainest
bit helpers (R110, R113). -/

namespace Sys2Proof

/-- A 32-bit register or store word (R110). -/
abbrev Word := BitVec 32

/-- A byte of a store or buffer. -/
abbrev Byte := BitVec 8

/-- A lane, 0 to 15. A TH8 fits lanes 0 to 7 (R1). -/
abbrev LaneId := Fin 16

/-- A Forme session, S0 (the steward) to S7. -/
abbrev SessId := Fin 8

/-- The value of bits hi..lo of a word, as a number. -/
def bitsOf (w : Word) (hi lo : Nat) : Nat := (w.toNat >>> lo) % 2 ^ (hi + 1 - lo)

/-- A word with ones exactly in bits hi..lo. -/
def bitMask (hi lo : Nat) : Word := BitVec.ofNat 32 ((2 ^ (hi + 1 - lo) - 1) <<< lo)

/-- `w` with bits hi..lo replaced by the low bits of `v`. -/
def withBits (w : Word) (hi lo v : Nat) : Word :=
  (w &&& ~~~(bitMask hi lo)) ||| BitVec.ofNat 32 ((v % 2 ^ (hi + 1 - lo)) <<< lo)

/-- One bit of a word. -/
def bitAt (w : Word) (i : Nat) : Bool := w.getLsbD i

/-- 1 or 0. -/
def b2n (b : Bool) : Nat := if b then 1 else 0

/-- The signed value of the low `k` bits of a number. -/
def signedOf (k v : Nat) : Int :=
  if v % 2 ^ k < 2 ^ (k - 1) then (v % 2 ^ k : Nat) else ((v % 2 ^ k : Nat) : Int) - (2 ^ k : Nat)

/-- An integer as a two's complement number of `k` bits. -/
def wrapInt (k : Nat) (i : Int) : Nat := (i % (2 ^ k : Nat)).toNat

/-- Clamp an integer to a signed range of `k` bits. -/
def clampInt (k : Nat) (i : Int) : Int :=
  if i > ((2 ^ (k - 1) : Nat) : Int) - 1 then ((2 ^ (k - 1) : Nat) : Int) - 1
  else if i < -((2 ^ (k - 1) : Nat) : Int) then -((2 ^ (k - 1) : Nat) : Int) else i

end Sys2Proof
end

