-- ==== Sys2Proof/Syntax.lean ====
section
/-! DEFINITION. What a sender can ask of the TH16: the commands, one constructor per row of spec/opcode_table.json, and the types
of their operands. A physical input that the part does not compute (a level, a sample, a measured stamp, what a frame met on
its way) is an operand of the command that reports it. -/

namespace Sys2Proof

/-- The eight pages of a lane, in order (Table: Page map). -/
inductive LaneKind where
  | lane | smu | chain | usnd | tmr | dunc | can | eng
  deriving DecidableEq, Repr

/-- The pages that exist (Table: Page map): the header pages and the four pages of the source table. -/
inductive Page where
  | mod | forme | sess | quoin | evg | table (j : Fin 4) | reg | ptp | net | imp | chase | cal | log | sb | fix | sync | therm
  | lane (n : LaneId) (k : LaneKind) | store (n : LaneId)
  deriving DecidableEq, Repr

/-- Who makes a register write (R121, R445): a session's press, the lane engine at user or monitor privilege, or Chase. -/
inductive Writer where
  | host (k : SessId)
  | user (n : LaneId)
  | monitor (n : LaneId)
  | chase
  deriving DecidableEq, Repr

/-- A pair of interlock channels (R51): ILK_A and ILK_B of a lane, or HV_PERMIT_A and HV_PERMIT_B. -/
inductive IlkPair where
  | loop (n : LaneId)
  | permit
  deriving DecidableEq, Repr

/-- How much of a Forme transaction a command runs: all of it, or its first part, up to where FCLK stops with `sent` data words of a burst
delivered, or the rest of the one in progress (R90, R108). -/
inductive Part where
  | whole | begin (sent : Nat) | rest
  deriving DecidableEq, Repr

/-- A Forme header but for its opcode (R87); `flags` is byte 1 bits [4:0]. `mode3` is the level of FCLK when FCS# fell (R84); `part` is no
part of the header. -/
structure Hdr where
  part : Part
  mode3 : Bool
  session : SessId
  flags : BitVec 5
  addr : BitVec 16
  length : BitVec 16
  seq : BitVec 8
  hcrc : BitVec 8
  deriving DecidableEq, Repr

/-- Where FCS# rises early (Table: Outcome by truncation point). -/
inductive Trunc where
  | beforeEdge16 | inHeader | inData | tail1to3 | tail4to8
  deriving DecidableEq, Repr

/-- A half-cycle at the receiver: the instant of its peak, whether it is negative, and the height of its peak (R277). -/
structure HalfCycle where
  at_ : Nat
  neg : Bool
  peak : Nat
  deriving DecidableEq, Repr

/-- What came in at the receiver after one ultrasonic shot (R277): the half-cycles in order, and every zero crossing with its direction (true
rising); times in picoseconds from the first drive edge, heights in 1/1,023 of full scale after gain. -/
structure Shot where
  halves : List HalfCycle
  cross : List (Nat × Bool)
  deriving DecidableEq, Repr

/-- A sample record of a pod (R338). -/
structure PodRec where
  tick : BitVec 16
  x : BitVec 16
  y : BitVec 16
  z : BitVec 16
  deriving DecidableEq, Repr

/-- What the wire of a Duncol line does to one frame (R301, R302, R321, R327): DL sticks low; the bits flipped in what the lane writes after
START, byte by byte, as the pods read it; the ACK slot read wrong; the bits flipped in the read slots after it as the lane reads them.
-/
structure Wire where
  stuck : Bool
  cmd : List Byte
  ack : Bool
  reply : List Byte
  deriving DecidableEq, Repr

/-- What an upper deadline of the Duncol line belongs to (R321, R336). -/
inductive LineJob where
  | poll (k : Fin 24) (gyro : Bool)
  | event (k : Fin 24)
  | request
  | search
  | setup (k : Fin 24)
  deriving DecidableEq, Repr

/-- What stands before the payload of a received Ethernet frame (R196): its length from the destination address to the FCS, the tag control
information of an IEEE 802.1Q tag, and the source address. -/
structure EthHead where
  len : Nat
  tag : Option (BitVec 16)
  src : BitVec 48
  deriving DecidableEq, Repr

/-- The data set of an Announce that the best master comparison of IEEE 1588-2019 uses (R186). -/
structure MasterSet where
  prio1 : Nat
  cls : Nat
  accuracy : Nat
  variance : Nat
  prio2 : Nat
  gmId : Nat
  steps : Nat
  deriving DecidableEq, Repr

/-- What a received PTP message holds, as far as the part uses it (R186 to R190, R195). `kind` is the messageType; `origin` is the
master's time-stamp and `corr` the correctionField, in nanoseconds; `cap` says which receive capture of Chase's ring is this
frame's, counted back from the newest (R189); `logInt` is logMessageInterval; `flags` are bits 0 LEAP61, 1 LEAP59, 2 UTC offset valid,
3 PTP timescale. -/
structure PtpMsg where
  head : EthHead
  domain : Nat
  sdo : Nat
  version : Nat
  udp : Bool
  kind : Nat
  malformed : Bool
  seq : Nat
  twoStep : Bool
  logInt : Int
  origin : Int
  corr : Int
  cap : Nat
  clockId : Nat
  port : Nat
  set : MasterSet
  utc : Int
  flags : Nat
  deriving DecidableEq, Repr

/-- How an attempt of the fixture controller ended (R495 to R498): good with the bytes read; its address NAKed; a data byte NAKed;
no ACK within the write cycle; stretched too long; arbitration lost or a foreign START; the bus clear failed (after `clears`
bus clears) or freed the bus; the fixture gone. `clears` counts the bus clears before and in the attempt. -/
inductive FixEnd where
  | good (data : List Byte) (clears : Nat) | nakAddr (clears : Nat) | nakData (clears : Nat) | writeCycle (clears : Nat)
  | stretch (clears : Nat) | lost (clears : Nat) | stuck (clears : Nat) | gone
  deriving DecidableEq, Repr

/-- The commands of the TH16, one for each row of spec/opcode_table.json, in its order. -/
inductive Instr where
  /-- GUTTER_FRAME_SEND (R6): Every 10.24 µs each side of a lane's gutter link sends one 1,024-bit frame, choosing DATA, TELEMETRY, REPLAY or IDLE content. -/
  | gutterFrameSend (n : LaneId) (up : Bool)
  /-- GUTTER_FRAME_RECEIVE (R7): A receiver takes a whole gutter frame, judges it good or bad, processes ACKs and payload entries, and updates lock counts. -/
  | gutterFrameReceive (n : LaneId) (up : Bool) (bits : BitVec 1024)
  /-- ITEM_RESEND (R8): An item left unacknowledged for 2 frames is sent again, and a 4th unacknowledged sending declares loss of lock. -/
  | itemResend (n : LaneId) (up : Bool)
  /-- FAR_SIDE_SAFE (R9): After 100 µs without a good frame, the far side switches HV off, discharges, stops its chains and releases its outputs. -/
  | farSideSafe (n : LaneId)
  /-- TELEMETRY_DUE (R16): 64 frames after the last TELEMETRY frame, a TELEMETRY frame falls due, and it is forced out at 1,024 frames. -/
  | telemetryDue (n : LaneId)
  /-- FAR_SIDE_APPLY (R24): When the marked last entry of a press has arrived, the far side applies all of that press's writes at the next frame boundary. -/
  | farSideApply (n : LaneId)
  /-- VIO_WINDOW_CHANGE (R29): VIO enters or leaves a valid window, which selects the J1 I/O level or makes J1 high-impedance. -/
  | vioWindowChange (mv : Nat)
  /-- MRST_LOW (R31): A low level of at least 1 µs on MRST# is taken as a module reset request. -/
  | mrstLow (low : Bool)
  /-- POWER_ON (R57): +24V_IN, or AUX_5V with +24V_IN, is applied, and the bulk charges under current limit before the power-on reset. -/
  | powerOn (vin : Nat) (aux : Nat) (adr : Fin 4)
  /-- BROWNOUT (R56): +24V_IN stays below 16.5 V for 200 µs, so permits stop, far sides are cut, FAULT# is asserted, a shelf record is written and the module is held in reset. -/
  | brownout (vin : Nat)
  /-- BROWNOUT_RECOVERY (R56): +24V_IN stays above 17.5 V for 100 ms, and power-up begins with BROWNOUT_SEEN set. -/
  | brownoutRecovery (vin : Nat)
  /-- AUX_SOURCE_CHANGE (R41): The always-on island moves between AUX_5V and +24V_IN without a reset. -/
  | auxSourceChange (aux : Nat)
  /-- ISLAND_POWER_LOSS (R42): Both AUX_5V and +24V_IN are absent, so the island stops and the calendar is lost. -/
  | islandPowerLoss
  /-- FX_PRESENT_CHANGE (R35): FX_PRESENT# changes and holds for the 20 ms debounce, which updates FX_PRESENT and may start an automatic record read. -/
  | fxPresentChange (on : Bool)
  /-- FX_CURRENT_LIMIT (R35): FX_3V3 enters or leaves current limit, and FX_FAULT follows. -/
  | fxCurrentLimit (on : Bool)
  /-- INTERLOCK_OPENING (R50): An ILK or HV_PERMIT input reads open for 1.5 ms, and the lanes concerned reach HV-off within 5 ms. -/
  | interlockOpening (pair : IlkPair) (mvA mvB : Int) (us : Nat)
  /-- PERMIT_CHANNEL_SILENT (R50): A far side detects its permit channel silent for 20 µs and forces HV-off. -/
  | permitChannelSilent (n : LaneId)
  /-- CHANNEL_DISCREPANCY (R51): The two channels of a pair disagree for more than 50 ms, so the pair is treated as open and DISCREPANCY latches. -/
  | channelDiscrepancy (pair : IlkPair) (mvA mvB : Int) (us : Nat)
  /-- CHANNEL_CLOSING (R52): Both channels of a pair stay closed for 20 ms, and the closing counts without restarting HV. -/
  | channelClosing (pair : IlkPair) (mvA mvB : Int) (us : Nat)
  /-- DISCREPANCY_CLEAR (R51): A W1C write clears a latched DISCREPANCY once its open-then-closed sequence has been met. -/
  | discrepancyClear (w : Writer) (pair : IlkPair) (proof : Bool)
  /-- CONVERTER_TRIP (R44): Far-side input power above 5.0 W for more than 1 ms cuts the lane's power rails and puts the far side in its safe state. -/
  | converterTrip (n : LaneId)
  /-- REARM (R44): A write of 1 to LANE.ISO.REARM restores the power rails of a tripped far side, which then runs its self-test again. -/
  | rearm (w : Writer) (n : LaneId)
  /-- PWR_REQ (R27): A write to MOD.PWR.REQ requests RUN, QUIET or DORMANT, and is refused while HV runs or an impression is armed. -/
  | pwrReq (w : Writer) (v : Word)
  /-- POWER_STATE_CHANGE (R27): The module completes its move to the requested power state, powering down or bringing up and replaying its far sides. -/
  | powerStateChange
  /-- RESET_RELEASE (R57): A reset ends at its release point t0, and the first stage of start-up begins. -/
  | resetRelease (which : Option LaneId)
  /-- SOFT_RESET (R61): A steward write to MOD.SOFT_RESET with the key requests a module soft reset after the transaction ends. -/
  | softReset (w : Writer) (v : Word)
  /-- WATCHDOG_EXPIRY (R64): The Chase watchdog expires, so the island writes a fault record, asserts FAULT# and takes a module reset. -/
  | watchdogExpiry (pc : Word)
  /-- LANE_RESET (R62): A keyed write of LANE.RST.LANE resets lane n's near half, far half and link at the press. -/
  | laneReset (w : Writer) (n : LaneId) (v : Word)
  /-- ENGINE_RESET (R62): A keyed write of LANE.RST.ENGINE resets compositor n, its MMU and its DMA, releasing its quoins as BROKEN. -/
  | engineReset (w : Writer) (n : LaneId) (v : Word)
  /-- BOOT_IMAGE_CHECK (R65): The boot ROM completes its check of an image slot and boots the preferred accepted image, or falls back to the other. -/
  | bootImageCheck
  /-- CHASE_RUNNING (R68): Chase reaches STAGE RUNNING, FAULT# is released and sessions may open. -/
  | chaseRunning
  /-- BOOT_CONFIRMED (R66): After 60 s without a watchdog expiry, Chase sets CONFIRMED and clears TRIES. -/
  | bootConfirmed
  /-- SELFTEST_COMPLETE (R76): The far-side self-test finishes its checks and sets SELFTEST.DONE and PASS or FAILED. -/
  | selftestComplete (n : LaneId) (failed : BitVec 12)
  /-- LANE_READY (R77): The lane becomes READY once its link is locked, its self-test has passed and its oscillator is disciplined; held image writes are then applied. -/
  | laneReady (n : LaneId)
  /-- LANE_DISCIPLINED (R198): Within 20 ms of lock, lane time meets R22 and DISCIPLINED bit n sets. -/
  | laneDisciplined (n : LaneId)
  /-- READ (R90): A Forme READ transaction returns contiguous words from one proof of the host plane. -/
  | read (h : Hdr)
  /-- READ_LIST (R88): A READ with LIST returns the words named in the session's FORME.LIST entries, all from one proof. -/
  | readList (h : Hdr)
  /-- WRITE (R92): A Forme WRITE transaction writes contiguous registers, which take effect together at the press. -/
  | write (h : Hdr) (data : List Word) (dcrc : BitVec 16)
  /-- WRITE_SCATTER (R88): A WRITE with SCATTER writes address–value pairs, which take effect together at the press. -/
  | writeScatter (h : Hdr) (data : List Word) (dcrc : BitVec 16)
  /-- GALLEY_READ (R104): A GALLEY_READ returns lane n's slugs in ring order from the oldest unreleased slug, releasing nothing. -/
  | galleyRead (h : Hdr)
  /-- STORE_READ (R105): A STORE_READ returns lane-store words from WIN_BASE through D2. -/
  | storeRead (h : Hdr)
  /-- STORE_WRITE (R105): A STORE_WRITE stages words in D2's buffer for writing at the press, inside the host-writable region. -/
  | storeWrite (h : Hdr) (data : List Word) (dcrc : BitVec 16)
  /-- STORE_WRITE_COMPLETE (R105): The pressed STORE_WRITE data finish landing in lane store within 10 µs of the press. -/
  | storeWriteComplete (n : LaneId)
  /-- SESSION_OPEN_CHALLENGE (R134): A SESSION_OPEN with CHAL = 1 returns the session number's current 32-byte challenge. -/
  | sessionOpenChallenge (h : Hdr)
  /-- SESSION_OPEN_RESPONSE (R136): A SESSION_OPEN with CHAL = 0 delivers an HMAC response to Chase, and the outcome reads PENDING. -/
  | sessionOpenResponse (h : Hdr) (data : List Word) (dcrc : BitVec 16)
  /-- SESSION_CLOSE (R138): A session's SESSION_CLOSE closes it at the press, with the effects of a close. -/
  | sessionClose (h : Hdr)
  /-- RING (R159): A Forme RING rings a doorbell from 960 to 1,023 at its press, subject to ringing rights. -/
  | ring (h : Hdr)
  /-- NOP (R88): A Forme NOP transaction returns a status and does nothing else. -/
  | nop (h : Hdr)
  /-- FCS_EARLY_RISE (R107): FCS# rises before the transaction completes, and the outcome follows the truncation point. -/
  | fcsEarlyRise (op : BitVec 8) (h : Hdr) (data : List Word) (dcrc : BitVec 16) (at_ : Trunc)
  /-- EV_CLR (R117): A write of 1s to EV_CLR clears pending event bits that were set at the proof. -/
  | evClr (w : Writer) (p : Page) (v : Word) (proof : Word)
  /-- EV_SET (R117): A write of 1s to EV_SET sets pending event bits as occurrences would. -/
  | evSet (w : Writer) (p : Page) (v : Word)
  /-- EV_MASK_SET (R117): A write of 1s to EV_MASK_SET masks event bits. -/
  | evMaskSet (w : Writer) (p : Page) (v : Word)
  /-- EV_MASK_CLR (R117): A write of 1s to EV_MASK_CLR unmasks event bits, and a pending bit then counts as an occurrence. -/
  | evMaskClr (w : Writer) (p : Page) (v : Word)
  /-- EV_SOURCE (R118): A write to EV_SOURCE reroutes event groups to the page's sources, and newly routed pending bits count as occurrences. -/
  | evSource (w : Writer) (p : Page) (v : Word)
  /-- ERR_CLR (R122): A write of 1 to PG_CTL.ERR_CLR clears PG_ERR at the press. -/
  | errClr (w : Writer) (p : Page) (v : Word)
  /-- COUNTER_CLEAR (R126): A write of 0 clears a counter, keeping occurrences since the proof, and any other value is refused with RANGE. -/
  | counterClear (w : Writer) (p : Page) (off : Nat) (v : Word) (proof : Word)
  /-- REGISTER_WRITE (R2): A write to a register field with no row of its own is checked and takes its value under its access code. -/
  | registerWrite (w : Writer) (p : Page) (off : Nat) (v : Word)
  /-- RESPONSE_JUDGEMENT (R136): Chase judges a delivered response, opening or reopening the session or recording its failure, and replaces the challenge. -/
  | responseJudgement (k : SessId)
  /-- LOCKOUT_END (R137): A session number's 10 s lockout ends, and its count of consecutive failures returns to 0. -/
  | lockoutEnd (k : SessId)
  /-- FORCE_CLOSE (R138): A steward write to SESS.FORCE_CLOSE closes the named sessions in rising order. -/
  | forceClose (w : Writer) (v : Word)
  /-- KEY_LOAD (R133): A steward KEY_TARGET write with LOAD installs the key from eight KEY_LOAD words for a session number. -/
  | keyLoad (w : Writer) (words : List Word) (v : Word)
  /-- KEY_ERASE (R133): A steward KEY_TARGET write with ERASE erases a session number's key. -/
  | keyErase (w : Writer) (v : Word)
  /-- TAKE (R145): A QUOIN.OP TAKE takes a free quoin, or reports BUSY and optionally registers a wait, after the rank-order check. -/
  | take (w : Writer) (v : Word)
  /-- GIVE (R149): A QUOIN.OP GIVE by the holder frees the quoin, and the wait of each registered waiter ends. -/
  | give (w : Writer) (v : Word)
  /-- CLEAR_BROKEN (R151): A QUOIN.OP CLEAR_BROKEN by the holder clears the quoin's BROKEN flag. -/
  | clearBroken (w : Writer) (v : Word)
  /-- DRAW (R150): A steward QUOIN.OP DRAW breaks a held quoin, releasing it from its holder. -/
  | draw (w : Writer) (v : Word)
  /-- CANCEL_WAIT (R146): A QUOIN.OP CANCEL_WAIT removes the session's registered wait on the named quoin. -/
  | cancelWait (w : Writer) (v : Word)
  /-- HOLD_LIMIT_EXPIRY (R152): A quoin held beyond its hold limit is drawn from its holder and marked BROKEN. -/
  | holdLimitExpiry (q : Nat)
  /-- QUOIN_CFG (R153): A steward write to QUOIN.CFG_q sets a free quoin's rank and hold limit. -/
  | quoinCfg (w : Writer) (q : Nat) (v : Word)
  /-- TAKEQ_TIMEOUT (R147): An engine's TAKEQ wait runs out of time and returns TIMEOUT. -/
  | takeqTimeout (n : LaneId)
  /-- EN_SET (R162): A 1 written to EVG.EN_SET enables a source, counting an occurrence if its level or latch is set. -/
  | enSet (w : Writer) (i : Nat) (v : Word)
  /-- EN_CLR (R162): A 1 written to EVG.EN_CLR disables a source and withdraws it from HELD or PENDING. -/
  | enClr (w : Writer) (i : Nat) (v : Word) (proof : Word)
  /-- PEND_SET (R162): A 1 written to EVG.PEND_SET counts as an occurrence of an enabled source. -/
  | pendSet (w : Writer) (i : Nat) (v : Word)
  /-- PEND_CLR (R162): A 1 written to EVG.PEND_CLR withdraws a source, clears a doorbell latch, and re-evaluates the source as at a DONE. -/
  | pendClr (w : Writer) (i : Nat) (v : Word) (proof : Word)
  /-- CLAIM (R166): A host CLAIM moves a PENDING source at T0 or T1 to ACTIVE, or raises MISS. -/
  | claim (w : Writer) (t : Bool) (v : Word)
  /-- DONE (R166): A host DONE completes a PENDING or ACTIVE source at T0 or T1 and re-samples its level. -/
  | done (w : Writer) (t : Bool) (v : Word)
  /-- FORCE_DONE (R168): A steward FORCE_DONE completes a named source at a named target. -/
  | forceDone (w : Writer) (v : Word)
  /-- SOURCE_ENTRY_WRITE (R161): A write to a source-table entry sets the source's target, priority and coalescer after its checks. -/
  | sourceEntryWrite (w : Writer) (src : Nat) (v : Word)
  /-- COAL_WRITE (R171): A write to COAL_c takes effect at the press and may fire the coalescer at once. -/
  | coalWrite (w : Writer) (c : Nat) (v : Word)
  /-- COALESCER_TIME_FIRE (R169): TIME passes since the first held occurrence, so every HELD member becomes PENDING. -/
  | coalescerTimeFire (c : Nat)
  /-- FIRQ_EDGE_REASSERT (R173): In EDGE mode, a FIRQ line released for 200 ns to 300 ns after a change of TOP is driven low again. -/
  | firqEdgeReassert (t : Bool)
  /-- NIGHT_WATCH_WAKE (R175): A watched night-watch event in DORMANT wakes the module, and NW_CAUSE records the entry. -/
  | nightWatchWake (entry : Nat)
  /-- RT_WRAP (R180): RT_LO passes through zero and the registration unit sets WRAP_PENDING. -/
  | rtWrap
  /-- RT_HI_INCREMENT (R180): Chase adds one to RT_HI and clears WRAP_PENDING within 5 µs of the wrap, raising WRAP. -/
  | rtHiIncrement
  /-- RT_SECOND (R201): 64-bit RT passes a whole second, which raises SECOND, writes folios and starts PPS_OUT. -/
  | rtSecond
  /-- RT_INC_WRITE (R179): A write to RT_INC changes the registration rate and is forwarded to the lanes as a rate item. -/
  | rtIncWrite (w : Writer) (v : Word)
  /-- STEP_GO (R185): A steward STEP_GO in HOST mode requests a step to STEP_HI:STEP_LO under STEP_POLICY. -/
  | stepGo (w : Writer)
  /-- STEP_ANNOUNCE (R185): Chase announces a decided or held step to every lane, with an instant at least 100 µs ahead. -/
  | stepAnnounce (ahead : Nat)
  /-- STEP_INSTANT (R184): RT loads its new value in one tick, recording LAST_STEP, advancing STEPS and returning armed impressions to their sheets. -/
  | stepInstant
  /-- LANE_STEP_APPLY (R184): A lane applies an announced step when its own lane time reaches the step instant. -/
  | laneStepApply (n : LaneId)
  /-- SELECT_WRITE (R192): A write of REG.CFG.SELECT naming the other, LOCKED domain starts a switch. -/
  | selectWrite (w : Writer) (v : Word)
  /-- SWITCH_COMPLETE (R193): A seamless switch's SLEW_REMAIN falls within ±LOCK_NS, and SWITCH_DONE is raised. -/
  | switchComplete
  /-- MODE_WRITE (R194): A write of REG.CFG.MODE changes who disciplines RT and ends any switch slew. -/
  | modeWrite (w : Writer) (v : Word)
  /-- UTC_WRITE (R195): A steward write to REG.UTC in FREE or HOST mode sets the UTC offset and leap flags. -/
  | utcWrite (w : Writer) (v : Word)
  /-- PTP_SYNC_RX (R190): A Sync message is received and used in the domain's offset computation and servo. -/
  | ptpSyncRx (m : PtpMsg)
  /-- PTP_FOLLOW_UP_RX (R186): A Follow_Up message is received and completes a two-step Sync time-stamp. -/
  | ptpFollowUpRx (m : PtpMsg)
  /-- PTP_DELAY_RESP_RX (R188): A Delay_Resp message is received and completes a path-delay measurement. -/
  | ptpDelayRespRx (m : PtpMsg)
  /-- PTP_ANNOUNCE_RX (R195): An Announce message updates the domain's best-master choice and UTC data. -/
  | ptpAnnounceRx (m : PtpMsg)
  /-- PTP_TIMESTAMP_CAPTURE (R189): A start-of-frame delimiter pulse enters Chase's capture interrupt, and RT is captured. -/
  | ptpTimestampCapture (req : Option Bool)
  /-- DELAY_REQ_SEND (R188): The TH16 sends a Delay_Req at the randomised interval the master states. -/
  | delayReqSend (b : Bool) (seq : BitVec 16)
  /-- ANNOUNCE_TIMEOUT (R190): No Announce arrives from the parent for ANN_TIMEOUT intervals, and the domain enters HOLDOVER. -/
  | announceTimeout (b : Bool)
  /-- SYNC_OFFSET_TIMEOUT (R190): No usable offset arrives for 16 Sync intervals, and the domain enters HOLDOVER. -/
  | syncOffsetTimeout (b : Bool)
  /-- HOLDOVER_EXPIRY (R190): A domain has spent HOLDOVER_S in HOLDOVER and goes to FREE. -/
  | holdoverExpiry (b : Bool)
  /-- ETH_LINK_CHANGE (R196): The 100BASE-TX link goes up or down, and LINK_UP or LINK_DOWN is raised. -/
  | ethLinkChange (signal : Bool) (aneg : Bool) (full100 : Bool) (mdix : Bool)
  /-- ARP_RX (R197): An ARP request for the module's IPv4 address is received and answered. -/
  | arpRx (h : EthHead) (sip : Word) (ip : Word)
  /-- ICMP_ECHO (R197): An ICMP echo request to the module's address is answered with at most 64 bytes echoed. -/
  | icmpEcho (h : EthHead) (sip : Word) (ip : Word) (ident : Word) (payload : List Byte) (fragment : Bool)
  /-- ETH_FRAME_DROP (R197): A received frame of no kept type is dropped and counted in RX_DROPPED. -/
  | ethFrameDrop (fcsOk : Bool)
  /-- TRIGGER_FRAME_RX (R223): A trigger frame is accepted, recorded in TRIG_LAST, and acted on by the reaction rules. -/
  | triggerFrameRx (h : EthHead) (body : List Byte)
  /-- LANE_ERR_UPDATE (R199): Every 1 ms, REG.LANE_ERR_n takes the filtered error of lane n's time. -/
  | laneErrUpdate (n : LaneId) (err : BitVec 16)
  /-- IMP_POST (R207): A press that writes a post slot's word 2 posts an impression after its ordered checks. -/
  | impPost (k : SessId) (p : Fin 32) (w0 : Word) (w1 : Word) (w2 : Word) (w3 : Word)
  /-- IMP_DISARM (R224): A write of IMP.DISARM returns every armed impression to its sheet while the feeder is stopped. -/
  | impDisarm (w : Writer)
  /-- IMP_CANCEL (R208): A write of IMP.CANCEL removes every impression with the named TAG from the named sheet. -/
  | impCancel (w : Writer) (v : Word)
  /-- IMP_RUN (R224): A write of IMP PG_CTL.RUN starts or stops the feeder. -/
  | impRun (w : Writer) (v : Word)
  /-- FEEDER_ARM (R209): Once an impression lies within the horizon and has slots and READY lanes, Chase arms it in its comparator slots. -/
  | feederArm (sh : Nat) (m : Nat)
  /-- SMU_STEP (R251): An SMU_STEP launch applies a far-side preset as one write by its poster. -/
  | smuStep (n : LaneId)
  /-- SMU_OFF (R205): An SMU_OFF launch acts as a write of RUN = 0 to the SMU page. -/
  | smuOff (n : LaneId)
  /-- WINDOW_OPEN (R268): A WINDOW_OPEN launch sets the WIN bits of the named chains, and their outputs become slugs. -/
  | windowOpen (n : LaneId)
  /-- WINDOW_CLOSE (R268): A WINDOW_CLOSE launch clears the WIN bits of the named chains. -/
  | windowClose (n : LaneId)
  /-- DIO_SET (R357): A DIO_SET launch changes the masked DIO.OUT levels together. -/
  | dioSet (n : LaneId)
  /-- SYNC_RESET (R215): A SYNC_RESET launch resets the named chains on the grid edge nearest its TIME. -/
  | syncReset (n : LaneId)
  /-- CAN_LAUNCH (R221): A CAN_LAUNCH moves the head frame of a timed launch queue to PENDING. -/
  | canLaunch (n : LaneId)
  /-- USND_SHOT (R282): A USND_SHOT launch starts one ultrasonic pair, or delays it to the end of the pair in progress. -/
  | usndShot (n : LaneId)
  /-- TMR_CTL (R354): A TMR_CTL launch starts or stops the named timers together. -/
  | tmrCtl (n : LaneId)
  /-- MARK (R205): A MARK launch writes an engine-mark slug carrying TAG and ARG to the lane's galley. -/
  | mark (n : LaneId)
  /-- IMP_RING (R205): A RING impression rings its doorbell at launch. -/
  | impRing (m : Nat)
  /-- SYNC_OUT (R219): A SYNC_OUT launch drives SYNC_OUT low, high or into a pulse within ±10 ns of TIME. -/
  | syncOut
  /-- ETH_LAUNCH (R222): An ETH_LAUNCH sends a trigger frame carrying LAUNCH, ISSUED, GROUP and TAG. -/
  | ethLaunch
  /-- IMPRESSION_SKIP (R212): An impression late beyond LATE_TOL under SKIP leaves its sheet unlaunched, and SKIPPED is raised. -/
  | impressionSkip (sh : Nat) (m : Nat)
  /-- IMPRESSION_EXPIRED (R212): An impression not launched 2.000 s after its TIME is skipped as EXPIRED. -/
  | impressionExpired (sh : Nat) (m : Nat)
  /-- LAUNCH_REPORT (R538): The far side's report of a slot launch reaches Chase, which counts it as launched, late, refused or skipped. -/
  | launchReport (n : LaneId)
  /-- SYNC_IN_EDGE (R216): A selected SYNC_IN edge is time-stamped into the 16-entry FIFO, or dropped, and IN_EDGE is raised. -/
  | syncInEdge (rising : Bool)
  /-- IN_RELEASE (R217): A write of k to SYNC.IN_RELEASE releases the k oldest SYNC_IN entries. -/
  | inRelease (w : Writer) (v : Word)
  /-- PPS_PULSE_END (R218): PPS_OUT falls after WIDTH_MS. -/
  | ppsPulseEnd
  /-- SYNC_OUT_PULSE_END (R219): A SYNC_OUT pulse ends after its width and the pin is driven low. -/
  | syncOutPulseEnd
  /-- SMU_START (R239): CMD.START, after its ordered checks, starts an HV cycle from OFF into ARMING. -/
  | smuStart (w : Writer) (n : LaneId)
  /-- SMU_STOP (R241): CMD.STOP ends a cycle through RAMP_DOWN, or through DISCHARGE from ARMING. -/
  | smuStop (w : Writer) (n : LaneId)
  /-- SMU_ABORT (R242): CMD.ABORT ends the cycle with cause 8, reaching DISCHARGE within 10 µs. -/
  | smuAbort (w : Writer) (n : LaneId)
  /-- SMU_MEASURE (R230): CMD.MEASURE starts or restarts one LV result measurement. -/
  | smuMeasure (w : Writer) (n : LaneId)
  /-- AZ_GRANT (R248): CMD.AZ_GRANT runs a due auto-zero at once, and foreground does not abandon the run. -/
  | azGrant (w : Writer) (n : LaneId)
  /-- SMU_CFG_WRITE (R227): A changing write to SMU.CFG sets the mode and range and resets LEVEL, LIMIT, IRANGE and the pass limits. -/
  | smuCfgWrite (w : Writer) (n : LaneId) (v : Word)
  /-- SMU_LEVEL_WRITE (R243): An accepted LEVEL write, clamped by the frisket, retargets a running cycle or triggers an LV measurement. -/
  | smuLevelWrite (w : Writer) (n : LaneId) (v : Word)
  /-- SMU_IRANGE_WRITE (R228): An IRANGE write switches the current range make-before-break and triggers an LV measurement. -/
  | smuIrangeWrite (w : Writer) (n : LaneId) (v : Word)
  /-- SMU_RUN (R229): A write of SMU PG_CTL.RUN closes or opens the LV output switch or enables the HV block. -/
  | smuRun (w : Writer) (n : LaneId) (v : Word)
  /-- HV_ARMING_COMPLETE (R241): The converter is up with the discharge switch open and HW_OFF clear, and the cycle enters RAMP. -/
  | hvArmingComplete (n : LaneId)
  /-- HV_ARMING_TIMEOUT (R241): The converter is not up within 2 ms of ARMING, and the cycle enters DISCHARGE with cause 11. -/
  | hvArmingTimeout (n : LaneId)
  /-- RAMP_TIMEOUT (R241): RAMP fails to reach LEVEL within its time limit, and the cycle ends with cause 11. -/
  | rampTimeout (n : LaneId)
  /-- DWELL_ELAPSED (R241): DWELL_MS elapses, and the cycle enters RAMP_DOWN. -/
  | dwellElapsed (n : LaneId)
  /-- DISCHARGE_FAULT (R246): After 300 ms in DISCHARGE without the output below 30 V, the lane enters SAFE with DISCHARGE_FAIL. -/
  | dischargeFault (n : LaneId)
  /-- SMU_RESULT (R230): An averaging window ends, and RES registers, SEQ, VALID, VERDICT and FLAGS are written with RESULT raised. -/
  | smuResult (n : LaneId) (v : Word) (i : Word) (v2 : Word) (i2 : Word) (stamp : Word)
  /-- COARSE_SAMPLE (R265): A 25 µs coarse block ends, and its sample drives the SMU's coarse judgements and HV transitions. -/
  | coarseSample (n : LaneId) (bv : Nat) (bi : Nat) (ba : Nat)
  /-- ARC_EXCURSION_END (R245): The current stays below ARC_I for 100 µs, which ends the arc excursion. -/
  | arcExcursionEnd (n : LaneId)
  /-- RANGE_CHANGE_END (R228): 1 ms after a range change, slugs and results stop carrying RANGE_CHANGE. -/
  | rangeChangeEnd (n : LaneId)
  /-- AZ_DUE (R247): Auto-zero falls due 60 s after its last run, or after more than 2 °C of change. -/
  | azDue (n : LaneId) (t : BitVec 16)
  /-- AZ_RUN_START (R247): A due auto-zero starts once the SMU is foreground-free with a 5 ms gap ahead. -/
  | azRunStart (n : LaneId)
  /-- AZ_RUN_COMPLETE (R247): A 4 ms auto-zero run completes, and AZ_DONE is raised. -/
  | azRunComplete (n : LaneId) (t : BitVec 16)
  /-- AZ_NOTICE (R248): AZ_NOTICE is raised 1 s before auto-zero has been due for 10 minutes. -/
  | azNotice (n : LaneId)
  /-- AZ_FORCED (R248): After 10 minutes due, auto-zero runs regardless, flagging BACKGROUND_PREEMPTED. -/
  | azForced (n : LaneId)
  /-- CHAIN_OUTPUT (R256): A chain produces one output sample, stamped from the grid, which becomes a slug if its window is open. -/
  | chainOutput (n : LaneId) (c : Fin 4) (bits : Nat)
  /-- CHAIN_RESTART (R270): A chain restarts on its grid edge, clearing its stage states and writing a folio if its window is open. -/
  | chainRestart (n : LaneId) (c : Fin 4)
  /-- CHAIN_CTL_WRITE (R266): A write of CHAIN RUN, EN or WIN starts, stops or windows fine paths after the rate check. -/
  | chainCtlWrite (w : Writer) (n : LaneId) (ctl : Bool) (v : Word)
  /-- CHAIN_TAP_WRITE (R271): A TAP write changes a running chain's tap at the next output instant of the new tap. -/
  | chainTapWrite (w : Writer) (n : LaneId) (v : Word)
  /-- M_SRC_WRITE (R271): A change of M_SRC restarts the M chain on the newly named pod. -/
  | mSrcWrite (w : Writer) (n : LaneId) (v : Word)
  /-- COEF_WRITE (R261): A coefficient window write loads a FIR coefficient and updates the bank's GROWTH. -/
  | coefWrite (w : Writer) (n : LaneId) (i : Fin 64) (v : Word)
  /-- COEF_SEL_WRITE (R262): A COEF_SEL write selects the chain and bank that the coefficient window shows. -/
  | coefSelWrite (w : Writer) (n : LaneId) (v : Word)
  /-- SWAP (R263): A write of 1 to a chain's SWAP bit requests a coefficient bank swap at the next output boundary. -/
  | swap (w : Writer) (n : LaneId) (v : Word)
  /-- USND_RUN (R280): A write of USND RUN, after its checks, starts the unit with an electronic zero before the first pair. -/
  | usndRun (w : Writer) (n : LaneId) (v : Word)
  /-- CADENCE_WRITE (R283): A write of CAD.CADENCE changes the pair cadence after the upstream rate check. -/
  | cadenceWrite (w : Writer) (n : LaneId) (v : Word)
  /-- CADENCE_PAIR_START (R281): A cadence instant arrives and a pair starts with its down shot. -/
  | cadencePairStart (n : LaneId)
  /-- SHOT (R282): CMD.SHOT starts one pair, or delays it to the end of the pair in progress. -/
  | shot (w : Writer) (n : LaneId)
  /-- PAIR_END (R279): A pair's up receive window ends: the pair is checked, Q is computed and its slug is queued. -/
  | pairEnd (n : LaneId) (down : Shot) (up : Shot)
  /-- AUTO_IDLE_RETURN (R281): In AUTO, 2 s without a valid pair above THRESH_OFF returns the unit to idle cadence. -/
  | autoIdleReturn (n : LaneId)
  /-- ZERO (R290): CMD.ZERO starts a true zero over the next ZERO_N valid pairs. -/
  | zero (w : Writer) (n : LaneId)
  /-- RESEED (R286): CMD.RESEED returns the unit to SEEDING. -/
  | reseed (w : Writer) (n : LaneId)
  /-- ZC_GRANT (R292): CMD.ZC_GRANT runs a due electronic zero at the end of the pair in progress. -/
  | zcGrant (w : Writer) (n : LaneId)
  /-- ZC_DUE (R291): The electronic zero falls due 300 s after its last run, or after more than 2 °C of change. -/
  | zcDue (n : LaneId) (t : BitVec 16)
  /-- ZC_RUN_START (R291): A due electronic zero starts once the unit is foreground-free. -/
  | zcRunStart (n : LaneId)
  /-- ZC_RUN_COMPLETE (R291): A 3.2 ms electronic zero completes, writing DT_EL and raising ZC_DONE. -/
  | zcRunComplete (n : LaneId) (dtEl : Int) (t : BitVec 16)
  /-- ZC_NOTICE (R292): ZC_NOTICE is raised 1 s before the electronic zero has been due for 300 s. -/
  | zcNotice (n : LaneId)
  /-- ZC_FORCED (R292): After 300 s due, the electronic zero runs regardless at the end of the pair in progress. -/
  | zcForced (n : LaneId)
  /-- LINE_START (R315): The Duncol line starts: a broadcast EXT UNASSIGN precedes its first census, and present entries become remembered. -/
  | lineStart (n : LaneId)
  /-- CENSUS_DUE (R306): A whole multiple of 250 ms of RT arrives, so a census falls due ahead of every other frame. -/
  | censusDue (n : LaneId)
  /-- ROLLCALL (R307): A ROLLCALL frame reads presence, NEWCOMER and attention slots of every pod. -/
  | rollcall (n : LaneId) (e : Wire)
  /-- TICKS (R308): An EXT TICKS frame collects each present pod's latched tick and fraction. -/
  | ticks (n : LaneId) (turns : List (Nat × BitVec 16 × BitVec 8)) (e : Wire)
  /-- POLL (R316): A POLL frame fetches up to MAX sample records of one stream, with toggle-based retries. -/
  | poll (n : LaneId) (k : Fin 24) (g : Bool) (e : Wire)
  /-- POD_READ (R303): A Duncol READ frame fetches COUNT pod register bytes. -/
  | podRead (n : LaneId) (k : Fin 24) (own : Bool) (e : Wire)
  /-- POD_WRITE (R303): A Duncol WRITE frame sends COUNT bytes to pod registers and returns a STATUS. -/
  | podWrite (n : LaneId) (k : Fin 24) (own : Bool) (e : Wire)
  /-- EVENT (R319): An EVENT frame fetches up to four event records from a pod. -/
  | event (n : LaneId) (k : Fin 24) (e : Wire)
  /-- ATTN (R319): An ATTN frame reads the 24 attention slots. -/
  | attn (n : LaneId) (e : Wire)
  /-- SEARCH (R309): A SEARCH pass isolates the lowest newcomer identity and gives it a short address. -/
  | search (n : LaneId) (e : Wire)
  /-- UNASSIGN (R314): An EXT UNASSIGN frame makes the named pod, or every pod, give up its short address. -/
  | unassign (n : LaneId) (k : Option (Fin 24)) (e : Wire)
  /-- IDENTIFY (R303): An EXT IDENTIFY frame returns a pod's 64-bit identity. -/
  | identify (n : LaneId) (e : Wire)
  /-- POLL_DUE (R316): A stream's POLL_US interval elapses, and a POLL falls due. -/
  | pollDue (n : LaneId) (k : Fin 24) (g : Bool)
  /-- ATTN_DUE (R319): ATTN_US elapses, and an ATTN frame falls due. -/
  | attnDue (n : LaneId)
  /-- REQ_GO (R320): A write of REQ.GO starts a pod READ, WRITE or IDENTIFY request after its checks. -/
  | reqGo (w : Writer) (n : LaneId) (v : Word)
  /-- DUNCOL_DEADLINE (R321): An upper deadline passes, so the lane ends the attempt and its retries with LOWER_ABORTED. -/
  | duncolDeadline (n : LaneId) (job : LineJob) (lateGood : Bool)
  /-- SEARCH_NOTICE (R324): A search due for 1 s raises SEARCH_NOTICE. -/
  | searchNotice (n : LaneId)
  /-- SEARCH_GRANT (R324): CMD.SEARCH_GRANT runs the due search passes back to back. -/
  | searchGrant (w : Writer) (n : LaneId)
  /-- SEARCH_FORCED (R324): A search due for 2 s runs regardless, and SEARCH_PREEMPTS advances. -/
  | searchForced (n : LaneId)
  /-- FORGET (R310): CMD.FORGET empties every remembered BIND entry that is not PINNED. -/
  | forget (w : Writer) (n : LaneId)
  /-- STREAM_WRITE (R318): A STREAM word write, after the load and budget checks, changes an address's streams and writes the new rate to the pod. -/
  | streamWrite (w : Writer) (n : LaneId) (k : Fin 24) (v : Word)
  /-- LINE_FAULT_RECOVERY (R327): DL stays high for 10 ms after a stuck line, and the line restarts. -/
  | lineFaultRecovery (n : LaneId)
  /-- DP_FAULT (R298): DP enters current limit, so DP_FAULT reads 1 and LINE_FAULT is raised. -/
  | dpFault (n : LaneId)
  /-- POD_JOIN (R312): A newly powered pod has seen two complete frames and joins the line as a newcomer. -/
  | podJoin (n : LaneId) (p : Fin 24)
  /-- POD_ADDRESS_TIMEOUT (R312): A pod that has seen no correct ROLLCALL for 2 s loses its short address. -/
  | podAddressTimeout (n : LaneId) (p : Fin 24)
  /-- POD_POWER_UP (R335): A pod powers up and loads its stored profile, with the capture IDLE. -/
  | podPowerUp (n : LaneId) (p : Fin 24) (id : BitVec 64) (fw : Byte) (fail : Bool)
  /-- POD_INTERNAL_SAMPLE (R341): On each 156.25 µs internal sample, the pod updates its recognisers, machines and capture. -/
  | podInternalSample (n : LaneId) (p : Fin 24) (tick : BitVec 16) (x : BitVec 16) (y : BitVec 16) (z : BitVec 16) (gyro : Option (BitVec 16 × BitVec 16 × BitVec 16)) (recA : Option PodRec) (recG : Option PodRec)
  /-- POD_WRITE_APPLY (R333): A checked pod WRITE is applied whole at the first internal sample after its command CRC. -/
  | podWriteApply (n : LaneId) (p : Fin 24)
  /-- SAVE (R335): CTRL.SAVE begins an atomic store of the pod profile into non-volatile memory. -/
  | save (n : LaneId) (p : Fin 24)
  /-- SAVE_COMPLETE (R335): A profile store completes, and writes stop returning BUSY. -/
  | saveComplete (n : LaneId) (p : Fin 24)
  /-- DEFAULTS (R353): CTRL.DEFAULTS loads the factory values of every profile field. -/
  | defaults (n : LaneId) (p : Fin 24)
  /-- CAP_ARM (R348): CTRL.CAP_ARM arms the capture from IDLE. -/
  | capArm (n : LaneId) (p : Fin 24)
  /-- CAP_RELEASE (R348): CTRL.CAP_RELEASE returns the capture to IDLE from any state. -/
  | capRelease (n : LaneId) (p : Fin 24)
  /-- TILT_REF (R343): CTRL.TILT_REF copies g_est into the TILT reference. -/
  | tiltRef (n : LaneId) (p : Fin 24)
  /-- GYRO_LOST (R332): DP is lost on an M6, so the gyroscope stops and GYRO_LOST is queued. -/
  | gyroLost (n : LaneId) (p : Fin 24) (tick : BitVec 16)
  /-- GYRO_READY (R332): Within 100 ms of DP returning, the gyroscope runs and GYRO_READY is queued. -/
  | gyroReady (n : LaneId) (p : Fin 24) (tick : BitVec 16)
  /-- SM_TIMEOUT (R345): A machine away from state 0 beyond SM_TIMEOUT returns to state 0 and clears its signal. -/
  | smTimeout (n : LaneId) (p : Fin 24) (m : Fin 4)
  /-- TIMER_START (R354): A 1 in TMR.START loads a timer's counter with 0 and starts it. -/
  | timerStart (w : Writer) (n : LaneId) (m : BitVec 4)
  /-- TIMER_STOP (R354): A 1 in TMR.STOP halts a timer and holds its count. -/
  | timerStop (w : Writer) (n : LaneId) (m : BitVec 4)
  /-- TIMER_RELOAD (R355): A timer reaches TOP or wraps, so it reloads, may emit its cue, may end a ONE_SHOT and takes buffered TOP and CMP. -/
  | timerReload (n : LaneId) (t : Fin 4)
  /-- COMPARE_MATCH (R355): A timer's count matches CMP, which toggles or changes OUT and may emit a cue. -/
  | compareMatch (n : LaneId) (t : Fin 4)
  /-- CAPTURE_LEADING_EDGE (R358): A filtered leading edge completes a capture period and may write a capture slug. -/
  | captureLeadingEdge (n : LaneId) (t : Fin 4)
  /-- CAPTURE_TRAILING_EDGE (R358): The first filtered trailing edge of a period records its WIDTH count. -/
  | captureTrailingEdge (n : LaneId) (t : Fin 4)
  /-- DIO_EDGE (R367): A filtered DIO edge updates DIO.IN, sets EDGE_SEEN if enabled and drives followed cues. -/
  | dioEdge (n : LaneId) (p : Fin 8) (rising : Bool)
  /-- DIO_OVERCURRENT (R366): A pin current above 150 mA for 10 µs releases the pin, sets DIO.FAULT and raises DIO_FAULT. -/
  | dioOvercurrent (n : LaneId) (p : Fin 8)
  /-- DIO_FAULT_CLEAR (R366): A W1C write to DIO.FAULT returns a released pin to its source. -/
  | dioFaultClear (w : Writer) (n : LaneId) (v : Word) (proof : Word)
  /-- TIMER_FREEZE (R363): Within 25 µs of a compositor halt, timers with FREEZE_ON_HALT freeze. -/
  | timerFreeze (n : LaneId)
  /-- TIMER_UNFREEZE (R363): Within 25 µs of the compositor leaving its halt, frozen timers resume. -/
  | timerUnfreeze (n : LaneId)
  /-- CAN_RUN (R371): A write of CAN RUN puts the controller onto the bus or takes it off after the current frame. -/
  | canRun (w : Writer) (n : LaneId) (v : Word)
  /-- CAN_INTEGRATION (R371): After 11 consecutive recessive bits, the controller enters ERROR_ACTIVE. -/
  | canIntegration (n : LaneId)
  /-- TXB_REQ (R372): A 1 in TXB_REQ, after the checks and budget, makes a buffer PENDING or QUEUED. -/
  | txbReq (w : Writer) (n : LaneId) (v : Word)
  /-- TXB_CANCEL (R379): A 1 in TXB_CANCEL removes a queued or pending buffer, or stops its retransmission. -/
  | txbCancel (w : Writer) (n : LaneId) (v : Word)
  /-- CAN_ATTEMPT_START (R373): At an arbitration opportunity, the controller offers the winning PENDING buffer and starts an attempt. -/
  | canAttemptStart (n : LaneId)
  /-- CAN_ATTEMPT_END (R375): A transmission attempt ends in success or error, which sets SENT, a retransmission or RETRY_EXHAUSTED. -/
  | canAttemptEnd (n : LaneId) (ok : Bool) (lec : BitVec 3) (dataPhase : Bool)
  /-- CAN_DEADLINE (R376): A frame can no longer start an attempt before its deadline and is withdrawn with LOWER_ABORTED. -/
  | canDeadline (n : LaneId) (b : Fin 32)
  /-- CAN_FRAME_RX (R380): A frame received without error is filtered, stamped and stored in the FIFO or galley. -/
  | canFrameRx (n : LaneId) (hdr0 : Word) (dlc : BitVec 4) (rtr : Bool) (esi : Bool) (data : List Byte) (stamp : Word)
  /-- RX_RELEASE (R381): A write of k to RX_RELEASE releases the k oldest receive FIFO entries. -/
  | rxRelease (w : Writer) (n : LaneId) (v : Word)
  /-- BUSOFF_DELAY_EXPIRY (R383): BUSOFF_DELAY_MS after bus-off with BUSOFF_AUTO set, the recovery sequence starts. -/
  | busoffDelayExpiry (n : LaneId)
  /-- RECOVER (R383): CMD.RECOVER starts bus-off recovery. -/
  | recover (w : Writer) (n : LaneId)
  /-- RECOVERY_COMPLETE (R383): 128 occurrences of 11 recessive bits complete recovery: TEC and REC reset to 0, ERROR_ACTIVE, BUS_ON raised. -/
  | recoveryComplete (n : LaneId)
  /-- ADDI (R396): The ADDI instruction adds a sign-extended immediate to rs1. -/
  | addi (n : LaneId) (rd : BitVec 5) (rs1 : BitVec 5) (imm : BitVec 16)
  /-- ANDI (R396): The ANDI instruction ANDs rs1 with a zero-extended immediate. -/
  | andi (n : LaneId) (rd : BitVec 5) (rs1 : BitVec 5) (imm : BitVec 16)
  /-- ORI (R396): The ORI instruction ORs rs1 with a zero-extended immediate. -/
  | ori (n : LaneId) (rd : BitVec 5) (rs1 : BitVec 5) (imm : BitVec 16)
  /-- XORI (R396): The XORI instruction XORs rs1 with a zero-extended immediate. -/
  | xori (n : LaneId) (rd : BitVec 5) (rs1 : BitVec 5) (imm : BitVec 16)
  /-- SLTI (R396): The SLTI instruction sets rd to 1 if rs1 is less than the signed immediate. -/
  | slti (n : LaneId) (rd : BitVec 5) (rs1 : BitVec 5) (imm : BitVec 16)
  /-- SLTIU (R396): The SLTIU instruction sets rd to 1 if rs1 is less than the immediate, unsigned. -/
  | sltiu (n : LaneId) (rd : BitVec 5) (rs1 : BitVec 5) (imm : BitVec 16)
  /-- LUI (R396): The LUI instruction loads the immediate into the upper half of rd. -/
  | lui (n : LaneId) (rd : BitVec 5) (imm : BitVec 16)
  /-- LW (R388): The LW instruction loads a word from memory or register space. -/
  | lw (n : LaneId) (rd : BitVec 5) (rs1 : BitVec 5) (imm : BitVec 16)
  /-- LH (R396): The LH instruction loads a sign-extended halfword. -/
  | lh (n : LaneId) (rd : BitVec 5) (rs1 : BitVec 5) (imm : BitVec 16)
  /-- LHU (R396): The LHU instruction loads a zero-extended halfword. -/
  | lhu (n : LaneId) (rd : BitVec 5) (rs1 : BitVec 5) (imm : BitVec 16)
  /-- LB (R396): The LB instruction loads a sign-extended byte. -/
  | lb (n : LaneId) (rd : BitVec 5) (rs1 : BitVec 5) (imm : BitVec 16)
  /-- LBU (R396): The LBU instruction loads a zero-extended byte. -/
  | lbu (n : LaneId) (rd : BitVec 5) (rs1 : BitVec 5) (imm : BitVec 16)
  /-- SW (R388): The SW instruction stores a word to memory, or makes a single engine write to register space. -/
  | sw (n : LaneId) (rs2 : BitVec 5) (rs1 : BitVec 5) (imm : BitVec 16)
  /-- SH (R396): The SH instruction stores a halfword. -/
  | sh (n : LaneId) (rs2 : BitVec 5) (rs1 : BitVec 5) (imm : BitVec 16)
  /-- SB (R396): The SB instruction stores a byte. -/
  | sb (n : LaneId) (rs2 : BitVec 5) (rs1 : BitVec 5) (imm : BitVec 16)
  /-- BEQ (R396): The BEQ instruction branches if rs1 equals rs2. -/
  | beq (n : LaneId) (rs1 : BitVec 5) (rs2 : BitVec 5) (off : BitVec 16)
  /-- BNE (R396): The BNE instruction branches if rs1 differs from rs2. -/
  | bne (n : LaneId) (rs1 : BitVec 5) (rs2 : BitVec 5) (off : BitVec 16)
  /-- BLT (R396): The BLT instruction branches if rs1 is less than rs2, signed. -/
  | blt (n : LaneId) (rs1 : BitVec 5) (rs2 : BitVec 5) (off : BitVec 16)
  /-- BGE (R396): The BGE instruction branches if rs1 is at least rs2, signed. -/
  | bge (n : LaneId) (rs1 : BitVec 5) (rs2 : BitVec 5) (off : BitVec 16)
  /-- BLTU (R396): The BLTU instruction branches if rs1 is less than rs2, unsigned. -/
  | bltu (n : LaneId) (rs1 : BitVec 5) (rs2 : BitVec 5) (off : BitVec 16)
  /-- BGEU (R396): The BGEU instruction branches if rs1 is at least rs2, unsigned. -/
  | bgeu (n : LaneId) (rs1 : BitVec 5) (rs2 : BitVec 5) (off : BitVec 16)
  /-- JMP (R396): The JMP instruction jumps to a PC-relative target. -/
  | jmp (n : LaneId) (off : BitVec 26)
  /-- CALLW (R398): The CALLW instruction advances the window, passes b0 to b3 as arguments and calls the target, or overflows. -/
  | callw (n : LaneId) (off : BitVec 26)
  /-- JR (R396): The JR instruction jumps to rs1 plus an offset. -/
  | jr (n : LaneId) (rs1 : BitVec 5) (imm : BitVec 16)
  /-- CALLWR (R398): The CALLWR instruction is CALLW to a register-computed target. -/
  | callwr (n : LaneId) (rs1 : BitVec 5) (imm : BitVec 16)
  /-- RETW (R398): The RETW instruction returns results to the caller's window and restores CWP, or underflows. -/
  | retw (n : LaneId)
  /-- RDS (R391): The RDS instruction reads a special register. -/
  | rds (n : LaneId) (rd : BitVec 5) (sr : BitVec 12)
  /-- WRS (R391): The WRS instruction writes a special register with no row of its own. -/
  | wrs (n : LaneId) (sr : BitVec 12) (rs1 : BitVec 5)
  /-- ENGINE_RING (R402): The RING instruction rings a doorbell, or records RANGE or RIGHTS in EVG.PG_ERR. -/
  | engineRing (n : LaneId) (rs1 : BitVec 5) (imm : BitVec 16)
  /-- TAKEQ (R401): The TAKEQ instruction takes a quoin as the engine, waiting up to imm µs. -/
  | takeq (n : LaneId) (rd : BitVec 5) (rs1 : BitVec 5) (imm : BitVec 16)
  /-- TRAP (R396): The TRAP instruction raises cause 0x0D with TVAL set to its immediate. -/
  | trap (n : LaneId) (imm : BitVec 16)
  /-- ADD (R396): The ADD instruction adds rs1 and rs2. -/
  | addR (n : LaneId) (rd : BitVec 5) (rs1 : BitVec 5) (rs2 : BitVec 5)
  /-- SUB (R396): The SUB instruction subtracts rs2 from rs1. -/
  | subR (n : LaneId) (rd : BitVec 5) (rs1 : BitVec 5) (rs2 : BitVec 5)
  /-- AND (R396): The AND instruction ANDs rs1 and rs2. -/
  | andR (n : LaneId) (rd : BitVec 5) (rs1 : BitVec 5) (rs2 : BitVec 5)
  /-- OR (R396): The OR instruction ORs rs1 and rs2. -/
  | orR (n : LaneId) (rd : BitVec 5) (rs1 : BitVec 5) (rs2 : BitVec 5)
  /-- XOR (R396): The XOR instruction XORs rs1 and rs2. -/
  | xorR (n : LaneId) (rd : BitVec 5) (rs1 : BitVec 5) (rs2 : BitVec 5)
  /-- SLL (R396): The SLL instruction shifts rs1 left by rs2. -/
  | sll (n : LaneId) (rd : BitVec 5) (rs1 : BitVec 5) (rs2 : BitVec 5)
  /-- SRL (R396): The SRL instruction shifts rs1 right logically by rs2. -/
  | srl (n : LaneId) (rd : BitVec 5) (rs1 : BitVec 5) (rs2 : BitVec 5)
  /-- SRA (R396): The SRA instruction shifts rs1 right arithmetically by rs2. -/
  | sra (n : LaneId) (rd : BitVec 5) (rs1 : BitVec 5) (rs2 : BitVec 5)
  /-- SLT (R396): The SLT instruction sets rd if rs1 is less than rs2, signed. -/
  | slt (n : LaneId) (rd : BitVec 5) (rs1 : BitVec 5) (rs2 : BitVec 5)
  /-- SLTU (R396): The SLTU instruction sets rd if rs1 is less than rs2, unsigned. -/
  | sltu (n : LaneId) (rd : BitVec 5) (rs1 : BitVec 5) (rs2 : BitVec 5)
  /-- MUL (R396): The MUL instruction gives the low 32 bits of rs1 × rs2. -/
  | mul (n : LaneId) (rd : BitVec 5) (rs1 : BitVec 5) (rs2 : BitVec 5)
  /-- MULH (R396): The MULH instruction gives the high 32 bits of the signed product. -/
  | mulh (n : LaneId) (rd : BitVec 5) (rs1 : BitVec 5) (rs2 : BitVec 5)
  /-- MULHU (R396): The MULHU instruction gives the high 32 bits of the unsigned product. -/
  | mulhu (n : LaneId) (rd : BitVec 5) (rs1 : BitVec 5) (rs2 : BitVec 5)
  /-- DIV (R397): The DIV instruction divides signed, trapping on a zero divisor. -/
  | div (n : LaneId) (rd : BitVec 5) (rs1 : BitVec 5) (rs2 : BitVec 5)
  /-- DIVU (R397): The DIVU instruction divides unsigned, trapping on a zero divisor. -/
  | divu (n : LaneId) (rd : BitVec 5) (rs1 : BitVec 5) (rs2 : BitVec 5)
  /-- REM (R397): The REM instruction gives the signed remainder, trapping on a zero divisor. -/
  | rem (n : LaneId) (rd : BitVec 5) (rs1 : BitVec 5) (rs2 : BitVec 5)
  /-- REMU (R397): The REMU instruction gives the unsigned remainder, trapping on a zero divisor. -/
  | remu (n : LaneId) (rd : BitVec 5) (rs1 : BitVec 5) (rs2 : BitVec 5)
  /-- SLLI (R396): The SLLI instruction shifts left by an immediate amount. -/
  | slli (n : LaneId) (rd : BitVec 5) (rs1 : BitVec 5) (sh : BitVec 5)
  /-- SRLI (R396): The SRLI instruction shifts right logically by an immediate amount. -/
  | srli (n : LaneId) (rd : BitVec 5) (rs1 : BitVec 5) (sh : BitVec 5)
  /-- SRAI (R396): The SRAI instruction shifts right arithmetically by an immediate amount. -/
  | srai (n : LaneId) (rd : BitVec 5) (rs1 : BitVec 5) (sh : BitVec 5)
  /-- CLZ (R396): The CLZ instruction counts the leading zeros of rs1. -/
  | clz (n : LaneId) (rd : BitVec 5) (rs1 : BitVec 5)
  /-- FADD (R397): The FADD instruction adds two binary32 values. -/
  | fadd (n : LaneId) (rd : BitVec 5) (rs1 : BitVec 5) (rs2 : BitVec 5)
  /-- FSUB (R397): The FSUB instruction subtracts two binary32 values. -/
  | fsub (n : LaneId) (rd : BitVec 5) (rs1 : BitVec 5) (rs2 : BitVec 5)
  /-- FMUL (R397): The FMUL instruction multiplies two binary32 values. -/
  | fmul (n : LaneId) (rd : BitVec 5) (rs1 : BitVec 5) (rs2 : BitVec 5)
  /-- FDIV (R397): The FDIV instruction divides two binary32 values. -/
  | fdiv (n : LaneId) (rd : BitVec 5) (rs1 : BitVec 5) (rs2 : BitVec 5)
  /-- FMIN (R396): The FMIN instruction gives the smaller binary32 value. -/
  | fmin (n : LaneId) (rd : BitVec 5) (rs1 : BitVec 5) (rs2 : BitVec 5)
  /-- FMAX (R396): The FMAX instruction gives the larger binary32 value. -/
  | fmax (n : LaneId) (rd : BitVec 5) (rs1 : BitVec 5) (rs2 : BitVec 5)
  /-- FEQ (R396): The FEQ instruction compares binary32 values for equality. -/
  | feq (n : LaneId) (rd : BitVec 5) (rs1 : BitVec 5) (rs2 : BitVec 5)
  /-- FLT (R396): The FLT instruction compares binary32 values for less-than. -/
  | flt (n : LaneId) (rd : BitVec 5) (rs1 : BitVec 5) (rs2 : BitVec 5)
  /-- FLE (R396): The FLE instruction compares binary32 values for less-or-equal. -/
  | fle (n : LaneId) (rd : BitVec 5) (rs1 : BitVec 5) (rs2 : BitVec 5)
  /-- FCVTSW (R396): The FCVTSW instruction converts a signed integer to binary32. -/
  | fcvtsw (n : LaneId) (rd : BitVec 5) (rs1 : BitVec 5)
  /-- FCVTWS (R396): The FCVTWS instruction converts binary32 to a saturated signed integer. -/
  | fcvtws (n : LaneId) (rd : BitVec 5) (rs1 : BitVec 5)
  /-- FSQRT (R397): The FSQRT instruction gives the binary32 square root. -/
  | fsqrt (n : LaneId) (rd : BitVec 5) (rs1 : BitVec 5)
  /-- IDLE (R400): The IDLE instruction waits until a deliverable source, trap or debug halt ends it. -/
  | idle (n : LaneId)
  /-- RTT (R418): The RTT instruction returns from a trap, or takes a pending asynchronous trap in place of the return. -/
  | rtt (n : LaneId)
  /-- SPILLW (R399): The SPILLW instruction stores the oldest window to the spill stack, or to the shelf on a fault, or drains the shelf. -/
  | spillw (n : LaneId)
  /-- FILLW (R399): The FILLW instruction reloads a window from the spill stack or the shelf. -/
  | fillw (n : LaneId)
  /-- FENCE (R404): The FENCE instruction completes once every earlier store is in its region. -/
  | fence (n : LaneId)
  /-- BRK (R410): The BRK instruction halts an attached user engine with DEBUG. -/
  | brk (n : LaneId)
  /-- TLBI (R433): The TLBI instruction invalidates one page's translation in both TLBs. -/
  | tlbi (n : LaneId) (rs1 : BitVec 5)
  /-- TLBIA (R433): The TLBIA instruction invalidates every translation. -/
  | tlbia (n : LaneId)
  /-- MOVB (R405): The MOVB instruction copies bytes in restartable units. -/
  | movb (n : LaneId) (rd : BitVec 5) (rs1 : BitVec 5) (rs2 : BitVec 5)
  /-- GIVEQ (R401): The GIVEQ instruction gives a quoin as the engine. -/
  | giveq (n : LaneId) (rd : BitVec 5) (rs1 : BitVec 5)
  /-- GIVEQ_G (R401): The GIVEQ.G instruction gives a quoin only if its generation matches. -/
  | giveqG (n : LaneId) (rd : BitVec 5) (rs1 : BitVec 5) (rs2 : BitVec 5)
  /-- CLRQ (R401): The CLRQ instruction clears a held quoin's BROKEN flag. -/
  | clrq (n : LaneId) (rd : BitVec 5) (rs1 : BitVec 5)
  /-- CLRQ_G (R401): The CLRQ.G instruction clears BROKEN only if the generation matches. -/
  | clrqG (n : LaneId) (rd : BitVec 5) (rs1 : BitVec 5) (rs2 : BitVec 5)
  /-- SWAPW (R404): The SWAPW instruction atomically swaps a memory word with rs2. -/
  | swapw (n : LaneId) (rd : BitVec 5) (rs1 : BitVec 5) (rs2 : BitVec 5)
  /-- CASW (R404): The CASW instruction atomically compares a memory word with rd and swaps it for rs2 on a match. -/
  | casw (n : LaneId) (rd : BitVec 5) (rs1 : BitVec 5) (rs2 : BitVec 5)
  /-- POST (R403): The POST instruction posts POST0 to POST3 to the lane sheet and stalls until Chase answers. -/
  | post (n : LaneId) (rd : BitVec 5)
  /-- PCANCEL (R403): The PCANCEL instruction cancels a TAG on the lane's own sheet. -/
  | pcancel (n : LaneId) (rd : BitVec 5)
  /-- EVCLAIM (R166): A WRS to EVCLAIM claims a source at the compositor's target. -/
  | evclaim (n : LaneId) (rs1 : BitVec 5)
  /-- EVDONE (R166): A WRS to EVDONE completes a source at the compositor's target and re-samples it. -/
  | evdone (n : LaneId) (rs1 : BitVec 5)
  /-- EVENTRY_WRITE (R161): A monitor WRS to EVENTRY writes the source entry named by EVSEL. -/
  | eventryWrite (n : LaneId) (rs1 : BitVec 5)
  /-- SET_EN (R391): An EVCTL write with SET_EN enables the source named by EVSEL. -/
  | setEn (n : LaneId) (rs1 : BitVec 5)
  /-- CLR_EN (R391): An EVCTL write with CLR_EN disables the source named by EVSEL. -/
  | clrEn (n : LaneId) (rs1 : BitVec 5)
  /-- SET_PEND (R391): An EVCTL write with SET_PEND counts an occurrence of the source named by EVSEL. -/
  | setPend (n : LaneId) (rs1 : BitVec 5)
  /-- CLR_PEND (R391): An EVCTL write with CLR_PEND withdraws the source named by EVSEL. -/
  | clrPend (n : LaneId) (rs1 : BitVec 5)
  /-- RT_LO_CAPTURE (R392): A read of RT_LO captures RT_HI and WRAP_PENDING in the same step. -/
  | rtLoCapture (n : LaneId) (rd : BitVec 5)
  /-- TRAP_ENTRY (R415): A pending asynchronous trap or interrupt is taken at a pre-emption point through the 4-cycle entry. -/
  | trapEntry (n : LaneId)
  /-- CHASE_HALT_RESPONSE (R427): Chase, told of a fatal halt, logs it, aborts the SMU cycle and applies HALT_POLICY. -/
  | chaseHaltResponse (n : LaneId)
  /-- HALT_POLICY_RESET (R427): 10 ms after a fatal halt under HALT_POLICY RESET, an engine reset is performed. -/
  | haltPolicyReset (n : LaneId)
  /-- DBG_HALT (R407): A write of DBG.HALT halts the engine at its next user instruction boundary. -/
  | dbgHalt (w : Writer) (n : LaneId)
  /-- DBG_RESUME (R408): A write of DBG.RESUME continues a DEBUG-halted engine from PC. -/
  | dbgResume (w : Writer) (n : LaneId)
  /-- DBG_STEP (R408): A write of DBG.STEP executes one user instruction and halts again with STEP_DONE. -/
  | dbgStep (w : Writer) (n : LaneId)
  /-- BP_HIT (R409): An enabled breakpoint address is reached with ATTACH set, so the engine halts with DEBUG. -/
  | bpHit (n : LaneId)
  /-- REGVAL_WRITE (R411): A REGVAL write sets the register that REGSEL names in a DEBUG-halted engine. -/
  | regvalWrite (w : Writer) (n : LaneId) (v : Word)
  /-- D1_DESCRIPTOR_START (R434): D1 takes the valid descriptor at HEAD and starts its copy. -/
  | d1DescriptorStart (n : LaneId)
  /-- D1_BURST (R435): D1 copies one burst of at most 64 bytes, or faults and leaves it undone. -/
  | d1Burst (n : LaneId)
  /-- D1_DESCRIPTOR_END (R434): A descriptor ends, its status is written back, HEAD advances and D1_DONE may be raised. -/
  | d1DescriptorEnd (n : LaneId)
  /-- D1_KICK (R434): A write of D1_CTL.KICK restarts an idle D1 on its ring. -/
  | d1Kick (w : Writer) (n : LaneId)
  /-- D1_RESUME (R435): A write of D1_CTL.RESUME restarts a faulted D1 at its CUR registers. -/
  | d1Resume (w : Writer) (n : LaneId)
  /-- D1_ABORT (R435): A write of D1_CTL.ABORT ends the faulted descriptor as ABORTED. -/
  | d1Abort (w : Writer) (n : LaneId)
  /-- D0_SLUG_WRITE (R436): D0 writes a waiting slug into the galley and advances WCOUNT, or faults. -/
  | d0SlugWrite (n : LaneId)
  /-- D0_RESUME (R437): A write of D0_CTL.RESUME makes D0 write the faulted slug again. -/
  | d0Resume (w : Writer) (n : LaneId)
  /-- GAL_RELEASE (R442): A write to GAL_RELEASE advances RCOUNT to the named position. -/
  | galRelease (w : Writer) (n : LaneId) (v : Word)
  /-- GAL_RUN (R438): A write of GAL_CTL.RUN starts the galley, empties it and writes a START folio. -/
  | galRun (w : Writer) (n : LaneId) (v : Word)
  /-- SVC_GO (R448): A session's SVC_GO write places a service request in its mailbox, which becomes BUSY. -/
  | svcGo (k : SessId) (v : Word)
  /-- MONITOR_SVC_GO (R447): A monitor-privilege store to the mailbox GO word starts a lane monitor's service request. -/
  | monitorSvcGo (n : LaneId) (v : Word)
  /-- PROGRAM_LOAD (R456): Chase checks a signed program container and loads it into a lane. -/
  | programLoad
  /-- FRISKET_REQUEST (R460): Chase replaces the requester's grant with the requested frisket, clamped to the ceiling. -/
  | frisketRequest
  /-- FRISKET_RELEASE (R462): Chase ends the requester's frisket grant on a lane. -/
  | frisketRelease
  /-- CAL_WRITE (R469): Chase checks, stores and sends a lane calibration record. -/
  | calWrite (ok : Bool)
  /-- IMAGE_WRITE (R451): Chase verifies a staged image and writes it to the slot that did not boot. -/
  | imageWrite (ok : Bool)
  /-- ROLLBACK_ADVANCE (R452): Chase advances the one-time-programmable anti-rollback counter. -/
  | rollbackAdvance
  /-- LOG_NOTE (R448): Chase writes a NOTE colophon entry carrying 28 bytes of detail. -/
  | logNote
  /-- PROGRAM_END (R457): Chase stops the program normally with an engine reset and ends its grant. -/
  | programEnd
  /-- ENGINE_END (R457): Chase stops the program with a fault record and an engine reset. -/
  | engineEnd
  /-- PKEY_LOAD (R453): A steward PKEY_CTL write with LOAD installs a program-signing key in a slot. -/
  | pkeyLoad (w : Writer) (words : List Word) (v : Word)
  /-- PKEY_ERASE (R453): A steward PKEY_CTL write with ERASE erases a program-signing key slot. -/
  | pkeyErase (w : Writer) (v : Word)
  /-- CEILING_WRITE (R459): A steward ceiling write sets a lane's frisket ceiling and lowers its grants at once. -/
  | ceilingWrite (w : Writer) (n : LaneId) (i : Fin 3) (v : Word)
  /-- GRANT_EXPIRY (R462): A grant's DURATION_S ends, so the grant ends and FRISKET_END is raised. -/
  | grantExpiry (h : Nat) (n : LaneId)
  /-- CALENDAR_SECOND (R471): At each calendar second, Chase evaluates expiry, due-soon, alarm, leap seconds and the source. -/
  | calendarSecond
  /-- CAL_SET (R465): A write of CAL.CMD.SET sets the island clock to SET_DATE and SET_TIME. -/
  | calSet (w : Writer)
  /-- LOG_ENTRY (R474): An entry is offered to the colophon log and is written to its region, or metered and dropped. -/
  | logEntry (code : BitVec 12) (lane : BitVec 8) (origin : BitVec 8) (detail : List Word)
  /-- TOKEN_REFILL (R474): The log meter's bucket gains a token at 20 tokens per second. -/
  | tokenRefill
  /-- LOG_ERASE_START (R475): The erase of the sector ahead starts or resumes in a gap. -/
  | logEraseStart
  /-- LOG_ERASE_COMPLETE (R475): The erase of the next log sector completes. -/
  | logEraseComplete
  /-- WEAR_NOTICE (R475): WEAR_NOTICE is raised 1 s before the erase has been due for 5 s. -/
  | wearNotice
  /-- WEAR_GRANT (R475): CMD.WEAR_GRANT lets the erase run unsuspended at once. -/
  | wearGrant (w : Writer)
  /-- WEAR_FORCED (R475): After 5 s due, the erase runs unsuspended for up to 60 ms. -/
  | wearForced
  /-- CLEAR_FAULT (R473): A steward keyed CLEAR_FAULT empties the fault region. -/
  | clearFault (w : Writer) (key : BitVec 16)
  /-- CLEAR_GENERAL (R474): A steward keyed CLEAR_GENERAL empties the general region. -/
  | clearGeneral (w : Writer) (key : BitVec 16)
  /-- LOG_FETCH (R476): A write of RD_INDEX_LO starts a fetch of one log entry. -/
  | logFetch (k : SessId) (v : Word)
  /-- LOG_FETCH_COMPLETE (R476): Within 200 µs the fetched entry is shown, with RD_STAT reading READY or GONE. -/
  | logFetchComplete (k : SessId)
  /-- SB_NOP (R482): The side-band NOP command does nothing and answers OK. -/
  | sbNop (p : Byte) (arg : BitVec 16)
  /-- SB_STATUS (R482): The side-band STATUS command returns the status word that P selects. -/
  | sbStatus (p : Byte) (arg : BitVec 16)
  /-- SB_WAKE (R28): The side-band WAKE command makes the module leave DORMANT. -/
  | sbWake (p : Byte) (arg : BitVec 16)
  /-- SB_RING (R485): The side-band RING command rings a module doorbell, or in DORMANT checks it against the night-watch copy. -/
  | sbRing (p : Byte) (arg : BitVec 16)
  /-- SB_FORME_RESET (R63): The side-band FORME_RESET command performs a plane reset. -/
  | sbFormeReset (p : Byte) (arg : BitVec 16)
  /-- SB_CAL_READ (R486): The side-band CAL_READ command snapshots and returns part of the calendar. -/
  | sbCalRead (p : Byte) (arg : BitVec 16)
  /-- SB_SHELF_READ (R482): The side-band SHELF_READ command loads a fault-shelf record into the out-buffer. -/
  | sbShelfRead (p : Byte) (arg : BitVec 16)
  /-- SB_LOG_READ (R487): The side-band LOG_READ command loads a colophon entry into the out-buffer. -/
  | sbLogRead (p : Byte) (arg : BitVec 16)
  /-- SB_ALERT_CLEAR (R493): The side-band ALERT_CLEAR command clears the named pending alert causes. -/
  | sbAlertClear (p : Byte) (arg : BitVec 16)
  /-- SB_SET_CFG (R488): The side-band SET_CFG command writes the alert mask, PEC mode and sleep mode. -/
  | sbSetCfg (p : Byte) (arg : BitVec 16)
  /-- SB_DATA_WR (R481): The side-band DATA_WR command writes one halfword of the in-buffer. -/
  | sbDataWr (p : Byte) (arg : BitVec 16)
  /-- SB_DATA_RD (R481): The side-band DATA_RD command returns one halfword of the out-buffer. -/
  | sbDataRd (p : Byte) (arg : BitVec 16)
  /-- SB_BUF_CLEAR (R481): The side-band BUF_CLEAR command zeroes both buffers. -/
  | sbBufClear (p : Byte) (arg : BitVec 16)
  /-- SB_CHALLENGE (R483): The side-band CHALLENGE command loads the side-band challenge into the out-buffer. -/
  | sbChallenge (p : Byte) (arg : BitVec 16)
  /-- SB_STEWARD_KEY_INSTALL (R483): STEWARD_KEY with P = 0 installs a steward key, with a proof once a key exists. -/
  | sbStewardKeyInstall (arg : BitVec 16)
  /-- SB_STEWARD_KEY_ERASE (R483): STEWARD_KEY with P = 1 erases the steward key on a valid proof. -/
  | sbStewardKeyErase (arg : BitVec 16)
  /-- SB_IMAGE_BEGIN (R484): In NO_IMAGE, the side-band IMAGE_BEGIN command erases an image slot. -/
  | sbImageBegin (p : Byte) (arg : BitVec 16)
  /-- SB_IMAGE_CHUNK (R484): In NO_IMAGE, the side-band IMAGE_CHUNK command writes the in-buffer into a slot. -/
  | sbImageChunk (p : Byte) (arg : BitVec 16) (ok : Bool)
  /-- SB_IMAGE_END (R484): In NO_IMAGE, the side-band IMAGE_END command verifies the written slot. -/
  | sbImageEnd (p : Byte) (arg : BitVec 16)
  /-- SB_PREPARE_RETURN (R514): The side-band PREPARE_RETURN command freezes the log and builds the return record. -/
  | sbPrepareReturn (p : Byte) (arg : BitVec 16)
  /-- SB_WORKS_TOKEN (R519): The side-band WORKS_TOKEN command judges a works token and, if it is accepted, erases secrets and enters a works mode. -/
  | sbWorksToken (p : Byte) (arg : BitVec 16) (cut : Option (Fin 3))
  /-- SB_COMMAND_COMPLETE (R480): A side-band command that returned BUSY finishes, writes its response and raises the DONE alert cause. -/
  | sbCommandComplete
  /-- SB_SLEEP (R489): After 100 ms without an address match in state D, the front end sleeps. -/
  | sbSleep
  /-- SB_ADDRESS_WAKE (R489): The address matches while the front end sleeps, so it stretches and wakes, or NAKs and wakes. -/
  | sbAddressWake
  /-- SB_STRETCH_ABORT (R490): A stretch by the front end reaches 10 ms, so it releases the bus and self-resets. -/
  | sbStretchAbort
  /-- SB_BUS_TIMEOUT (R491): SCL, or SDA with SCL high, stays low for 25 ms, so the front end releases both lines. -/
  | sbBusTimeout
  /-- ALERT_SET (R493): A host write of SB.ALERT_SET.HOST sets the HOST alert cause. -/
  | alertSet (w : Writer) (v : Word)
  /-- STEWARD_LOCKOUT_END (R483): The 10 s STEWARD_KEY lockout ends. -/
  | stewardLockoutEnd
  /-- WORKS_LOCKOUT_END (R519): The 10 s WORKS_TOKEN lockout ends. -/
  | worksLockoutEnd
  /-- FIX_READ (R495): A fixture READ operation reads COUNT bytes from the target memory. -/
  | fixRead (w : Writer) (v : Word)
  /-- FIX_WRITE (R495): A fixture WRITE operation writes COUNT bytes and polls for the write cycle. -/
  | fixWrite (w : Writer) (v : Word)
  /-- FIX_PROBE (R495): A fixture PROBE operation sends the target address alone. -/
  | fixProbe (w : Writer) (v : Word)
  /-- FIX_BUS_CLEAR (R498): A fixture BUS_CLEAR operation runs the nine-clock bus clear. -/
  | fixBusClear (w : Writer) (v : Word)
  /-- FIX_READ_RECORD (R499): A fixture READ_RECORD reads and checks the 256-byte fixture record. -/
  | fixReadRecord (w : Writer) (v : Word)
  /-- FIX_ATTEMPT_END (R496): A fixture attempt ends in success or failure, and a failure is retried after a STOP and 50 µs. -/
  | fixAttemptEnd (r : FixEnd)
  /-- FIX_DEADLINE (R496): TIMEOUT_MS after the GO, the controller ends the fixture operation with LOWER_ABORTED. -/
  | fixDeadline (lastGood : Bool)
  /-- WORKS_ERASE_RESUME (R521): At boot after a power loss during a works erase, Chase finishes the erase before any session opens. -/
  | worksEraseResume
  /-- WORKS_EXIT (R522): Works exit writes WORKS_EXITED, lifts the freeze and advances RETURNS. -/
  | worksExit
  /-- THERM_WARN (R533): The baseplate stays above WARN_C for 1 s, and WARN is set and raised. -/
  | thermWarn (base : BitVec 16) (die : BitVec 16)
  /-- THERM_WARN_CLEAR (R533): The baseplate stays below WARN_C − 3 °C for 1 s, and WARN clears. -/
  | thermWarnClear (base : BitVec 16) (die : BitVec 16)
  /-- THERM_SHED (R534): Over-temperature for 1 s sheds every far side, with HV-off and FAULT# asserted. -/
  | thermShed (base : BitVec 16) (die : BitVec 16)
  /-- SHED_END (R535): After 60 s cooled, the far sides are powered, self-tested and replayed, and RECOVERED is raised. -/
  | shedEnd (base : BitVec 16) (die : BitVec 16)
  /-- FAR_SIDE_OVERTEMP (R536): A far-side sensor above +110 °C for 1 s cuts that lane's power rails as a converter trip. -/
  | farSideOvertemp (n : LaneId) (t : BitVec 16)
  /-- FAR_SIDE_COOLED (R536): The far-side sensor falls below +95 °C, LANES_HOT clears, and REARM is accepted again. -/
  | farSideCooled (n : LaneId) (t : BitVec 16)
  /-- HDR_CRC (R97): A Forme transaction whose header CRC fails is answered with 0x01 or high impedance until FCS# rises, and FORME.ERRS.HDR advances. -/
  | hdrCrc (op : BitVec 8) (h : Hdr)
  /-- PTP_MESSAGE_DROP (R187): A received PTP message that is Pdelay, Management or Signalling, malformed, of a wrong version or over the 512-per-second limit is counted in its domain's DROPPED and ignored. -/
  | ptpMessageDrop (m : PtpMsg)
  /-- CAN_BUS_ERROR (R383): An error detected while the controller receives, or an FD frame seen with FD_EN = 0, draws an error frame, updates REC and LEC, and may move the controller to ERROR_PASSIVE. -/
  | canBusError (n : LaneId) (lec : BitVec 3) (dataPhase : Bool) (step8 : Bool)
  /-- ILLEGAL_INSTRUCTION (R395): The compositor meets a word with an undefined opcode or funct, non-zero unused fields or an illegal register code, and raises illegal (0x01), or halts with MONITOR_FAULT at monitor privilege. -/
  | illegalInstruction (n : LaneId) (w : Word)
  /-- FETCH_PAGE_FAULT (R387): An instruction fetch from an address that does not translate, or that lies outside the I-SRAM, raises fetch page fault (0x04), or MONITOR_FAULT at monitor privilege. -/
  | fetchPageFault (n : LaneId)
  /-- SB_PEC (R488): A side-band Write 32 with a wrong PEC, a PEC missing under REQUIRE, or a fifth byte under OFF is discarded, SB.PEC_ERRS advances and SB_PEC is raised. -/
  | sbPec (word : Word) (pec : Option Byte)
  /-- SB_UNKNOWN_COMMAND (R482): A side-band command taken with an undefined OP or a P outside its range is answered UNKNOWN, and COUNT advances. -/
  | sbUnknownCommand (op : Byte) (p : Byte) (arg : BitVec 16)
  /-- ISLAND_POWER_UP (R33): AUX_5V is applied while +24V_IN is absent, so the unpowered island starts, samples SB_ADR0 and SB_ADR1, and the module enters DORMANT with the calendar not set. -/
  | islandPowerUp (aux : Nat) (adr : Fin 4)
  /-- DP_FAULT_END (R298): DP leaves current limit, and STAT.DP_FAULT returns to 0. -/
  | dpFaultEnd (n : LaneId)
  deriving DecidableEq, Repr

end Sys2Proof
end

