-- ==== Sys2Proof/Machine/F32.lean ====
section
/-! DEFINITION. IEEE 754 binary32 arithmetic as the compositor and the lanes use it (R397): round to nearest, ties to even, no
flushing, one NaN. Every finite value is a whole number of units of 2^-149, so the arithmetic is exact until one rounding. -/

namespace Sys2Proof.Machine

/-- The one NaN that is produced (R397). -/
def f32NaN : Word := 0x7FC00000
/-- Positive infinity. -/
def f32Inf : Word := 0x7F800000

/-- Sign, exponent field, fraction. -/
def f32Neg (w : Word) : Bool := bitAt w 31
def f32Exp (w : Word) : Nat := bitsOf w 30 23
def f32Frac (w : Word) : Nat := bitsOf w 22 0

def f32IsNaN (w : Word) : Bool := f32Exp w == 255 && f32Frac w != 0
def f32IsInf (w : Word) : Bool := f32Exp w == 255 && f32Frac w == 0
def f32Finite (w : Word) : Bool := f32Exp w != 255
def f32IsZero (w : Word) : Bool := f32Exp w == 0 && f32Frac w == 0

/-- The magnitude of a finite value in units of 2^-149. -/
def f32Mag (w : Word) : Nat := if f32Exp w = 0 then f32Frac w else (2 ^ 23 + f32Frac w) * 2 ^ (f32Exp w - 1)

/-- The signed value of a finite word in units of 2^-149. -/
def f32Units (w : Word) : Int := if f32Neg w then -(f32Mag w : Int) else (f32Mag w : Int)

/-- One, in units. -/
def f32One : Nat := 2 ^ 149

/-- A word from sign and the 31 bits below it. -/
def f32Signed (neg : Bool) (low : Nat) : Word := BitVec.ofNat 32 ((if neg then 2 ^ 31 else 0) + low)

/-- num / den rounded to a whole number, ties to even. -/
def roundEven (num den : Nat) : Nat :=
  let q := num / den
  let r := num % den
  if 2 * r < den then q else if den < 2 * r then q + 1 else if q % 2 = 0 then q else q + 1

/-- The value num / den units with a sign, rounded to binary32. -/
def f32Round (neg : Bool) (num den : Nat) : Word :=
  let q := num / den
  let e := if q < 2 ^ 24 then 0 else Nat.log2 q - 23
  let m := roundEven num (den * 2 ^ e)
  let (m, e) := if m = 2 ^ 24 then (2 ^ 23, e + 1) else (m, e)
  if 253 < e then f32Signed neg 0x7F800000
  else if m < 2 ^ 23 then f32Signed neg m
  else f32Signed neg ((e + 1) * 2 ^ 23 + (m - 2 ^ 23))

/-- A signed number of units as a word; an exact zero takes the given sign. -/
def f32OfUnits (u : Int) (zeroNeg : Bool := false) : Word :=
  if u = 0 then f32Signed zeroNeg 0 else f32Round (decide (u < 0)) u.natAbs 1

def f32Negate (w : Word) : Word := w ^^^ 0x80000000
def f32Abs (w : Word) : Word := w &&& 0x7FFFFFFF

def f32Add (a b : Word) : Word :=
  if f32IsNaN a || f32IsNaN b then f32NaN
  else if f32IsInf a then (if f32IsInf b && f32Neg a != f32Neg b then f32NaN else a)
  else if f32IsInf b then b
  else f32OfUnits (f32Units a + f32Units b) (f32Neg a && f32Neg b)

def f32Sub (a b : Word) : Word := if f32IsNaN b then f32NaN else f32Add a (f32Negate b)

def f32Mul (a b : Word) : Word :=
  let neg := f32Neg a != f32Neg b
  if f32IsNaN a || f32IsNaN b then f32NaN
  else if f32IsInf a || f32IsInf b then (if f32IsZero a || f32IsZero b then f32NaN else f32Signed neg 0x7F800000)
  else f32Round neg (f32Mag a * f32Mag b) f32One

def f32Div (a b : Word) : Word :=
  let neg := f32Neg a != f32Neg b
  if f32IsNaN a || f32IsNaN b then f32NaN
  else if f32IsInf a then (if f32IsInf b then f32NaN else f32Signed neg 0x7F800000)
  else if f32IsInf b then f32Signed neg 0
  else if f32IsZero b then (if f32IsZero a then f32NaN else f32Signed neg 0x7F800000)
  else f32Round neg (f32Mag a * f32One) (f32Mag b)

/-- The whole square root, one bit of the root a step. -/
def isqrtLoop : Nat → Nat → Nat → Nat
  | 0, _, r => r
  | k + 1, n, r => isqrtLoop k n (if (r + 2 ^ k) * (r + 2 ^ k) ≤ n then r + 2 ^ k else r)

/-- The whole square root of a number below 2^440. -/
def isqrt (n : Nat) : Nat := isqrtLoop 220 n 0

def f32Sqrt (a : Word) : Word :=
  if f32IsNaN a then f32NaN
  else if f32IsZero a then a
  else if f32Neg a then f32NaN
  else if f32IsInf a then a
  else
    let n := f32Mag a * f32One
    let r := isqrt n
    f32Round false (2 * r + (if r * r = n then 0 else 1)) 2

/-- The order of two words that are not NaN, as signed numbers of units; infinities lie beyond every finite value. -/
def f32Key (w : Word) : Int := if f32IsInf w then (if f32Neg w then -(2 ^ 300 : Nat) else (2 ^ 300 : Nat)) else f32Units w

def f32Eq (a b : Word) : Bool := !f32IsNaN a && !f32IsNaN b && f32Key a == f32Key b
def f32Lt (a b : Word) : Bool := !f32IsNaN a && !f32IsNaN b && decide (f32Key a < f32Key b)
def f32Le (a b : Word) : Bool := !f32IsNaN a && !f32IsNaN b && decide (f32Key a ≤ f32Key b)

/-- FMIN and FMAX: -0.0 lies below +0.0; NaN only if both are NaN. -/
def f32Min (a b : Word) : Word :=
  if f32IsNaN a then (if f32IsNaN b then f32NaN else b)
  else if f32IsNaN b then a
  else if f32IsZero a && f32IsZero b then (if f32Neg a then a else b)
  else if f32Le a b then a else b
def f32Max (a b : Word) : Word :=
  if f32IsNaN a then (if f32IsNaN b then f32NaN else b)
  else if f32IsNaN b then a
  else if f32IsZero a && f32IsZero b then (if f32Neg a then b else a)
  else if f32Le a b then b else a

/-- A whole number as binary32. -/
def f32OfInt (i : Int) : Word := if i = 0 then 0 else f32Round (decide (i < 0)) (i.natAbs * f32One) 1

/-- binary32 truncated toward zero, saturating; NaN gives 0 (FCVTWS). -/
def f32ToInt (w : Word) : Word :=
  if f32IsNaN w then 0
  else if f32IsInf w then (if f32Neg w then 0x80000000 else 0x7FFFFFFF)
  else
    let m := f32Mag w / f32One
    if f32Neg w then (if 2 ^ 31 ≤ m then 0x80000000 else BitVec.ofInt 32 (-(m : Int)))
    else (if 2 ^ 31 ≤ m then 0x7FFFFFFF else BitVec.ofNat 32 m)

/-- A ratio of whole numbers as binary32. -/
def f32OfRatio (neg : Bool) (num den : Nat) : Word :=
  if num = 0 then f32Signed neg 0 else f32Round neg (num * f32One) den

end Sys2Proof.Machine
end

