-- ==== Sys2Proof/Machine/Flags.lean ====
section
/-! DEFINITION. The conditions the compositor computes (spec/16_compositor.md R396): comparisons of branches and of the set
instructions. The compositor has no flags register; PSR holds status bits only (R391). -/

namespace Sys2Proof.Machine

def ltS (a b : Word) : Bool := BitVec.slt a b
def ltU (a b : Word) : Bool := BitVec.ult a b

/-- 1 or 0 in a register. -/
def wordOf (b : Bool) : Word := if b then 1 else 0

/-- The conditions of the branch opcodes 0x20 to 0x25. -/
def branchOf (op : Nat) (a b : Word) : Bool :=
  match op with
  | 0x20 => a == b
  | 0x21 => a != b
  | 0x22 => ltS a b
  | 0x23 => !ltS a b
  | 0x24 => ltU a b
  | _ => !ltU a b

/-- Leading zeros, from bit k - 1 down. -/
def clzFrom : Nat → Word → Nat
  | 0, _ => 0
  | k + 1, w => if bitAt w k then 0 else 1 + clzFrom k w

end Sys2Proof.Machine
end

