-- ==== Sys2Proof/Machine/Crc.lean ====
section
/-! DEFINITION. The cyclic redundancy checks of the spec, all without reflection unless the name says so. -/

namespace Sys2Proof.Machine

/-- One bit through a CRC register of `w` bits with polynomial `poly`. -/
def crcBit (w poly c : Nat) (b : Bool) : Nat :=
  let top := c / 2 ^ (w - 1) % 2 == 1
  let c := c * 2 % 2 ^ w
  if top != b then c ^^^ poly else c

/-- A CRC over bits, first bit first. -/
def crcBits (w poly : Nat) (c : Nat) (bs : List Bool) : Nat := bs.foldl (crcBit w poly) c

/-- The low `k` bits of a number, most significant first. -/
def bitsMsb (k v : Nat) : List Bool := (List.range k).map fun i => v / 2 ^ (k - 1 - i) % 2 == 1

/-- A CRC over bytes, most significant bit first. -/
def crcBytes (w poly init : Nat) (bs : List Byte) : Nat := bs.foldl (fun c b => crcBits w poly c (bitsMsb 8 b.toNat)) init

/-- CRC-12 of a pod identity over bits [63:12] (R305). -/
def crc12 (bits : List Bool) : Nat := crcBits 12 0x80F 0 bits

/-- Does a pod identity check (R305)? -/
def idValid (id : BitVec 64) : Bool := crc12 (bitsMsb 52 (id.toNat / 4096)) == id.toNat % 4096

/-- One byte through the reflected CRC-32 of IEEE 802.3. -/
def crc32Byte (c : Nat) (b : Byte) : Nat :=
  (List.range 8).foldl (fun c _ => if c % 2 = 1 then c / 2 ^^^ 0xEDB88320 else c / 2) (c ^^^ b.toNat)

/-- CRC-32 with the IEEE 802.3 polynomial over bytes (Table: Colophon entry, Table: Calibration record, R499, R518; log 34). -/
def crc32 (bs : List Byte) : Nat := bs.foldl crc32Byte 0xFFFFFFFF ^^^ 0xFFFFFFFF

/-- The bytes of a number, most significant first. -/
def beBytes (k v : Nat) : List Byte := (List.range k).map fun i => BitVec.ofNat 8 (v / 256 ^ (k - 1 - i))

/-- The number that bytes spell, most significant first. -/
def beNat (bs : List Byte) : Nat := bs.foldl (fun a b => a * 256 + b.toNat) 0

/-- The number that bytes spell, lowest byte first. -/
def leNat : List Byte → Nat
  | [] => 0
  | b :: r => b.toNat + 256 * leNat r

end Sys2Proof.Machine
end

