-- ==== Sys2Proof/Config.lean ====
section
/-! DEFINITION. What an implementation fixes and what the spec leaves open: opaque constants with no body, so that no proof can
rest on a value of theirs. Each is named in a row of notes/assumptions. -/

namespace Sys2Proof.Config

/-- A value the spec calls undefined, or for which it states no result; applied to a counter of the state or to the
operands at hand (log 4). -/
opaque free : Nat → Word

/-- Random bytes of Chase's generator (R134); applied to a counter of the state. -/
opaque random256 : Nat → BitVec 256

/-- The hardware build level strap of MOD.IDENT (Reset column "strap"). -/
opaque hwLevel : Nat

/-- The module's MAC address (R196; Reset column "strap"). -/
opaque mac : BitVec 48

/-- How an item that is no slug is spelt in its 16 bytes of a gutter frame, and the readings of a TELEMETRY frame in theirs: the spec
names their contents and gives no layout (R6; log 112). -/
opaque gutterItem : List Nat → BitVec 128

/-- The lane status word of an upstream frame, from the interlock loops, the HV state and the supply state (R6; log 112). -/
opaque laneStatus : List Nat → Word

/-- The ACK field of a side that has taken no good frame yet (R6; log 112). -/
opaque noAck : BitVec 12

/-- α of a DC block in units of 2^-32, from CORNER in 0.01 Hz and the tap code: the spec gives it as an exponential and states no precision
(R264; log 18). -/
opaque dcAlpha : Nat → Nat → Int

/-- The sum of a half-band stage over its 23 newest inputs, newest first, in units of 2^-24: the spec gives what the coefficients attain and
not the coefficients (R255; log 116). -/
opaque halfBand : List Int → Int

/-- A stage's result in SHIFT mode that 32 bits do not hold: no path that R258 admits has one (log 116). -/
opaque stageWide : Int → Int

/-- The calibrated value of a lane that holds no usable calibration record, from the chain, the range or input and the integer (R250,
R269; log 117). -/
opaque uncalibrated : Nat → Nat → Int → Word

/-- Does AGC round the move of the ultrasonic gain up to the next whole dB, from AMP_TARGET and the lower amplitude of the pair? The spec
states no rounding of it (R276; log 20). -/
opaque agcUp : Nat → Nat → Bool

/-- A flow value whose formula divides by zero (R288; log 4). -/
opaque flowByZero : Int → Word

/-- A pod's low-pass g_est for one axis in mg, from the raw value in mg and the old g_est: a time constant of 0.5 s is all that is given
(R342; log 24). -/
opaque podLowpass : Int → Int → Int

/-- The angle in tenths of a degree between g_est and REF where one of them is the null vector (R342; log 24). -/
opaque podAngleNull : Nat

/-- What a permit input reads from 5 V up to below 15 V, from its millivolts and its last reading (R49; log 124). -/
opaque permitBand : Int → Bool → Bool

/-- The servo's new estimate of the frequency of RT, as an RT_INC, from the old one and the offset (R191 gives its limits only; log
30). -/
opaque servoFreq : Nat → Word → Int → Nat

/-- How fast the servo slews to remove an offset, in units of RT_INC before the limit of R191 (log 30). -/
opaque servoSlew : Nat → Int → Nat

/-- The Lamkoade firmware key held in ROM (R450; log 36). -/
opaque romKey : List Byte

/-- The Lamkoade works key held in ROM (R519; log 36). -/
opaque worksKey : List Byte

end Sys2Proof.Config
end

