-- ==== Sys2Proof/Machine/RegTable.lean ====
section
/-! DEFINITION. The register fields of the TH16, from the register tables that close each chapter of spec/: one named
field per row of those tables (page, offset, bits, access code of R2, Reset column, repetition), and one list per page.
A field whose Reset column gives no number ("strap", "kept", "-", "per R142") has reset 0 here; notes/assumptions/2.md
names what stands in its place. -/

namespace Sys2Proof.Machine

/-- The access codes of Table: Access codes (R2); `ctr` is an RW field that a rule calls a counter (R126). -/
inductive Acc where
  | ro | rw | ctr | w1s | w1c | wo | rws | rwq
  deriving DecidableEq, Repr

/-- One register field. `page` is the first page that holds it and `step` the pages from one lane's copy to the next
(0 on a common page); copy `i` of a repeated field stands `stride * i` words further on. -/
structure Fld where
  page : Nat
  step : Nat
  off : Nat
  hi : Nat
  lo : Nat
  acc : Acc
  reset : Nat
  count : Nat
  stride : Nat
  deriving DecidableEq, Repr

/-- Does the field occupy bits of the word at this offset of its page? -/
def Fld.covers (f : Fld) (o : Nat) : Bool :=
  f.off ≤ o && (o - f.off) % f.stride == 0 && (o - f.off) / f.stride < f.count

/-- The word address of copy `i` of the field, in lane `n` (0 on a common page). -/
def Fld.addr (f : Fld) (n i : Nat) : Nat := (f.page + f.step * n) * 256 + f.off + f.stride * i

/-- How many bits the field has. -/
def Fld.width (f : Fld) : Nat := f.hi + 1 - f.lo

namespace MOD
def IDENT_PRODUCT : Fld := ⟨0x00, 0, 0x10, 31, 16, .ro, 0x0, 1, 1⟩
def IDENT_HW_LEVEL : Fld := ⟨0x00, 0, 0x10, 15, 8, .ro, 0x0, 1, 1⟩
def LANES_COUNT : Fld := ⟨0x00, 0, 0x11, 20, 16, .ro, 0x0, 1, 1⟩
def LANES_FITTED : Fld := ⟨0x00, 0, 0x11, 15, 0, .ro, 0x0, 1, 1⟩
def PWR_BROWNOUT_SEEN : Fld := ⟨0x00, 0, 0x12, 17, 17, .w1c, 0x0, 1, 1⟩
def PWR_AUX_PRESENT : Fld := ⟨0x00, 0, 0x12, 16, 16, .ro, 0x0, 1, 1⟩
def PWR_STATE : Fld := ⟨0x00, 0, 0x12, 9, 8, .ro, 0x0, 1, 1⟩
def PWR_REQ : Fld := ⟨0x00, 0, 0x12, 1, 0, .rw, 0x0, 1, 1⟩
def LINK_STALE : Fld := ⟨0x00, 0, 0x13, 31, 16, .ro, 0x0, 1, 1⟩
def LINK_LOCKED : Fld := ⟨0x00, 0, 0x13, 15, 0, .ro, 0x0, 1, 1⟩
def CLK_DISCIPLINED : Fld := ⟨0x00, 0, 0x14, 31, 16, .ro, 0x0, 1, 1⟩
def CLK_AON_OK : Fld := ⟨0x00, 0, 0x14, 2, 2, .ro, 0x0, 1, 1⟩
def CLK_NET_REF_OK : Fld := ⟨0x00, 0, 0x14, 1, 1, .ro, 0x0, 1, 1⟩
def CLK_SYS_LOCK : Fld := ⟨0x00, 0, 0x14, 0, 0, .ro, 0x0, 1, 1⟩
def PERMIT_DISCREPANCY : Fld := ⟨0x00, 0, 0x15, 3, 3, .w1c, 0x0, 1, 1⟩
def PERMIT_PERMITTED : Fld := ⟨0x00, 0, 0x15, 2, 2, .ro, 0x0, 1, 1⟩
def PERMIT_B : Fld := ⟨0x00, 0, 0x15, 1, 1, .ro, 0x0, 1, 1⟩
def PERMIT_A : Fld := ⟨0x00, 0, 0x15, 0, 0, .ro, 0x0, 1, 1⟩
def SUPPLY_VIN : Fld := ⟨0x00, 0, 0x16, 31, 20, .ro, 0x0, 1, 1⟩
def SUPPLY_AUX : Fld := ⟨0x00, 0, 0x16, 19, 12, .ro, 0x0, 1, 1⟩
def SUPPLY_VIO_LEVEL : Fld := ⟨0x00, 0, 0x16, 11, 10, .ro, 0x0, 1, 1⟩
def SUPPLY_FX_FAULT : Fld := ⟨0x00, 0, 0x16, 9, 9, .ro, 0x0, 1, 1⟩
def SUPPLY_FX_PRESENT : Fld := ⟨0x00, 0, 0x16, 8, 8, .ro, 0x0, 1, 1⟩
def INPUT_POWER_PIN : Fld := ⟨0x00, 0, 0x17, 31, 16, .ro, 0x0, 1, 1⟩
def INPUT_POWER_PEAK : Fld := ⟨0x00, 0, 0x17, 15, 0, .ctr, 0x0, 1, 1⟩
def PERMIT_OPENS_COUNT : Fld := ⟨0x00, 0, 0x18, 31, 0, .ctr, 0x0, 1, 1⟩
def RESET_CAUSE_COUNT : Fld := ⟨0x00, 0, 0x19, 31, 16, .ctr, 0x0, 1, 1⟩
def RESET_CAUSE_PREV_CAUSE : Fld := ⟨0x00, 0, 0x19, 11, 8, .ro, 0x0, 1, 1⟩
def RESET_CAUSE_CAUSE : Fld := ⟨0x00, 0, 0x19, 3, 0, .ro, 0x0, 1, 1⟩
def BOOT_STAGE : Fld := ⟨0x00, 0, 0x1A, 31, 24, .ro, 0x0, 1, 1⟩
def BOOT_PREFER : Fld := ⟨0x00, 0, 0x1A, 23, 23, .rw, 0x0, 1, 1⟩
def BOOT_IMAGE : Fld := ⟨0x00, 0, 0x1A, 21, 20, .ro, 0x0, 1, 1⟩
def BOOT_FALLBACK : Fld := ⟨0x00, 0, 0x1A, 19, 19, .ro, 0x0, 1, 1⟩
def BOOT_B_BAD : Fld := ⟨0x00, 0, 0x1A, 18, 18, .ro, 0x0, 1, 1⟩
def BOOT_A_BAD : Fld := ⟨0x00, 0, 0x1A, 17, 17, .ro, 0x0, 1, 1⟩
def BOOT_CONFIRMED : Fld := ⟨0x00, 0, 0x1A, 16, 16, .ro, 0x0, 1, 1⟩
def BOOT_TRIES : Fld := ⟨0x00, 0, 0x1A, 15, 14, .ro, 0x0, 1, 1⟩
def BOOT_ROLLBACK : Fld := ⟨0x00, 0, 0x1A, 13, 8, .ro, 0x0, 1, 1⟩
def BOOT_TIME_CHASE_MS : Fld := ⟨0x00, 0, 0x1B, 31, 16, .ro, 0x0, 1, 1⟩
def BOOT_TIME_LANES_MS : Fld := ⟨0x00, 0, 0x1B, 15, 0, .ro, 0x0, 1, 1⟩
def SOFT_RESET_KEY : Fld := ⟨0x00, 0, 0x1C, 31, 16, .wo, 0x0, 1, 1⟩
def SOFT_RESET_MODULE : Fld := ⟨0x00, 0, 0x1C, 0, 0, .wo, 0x0, 1, 1⟩
def SESSIONS_LAST_OUTCOME : Fld := ⟨0x00, 0, 0x1D, 31, 24, .ro, 0x0, 1, 1⟩
def SESSIONS_LAST_SESSION : Fld := ⟨0x00, 0, 0x1D, 18, 16, .ro, 0x0, 1, 1⟩
def SESSIONS_KEYED : Fld := ⟨0x00, 0, 0x1D, 15, 8, .ro, 0x0, 1, 1⟩
def SESSIONS_OPEN : Fld := ⟨0x00, 0, 0x1D, 7, 0, .ro, 0x0, 1, 1⟩
def BG_LOG_WEAR : Fld := ⟨0x00, 0, 0x1E, 31, 31, .ro, 0x0, 1, 1⟩
def BG_LANES : Fld := ⟨0x00, 0, 0x1E, 15, 0, .ro, 0x0, 1, 1⟩
def RETURN_FROZEN : Fld := ⟨0x00, 0, 0x1F, 31, 31, .ro, 0x0, 1, 1⟩
def RETURN_WORKS : Fld := ⟨0x00, 0, 0x1F, 30, 30, .ro, 0x0, 1, 1⟩
def RETURN_RECORD_VALID : Fld := ⟨0x00, 0, 0x1F, 29, 29, .ro, 0x0, 1, 1⟩
def RETURN_RETURNS : Fld := ⟨0x00, 0, 0x1F, 15, 8, .ro, 0x0, 1, 1⟩
def flds0 : List Fld :=
  [IDENT_PRODUCT, IDENT_HW_LEVEL, LANES_COUNT, LANES_FITTED, PWR_BROWNOUT_SEEN, PWR_AUX_PRESENT,
   PWR_STATE, PWR_REQ, LINK_STALE, LINK_LOCKED, CLK_DISCIPLINED, CLK_AON_OK,
   CLK_NET_REF_OK, CLK_SYS_LOCK, PERMIT_DISCREPANCY, PERMIT_PERMITTED, PERMIT_B, PERMIT_A,
   SUPPLY_VIN, SUPPLY_AUX, SUPPLY_VIO_LEVEL, SUPPLY_FX_FAULT, SUPPLY_FX_PRESENT, INPUT_POWER_PIN,
   INPUT_POWER_PEAK, PERMIT_OPENS_COUNT, RESET_CAUSE_COUNT, RESET_CAUSE_PREV_CAUSE, RESET_CAUSE_CAUSE, BOOT_STAGE]
def flds1 : List Fld :=
  [BOOT_PREFER, BOOT_IMAGE, BOOT_FALLBACK, BOOT_B_BAD, BOOT_A_BAD, BOOT_CONFIRMED,
   BOOT_TRIES, BOOT_ROLLBACK, BOOT_TIME_CHASE_MS, BOOT_TIME_LANES_MS, SOFT_RESET_KEY, SOFT_RESET_MODULE,
   SESSIONS_LAST_OUTCOME, SESSIONS_LAST_SESSION, SESSIONS_KEYED, SESSIONS_OPEN, BG_LOG_WEAR, BG_LANES,
   RETURN_FROZEN, RETURN_WORKS, RETURN_RECORD_VALID, RETURN_RETURNS]
/-- Every field of the page. -/
def flds : List Fld := flds0 ++ flds1
end MOD

namespace FORME
def CFG_MODE_SEEN : Fld := ⟨0x01, 0, 0x10, 9, 8, .ro, 0x0, 1, 1⟩
def CFG_WIDTH : Fld := ⟨0x01, 0, 0x10, 0, 0, .rw, 0x0, 1, 1⟩
def PROOF_RT : Fld := ⟨0x01, 0, 0x11, 31, 0, .ro, 0x0, 1, 1⟩
def ERRS_HDR : Fld := ⟨0x01, 0, 0x12, 31, 0, .ctr, 0x0, 1, 1⟩
def ERRS_DATA : Fld := ⟨0x01, 0, 0x13, 31, 0, .ctr, 0x0, 1, 1⟩
def ERRS_UNPRESSED : Fld := ⟨0x01, 0, 0x14, 31, 0, .ctr, 0x0, 1, 1⟩
def ERRS_DUPLICATE : Fld := ⟨0x01, 0, 0x15, 31, 0, .ctr, 0x0, 1, 1⟩
def RECORD_SEQ : Fld := ⟨0x01, 0, 0x18, 31, 24, .ro, 0x0, 8, 1⟩
def RECORD_OPCODE : Fld := ⟨0x01, 0, 0x18, 23, 16, .ro, 0x0, 8, 1⟩
def RECORD_STATUS : Fld := ⟨0x01, 0, 0x18, 15, 8, .ro, 0x0, 8, 1⟩
def RECORD_OUTCOME : Fld := ⟨0x01, 0, 0x18, 1, 0, .ro, 0x0, 8, 1⟩
def LIST_ADDR : Fld := ⟨0x01, 0, 0x40, 15, 0, .rw, 0x0, 64, 1⟩
def flds0 : List Fld :=
  [CFG_MODE_SEEN, CFG_WIDTH, PROOF_RT, ERRS_HDR, ERRS_DATA, ERRS_UNPRESSED,
   ERRS_DUPLICATE, RECORD_SEQ, RECORD_OPCODE, RECORD_STATUS, RECORD_OUTCOME, LIST_ADDR]
/-- Every field of the page. -/
def flds : List Fld := flds0
end FORME

namespace SESS
def LOCKOUT : Fld := ⟨0x02, 0, 0x10, 23, 16, .ro, 0x0, 1, 1⟩
def KEYED : Fld := ⟨0x02, 0, 0x10, 15, 8, .ro, 0x0, 1, 1⟩
def OPEN : Fld := ⟨0x02, 0, 0x10, 7, 0, .ro, 0x0, 1, 1⟩
def SELF : Fld := ⟨0x02, 0, 0x11, 2, 0, .ro, 0x0, 1, 1⟩
def FORCE_CLOSE : Fld := ⟨0x02, 0, 0x12, 7, 1, .wo, 0x0, 1, 1⟩
def ATTEMPTS : Fld := ⟨0x02, 0, 0x18, 31, 24, .ro, 0x0, 8, 1⟩
def FAILS : Fld := ⟨0x02, 0, 0x18, 23, 16, .ro, 0x0, 8, 1⟩
def OUTCOME : Fld := ⟨0x02, 0, 0x18, 7, 0, .ro, 0x0, 8, 1⟩
def KEY_LOAD : Fld := ⟨0x02, 0, 0x20, 31, 0, .wo, 0x0, 8, 1⟩
def ERASE : Fld := ⟨0x02, 0, 0x28, 9, 9, .wo, 0x0, 1, 1⟩
def LOAD : Fld := ⟨0x02, 0, 0x28, 8, 8, .wo, 0x0, 1, 1⟩
def TARGET : Fld := ⟨0x02, 0, 0x28, 2, 0, .wo, 0x0, 1, 1⟩
def CREAD : Fld := ⟨0x02, 0, 0x40, 19, 4, .rw, 0x0, 8, 8⟩
def CWRITE : Fld := ⟨0x02, 0, 0x41, 19, 1, .rw, 0x0, 8, 8⟩
def KWRITE : Fld := ⟨0x02, 0, 0x42, 31, 24, .rw, 0x0, 8, 8⟩
def KREAD : Fld := ⟨0x02, 0, 0x42, 23, 16, .rw, 0x0, 8, 8⟩
def LANES : Fld := ⟨0x02, 0, 0x42, 15, 0, .rw, 0x0, 8, 8⟩
def SWRITE : Fld := ⟨0x02, 0, 0x43, 31, 16, .rw, 0x0, 8, 8⟩
def SREAD : Fld := ⟨0x02, 0, 0x43, 15, 0, .rw, 0x0, 8, 8⟩
def QUOINS : Fld := ⟨0x02, 0, 0x44, 31, 0, .rw, 0x0, 8, 8⟩
def SERVICES : Fld := ⟨0x02, 0, 0x45, 3, 0, .rw, 0x0, 8, 8⟩
def flds0 : List Fld :=
  [LOCKOUT, KEYED, OPEN, SELF, FORCE_CLOSE, ATTEMPTS,
   FAILS, OUTCOME, KEY_LOAD, ERASE, LOAD, TARGET,
   CREAD, CWRITE, KWRITE, KREAD, LANES, SWRITE,
   SREAD, QUOINS, SERVICES]
/-- Every field of the page. -/
def flds : List Fld := flds0
end SESS

namespace QUOIN
def GEN : Fld := ⟨0x03, 0, 0x10, 31, 16, .wo, 0x0, 1, 1⟩
def CHECK_GEN : Fld := ⟨0x03, 0, 0x10, 13, 13, .wo, 0x0, 1, 1⟩
def WAIT : Fld := ⟨0x03, 0, 0x10, 12, 12, .wo, 0x0, 1, 1⟩
def OP : Fld := ⟨0x03, 0, 0x10, 11, 8, .wo, 0x0, 1, 1⟩
def QUOIN : Fld := ⟨0x03, 0, 0x10, 7, 0, .wo, 0x0, 1, 1⟩
def RES_GEN : Fld := ⟨0x03, 0, 0x11, 31, 16, .ro, 0x0, 1, 1⟩
def RES_QUOIN : Fld := ⟨0x03, 0, 0x11, 15, 8, .ro, 0x0, 1, 1⟩
def RES_CODE : Fld := ⟨0x03, 0, 0x11, 7, 0, .ro, 0x0, 1, 1⟩
def HELD_M : Fld := ⟨0x03, 0, 0x12, 31, 0, .ro, 0x0, 1, 1⟩
def HELD_L0 : Fld := ⟨0x03, 0, 0x13, 31, 0, .ro, 0x0, 1, 1⟩
def HELD_L1 : Fld := ⟨0x03, 0, 0x14, 31, 0, .ro, 0x0, 1, 1⟩
def ENG_RIGHTS : Fld := ⟨0x03, 0, 0x15, 31, 0, .rw, 0xFFFF0000, 1, 1⟩
def RELEASED_M : Fld := ⟨0x03, 0, 0x16, 31, 0, .w1c, 0x0, 1, 1⟩
def RELEASED_L0 : Fld := ⟨0x03, 0, 0x17, 31, 0, .w1c, 0x0, 1, 1⟩
def RELEASED_L1 : Fld := ⟨0x03, 0, 0x18, 31, 0, .w1c, 0x0, 1, 1⟩
def LD_GEN : Fld := ⟨0x03, 0, 0x19, 31, 16, .ro, 0x0, 1, 1⟩
def LD_HOLDER : Fld := ⟨0x03, 0, 0x19, 14, 8, .ro, 0x7F, 1, 1⟩
def LD_QUOIN : Fld := ⟨0x03, 0, 0x19, 7, 0, .ro, 0xFF, 1, 1⟩
def DRAWS : Fld := ⟨0x03, 0, 0x1A, 31, 0, .ctr, 0x0, 1, 1⟩
def ORDER_REFUSALS : Fld := ⟨0x03, 0, 0x1B, 31, 0, .ctr, 0x0, 1, 1⟩
def GENERATION : Fld := ⟨0x03, 0, 0x20, 31, 16, .ro, 0x0, 96, 1⟩
def BROKEN : Fld := ⟨0x03, 0, 0x20, 15, 15, .ro, 0x0, 96, 1⟩
def HOLDER : Fld := ⟨0x03, 0, 0x20, 14, 8, .ro, 0x7F, 96, 1⟩
def WAITERS : Fld := ⟨0x03, 0, 0x20, 7, 7, .ro, 0x0, 96, 1⟩
def RANK : Fld := ⟨0x03, 0, 0x20, 4, 0, .ro, 0x0, 96, 1⟩
def CFG_RANK : Fld := ⟨0x03, 0, 0x80, 20, 16, .rw, 0x0, 96, 1⟩
def CFG_LIMIT : Fld := ⟨0x03, 0, 0x80, 15, 0, .rw, 0x7D0, 96, 1⟩
def flds0 : List Fld :=
  [GEN, CHECK_GEN, WAIT, OP, QUOIN, RES_GEN,
   RES_QUOIN, RES_CODE, HELD_M, HELD_L0, HELD_L1, ENG_RIGHTS,
   RELEASED_M, RELEASED_L0, RELEASED_L1, LD_GEN, LD_HOLDER, LD_QUOIN,
   DRAWS, ORDER_REFUSALS, GENERATION, BROKEN, HOLDER, WAITERS,
   RANK, CFG_RANK, CFG_LIMIT]
/-- Every field of the page. -/
def flds : List Fld := flds0
end QUOIN

namespace EVG
def MISS_SOURCE : Fld := ⟨0x04, 0, 0x10, 25, 16, .ro, 0x0, 1, 1⟩
def TABLE_SOURCE : Fld := ⟨0x04, 0, 0x10, 9, 0, .ro, 0x0, 1, 1⟩
def CLAIM_T0_DO : Fld := ⟨0x04, 0, 0x11, 31, 31, .wo, 0x0, 1, 1⟩
def CLAIM_T1_DO : Fld := ⟨0x04, 0, 0x13, 31, 31, .wo, 0x0, 1, 1⟩
def DONE_T0_DO : Fld := ⟨0x04, 0, 0x12, 31, 31, .wo, 0x0, 1, 1⟩
def DONE_T1_DO : Fld := ⟨0x04, 0, 0x14, 31, 31, .wo, 0x0, 1, 1⟩
def CMD_SOURCE : Fld := ⟨0x04, 0, 0x11, 9, 0, .wo, 0x0, 4, 1⟩
def FORCE_DONE_DO : Fld := ⟨0x04, 0, 0x15, 31, 31, .wo, 0x0, 1, 1⟩
def FORCE_TARGET : Fld := ⟨0x04, 0, 0x15, 20, 16, .wo, 0x0, 1, 1⟩
def FORCE_SOURCE : Fld := ⟨0x04, 0, 0x15, 9, 0, .wo, 0x0, 1, 1⟩
def NW_CAUSE_VALID : Fld := ⟨0x04, 0, 0x16, 31, 31, .w1c, 0x0, 1, 1⟩
def NW_CAUSE_TRIGGER : Fld := ⟨0x04, 0, 0x16, 27, 24, .ro, 0x0, 1, 1⟩
def NW_CAUSE_ENTRY : Fld := ⟨0x04, 0, 0x16, 19, 16, .ro, 0x0, 1, 1⟩
def NW_CAUSE_SOURCE : Fld := ⟨0x04, 0, 0x16, 9, 0, .ro, 0x0, 1, 1⟩
def TOP_VALID : Fld := ⟨0x04, 0, 0x20, 31, 31, .ro, 0x0, 19, 1⟩
def TOP_ACTIVE_ANY : Fld := ⟨0x04, 0, 0x20, 30, 30, .ro, 0x0, 19, 1⟩
def TOP_ACT_PRIO : Fld := ⟨0x04, 0, 0x20, 29, 27, .ro, 0x0, 19, 1⟩
def TOP_PRIO : Fld := ⟨0x04, 0, 0x20, 26, 24, .ro, 0x0, 19, 1⟩
def TOP_SOURCE : Fld := ⟨0x04, 0, 0x20, 9, 0, .ro, 0x0, 19, 1⟩
def TCTL_EDGE : Fld := ⟨0x04, 0, 0x40, 8, 8, .rw, 0x0, 19, 1⟩
def TCTL_THRESH : Fld := ⟨0x04, 0, 0x40, 3, 0, .rw, 0x0, 19, 1⟩
def NW_EN : Fld := ⟨0x04, 0, 0x58, 31, 31, .rw, 0x0, 16, 1⟩
def NW_LIVE : Fld := ⟨0x04, 0, 0x58, 30, 30, .ro, 0x0, 16, 1⟩
def NW_SOURCE : Fld := ⟨0x04, 0, 0x58, 9, 0, .rw, 0x0, 16, 1⟩
def COAL_BYPASS : Fld := ⟨0x04, 0, 0x70, 31, 31, .rw, 0x0, 16, 1⟩
def COAL_IDLE : Fld := ⟨0x04, 0, 0x70, 30, 30, .ro, 0x1, 16, 1⟩
def COAL_COUNT : Fld := ⟨0x04, 0, 0x70, 23, 16, .rw, 0x1, 16, 1⟩
def COAL_TIME : Fld := ⟨0x04, 0, 0x70, 15, 0, .rw, 0x1, 16, 1⟩
def EN_SET : Fld := ⟨0x04, 0, 0x80, 31, 0, .w1s, 0x0, 32, 1⟩
def EN_CLR : Fld := ⟨0x04, 0, 0xA0, 31, 0, .w1c, 0x0, 32, 1⟩
def PEND_SET : Fld := ⟨0x04, 0, 0xC0, 31, 0, .w1s, 0x0, 32, 1⟩
def PEND_CLR : Fld := ⟨0x04, 0, 0xE0, 31, 0, .w1c, 0x0, 32, 1⟩
def flds0 : List Fld :=
  [MISS_SOURCE, TABLE_SOURCE, CLAIM_T0_DO, CLAIM_T1_DO, DONE_T0_DO, DONE_T1_DO,
   CMD_SOURCE, FORCE_DONE_DO, FORCE_TARGET, FORCE_SOURCE, NW_CAUSE_VALID, NW_CAUSE_TRIGGER,
   NW_CAUSE_ENTRY, NW_CAUSE_SOURCE, TOP_VALID, TOP_ACTIVE_ANY, TOP_ACT_PRIO, TOP_PRIO,
   TOP_SOURCE, TCTL_EDGE, TCTL_THRESH, NW_EN, NW_LIVE, NW_SOURCE,
   COAL_BYPASS, COAL_IDLE, COAL_COUNT, COAL_TIME, EN_SET, EN_CLR]
def flds1 : List Fld :=
  [PEND_SET, PEND_CLR]
/-- Every field of the page. -/
def flds : List Fld := flds0 ++ flds1
end EVG

namespace REG
def RT_LO : Fld := ⟨0x09, 0, 0x10, 31, 0, .ro, 0x0, 1, 1⟩
def RT_HI : Fld := ⟨0x09, 0, 0x11, 31, 0, .ro, 0x0, 1, 1⟩
def WRAP_PENDING : Fld := ⟨0x09, 0, 0x12, 31, 31, .ro, 0x0, 1, 1⟩
def STEP_HELD : Fld := ⟨0x09, 0, 0x12, 30, 30, .ro, 0x0, 1, 1⟩
def SET : Fld := ⟨0x09, 0, 0x12, 29, 29, .ro, 0x0, 1, 1⟩
def ARB : Fld := ⟨0x09, 0, 0x12, 28, 28, .ro, 0x0, 1, 1⟩
def STATE : Fld := ⟨0x09, 0, 0x12, 18, 16, .ro, 0x0, 1, 1⟩
def SOURCE : Fld := ⟨0x09, 0, 0x12, 8, 8, .ro, 0x0, 1, 1⟩
def RT_INC : Fld := ⟨0x09, 0, 0x13, 31, 0, .rwq, 0x5000000, 1, 1⟩
def SELECT : Fld := ⟨0x09, 0, 0x14, 12, 12, .rwq, 0x0, 1, 1⟩
def SWITCH_POLICY : Fld := ⟨0x09, 0, 0x14, 8, 8, .rwq, 0x1, 1, 1⟩
def STEP_POLICY : Fld := ⟨0x09, 0, 0x14, 5, 4, .rwq, 0x0, 1, 1⟩
def MODE : Fld := ⟨0x09, 0, 0x14, 1, 0, .rwq, 0x0, 1, 1⟩
def HOLDOVER_S : Fld := ⟨0x09, 0, 0x15, 16, 0, .rwq, 0x258, 1, 1⟩
def UNLOCK_NS : Fld := ⟨0x09, 0, 0x16, 31, 16, .rwq, 0x3E8, 1, 1⟩
def LOCK_NS : Fld := ⟨0x09, 0, 0x16, 15, 0, .rwq, 0x64, 1, 1⟩
def HOLD_S : Fld := ⟨0x09, 0, 0x17, 31, 0, .ro, 0x0, 1, 1⟩
def FREQ_PPB : Fld := ⟨0x09, 0, 0x18, 31, 0, .ro, 0x0, 1, 1⟩
def DOMAIN_OFFSET : Fld := ⟨0x09, 0, 0x19, 31, 0, .ro, 0x0, 1, 1⟩
def SLEW_REMAIN : Fld := ⟨0x09, 0, 0x1A, 31, 0, .ro, 0x0, 1, 1⟩
def LAST_STEP_HI : Fld := ⟨0x09, 0, 0x1B, 31, 0, .ro, 0x0, 1, 1⟩
def LAST_STEP_LO : Fld := ⟨0x09, 0, 0x1C, 31, 0, .ro, 0x0, 1, 1⟩
def STEPS : Fld := ⟨0x09, 0, 0x1D, 31, 0, .ctr, 0x0, 1, 1⟩
def STEP_HI : Fld := ⟨0x09, 0, 0x1E, 31, 0, .rwq, 0x0, 1, 1⟩
def STEP_LO : Fld := ⟨0x09, 0, 0x1F, 31, 0, .rwq, 0x0, 1, 1⟩
def STEP_GO : Fld := ⟨0x09, 0, 0x20, 0, 0, .wo, 0x0, 1, 1⟩
def UTC_VALID : Fld := ⟨0x09, 0, 0x21, 31, 31, .rwq, 0x0, 1, 1⟩
def UTC_LEAP61 : Fld := ⟨0x09, 0, 0x21, 30, 30, .rwq, 0x0, 1, 1⟩
def UTC_LEAP59 : Fld := ⟨0x09, 0, 0x21, 29, 29, .rwq, 0x0, 1, 1⟩
def UTC_FROM_PTP : Fld := ⟨0x09, 0, 0x21, 28, 28, .ro, 0x0, 1, 1⟩
def UTC_OFFSET_S : Fld := ⟨0x09, 0, 0x21, 15, 0, .rwq, 0x0, 1, 1⟩
def LANE_ERR_VALID : Fld := ⟨0x09, 0, 0x30, 31, 31, .ro, 0x0, 16, 1⟩
def LANE_ERR : Fld := ⟨0x09, 0, 0x30, 15, 0, .ro, 0x0, 16, 1⟩
def flds0 : List Fld :=
  [RT_LO, RT_HI, WRAP_PENDING, STEP_HELD, SET, ARB,
   STATE, SOURCE, RT_INC, SELECT, SWITCH_POLICY, STEP_POLICY,
   MODE, HOLDOVER_S, UNLOCK_NS, LOCK_NS, HOLD_S, FREQ_PPB,
   DOMAIN_OFFSET, SLEW_REMAIN, LAST_STEP_HI, LAST_STEP_LO, STEPS, STEP_HI,
   STEP_LO, STEP_GO, UTC_VALID, UTC_LEAP61, UTC_LEAP59, UTC_FROM_PTP]
def flds1 : List Fld :=
  [UTC_OFFSET_S, LANE_ERR_VALID, LANE_ERR]
/-- Every field of the page. -/
def flds : List Fld := flds0 ++ flds1
end REG

namespace PTP
def EN : Fld := ⟨0x0A, 0, 0x10, 31, 31, .rwq, 0x1, 2, 16⟩
def TRANSPORT : Fld := ⟨0x0A, 0, 0x10, 29, 28, .rwq, 0x0, 2, 16⟩
def ANN_TIMEOUT : Fld := ⟨0x0A, 0, 0x10, 27, 24, .rwq, 0x3, 2, 16⟩
def DOMAIN : Fld := ⟨0x0A, 0, 0x10, 23, 16, .rwq, 0x0, 2, 16⟩
def MAJOR_SDO : Fld := ⟨0x0A, 0, 0x10, 15, 12, .rwq, 0x0, 2, 16⟩
def MINOR_SDO : Fld := ⟨0x0A, 0, 0x10, 7, 0, .rwq, 0x0, 2, 16⟩
def ASYM : Fld := ⟨0x0A, 0, 0x11, 15, 0, .rwq, 0x0, 2, 16⟩
def STATE : Fld := ⟨0x0A, 0, 0x12, 18, 16, .ro, 0x0, 2, 16⟩
def ARB : Fld := ⟨0x0A, 0, 0x12, 13, 13, .ro, 0x0, 2, 16⟩
def ONE_STEP : Fld := ⟨0x0A, 0, 0x12, 12, 12, .ro, 0x0, 2, 16⟩
def FOREIGN : Fld := ⟨0x0A, 0, 0x12, 10, 8, .ro, 0x0, 2, 16⟩
def LOG_SYNC : Fld := ⟨0x0A, 0, 0x12, 7, 0, .ro, 0x0, 2, 16⟩
def GM_HI : Fld := ⟨0x0A, 0, 0x13, 31, 0, .ro, 0x0, 2, 16⟩
def GM_LO : Fld := ⟨0x0A, 0, 0x14, 31, 0, .ro, 0x0, 2, 16⟩
def STEPS_REMOVED : Fld := ⟨0x0A, 0, 0x15, 23, 16, .ro, 0x0, 2, 16⟩
def PARENT_PORT : Fld := ⟨0x0A, 0, 0x15, 15, 0, .ro, 0x0, 2, 16⟩
def OFFSET : Fld := ⟨0x0A, 0, 0x16, 31, 0, .ro, 0x0, 2, 16⟩
def PATH_DELAY : Fld := ⟨0x0A, 0, 0x17, 31, 0, .ro, 0x0, 2, 16⟩
def UTC_VALID : Fld := ⟨0x0A, 0, 0x18, 31, 31, .ro, 0x0, 2, 16⟩
def UTC_LEAP61 : Fld := ⟨0x0A, 0, 0x18, 30, 30, .ro, 0x0, 2, 16⟩
def UTC_LEAP59 : Fld := ⟨0x0A, 0, 0x18, 29, 29, .ro, 0x0, 2, 16⟩
def PTP_TS : Fld := ⟨0x0A, 0, 0x18, 28, 28, .ro, 0x0, 2, 16⟩
def UTC_OFFSET : Fld := ⟨0x0A, 0, 0x18, 15, 0, .ro, 0x0, 2, 16⟩
def SYNC_RX : Fld := ⟨0x0A, 0, 0x19, 31, 0, .ctr, 0x0, 2, 16⟩
def DRESP_RX : Fld := ⟨0x0A, 0, 0x1A, 31, 0, .ctr, 0x0, 2, 16⟩
def DROPPED : Fld := ⟨0x0A, 0, 0x1B, 31, 0, .ctr, 0x0, 2, 16⟩
def flds0 : List Fld :=
  [EN, TRANSPORT, ANN_TIMEOUT, DOMAIN, MAJOR_SDO, MINOR_SDO,
   ASYM, STATE, ARB, ONE_STEP, FOREIGN, LOG_SYNC,
   GM_HI, GM_LO, STEPS_REMOVED, PARENT_PORT, OFFSET, PATH_DELAY,
   UTC_VALID, UTC_LEAP61, UTC_LEAP59, PTP_TS, UTC_OFFSET, SYNC_RX,
   DRESP_RX, DROPPED]
/-- Every field of the page. -/
def flds : List Fld := flds0
end PTP

namespace NET
def MDIX : Fld := ⟨0x0B, 0, 0x10, 8, 8, .ro, 0x0, 1, 1⟩
def UP : Fld := ⟨0x0B, 0, 0x10, 1, 1, .ro, 0x0, 1, 1⟩
def ANEG_DONE : Fld := ⟨0x0B, 0, 0x10, 0, 0, .ro, 0x0, 1, 1⟩
def MAC_HI : Fld := ⟨0x0B, 0, 0x11, 15, 0, .ro, 0x0, 1, 1⟩
def MAC_LO : Fld := ⟨0x0B, 0, 0x12, 31, 0, .ro, 0x0, 1, 1⟩
def IPV4 : Fld := ⟨0x0B, 0, 0x13, 31, 0, .rwq, 0x0, 1, 1⟩
def PCP : Fld := ⟨0x0B, 0, 0x14, 15, 13, .rwq, 0x7, 1, 1⟩
def TAGGED : Fld := ⟨0x0B, 0, 0x14, 12, 12, .rwq, 0x0, 1, 1⟩
def VID : Fld := ⟨0x0B, 0, 0x14, 11, 0, .rwq, 0x1, 1, 1⟩
def RX_CORR : Fld := ⟨0x0B, 0, 0x15, 15, 0, .ro, 0x194, 1, 1⟩
def TX_CORR : Fld := ⟨0x0B, 0, 0x16, 15, 0, .ro, 0xFFE8, 1, 1⟩
def RX_FRAMES : Fld := ⟨0x0B, 0, 0x18, 31, 0, .ctr, 0x0, 1, 1⟩
def RX_DROPPED : Fld := ⟨0x0B, 0, 0x19, 31, 0, .ctr, 0x0, 1, 1⟩
def TX_FRAMES : Fld := ⟨0x0B, 0, 0x1A, 31, 0, .ctr, 0x0, 1, 1⟩
def FCS_ERRS : Fld := ⟨0x0B, 0, 0x1B, 31, 0, .ctr, 0x0, 1, 1⟩
def flds0 : List Fld :=
  [MDIX, UP, ANEG_DONE, MAC_HI, MAC_LO, IPV4,
   PCP, TAGGED, VID, RX_CORR, TX_CORR, RX_FRAMES,
   RX_DROPPED, TX_FRAMES, FCS_ERRS]
/-- Every field of the page. -/
def flds : List Fld := flds0
end NET

namespace IMP
def LATE_TOL : Fld := ⟨0x0C, 0, 0x10, 31, 16, .rwq, 0xA, 1, 1⟩
def POLICY : Fld := ⟨0x0C, 0, 0x10, 8, 8, .rwq, 0x0, 1, 1⟩
def STEP_MODE : Fld := ⟨0x0C, 0, 0x10, 4, 4, .rwq, 0x0, 1, 1⟩
def DISARM : Fld := ⟨0x0C, 0, 0x11, 0, 0, .wo, 0x0, 1, 1⟩
def CANCEL_DO : Fld := ⟨0x0C, 0, 0x12, 31, 31, .wo, 0x0, 1, 1⟩
def CANCEL_SHEET : Fld := ⟨0x0C, 0, 0x12, 20, 16, .wo, 0x0, 1, 1⟩
def CANCEL_TAG : Fld := ⟨0x0C, 0, 0x12, 11, 0, .wo, 0x0, 1, 1⟩
def RES_CANCELLED : Fld := ⟨0x0C, 0, 0x13, 31, 16, .ro, 0x0, 1, 1⟩
def RES_TOO_LATE : Fld := ⟨0x0C, 0, 0x13, 15, 0, .ro, 0x0, 1, 1⟩
def ARMED_ANY : Fld := ⟨0x0C, 0, 0x14, 16, 0, .ro, 0x0, 1, 1⟩
def POST_OK : Fld := ⟨0x0C, 0, 0x15, 31, 0, .ro, 0x0, 1, 1⟩
def LAST_KIND : Fld := ⟨0x0C, 0, 0x16, 31, 28, .ro, 0x0, 1, 1⟩
def LAST_SHEET : Fld := ⟨0x0C, 0, 0x16, 24, 20, .ro, 0x0, 1, 1⟩
def LAST_CODE : Fld := ⟨0x0C, 0, 0x16, 19, 12, .ro, 0x0, 1, 1⟩
def LAST_TAG : Fld := ⟨0x0C, 0, 0x16, 11, 0, .ro, 0x0, 1, 1⟩
def LAST_LATE_NS : Fld := ⟨0x0C, 0, 0x17, 31, 0, .ro, 0x0, 1, 1⟩
def LAUNCHED : Fld := ⟨0x0C, 0, 0x18, 31, 0, .ctr, 0x0, 1, 1⟩
def LATE : Fld := ⟨0x0C, 0, 0x19, 31, 0, .ctr, 0x0, 1, 1⟩
def SKIPPED : Fld := ⟨0x0C, 0, 0x1A, 31, 0, .ctr, 0x0, 1, 1⟩
def REFUSED : Fld := ⟨0x0C, 0, 0x1B, 31, 0, .ctr, 0x0, 1, 1⟩
def CANCELLED : Fld := ⟨0x0C, 0, 0x1C, 31, 0, .ctr, 0x0, 1, 1⟩
def RULE_EN : Fld := ⟨0x0C, 0, 0x20, 31, 31, .rwq, 0x0, 4, 4⟩
def RULE_SOURCE : Fld := ⟨0x0C, 0, 0x20, 30, 29, .rwq, 0x0, 4, 4⟩
def RULE_GROUP : Fld := ⟨0x0C, 0, 0x20, 15, 0, .rwq, 0x0, 4, 4⟩
def RULE_DELAY_US : Fld := ⟨0x0C, 0, 0x21, 19, 0, .rwq, 0x12C, 4, 4⟩
def RULE_TEMPLATE : Fld := ⟨0x0C, 0, 0x22, 31, 0, .rwq, 0x0, 4, 4⟩
def RULE_TEMPLATE_ARG : Fld := ⟨0x0C, 0, 0x23, 31, 0, .rwq, 0x0, 4, 4⟩
def TRIG_GROUP : Fld := ⟨0x0C, 0, 0x30, 31, 16, .ro, 0x0, 1, 1⟩
def TRIG_TAG : Fld := ⟨0x0C, 0, 0x30, 15, 0, .ro, 0x0, 1, 1⟩
def TRIG_LAUNCH_HI : Fld := ⟨0x0C, 0, 0x31, 31, 0, .ro, 0x0, 1, 1⟩
def TRIG_LAUNCH_LO : Fld := ⟨0x0C, 0, 0x32, 31, 0, .ro, 0x0, 1, 1⟩
def TRIG_RX : Fld := ⟨0x0C, 0, 0x33, 31, 0, .ctr, 0x0, 1, 1⟩
def SHEET_ARMED : Fld := ⟨0x0C, 0, 0x40, 31, 27, .ro, 0x0, 17, 1⟩
def SHEET_USED : Fld := ⟨0x0C, 0, 0x40, 24, 16, .ro, 0x0, 17, 1⟩
def SHEET_LOW_AT : Fld := ⟨0x0C, 0, 0x40, 8, 0, .rw, 0x10, 17, 1⟩
def SLOT : Fld := ⟨0x0C, 0, 0x80, 31, 0, .rw, 0x0, 128, 1⟩
def flds0 : List Fld :=
  [LATE_TOL, POLICY, STEP_MODE, DISARM, CANCEL_DO, CANCEL_SHEET,
   CANCEL_TAG, RES_CANCELLED, RES_TOO_LATE, ARMED_ANY, POST_OK, LAST_KIND,
   LAST_SHEET, LAST_CODE, LAST_TAG, LAST_LATE_NS, LAUNCHED, LATE,
   SKIPPED, REFUSED, CANCELLED, RULE_EN, RULE_SOURCE, RULE_GROUP,
   RULE_DELAY_US, RULE_TEMPLATE, RULE_TEMPLATE_ARG, TRIG_GROUP, TRIG_TAG, TRIG_LAUNCH_HI]
def flds1 : List Fld :=
  [TRIG_LAUNCH_LO, TRIG_RX, SHEET_ARMED, SHEET_USED, SHEET_LOW_AT, SLOT]
/-- Every field of the page. -/
def flds : List Fld := flds0 ++ flds1
end IMP

namespace CHASE
def FW_VERSION : Fld := ⟨0x0D, 0, 0x10, 31, 0, .ro, 0x0, 1, 1⟩
def FW_ISSUE : Fld := ⟨0x0D, 0, 0x11, 31, 24, .ro, 0x0, 1, 1⟩
def FW_ROLLBACK : Fld := ⟨0x0D, 0, 0x11, 13, 8, .ro, 0x0, 1, 1⟩
def OTHER_VERSION : Fld := ⟨0x0D, 0, 0x12, 31, 0, .ro, 0x0, 1, 1⟩
def SVC_ARG : Fld := ⟨0x0D, 0, 0x18, 31, 0, .rw, 0x0, 8, 1⟩
def SVC_GO_GO : Fld := ⟨0x0D, 0, 0x20, 31, 31, .wo, 0x0, 1, 1⟩
def SVC_GO_OP : Fld := ⟨0x0D, 0, 0x20, 7, 0, .wo, 0x0, 1, 1⟩
def SVC_STAT_STATE : Fld := ⟨0x0D, 0, 0x21, 31, 24, .ro, 0x0, 1, 1⟩
def SVC_STAT_OUTCOME : Fld := ⟨0x0D, 0, 0x21, 23, 16, .ro, 0x0, 1, 1⟩
def SVC_STAT_OP : Fld := ⟨0x0D, 0, 0x21, 15, 8, .ro, 0x0, 1, 1⟩
def SVC_STAT_SEQ : Fld := ⟨0x0D, 0, 0x21, 7, 0, .ro, 0x0, 1, 1⟩
def SVC_RES : Fld := ⟨0x0D, 0, 0x22, 31, 0, .ro, 0x0, 4, 1⟩
def PKEY_VALID : Fld := ⟨0x0D, 0, 0x26, 3, 0, .ro, 0x0, 1, 1⟩
def PKEY_CTL_ERASE : Fld := ⟨0x0D, 0, 0x27, 9, 9, .wo, 0x0, 1, 1⟩
def PKEY_CTL_LOAD : Fld := ⟨0x0D, 0, 0x27, 8, 8, .wo, 0x0, 1, 1⟩
def PKEY_CTL_SLOT : Fld := ⟨0x0D, 0, 0x27, 1, 0, .wo, 0x0, 1, 1⟩
def PKEY_LOAD : Fld := ⟨0x0D, 0, 0x28, 31, 0, .wo, 0x0, 8, 1⟩
def PKEY : Fld := ⟨0x0D, 0, 0x40, 31, 0, .ro, 0x0, 32, 1⟩
def CEIL_VMAX : Fld := ⟨0x0D, 0, 0x60, 31, 0, .rw, 0x447A0000, 16, 4⟩
def CEIL_IMAX : Fld := ⟨0x0D, 0, 0x61, 31, 0, .rw, 0x3B03126F, 16, 4⟩
def CEIL_EMAX : Fld := ⟨0x0D, 0, 0x62, 31, 0, .rw, 0x41200000, 16, 4⟩
def GRANT_VMAX : Fld := ⟨0x0D, 0, 0xA0, 31, 0, .ro, 0x0, 16, 4⟩
def GRANT_IMAX : Fld := ⟨0x0D, 0, 0xA1, 31, 0, .ro, 0x0, 16, 4⟩
def GRANT_EMAX : Fld := ⟨0x0D, 0, 0xA2, 31, 0, .ro, 0x0, 16, 4⟩
def GRANT_REMAIN_S : Fld := ⟨0x0D, 0, 0xA3, 16, 0, .ro, 0x0, 16, 4⟩
def flds0 : List Fld :=
  [FW_VERSION, FW_ISSUE, FW_ROLLBACK, OTHER_VERSION, SVC_ARG, SVC_GO_GO,
   SVC_GO_OP, SVC_STAT_STATE, SVC_STAT_OUTCOME, SVC_STAT_OP, SVC_STAT_SEQ, SVC_RES,
   PKEY_VALID, PKEY_CTL_ERASE, PKEY_CTL_LOAD, PKEY_CTL_SLOT, PKEY_LOAD, PKEY,
   CEIL_VMAX, CEIL_IMAX, CEIL_EMAX, GRANT_VMAX, GRANT_IMAX, GRANT_EMAX,
   GRANT_REMAIN_S]
/-- Every field of the page. -/
def flds : List Fld := flds0
end CHASE

namespace CAL
def DATE : Fld := ⟨0x0E, 0, 0x10, 31, 0, .ro, 0x0, 1, 1⟩
def TIME : Fld := ⟨0x0E, 0, 0x11, 31, 0, .ro, 0x0, 1, 1⟩
def STAT_SET : Fld := ⟨0x0E, 0, 0x12, 31, 31, .ro, 0x0, 1, 1⟩
def STAT_LEAP : Fld := ⟨0x0E, 0, 0x12, 30, 30, .ro, 0x0, 1, 1⟩
def STAT_RANGE_END : Fld := ⟨0x0E, 0, 0x12, 29, 29, .ro, 0x0, 1, 1⟩
def STAT_SRC : Fld := ⟨0x0E, 0, 0x12, 25, 24, .ro, 0x0, 1, 1⟩
def STAT_EXPIRED : Fld := ⟨0x0E, 0, 0x12, 15, 0, .ro, 0x0, 1, 1⟩
def SET_DATE : Fld := ⟨0x0E, 0, 0x13, 31, 0, .rw, 0x0, 1, 1⟩
def SET_TIME : Fld := ⟨0x0E, 0, 0x14, 31, 0, .rw, 0x0, 1, 1⟩
def CMD_SET : Fld := ⟨0x0E, 0, 0x15, 0, 0, .wo, 0x0, 1, 1⟩
def ALARM_DATE : Fld := ⟨0x0E, 0, 0x16, 31, 0, .rw, 0x0, 1, 1⟩
def ALARM_TIME_EN : Fld := ⟨0x0E, 0, 0x17, 31, 31, .rw, 0x0, 1, 1⟩
def ALARM_TIME : Fld := ⟨0x0E, 0, 0x17, 20, 0, .rw, 0x0, 1, 1⟩
def WARN_DAYS : Fld := ⟨0x0E, 0, 0x18, 15, 8, .rw, 0x1E, 1, 1⟩
def POLICY : Fld := ⟨0x0E, 0, 0x18, 0, 0, .rw, 0x0, 1, 1⟩
def CAL_DATE : Fld := ⟨0x0E, 0, 0x20, 31, 0, .ro, 0x0, 16, 2⟩
def DUE_DATE : Fld := ⟨0x0E, 0, 0x21, 31, 0, .ro, 0x0, 16, 2⟩
def REC_VALID : Fld := ⟨0x0E, 0, 0x40, 31, 31, .ro, 0x0, 16, 1⟩
def INTERVAL : Fld := ⟨0x0E, 0, 0x40, 7, 0, .ro, 0x0, 16, 1⟩
def flds0 : List Fld :=
  [DATE, TIME, STAT_SET, STAT_LEAP, STAT_RANGE_END, STAT_SRC,
   STAT_EXPIRED, SET_DATE, SET_TIME, CMD_SET, ALARM_DATE, ALARM_TIME_EN,
   ALARM_TIME, WARN_DAYS, POLICY, CAL_DATE, DUE_DATE, REC_VALID,
   INTERVAL]
/-- Every field of the page. -/
def flds : List Fld := flds0
end CAL

namespace LOG
def CFG_MODE : Fld := ⟨0x0F, 0, 0x10, 0, 0, .rw, 0x0, 1, 1⟩
def CMD_KEY : Fld := ⟨0x0F, 0, 0x11, 31, 16, .wo, 0x0, 1, 1⟩
def CMD_WEAR_GRANT : Fld := ⟨0x0F, 0, 0x11, 4, 4, .wo, 0x0, 1, 1⟩
def CMD_CLEAR_GENERAL : Fld := ⟨0x0F, 0, 0x11, 1, 1, .wo, 0x0, 1, 1⟩
def CMD_CLEAR_FAULT : Fld := ⟨0x0F, 0, 0x11, 0, 0, .wo, 0x0, 1, 1⟩
def STAT_FROZEN : Fld := ⟨0x0F, 0, 0x12, 31, 31, .ro, 0x0, 1, 1⟩
def STAT_GEN_FULL : Fld := ⟨0x0F, 0, 0x12, 30, 30, .ro, 0x0, 1, 1⟩
def STAT_FAULT_FULL : Fld := ⟨0x0F, 0, 0x12, 29, 29, .ro, 0x0, 1, 1⟩
def STAT_ERASING : Fld := ⟨0x0F, 0, 0x12, 28, 28, .ro, 0x0, 1, 1⟩
def STAT_WEAR_DUE : Fld := ⟨0x0F, 0, 0x12, 27, 27, .ro, 0x0, 1, 1⟩
def STAT_FAULT_COUNT : Fld := ⟨0x0F, 0, 0x12, 12, 0, .ro, 0x0, 1, 1⟩
def NEXT_HI : Fld := ⟨0x0F, 0, 0x13, 31, 0, .ro, 0x0, 1, 1⟩
def NEXT_LO : Fld := ⟨0x0F, 0, 0x14, 31, 0, .ro, 0x0, 1, 1⟩
def OLDEST_HI : Fld := ⟨0x0F, 0, 0x15, 31, 0, .ro, 0x0, 1, 1⟩
def OLDEST_LO : Fld := ⟨0x0F, 0, 0x16, 31, 0, .ro, 0x0, 1, 1⟩
def BUCKET : Fld := ⟨0x0F, 0, 0x17, 10, 0, .ro, 0x4B0, 1, 1⟩
def DROPPED : Fld := ⟨0x0F, 0, 0x18, 31, 0, .ctr, 0x0, 1, 1⟩
def WEAR_DEFERS : Fld := ⟨0x0F, 0, 0x19, 31, 0, .ctr, 0x0, 1, 1⟩
def WEAR_PREEMPTS : Fld := ⟨0x0F, 0, 0x1A, 31, 0, .ctr, 0x0, 1, 1⟩
def ERASE_MAX : Fld := ⟨0x0F, 0, 0x1B, 31, 0, .ro, 0x0, 1, 1⟩
def RD_REGION : Fld := ⟨0x0F, 0, 0x20, 31, 31, .rw, 0x0, 1, 1⟩
def RD_INDEX_HI : Fld := ⟨0x0F, 0, 0x21, 31, 0, .rw, 0x0, 1, 1⟩
def RD_INDEX_LO : Fld := ⟨0x0F, 0, 0x22, 31, 0, .rw, 0x0, 1, 1⟩
def RD_STAT_READY : Fld := ⟨0x0F, 0, 0x23, 31, 31, .ro, 0x0, 1, 1⟩
def RD_STAT_GONE : Fld := ⟨0x0F, 0, 0x23, 30, 30, .ro, 0x0, 1, 1⟩
def RD_ENTRY : Fld := ⟨0x0F, 0, 0x30, 31, 0, .ro, 0x0, 16, 1⟩
def flds0 : List Fld :=
  [CFG_MODE, CMD_KEY, CMD_WEAR_GRANT, CMD_CLEAR_GENERAL, CMD_CLEAR_FAULT, STAT_FROZEN,
   STAT_GEN_FULL, STAT_FAULT_FULL, STAT_ERASING, STAT_WEAR_DUE, STAT_FAULT_COUNT, NEXT_HI,
   NEXT_LO, OLDEST_HI, OLDEST_LO, BUCKET, DROPPED, WEAR_DEFERS,
   WEAR_PREEMPTS, ERASE_MAX, RD_REGION, RD_INDEX_HI, RD_INDEX_LO, RD_STAT_READY,
   RD_STAT_GONE, RD_ENTRY]
/-- Every field of the page. -/
def flds : List Fld := flds0
end LOG

namespace SB
def CFG_ALERT_MASK : Fld := ⟨0x10, 0, 0x10, 20, 16, .rw, 0x0, 1, 1⟩
def CFG_PEC_MODE : Fld := ⟨0x10, 0, 0x10, 9, 8, .rw, 0x0, 1, 1⟩
def CFG_SLEEP : Fld := ⟨0x10, 0, 0x10, 4, 4, .rw, 0x0, 1, 1⟩
def STAT_ALERT : Fld := ⟨0x10, 0, 0x11, 24, 24, .ro, 0x0, 1, 1⟩
def STAT_PENDING : Fld := ⟨0x10, 0, 0x11, 20, 16, .ro, 0x0, 1, 1⟩
def STAT_AWAKE : Fld := ⟨0x10, 0, 0x11, 8, 8, .ro, 0x1, 1, 1⟩
def STAT_ADDRESS : Fld := ⟨0x10, 0, 0x11, 6, 0, .ro, 0x0, 1, 1⟩
def ALERT_SET_HOST : Fld := ⟨0x10, 0, 0x12, 4, 4, .wo, 0x0, 1, 1⟩
def LAST_CMD : Fld := ⟨0x10, 0, 0x13, 31, 0, .ro, 0x0, 1, 1⟩
def LAST_RSP : Fld := ⟨0x10, 0, 0x14, 31, 0, .ro, 0x0, 1, 1⟩
def COMMANDS : Fld := ⟨0x10, 0, 0x18, 31, 0, .ctr, 0x0, 1, 1⟩
def PEC_ERRS : Fld := ⟨0x10, 0, 0x19, 31, 0, .ctr, 0x0, 1, 1⟩
def TIMEOUTS : Fld := ⟨0x10, 0, 0x1A, 31, 0, .ctr, 0x0, 1, 1⟩
def STRETCH_ABORTS : Fld := ⟨0x10, 0, 0x1B, 31, 0, .ctr, 0x0, 1, 1⟩
def WAKE_NAKS : Fld := ⟨0x10, 0, 0x1C, 31, 0, .ctr, 0x0, 1, 1⟩
def flds0 : List Fld :=
  [CFG_ALERT_MASK, CFG_PEC_MODE, CFG_SLEEP, STAT_ALERT, STAT_PENDING, STAT_AWAKE,
   STAT_ADDRESS, ALERT_SET_HOST, LAST_CMD, LAST_RSP, COMMANDS, PEC_ERRS,
   TIMEOUTS, STRETCH_ABORTS, WAKE_NAKS]
/-- Every field of the page. -/
def flds : List Fld := flds0
end SB

namespace FIX
def CFG_DEV_ADDR : Fld := ⟨0x11, 0, 0x10, 31, 25, .rw, 0x50, 1, 1⟩
def CFG_AUTO_READ : Fld := ⟨0x11, 0, 0x10, 24, 24, .rw, 0x1, 1, 1⟩
def CFG_WRITE_CYCLE_MS : Fld := ⟨0x11, 0, 0x10, 20, 16, .rw, 0xA, 1, 1⟩
def CFG_PAGE : Fld := ⟨0x11, 0, 0x10, 13, 12, .rw, 0x1, 1, 1⟩
def CFG_RETRY : Fld := ⟨0x11, 0, 0x10, 6, 4, .rw, 0x2, 1, 1⟩
def CFG_ADDR16 : Fld := ⟨0x11, 0, 0x10, 1, 1, .rw, 0x0, 1, 1⟩
def CFG_SPEED : Fld := ⟨0x11, 0, 0x10, 0, 0, .rw, 0x0, 1, 1⟩
def OP_GO : Fld := ⟨0x11, 0, 0x11, 31, 31, .wo, 0x0, 1, 1⟩
def OP_OP : Fld := ⟨0x11, 0, 0x11, 26, 24, .wo, 0x0, 1, 1⟩
def OP_COUNT : Fld := ⟨0x11, 0, 0x11, 23, 16, .wo, 0x0, 1, 1⟩
def OP_MEM_ADDR : Fld := ⟨0x11, 0, 0x11, 15, 0, .wo, 0x0, 1, 1⟩
def TIMEOUT_MS : Fld := ⟨0x11, 0, 0x12, 15, 0, .rw, 0x64, 1, 1⟩
def STAT_STATE : Fld := ⟨0x11, 0, 0x13, 31, 24, .ro, 0x0, 1, 1⟩
def STAT_OUTCOME : Fld := ⟨0x11, 0, 0x13, 23, 16, .ro, 0x0, 1, 1⟩
def STAT_ATTEMPTS : Fld := ⟨0x11, 0, 0x13, 15, 8, .ro, 0x0, 1, 1⟩
def WORST_US : Fld := ⟨0x11, 0, 0x14, 31, 0, .ro, 0x0, 1, 1⟩
def PRESENT : Fld := ⟨0x11, 0, 0x15, 31, 31, .ro, 0x0, 1, 1⟩
def REC_VALID : Fld := ⟨0x11, 0, 0x15, 30, 30, .ro, 0x0, 1, 1⟩
def REC_OUTCOME : Fld := ⟨0x11, 0, 0x15, 7, 0, .ro, 0x0, 1, 1⟩
def OPS : Fld := ⟨0x11, 0, 0x18, 31, 0, .ctr, 0x0, 1, 1⟩
def NAKS : Fld := ⟨0x11, 0, 0x19, 31, 0, .ctr, 0x0, 1, 1⟩
def RETRIES : Fld := ⟨0x11, 0, 0x1A, 31, 0, .ctr, 0x0, 1, 1⟩
def LOWER_ABORTED : Fld := ⟨0x11, 0, 0x1B, 31, 0, .ctr, 0x0, 1, 1⟩
def LATE_DISCARD : Fld := ⟨0x11, 0, 0x1C, 31, 0, .ctr, 0x0, 1, 1⟩
def BUS_CLEARS : Fld := ⟨0x11, 0, 0x1D, 31, 0, .ctr, 0x0, 1, 1⟩
def BUS_STUCKS : Fld := ⟨0x11, 0, 0x1E, 31, 0, .ctr, 0x0, 1, 1⟩
def BUF : Fld := ⟨0x11, 0, 0x40, 31, 0, .rw, 0x0, 64, 1⟩
def REC : Fld := ⟨0x11, 0, 0x80, 31, 0, .ro, 0x0, 64, 1⟩
def flds0 : List Fld :=
  [CFG_DEV_ADDR, CFG_AUTO_READ, CFG_WRITE_CYCLE_MS, CFG_PAGE, CFG_RETRY, CFG_ADDR16,
   CFG_SPEED, OP_GO, OP_OP, OP_COUNT, OP_MEM_ADDR, TIMEOUT_MS,
   STAT_STATE, STAT_OUTCOME, STAT_ATTEMPTS, WORST_US, PRESENT, REC_VALID,
   REC_OUTCOME, OPS, NAKS, RETRIES, LOWER_ABORTED, LATE_DISCARD,
   BUS_CLEARS, BUS_STUCKS, BUF, REC]
/-- Every field of the page. -/
def flds : List Fld := flds0
end FIX

namespace SYNC
def IN_CFG : Fld := ⟨0x12, 0, 0x10, 1, 0, .rwq, 0x0, 1, 1⟩
def IN_STAT_COUNT : Fld := ⟨0x12, 0, 0x11, 20, 16, .ro, 0x0, 1, 1⟩
def IN_STAT_HEAD_RISING : Fld := ⟨0x12, 0, 0x11, 8, 8, .ro, 0x0, 1, 1⟩
def IN_HEAD_HI : Fld := ⟨0x12, 0, 0x12, 31, 0, .ro, 0x0, 1, 1⟩
def IN_HEAD_LO : Fld := ⟨0x12, 0, 0x13, 31, 0, .ro, 0x0, 1, 1⟩
def IN_RELEASE : Fld := ⟨0x12, 0, 0x14, 4, 0, .wo, 0x0, 1, 1⟩
def IN_DROPS : Fld := ⟨0x12, 0, 0x15, 31, 0, .ctr, 0x0, 1, 1⟩
def OUT_LEVEL : Fld := ⟨0x12, 0, 0x16, 0, 0, .ro, 0x0, 1, 1⟩
def PPS_EN : Fld := ⟨0x12, 0, 0x17, 31, 31, .rwq, 0x1, 1, 1⟩
def PPS_REQ_LOCK : Fld := ⟨0x12, 0, 0x17, 30, 30, .rwq, 0x0, 1, 1⟩
def PPS_WIDTH_MS : Fld := ⟨0x12, 0, 0x17, 8, 0, .rwq, 0x64, 1, 1⟩
def flds0 : List Fld :=
  [IN_CFG, IN_STAT_COUNT, IN_STAT_HEAD_RISING, IN_HEAD_HI, IN_HEAD_LO, IN_RELEASE,
   IN_DROPS, OUT_LEVEL, PPS_EN, PPS_REQ_LOCK, PPS_WIDTH_MS]
/-- Every field of the page. -/
def flds : List Fld := flds0
end SYNC

namespace THERM
def BASEPLATE : Fld := ⟨0x13, 0, 0x10, 15, 0, .ro, 0x0, 1, 1⟩
def NEAR_DIE : Fld := ⟨0x13, 0, 0x11, 15, 0, .ro, 0x0, 1, 1⟩
def CFG_WARN_C : Fld := ⟨0x13, 0, 0x12, 7, 0, .rw, 0x3A, 1, 1⟩
def STAT_SHED : Fld := ⟨0x13, 0, 0x13, 31, 31, .ro, 0x0, 1, 1⟩
def STAT_WARN : Fld := ⟨0x13, 0, 0x13, 30, 30, .ro, 0x0, 1, 1⟩
def STAT_LANES_HOT : Fld := ⟨0x13, 0, 0x13, 15, 0, .ro, 0x0, 1, 1⟩
def BASE_MAX : Fld := ⟨0x13, 0, 0x14, 15, 0, .ctr, 0x0, 1, 1⟩
def SHEDS : Fld := ⟨0x13, 0, 0x15, 31, 0, .ctr, 0x0, 1, 1⟩
def FAR : Fld := ⟨0x13, 0, 0x20, 15, 0, .ro, 0x0, 16, 1⟩
def flds0 : List Fld :=
  [BASEPLATE, NEAR_DIE, CFG_WARN_C, STAT_SHED, STAT_WARN, STAT_LANES_HOT,
   BASE_MAX, SHEDS, FAR]
/-- Every field of the page. -/
def flds : List Fld := flds0
end THERM

namespace LANE
def STATE_RESYNC_COUNT : Fld := ⟨0x40, 8, 0x10, 31, 16, .ctr, 0x0, 1, 1⟩
def STATE_FAR_SAFE : Fld := ⟨0x40, 8, 0x10, 11, 11, .ro, 0x1, 1, 1⟩
def STATE_DISCIPLINED : Fld := ⟨0x40, 8, 0x10, 10, 10, .ro, 0x0, 1, 1⟩
def STATE_STALE : Fld := ⟨0x40, 8, 0x10, 9, 9, .ro, 0x1, 1, 1⟩
def STATE_LOCKED : Fld := ⟨0x40, 8, 0x10, 8, 8, .ro, 0x0, 1, 1⟩
def STATE_PHASE : Fld := ⟨0x40, 8, 0x10, 2, 0, .ro, 0x0, 1, 1⟩
def BAD_FRAMES : Fld := ⟨0x40, 8, 0x11, 31, 0, .ctr, 0x0, 1, 1⟩
def RESENDS : Fld := ⟨0x40, 8, 0x12, 31, 0, .ctr, 0x0, 1, 1⟩
def FIFO_DROPS : Fld := ⟨0x40, 8, 0x13, 31, 0, .ctr, 0x0, 1, 1⟩
def TELEM_DEFER : Fld := ⟨0x40, 8, 0x14, 31, 0, .ctr, 0x0, 1, 1⟩
def UP_RATE : Fld := ⟨0x40, 8, 0x15, 31, 0, .ro, 0x0, 1, 1⟩
def ILK_LAST_CAUSE : Fld := ⟨0x40, 8, 0x16, 7, 5, .ro, 0x0, 1, 1⟩
def ILK_DISCREPANCY : Fld := ⟨0x40, 8, 0x16, 4, 4, .w1c, 0x0, 1, 1⟩
def ILK_HW_OFF : Fld := ⟨0x40, 8, 0x16, 3, 3, .ro, 0x1, 1, 1⟩
def ILK_CLOSED : Fld := ⟨0x40, 8, 0x16, 2, 2, .ro, 0x0, 1, 1⟩
def ILK_B : Fld := ⟨0x40, 8, 0x16, 1, 1, .ro, 0x0, 1, 1⟩
def ILK_A : Fld := ⟨0x40, 8, 0x16, 0, 0, .ro, 0x0, 1, 1⟩
def ISO_PIN_MW : Fld := ⟨0x40, 8, 0x17, 31, 16, .ro, 0x0, 1, 1⟩
def ISO_TRIPPED : Fld := ⟨0x40, 8, 0x17, 1, 1, .ro, 0x0, 1, 1⟩
def ISO_REARM : Fld := ⟨0x40, 8, 0x17, 0, 0, .wo, 0x0, 1, 1⟩
def ILK_OPENS : Fld := ⟨0x40, 8, 0x18, 31, 0, .ctr, 0x0, 1, 1⟩
def ISO_TRIPS : Fld := ⟨0x40, 8, 0x19, 31, 0, .ctr, 0x0, 1, 1⟩
def RST_KEY : Fld := ⟨0x40, 8, 0x1A, 31, 16, .wo, 0x0, 1, 1⟩
def RST_ENGINE : Fld := ⟨0x40, 8, 0x1A, 1, 1, .wo, 0x0, 1, 1⟩
def RST_LANE : Fld := ⟨0x40, 8, 0x1A, 0, 0, .wo, 0x0, 1, 1⟩
def SELFTEST_DONE : Fld := ⟨0x40, 8, 0x1B, 31, 31, .ro, 0x0, 1, 1⟩
def SELFTEST_PASS : Fld := ⟨0x40, 8, 0x1B, 30, 30, .ro, 0x0, 1, 1⟩
def SELFTEST_FAILED : Fld := ⟨0x40, 8, 0x1B, 11, 0, .ro, 0x0, 1, 1⟩
def HUNT_CANDIDATES : Fld := ⟨0x40, 8, 0x1C, 31, 16, .ctr, 0x0, 1, 1⟩
def HUNT_LOCK_US : Fld := ⟨0x40, 8, 0x1C, 15, 0, .ro, 0x0, 1, 1⟩
def GAL_CTL_MODE : Fld := ⟨0x40, 8, 0x20, 4, 4, .rw, 0x0, 1, 1⟩
def GAL_CTL_RUN : Fld := ⟨0x40, 8, 0x20, 0, 0, .rw, 0x0, 1, 1⟩
def GAL_PBASE : Fld := ⟨0x40, 8, 0x21, 25, 12, .rw, 0x0, 1, 1⟩
def GAL_VBASE : Fld := ⟨0x40, 8, 0x22, 31, 12, .rw, 0x0, 1, 1⟩
def GAL_SIZE : Fld := ⟨0x40, 8, 0x23, 21, 0, .rw, 0x0, 1, 1⟩
def GAL_WATER : Fld := ⟨0x40, 8, 0x24, 21, 0, .rw, 0x0, 1, 1⟩
def GAL_WCOUNT_HI : Fld := ⟨0x40, 8, 0x25, 31, 0, .ro, 0x0, 1, 1⟩
def GAL_WCOUNT_LO : Fld := ⟨0x40, 8, 0x26, 31, 0, .ro, 0x0, 1, 1⟩
def GAL_RCOUNT_HI : Fld := ⟨0x40, 8, 0x27, 31, 0, .ro, 0x0, 1, 1⟩
def GAL_RCOUNT_LO : Fld := ⟨0x40, 8, 0x28, 31, 0, .ro, 0x0, 1, 1⟩
def GAL_RELEASE : Fld := ⟨0x40, 8, 0x29, 31, 0, .wo, 0x0, 1, 1⟩
def GAL_RSTART : Fld := ⟨0x40, 8, 0x2A, 31, 0, .ro, 0x0, 1, 1⟩
def GAL_STAT_FULL : Fld := ⟨0x40, 8, 0x2B, 31, 31, .ro, 0x0, 1, 1⟩
def GAL_STAT_D0_FAULTED : Fld := ⟨0x40, 8, 0x2B, 30, 30, .ro, 0x0, 1, 1⟩
def GAL_STAT_D0_PAUSED : Fld := ⟨0x40, 8, 0x2B, 29, 29, .ro, 0x0, 1, 1⟩
def GAL_STAT_RUNNING : Fld := ⟨0x40, 8, 0x2B, 28, 28, .ro, 0x0, 1, 1⟩
def GAL_STAT_UNREL : Fld := ⟨0x40, 8, 0x2B, 21, 0, .ro, 0x0, 1, 1⟩
def GAL_OVERWRITTEN : Fld := ⟨0x40, 8, 0x2C, 31, 0, .ctr, 0x0, 1, 1⟩
def GAL_DISCARDS : Fld := ⟨0x40, 8, 0x2D, 31, 0, .ctr, 0x0, 1, 1⟩
def DMA_FAULTS : Fld := ⟨0x40, 8, 0x2E, 31, 0, .ctr, 0x0, 1, 1⟩
def D0_CTL_RESUME : Fld := ⟨0x40, 8, 0x2F, 0, 0, .wo, 0x0, 1, 1⟩
def HWR_BASE : Fld := ⟨0x40, 8, 0x30, 25, 12, .rw, 0x0, 1, 1⟩
def HWR_LIMIT : Fld := ⟨0x40, 8, 0x31, 26, 12, .rw, 0x0, 1, 1⟩
def D1_RING : Fld := ⟨0x40, 8, 0x34, 31, 4, .rw, 0x0, 1, 1⟩
def D1_CTL_RUN : Fld := ⟨0x40, 8, 0x35, 31, 31, .rw, 0x0, 1, 1⟩
def D1_CTL_ABORT : Fld := ⟨0x40, 8, 0x35, 18, 18, .wo, 0x0, 1, 1⟩
def D1_CTL_RESUME : Fld := ⟨0x40, 8, 0x35, 17, 17, .wo, 0x0, 1, 1⟩
def D1_CTL_KICK : Fld := ⟨0x40, 8, 0x35, 16, 16, .wo, 0x0, 1, 1⟩
def D1_CTL_RING_LEN : Fld := ⟨0x40, 8, 0x35, 8, 0, .rw, 0x1, 1, 1⟩
def D1_HEAD : Fld := ⟨0x40, 8, 0x36, 7, 0, .ro, 0x0, 1, 1⟩
def D1_CUR_SRC : Fld := ⟨0x40, 8, 0x37, 31, 0, .ro, 0x0, 1, 1⟩
def D1_CUR_DST : Fld := ⟨0x40, 8, 0x38, 31, 0, .ro, 0x0, 1, 1⟩
def D1_CUR_LEN : Fld := ⟨0x40, 8, 0x39, 31, 0, .ro, 0x0, 1, 1⟩
def D1_STAT_FAULTED : Fld := ⟨0x40, 8, 0x3A, 31, 31, .ro, 0x0, 1, 1⟩
def D1_STAT_BUSY : Fld := ⟨0x40, 8, 0x3A, 30, 30, .ro, 0x0, 1, 1⟩
def D1_STAT_TAG : Fld := ⟨0x40, 8, 0x3A, 23, 8, .ro, 0x0, 1, 1⟩
def D1_STAT_KIND : Fld := ⟨0x40, 8, 0x3A, 7, 4, .ro, 0x0, 1, 1⟩
def D1_STAT_WRITE : Fld := ⟨0x40, 8, 0x3A, 2, 2, .ro, 0x0, 1, 1⟩
def D1_FAULT_VA : Fld := ⟨0x40, 8, 0x3B, 31, 0, .ro, 0x0, 1, 1⟩
def HALT_POLICY : Fld := ⟨0x40, 8, 0x3C, 0, 0, .rw, 0x0, 1, 1⟩
def flds0 : List Fld :=
  [STATE_RESYNC_COUNT, STATE_FAR_SAFE, STATE_DISCIPLINED, STATE_STALE, STATE_LOCKED, STATE_PHASE,
   BAD_FRAMES, RESENDS, FIFO_DROPS, TELEM_DEFER, UP_RATE, ILK_LAST_CAUSE,
   ILK_DISCREPANCY, ILK_HW_OFF, ILK_CLOSED, ILK_B, ILK_A, ISO_PIN_MW,
   ISO_TRIPPED, ISO_REARM, ILK_OPENS, ISO_TRIPS, RST_KEY, RST_ENGINE,
   RST_LANE, SELFTEST_DONE, SELFTEST_PASS, SELFTEST_FAILED, HUNT_CANDIDATES, HUNT_LOCK_US]
def flds1 : List Fld :=
  [GAL_CTL_MODE, GAL_CTL_RUN, GAL_PBASE, GAL_VBASE, GAL_SIZE, GAL_WATER,
   GAL_WCOUNT_HI, GAL_WCOUNT_LO, GAL_RCOUNT_HI, GAL_RCOUNT_LO, GAL_RELEASE, GAL_RSTART,
   GAL_STAT_FULL, GAL_STAT_D0_FAULTED, GAL_STAT_D0_PAUSED, GAL_STAT_RUNNING, GAL_STAT_UNREL, GAL_OVERWRITTEN,
   GAL_DISCARDS, DMA_FAULTS, D0_CTL_RESUME, HWR_BASE, HWR_LIMIT, D1_RING,
   D1_CTL_RUN, D1_CTL_ABORT, D1_CTL_RESUME, D1_CTL_KICK, D1_CTL_RING_LEN, D1_HEAD]
def flds2 : List Fld :=
  [D1_CUR_SRC, D1_CUR_DST, D1_CUR_LEN, D1_STAT_FAULTED, D1_STAT_BUSY, D1_STAT_TAG,
   D1_STAT_KIND, D1_STAT_WRITE, D1_FAULT_VA, HALT_POLICY]
/-- Every field of the page. -/
def flds : List Fld := flds0 ++ flds1 ++ flds2
end LANE

namespace SMU
def CMD_AZ_GRANT : Fld := ⟨0x41, 8, 0x10, 4, 4, .wo, 0x0, 1, 1⟩
def CMD_MEASURE : Fld := ⟨0x41, 8, 0x10, 3, 3, .wo, 0x0, 1, 1⟩
def CMD_ABORT : Fld := ⟨0x41, 8, 0x10, 2, 2, .wo, 0x0, 1, 1⟩
def CMD_STOP : Fld := ⟨0x41, 8, 0x10, 1, 1, .wo, 0x0, 1, 1⟩
def CMD_START : Fld := ⟨0x41, 8, 0x10, 0, 0, .wo, 0x0, 1, 1⟩
def STAT_AZ_RUNNING : Fld := ⟨0x41, 8, 0x11, 22, 22, .ro, 0x0, 1, 1⟩
def STAT_AZ_DUE : Fld := ⟨0x41, 8, 0x11, 21, 21, .ro, 0x0, 1, 1⟩
def STAT_CAL_EXPIRED : Fld := ⟨0x41, 8, 0x11, 20, 20, .ro, 0x0, 1, 1⟩
def STAT_CONT_CLOSED : Fld := ⟨0x41, 8, 0x11, 19, 19, .ro, 0x0, 1, 1⟩
def STAT_FRISKET_CLAMP : Fld := ⟨0x41, 8, 0x11, 18, 18, .ro, 0x0, 1, 1⟩
def STAT_POWER_LIMIT : Fld := ⟨0x41, 8, 0x11, 17, 17, .ro, 0x0, 1, 1⟩
def STAT_COMPLIANCE : Fld := ⟨0x41, 8, 0x11, 16, 16, .ro, 0x0, 1, 1⟩
def STAT_CAUSE : Fld := ⟨0x41, 8, 0x11, 15, 8, .ro, 0x0, 1, 1⟩
def STAT_STATE : Fld := ⟨0x41, 8, 0x11, 3, 0, .ro, 0x0, 1, 1⟩
def E_USED : Fld := ⟨0x41, 8, 0x12, 31, 0, .ro, 0x0, 1, 1⟩
def CFG_OFFSET_COMP : Fld := ⟨0x41, 8, 0x14, 13, 13, .rws, 0x0, 1, 1⟩
def CFG_SENSE : Fld := ⟨0x41, 8, 0x14, 12, 12, .rws, 0x0, 1, 1⟩
def CFG_VRANGE : Fld := ⟨0x41, 8, 0x14, 8, 8, .rws, 0x0, 1, 1⟩
def CFG_MODE : Fld := ⟨0x41, 8, 0x14, 3, 0, .rws, 0x0, 1, 1⟩
def IRANGE : Fld := ⟨0x41, 8, 0x15, 2, 0, .rw, 0x2, 1, 1⟩
def LEVEL : Fld := ⟨0x41, 8, 0x16, 31, 0, .rw, 0x0, 1, 1⟩
def LIMIT : Fld := ⟨0x41, 8, 0x17, 31, 0, .rw, 0x3A83126F, 1, 1⟩
def RATE : Fld := ⟨0x41, 8, 0x18, 15, 0, .rw, 0x1F4, 1, 1⟩
def DWELL_MS : Fld := ⟨0x41, 8, 0x19, 21, 0, .rw, 0x3E8, 1, 1⟩
def SETTLE_MS : Fld := ⟨0x41, 8, 0x1A, 31, 16, .rw, 0x0, 1, 1⟩
def MEAS_MS : Fld := ⟨0x41, 8, 0x1A, 15, 0, .rw, 0x14, 1, 1⟩
def PASS_LO : Fld := ⟨0x41, 8, 0x1B, 31, 0, .rw, 0x0, 1, 1⟩
def PASS_HI : Fld := ⟨0x41, 8, 0x1C, 31, 0, .rw, 0x0, 1, 1⟩
def ARC_EN : Fld := ⟨0x41, 8, 0x1D, 31, 31, .rw, 0x1, 1, 1⟩
def ARC_LIMIT : Fld := ⟨0x41, 8, 0x1D, 7, 0, .rw, 0x0, 1, 1⟩
def ARC_I : Fld := ⟨0x41, 8, 0x1E, 31, 0, .rw, 0x3A03126F, 1, 1⟩
def RES_V : Fld := ⟨0x41, 8, 0x20, 31, 0, .ro, 0x0, 1, 1⟩
def RES_I : Fld := ⟨0x41, 8, 0x21, 31, 0, .ro, 0x0, 1, 1⟩
def RES_R : Fld := ⟨0x41, 8, 0x22, 31, 0, .ro, 0x0, 1, 1⟩
def RES_STAT_SEQ : Fld := ⟨0x41, 8, 0x23, 31, 16, .ro, 0x0, 1, 1⟩
def RES_STAT_VALID : Fld := ⟨0x41, 8, 0x23, 15, 15, .ro, 0x0, 1, 1⟩
def RES_STAT_VERDICT : Fld := ⟨0x41, 8, 0x23, 14, 12, .ro, 0x0, 1, 1⟩
def RES_STAT_FLAGS : Fld := ⟨0x41, 8, 0x23, 11, 4, .ro, 0x0, 1, 1⟩
def RES_STAT_MODE : Fld := ⟨0x41, 8, 0x23, 3, 0, .ro, 0x0, 1, 1⟩
def RES_RT : Fld := ⟨0x41, 8, 0x24, 31, 0, .ro, 0x0, 1, 1⟩
def CONT_RT : Fld := ⟨0x41, 8, 0x25, 31, 0, .ro, 0x0, 1, 1⟩
def F_VMAX : Fld := ⟨0x41, 8, 0x28, 31, 0, .ro, 0x0, 1, 1⟩
def F_IMAX : Fld := ⟨0x41, 8, 0x29, 31, 0, .ro, 0x0, 1, 1⟩
def F_EMAX : Fld := ⟨0x41, 8, 0x2A, 31, 0, .ro, 0x0, 1, 1⟩
def LAST_REQ_LEVEL : Fld := ⟨0x41, 8, 0x2B, 31, 0, .ro, 0x0, 1, 1⟩
def LAST_REQ_LIMIT : Fld := ⟨0x41, 8, 0x2C, 31, 0, .ro, 0x0, 1, 1⟩
def AZ_AGE_S : Fld := ⟨0x41, 8, 0x2D, 31, 16, .ro, 0x0, 1, 1⟩
def AZ_OVERDUE_S : Fld := ⟨0x41, 8, 0x2D, 15, 0, .ro, 0x0, 1, 1⟩
def HV_CYCLES : Fld := ⟨0x41, 8, 0x30, 31, 0, .ctr, 0x0, 1, 1⟩
def ARCS : Fld := ⟨0x41, 8, 0x31, 31, 0, .ctr, 0x0, 1, 1⟩
def AZ_DEFERS : Fld := ⟨0x41, 8, 0x32, 31, 0, .ctr, 0x0, 1, 1⟩
def AZ_PREEMPTS : Fld := ⟨0x41, 8, 0x33, 31, 0, .ctr, 0x0, 1, 1⟩
def PRESET_LEVEL : Fld := ⟨0x41, 8, 0x40, 31, 0, .rw, 0x0, 16, 4⟩
def PRESET_LIMIT : Fld := ⟨0x41, 8, 0x41, 31, 0, .rw, 0x0, 16, 4⟩
def PRESET_RATE : Fld := ⟨0x41, 8, 0x42, 31, 16, .rw, 0x0, 16, 4⟩
def PRESET_IRANGE : Fld := ⟨0x41, 8, 0x42, 10, 8, .rw, 0x0, 16, 4⟩
def PRESET_ACTION : Fld := ⟨0x41, 8, 0x42, 5, 4, .rw, 0x0, 16, 4⟩
def PRESET_DWELL_MS : Fld := ⟨0x41, 8, 0x43, 21, 0, .rw, 0x0, 16, 4⟩
def flds0 : List Fld :=
  [CMD_AZ_GRANT, CMD_MEASURE, CMD_ABORT, CMD_STOP, CMD_START, STAT_AZ_RUNNING,
   STAT_AZ_DUE, STAT_CAL_EXPIRED, STAT_CONT_CLOSED, STAT_FRISKET_CLAMP, STAT_POWER_LIMIT, STAT_COMPLIANCE,
   STAT_CAUSE, STAT_STATE, E_USED, CFG_OFFSET_COMP, CFG_SENSE, CFG_VRANGE,
   CFG_MODE, IRANGE, LEVEL, LIMIT, RATE, DWELL_MS,
   SETTLE_MS, MEAS_MS, PASS_LO, PASS_HI, ARC_EN, ARC_LIMIT]
def flds1 : List Fld :=
  [ARC_I, RES_V, RES_I, RES_R, RES_STAT_SEQ, RES_STAT_VALID,
   RES_STAT_VERDICT, RES_STAT_FLAGS, RES_STAT_MODE, RES_RT, CONT_RT, F_VMAX,
   F_IMAX, F_EMAX, LAST_REQ_LEVEL, LAST_REQ_LIMIT, AZ_AGE_S, AZ_OVERDUE_S,
   HV_CYCLES, ARCS, AZ_DEFERS, AZ_PREEMPTS, PRESET_LEVEL, PRESET_LIMIT,
   PRESET_RATE, PRESET_IRANGE, PRESET_ACTION, PRESET_DWELL_MS]
/-- Every field of the page. -/
def flds : List Fld := flds0 ++ flds1
end SMU

namespace CHAIN
def WIN : Fld := ⟨0x42, 8, 0x10, 11, 8, .rw, 0x0, 1, 1⟩
def EN : Fld := ⟨0x42, 8, 0x10, 3, 0, .rw, 0x0, 1, 1⟩
def TAP_M : Fld := ⟨0x42, 8, 0x11, 26, 24, .rw, 0x0, 1, 1⟩
def TAP_AUX : Fld := ⟨0x42, 8, 0x11, 18, 16, .rw, 0x0, 1, 1⟩
def TAP_I : Fld := ⟨0x42, 8, 0x11, 10, 8, .rw, 0x0, 1, 1⟩
def TAP_V : Fld := ⟨0x42, 8, 0x11, 2, 0, .rw, 0x0, 1, 1⟩
def AUX_SEL : Fld := ⟨0x42, 8, 0x12, 2, 0, .rws, 0x3, 1, 1⟩
def M_SRC_SET : Fld := ⟨0x42, 8, 0x13, 8, 8, .rw, 0x0, 1, 1⟩
def M_SRC_ADDR : Fld := ⟨0x42, 8, 0x13, 4, 0, .rw, 0x0, 1, 1⟩
def SHIFT_SAT : Fld := ⟨0x42, 8, 0x14, 31, 31, .rws, 0x0, 4, 4⟩
def SHIFT : Fld := ⟨0x42, 8, 0x14, 26, 0, .rws, 0x1049249, 4, 4⟩
def FILT_CORNER : Fld := ⟨0x42, 8, 0x15, 25, 16, .rw, 0xA, 3, 4⟩
def FILT_FREEZE : Fld := ⟨0x42, 8, 0x15, 9, 9, .rw, 0x0, 3, 4⟩
def FILT_DC_EN : Fld := ⟨0x42, 8, 0x15, 8, 8, .rws, 0x0, 3, 4⟩
def FILT_OUT_SHIFT : Fld := ⟨0x42, 8, 0x21, 3, 0, .rw, 0x0, 1, 4⟩
def FILT_LOAD : Fld := ⟨0x42, 8, 0x15, 2, 2, .rws, 0x0, 3, 4⟩
def FILT_BANK : Fld := ⟨0x42, 8, 0x15, 1, 1, .rws, 0x0, 3, 4⟩
def FILT_FIR_EN : Fld := ⟨0x42, 8, 0x15, 0, 0, .rws, 0x0, 3, 4⟩
def STICKY : Fld := ⟨0x42, 8, 0x16, 9, 0, .w1c, 0x0, 4, 4⟩
def STAT_SEQ : Fld := ⟨0x42, 8, 0x17, 31, 16, .ro, 0x0, 4, 4⟩
def STAT_SWAP_PENDING : Fld := ⟨0x42, 8, 0x17, 3, 3, .ro, 0x0, 4, 4⟩
def STAT_SETTLING : Fld := ⟨0x42, 8, 0x17, 2, 2, .ro, 0x0, 4, 4⟩
def STAT_RUNNING : Fld := ⟨0x42, 8, 0x17, 0, 0, .ro, 0x0, 4, 4⟩
def SWAP : Fld := ⟨0x42, 8, 0x24, 2, 0, .wo, 0x0, 1, 1⟩
def COEF_SEL_BANK : Fld := ⟨0x42, 8, 0x25, 4, 4, .rw, 0x0, 1, 1⟩
def COEF_SEL_CHAIN : Fld := ⟨0x42, 8, 0x25, 1, 0, .rw, 0x0, 1, 1⟩
def SWAP_RT_V : Fld := ⟨0x42, 8, 0x26, 31, 0, .ro, 0x0, 1, 1⟩
def SWAP_RT_I : Fld := ⟨0x42, 8, 0x27, 31, 0, .ro, 0x0, 1, 1⟩
def SWAP_RT_AUX : Fld := ⟨0x42, 8, 0x28, 31, 0, .ro, 0x0, 1, 1⟩
def RESTART_RT : Fld := ⟨0x42, 8, 0x29, 31, 0, .ro, 0x0, 1, 1⟩
def RESTARTS : Fld := ⟨0x42, 8, 0x2A, 31, 0, .ctr, 0x0, 1, 1⟩
def GROWTH_0 : Fld := ⟨0x42, 8, 0x2B, 22, 20, .ro, 0x0, 1, 1⟩
def GROWTH_1 : Fld := ⟨0x42, 8, 0x2B, 18, 16, .ro, 0x0, 1, 1⟩
def GROWTH_2 : Fld := ⟨0x42, 8, 0x2B, 14, 12, .ro, 0x0, 1, 1⟩
def GROWTH_3 : Fld := ⟨0x42, 8, 0x2B, 10, 8, .ro, 0x0, 1, 1⟩
def GROWTH_4 : Fld := ⟨0x42, 8, 0x2B, 6, 4, .ro, 0x0, 1, 1⟩
def GROWTH_5 : Fld := ⟨0x42, 8, 0x2B, 2, 0, .ro, 0x0, 1, 1⟩
def MINSHIFT_V : Fld := ⟨0x42, 8, 0x2C, 26, 0, .ro, 0x0, 1, 1⟩
def MINSHIFT_I : Fld := ⟨0x42, 8, 0x2D, 26, 0, .ro, 0x0, 1, 1⟩
def MINSHIFT_AUX : Fld := ⟨0x42, 8, 0x2E, 26, 0, .ro, 0x0, 1, 1⟩
def MINSHIFT_M : Fld := ⟨0x42, 8, 0x2F, 26, 0, .ro, 0x0, 1, 1⟩
def COARSE_V : Fld := ⟨0x42, 8, 0x30, 31, 0, .ro, 0x0, 1, 1⟩
def COARSE_I : Fld := ⟨0x42, 8, 0x31, 31, 0, .ro, 0x0, 1, 1⟩
def COARSE_AUX : Fld := ⟨0x42, 8, 0x32, 31, 0, .ro, 0x0, 1, 1⟩
def COARSE_RT : Fld := ⟨0x42, 8, 0x33, 31, 0, .ro, 0x0, 1, 1⟩
def COARSE_STAT_VALID : Fld := ⟨0x42, 8, 0x34, 2, 0, .ro, 0x0, 1, 1⟩
def COEF : Fld := ⟨0x42, 8, 0x80, 31, 0, .rw, 0x0, 64, 1⟩
def flds0 : List Fld :=
  [WIN, EN, TAP_M, TAP_AUX, TAP_I, TAP_V,
   AUX_SEL, M_SRC_SET, M_SRC_ADDR, SHIFT_SAT, SHIFT, FILT_CORNER,
   FILT_FREEZE, FILT_DC_EN, FILT_OUT_SHIFT, FILT_LOAD, FILT_BANK, FILT_FIR_EN,
   STICKY, STAT_SEQ, STAT_SWAP_PENDING, STAT_SETTLING, STAT_RUNNING, SWAP,
   COEF_SEL_BANK, COEF_SEL_CHAIN, SWAP_RT_V, SWAP_RT_I, SWAP_RT_AUX, RESTART_RT]
def flds1 : List Fld :=
  [RESTARTS, GROWTH_0, GROWTH_1, GROWTH_2, GROWTH_3, GROWTH_4,
   GROWTH_5, MINSHIFT_V, MINSHIFT_I, MINSHIFT_AUX, MINSHIFT_M, COARSE_V,
   COARSE_I, COARSE_AUX, COARSE_RT, COARSE_STAT_VALID, COEF]
/-- Every field of the page. -/
def flds : List Fld := flds0 ++ flds1
end CHAIN

namespace USND
def CMD_ZC_GRANT : Fld := ⟨0x43, 8, 0x10, 4, 4, .wo, 0x0, 1, 1⟩
def CMD_RESEED : Fld := ⟨0x43, 8, 0x10, 3, 3, .wo, 0x0, 1, 1⟩
def CMD_ZERO : Fld := ⟨0x43, 8, 0x10, 2, 2, .wo, 0x0, 1, 1⟩
def CMD_SHOT : Fld := ⟨0x43, 8, 0x10, 1, 1, .wo, 0x0, 1, 1⟩
def STAT_SEQ : Fld := ⟨0x43, 8, 0x11, 31, 16, .ro, 0x0, 1, 1⟩
def STAT_CADENCE : Fld := ⟨0x43, 8, 0x11, 9, 8, .ro, 0x0, 1, 1⟩
def STAT_ZC_RUNNING : Fld := ⟨0x43, 8, 0x11, 6, 6, .ro, 0x0, 1, 1⟩
def STAT_ZC_DUE : Fld := ⟨0x43, 8, 0x11, 5, 5, .ro, 0x0, 1, 1⟩
def STAT_ZERO_RUNNING : Fld := ⟨0x43, 8, 0x11, 4, 4, .ro, 0x0, 1, 1⟩
def STAT_STATE : Fld := ⟨0x43, 8, 0x11, 2, 0, .ro, 0x0, 1, 1⟩
def EXC_UPSTREAM : Fld := ⟨0x43, 8, 0x14, 28, 28, .rws, 0x0, 1, 1⟩
def EXC_DRIVE : Fld := ⟨0x43, 8, 0x14, 25, 24, .rws, 0x1, 1, 1⟩
def EXC_CYCLES : Fld := ⟨0x43, 8, 0x14, 20, 16, .rws, 0x4, 1, 1⟩
def EXC_FREQ : Fld := ⟨0x43, 8, 0x14, 11, 0, .rws, 0x3E8, 1, 1⟩
def RX_AMP_TARGET : Fld := ⟨0x43, 8, 0x15, 25, 16, .rw, 0x200, 1, 1⟩
def RX_AGC : Fld := ⟨0x43, 8, 0x15, 8, 8, .rw, 0x1, 1, 1⟩
def RX_GAIN : Fld := ⟨0x43, 8, 0x15, 5, 0, .rw, 0x1E, 1, 1⟩
def DET_BLANK_US : Fld := ⟨0x43, 8, 0x16, 31, 24, .rws, 0xA, 1, 1⟩
def DET_ZC_COUNT : Fld := ⟨0x43, 8, 0x16, 21, 16, .rws, 0x8, 1, 1⟩
def DET_ZC_SKIP : Fld := ⟨0x43, 8, 0x16, 15, 12, .rws, 0x2, 1, 1⟩
def DET_POL : Fld := ⟨0x43, 8, 0x16, 10, 10, .rws, 0x0, 1, 1⟩
def DET_FW_THRESH : Fld := ⟨0x43, 8, 0x16, 9, 0, .rws, 0xC8, 1, 1⟩
def GAP_US : Fld := ⟨0x43, 8, 0x17, 26, 16, .rws, 0x64, 1, 1⟩
def ECHO_TO : Fld := ⟨0x43, 8, 0x17, 10, 0, .rws, 0x64, 1, 1⟩
def CAD_CADENCE : Fld := ⟨0x43, 8, 0x18, 1, 0, .rw, 0x0, 1, 1⟩
def THRESH_ON : Fld := ⟨0x43, 8, 0x19, 31, 0, .rw, 0x3F000000, 1, 1⟩
def THRESH_OFF : Fld := ⟨0x43, 8, 0x1A, 31, 0, .rw, 0x3E99999A, 1, 1⟩
def ERR_EMPTY_AMP : Fld := ⟨0x43, 8, 0x1B, 25, 16, .rw, 0x32, 1, 1⟩
def ERR_EMPTY_N : Fld := ⟨0x43, 8, 0x1B, 7, 4, .rw, 0x3, 1, 1⟩
def ERR_MODE : Fld := ⟨0x43, 8, 0x1B, 0, 0, .rw, 0x0, 1, 1⟩
def HOLD_MS : Fld := ⟨0x43, 8, 0x1C, 15, 0, .rw, 0x3E8, 1, 1⟩
def WINDOW : Fld := ⟨0x43, 8, 0x1D, 7, 0, .rw, 0x28, 1, 1⟩
def C_MAX : Fld := ⟨0x43, 8, 0x1E, 31, 16, .rw, 0x6A4, 1, 1⟩
def C_MIN : Fld := ⟨0x43, 8, 0x1E, 15, 0, .rw, 0x514, 1, 1⟩
def L_M : Fld := ⟨0x43, 8, 0x20, 31, 0, .rw, 0x0, 1, 1⟩
def X_M : Fld := ⟨0x43, 8, 0x21, 31, 0, .rw, 0x0, 1, 1⟩
def TAU0_NS : Fld := ⟨0x43, 8, 0x22, 31, 0, .rw, 0x0, 1, 1⟩
def AREA_M2 : Fld := ⟨0x43, 8, 0x23, 31, 0, .rw, 0x0, 1, 1⟩
def K : Fld := ⟨0x43, 8, 0x24, 31, 0, .rw, 0x3F800000, 1, 1⟩
def ZERO_N : Fld := ⟨0x43, 8, 0x25, 15, 0, .rw, 0x100, 1, 1⟩
def T_UP : Fld := ⟨0x43, 8, 0x28, 31, 0, .ro, 0x0, 1, 1⟩
def T_DOWN : Fld := ⟨0x43, 8, 0x29, 31, 0, .ro, 0x0, 1, 1⟩
def DT : Fld := ⟨0x43, 8, 0x2A, 31, 0, .ro, 0x0, 1, 1⟩
def Q : Fld := ⟨0x43, 8, 0x2B, 31, 0, .ro, 0x0, 1, 1⟩
def V : Fld := ⟨0x43, 8, 0x2C, 31, 0, .ro, 0x0, 1, 1⟩
def C : Fld := ⟨0x43, 8, 0x2D, 31, 0, .ro, 0x0, 1, 1⟩
def AMP_UP : Fld := ⟨0x43, 8, 0x2E, 25, 16, .ro, 0x0, 1, 1⟩
def AMP_DN : Fld := ⟨0x43, 8, 0x2E, 9, 0, .ro, 0x0, 1, 1⟩
def RES_RT : Fld := ⟨0x43, 8, 0x2F, 31, 0, .ro, 0x0, 1, 1⟩
def RES_SEQ : Fld := ⟨0x43, 8, 0x30, 31, 16, .ro, 0x0, 1, 1⟩
def RES_FLAGS : Fld := ⟨0x43, 8, 0x30, 7, 0, .ro, 0x0, 1, 1⟩
def ZERO_DT : Fld := ⟨0x43, 8, 0x32, 31, 0, .ro, 0x0, 1, 1⟩
def DT_EL : Fld := ⟨0x43, 8, 0x33, 31, 0, .ro, 0x0, 1, 1⟩
def ZERO_DT_EL : Fld := ⟨0x43, 8, 0x34, 31, 0, .ro, 0x0, 1, 1⟩
def DT_OFF : Fld := ⟨0x43, 8, 0x35, 31, 0, .ro, 0x0, 1, 1⟩
def PAIRS : Fld := ⟨0x43, 8, 0x38, 31, 0, .ctr, 0x0, 1, 1⟩
def REJ_DIFF : Fld := ⟨0x43, 8, 0x39, 31, 0, .ctr, 0x0, 1, 1⟩
def REJ_SUM : Fld := ⟨0x43, 8, 0x3A, 31, 0, .ctr, 0x0, 1, 1⟩
def NO_SIGNAL : Fld := ⟨0x43, 8, 0x3B, 31, 0, .ctr, 0x0, 1, 1⟩
def ZC_DEFERS : Fld := ⟨0x43, 8, 0x3C, 31, 0, .ctr, 0x0, 1, 1⟩
def ZC_PREEMPTS : Fld := ⟨0x43, 8, 0x3D, 31, 0, .ctr, 0x0, 1, 1⟩
def SKIPPED_PAIRS : Fld := ⟨0x43, 8, 0x3E, 31, 0, .ctr, 0x0, 1, 1⟩
def LAUNCH_DELAYS : Fld := ⟨0x43, 8, 0x3F, 31, 0, .ctr, 0x0, 1, 1⟩
def ZC_AGE_S : Fld := ⟨0x43, 8, 0x40, 31, 16, .ro, 0x0, 1, 1⟩
def ZC_OVERDUE_S : Fld := ⟨0x43, 8, 0x40, 15, 0, .ro, 0x0, 1, 1⟩
def flds0 : List Fld :=
  [CMD_ZC_GRANT, CMD_RESEED, CMD_ZERO, CMD_SHOT, STAT_SEQ, STAT_CADENCE,
   STAT_ZC_RUNNING, STAT_ZC_DUE, STAT_ZERO_RUNNING, STAT_STATE, EXC_UPSTREAM, EXC_DRIVE,
   EXC_CYCLES, EXC_FREQ, RX_AMP_TARGET, RX_AGC, RX_GAIN, DET_BLANK_US,
   DET_ZC_COUNT, DET_ZC_SKIP, DET_POL, DET_FW_THRESH, GAP_US, ECHO_TO,
   CAD_CADENCE, THRESH_ON, THRESH_OFF, ERR_EMPTY_AMP, ERR_EMPTY_N, ERR_MODE]
def flds1 : List Fld :=
  [HOLD_MS, WINDOW, C_MAX, C_MIN, L_M, X_M,
   TAU0_NS, AREA_M2, K, ZERO_N, T_UP, T_DOWN,
   DT, Q, V, C, AMP_UP, AMP_DN,
   RES_RT, RES_SEQ, RES_FLAGS, ZERO_DT, DT_EL, ZERO_DT_EL,
   DT_OFF, PAIRS, REJ_DIFF, REJ_SUM, NO_SIGNAL, ZC_DEFERS]
def flds2 : List Fld :=
  [ZC_PREEMPTS, SKIPPED_PAIRS, LAUNCH_DELAYS, ZC_AGE_S, ZC_OVERDUE_S]
/-- Every field of the page. -/
def flds : List Fld := flds0 ++ flds1 ++ flds2
end USND

namespace TMR
def STOP : Fld := ⟨0x44, 8, 0x10, 11, 8, .wo, 0x0, 1, 1⟩
def START : Fld := ⟨0x44, 8, 0x10, 3, 0, .wo, 0x0, 1, 1⟩
def STAT_FROZEN : Fld := ⟨0x44, 8, 0x11, 19, 16, .ro, 0x0, 1, 1⟩
def STAT_RUNNING : Fld := ⟨0x44, 8, 0x11, 3, 0, .ro, 0x0, 1, 1⟩
def WATCH_HI : Fld := ⟨0x44, 8, 0x12, 31, 0, .ro, 0x0, 1, 1⟩
def WATCH_LO : Fld := ⟨0x44, 8, 0x13, 31, 0, .ro, 0x0, 1, 1⟩
def DIO_OUT : Fld := ⟨0x44, 8, 0x14, 7, 0, .rw, 0xFF, 1, 1⟩
def DIO_FAULT : Fld := ⟨0x44, 8, 0x15, 23, 16, .w1c, 0x0, 1, 1⟩
def DIO_IN : Fld := ⟨0x44, 8, 0x15, 7, 0, .ro, 0x0, 1, 1⟩
def DIO_EDGE_EN_FALL : Fld := ⟨0x44, 8, 0x16, 15, 8, .rw, 0x0, 1, 1⟩
def DIO_EDGE_EN_RISE : Fld := ⟨0x44, 8, 0x16, 7, 0, .rw, 0x0, 1, 1⟩
def DIO_EDGE_SEEN_FALL : Fld := ⟨0x44, 8, 0x17, 15, 8, .w1c, 0x0, 1, 1⟩
def DIO_EDGE_SEEN_RISE : Fld := ⟨0x44, 8, 0x17, 7, 0, .w1c, 0x0, 1, 1⟩
def DIO_THRESH : Fld := ⟨0x44, 8, 0x18, 31, 0, .rw, 0xF0F0F0F, 2, 1⟩
def DIO_FILT : Fld := ⟨0x44, 8, 0x1A, 31, 0, .rw, 0x0, 1, 1⟩
def DIO_OUT_SRC : Fld := ⟨0x44, 8, 0x1B, 31, 0, .rw, 0x0, 1, 1⟩
def CAPTURES : Fld := ⟨0x44, 8, 0x1C, 31, 0, .ctr, 0x0, 1, 1⟩
def CAP_SKIPPED : Fld := ⟨0x44, 8, 0x1D, 31, 0, .ctr, 0x0, 1, 1⟩
def DIO_FAULTS : Fld := ⟨0x44, 8, 0x1E, 31, 0, .ctr, 0x0, 1, 1⟩
def ROUTE_TD : Fld := ⟨0x44, 8, 0x1F, 28, 24, .rw, 0x0, 1, 1⟩
def ROUTE_TC : Fld := ⟨0x44, 8, 0x1F, 20, 16, .rw, 0x0, 1, 1⟩
def ROUTE_TB : Fld := ⟨0x44, 8, 0x1F, 12, 8, .rw, 0x0, 1, 1⟩
def ROUTE_TA : Fld := ⟨0x44, 8, 0x1F, 4, 0, .rw, 0x0, 1, 1⟩
def CTL_IRQ_TOP : Fld := ⟨0x44, 8, 0x20, 24, 24, .rw, 0x0, 4, 8⟩
def CTL_IRQ_CMP : Fld := ⟨0x44, 8, 0x20, 23, 23, .rw, 0x0, 4, 8⟩
def CTL_FREEZE_ON_HALT : Fld := ⟨0x44, 8, 0x20, 22, 22, .rw, 0x0, 4, 8⟩
def CTL_OUT_POL : Fld := ⟨0x44, 8, 0x20, 21, 21, .rw, 0x0, 4, 8⟩
def CTL_IN_POL : Fld := ⟨0x44, 8, 0x20, 20, 20, .rw, 0x0, 4, 8⟩
def CTL_IN : Fld := ⟨0x44, 8, 0x20, 18, 16, .rw, 0x0, 4, 8⟩
def CTL_CUE_ON : Fld := ⟨0x44, 8, 0x20, 14, 13, .rw, 0x0, 4, 8⟩
def CTL_CUE_ACT : Fld := ⟨0x44, 8, 0x20, 6, 4, .rw, 0x0, 4, 8⟩
def CTL_MODE : Fld := ⟨0x44, 8, 0x20, 2, 0, .rw, 0x0, 4, 8⟩
def PRESC : Fld := ⟨0x44, 8, 0x21, 7, 0, .rw, 0x0, 4, 8⟩
def TOP : Fld := ⟨0x44, 8, 0x22, 31, 0, .rw, 0xFFFFFFFF, 4, 8⟩
def CMP : Fld := ⟨0x44, 8, 0x23, 31, 0, .rw, 0x80000000, 4, 8⟩
def COUNT : Fld := ⟨0x44, 8, 0x24, 31, 0, .ro, 0x0, 4, 8⟩
def CAP_WIDTH : Fld := ⟨0x44, 8, 0x25, 31, 0, .ro, 0x0, 4, 8⟩
def CAP_PERIOD : Fld := ⟨0x44, 8, 0x26, 31, 0, .ro, 0x0, 4, 8⟩
def CAP_DIV : Fld := ⟨0x44, 8, 0x27, 15, 0, .rw, 0x1, 4, 8⟩
def flds0 : List Fld :=
  [STOP, START, STAT_FROZEN, STAT_RUNNING, WATCH_HI, WATCH_LO,
   DIO_OUT, DIO_FAULT, DIO_IN, DIO_EDGE_EN_FALL, DIO_EDGE_EN_RISE, DIO_EDGE_SEEN_FALL,
   DIO_EDGE_SEEN_RISE, DIO_THRESH, DIO_FILT, DIO_OUT_SRC, CAPTURES, CAP_SKIPPED,
   DIO_FAULTS, ROUTE_TD, ROUTE_TC, ROUTE_TB, ROUTE_TA, CTL_IRQ_TOP,
   CTL_IRQ_CMP, CTL_FREEZE_ON_HALT, CTL_OUT_POL, CTL_IN_POL, CTL_IN, CTL_CUE_ON]
def flds1 : List Fld :=
  [CTL_CUE_ACT, CTL_MODE, PRESC, TOP, CMP, COUNT,
   CAP_WIDTH, CAP_PERIOD, CAP_DIV]
/-- Every field of the page. -/
def flds : List Fld := flds0 ++ flds1
end TMR

namespace DUNC
def CMD_FORGET : Fld := ⟨0x45, 8, 0x10, 1, 1, .wo, 0x0, 1, 1⟩
def CMD_SEARCH_GRANT : Fld := ⟨0x45, 8, 0x10, 0, 0, .wo, 0x0, 1, 1⟩
def CFG_ATTN_US : Fld := ⟨0x45, 8, 0x11, 31, 16, .rw, 0x3E8, 1, 1⟩
def CFG_RETRY_LIMIT : Fld := ⟨0x45, 8, 0x11, 6, 4, .rw, 0x2, 1, 1⟩
def CFG_SPEED : Fld := ⟨0x45, 8, 0x11, 0, 0, .rws, 0x1, 1, 1⟩
def STAT_CENSUS : Fld := ⟨0x45, 8, 0x12, 31, 16, .ro, 0x0, 1, 1⟩
def STAT_ACTIVE : Fld := ⟨0x45, 8, 0x12, 15, 15, .ro, 0x0, 1, 1⟩
def STAT_DP_FAULT : Fld := ⟨0x45, 8, 0x12, 12, 12, .ro, 0x0, 1, 1⟩
def STAT_LINE_FAULT : Fld := ⟨0x45, 8, 0x12, 11, 11, .ro, 0x0, 1, 1⟩
def STAT_FULL : Fld := ⟨0x45, 8, 0x12, 10, 10, .ro, 0x0, 1, 1⟩
def STAT_SEARCH_DUE : Fld := ⟨0x45, 8, 0x12, 9, 9, .ro, 0x0, 1, 1⟩
def PRESENT : Fld := ⟨0x45, 8, 0x13, 23, 0, .ro, 0x0, 1, 1⟩
def COARSE : Fld := ⟨0x45, 8, 0x14, 23, 0, .ro, 0x0, 1, 1⟩
def LOAD : Fld := ⟨0x45, 8, 0x15, 19, 0, .ro, 0xB574, 1, 1⟩
def SEARCH_OVERDUE_MS : Fld := ⟨0x45, 8, 0x16, 31, 16, .ro, 0x0, 1, 1⟩
def FRAMES : Fld := ⟨0x45, 8, 0x18, 31, 0, .ctr, 0x0, 1, 1⟩
def CRC_ERRS : Fld := ⟨0x45, 8, 0x19, 31, 0, .ctr, 0x0, 1, 1⟩
def NO_ACKS : Fld := ⟨0x45, 8, 0x1A, 31, 0, .ctr, 0x0, 1, 1⟩
def RETRIES : Fld := ⟨0x45, 8, 0x1B, 31, 0, .ctr, 0x0, 1, 1⟩
def LOWER_ABORTED : Fld := ⟨0x45, 8, 0x1C, 31, 0, .ctr, 0x0, 1, 1⟩
def LATE_DISCARD : Fld := ⟨0x45, 8, 0x1D, 31, 0, .ctr, 0x0, 1, 1⟩
def SEARCH_DEFERS : Fld := ⟨0x45, 8, 0x1E, 31, 0, .ctr, 0x0, 1, 1⟩
def SEARCH_PREEMPTS : Fld := ⟨0x45, 8, 0x1F, 31, 0, .ctr, 0x0, 1, 1⟩
def ARRIVALS : Fld := ⟨0x45, 8, 0x20, 31, 0, .ctr, 0x0, 1, 1⟩
def DEPARTURES : Fld := ⟨0x45, 8, 0x21, 31, 0, .ctr, 0x0, 1, 1⟩
def REQ_GO : Fld := ⟨0x45, 8, 0x28, 31, 31, .wo, 0x0, 1, 1⟩
def REQ_ADDR : Fld := ⟨0x45, 8, 0x28, 20, 16, .rwq, 0x0, 1, 1⟩
def REQ_OP : Fld := ⟨0x45, 8, 0x28, 9, 8, .rwq, 0x1, 1, 1⟩
def REQ_REG : Fld := ⟨0x45, 8, 0x28, 7, 0, .rwq, 0x0, 1, 1⟩
def REQ_TIMEOUT_US : Fld := ⟨0x45, 8, 0x29, 31, 12, .rwq, 0x2710, 1, 1⟩
def REQ_COUNT : Fld := ⟨0x45, 8, 0x29, 5, 0, .rwq, 0x1, 1, 1⟩
def REQ_DATA : Fld := ⟨0x45, 8, 0x2A, 31, 0, .rwq, 0x0, 8, 1⟩
def REQ_STAT_STATE : Fld := ⟨0x45, 8, 0x32, 31, 24, .ro, 0x0, 1, 1⟩
def REQ_STAT_CODE : Fld := ⟨0x45, 8, 0x32, 23, 16, .ro, 0x0, 1, 1⟩
def REQ_STAT_ATTEMPTS : Fld := ⟨0x45, 8, 0x32, 15, 8, .ro, 0x0, 1, 1⟩
def REQ_STAT_LEN : Fld := ⟨0x45, 8, 0x32, 7, 0, .ro, 0x0, 1, 1⟩
def RESP : Fld := ⟨0x45, 8, 0x33, 31, 0, .ro, 0x0, 8, 1⟩
def STREAM_EN_G : Fld := ⟨0x45, 8, 0x40, 31, 31, .rw, 0x0, 24, 1⟩
def STREAM_EN_A : Fld := ⟨0x45, 8, 0x40, 29, 29, .rw, 0x0, 24, 1⟩
def STREAM_GAL_G : Fld := ⟨0x45, 8, 0x40, 30, 30, .rw, 0x0, 24, 1⟩
def STREAM_GAL_A : Fld := ⟨0x45, 8, 0x40, 28, 28, .rw, 0x0, 24, 1⟩
def STREAM_RATE_G : Fld := ⟨0x45, 8, 0x40, 26, 24, .rw, 0x0, 24, 1⟩
def STREAM_RATE_A : Fld := ⟨0x45, 8, 0x40, 22, 20, .rw, 0x0, 24, 1⟩
def STREAM_POLL_US : Fld := ⟨0x45, 8, 0x40, 15, 0, .rw, 0x3E8, 24, 1⟩
def PODRATE : Fld := ⟨0x45, 8, 0x58, 31, 0, .ro, 0x0, 24, 1⟩
def BIND_ID_HI : Fld := ⟨0x45, 8, 0x70, 31, 0, .rw, 0x0, 24, 2⟩
def BIND_ID_LO : Fld := ⟨0x45, 8, 0x71, 31, 0, .rw, 0x0, 24, 2⟩
def BIND_CTL_STATE : Fld := ⟨0x45, 8, 0xA0, 9, 8, .ro, 0x0, 24, 1⟩
def BIND_CTL_PIN : Fld := ⟨0x45, 8, 0xA0, 0, 0, .rw, 0x0, 24, 1⟩
def flds0 : List Fld :=
  [CMD_FORGET, CMD_SEARCH_GRANT, CFG_ATTN_US, CFG_RETRY_LIMIT, CFG_SPEED, STAT_CENSUS,
   STAT_ACTIVE, STAT_DP_FAULT, STAT_LINE_FAULT, STAT_FULL, STAT_SEARCH_DUE, PRESENT,
   COARSE, LOAD, SEARCH_OVERDUE_MS, FRAMES, CRC_ERRS, NO_ACKS,
   RETRIES, LOWER_ABORTED, LATE_DISCARD, SEARCH_DEFERS, SEARCH_PREEMPTS, ARRIVALS,
   DEPARTURES, REQ_GO, REQ_ADDR, REQ_OP, REQ_REG, REQ_TIMEOUT_US]
def flds1 : List Fld :=
  [REQ_COUNT, REQ_DATA, REQ_STAT_STATE, REQ_STAT_CODE, REQ_STAT_ATTEMPTS, REQ_STAT_LEN,
   RESP, STREAM_EN_G, STREAM_EN_A, STREAM_GAL_G, STREAM_GAL_A, STREAM_RATE_G,
   STREAM_RATE_A, STREAM_POLL_US, PODRATE, BIND_ID_HI, BIND_ID_LO, BIND_CTL_STATE,
   BIND_CTL_PIN]
/-- Every field of the page. -/
def flds : List Fld := flds0 ++ flds1
end DUNC

namespace CAN
def CMD_RECOVER : Fld := ⟨0x46, 8, 0x10, 0, 0, .wo, 0x0, 1, 1⟩
def RX_RELEASE : Fld := ⟨0x46, 8, 0x11, 6, 0, .wo, 0x0, 1, 1⟩
def MODE_BUSOFF_AUTO : Fld := ⟨0x46, 8, 0x12, 16, 16, .rw, 0x1, 1, 1⟩
def MODE_NOMATCH : Fld := ⟨0x46, 8, 0x12, 12, 12, .rw, 0x1, 1, 1⟩
def MODE_RX_DEST : Fld := ⟨0x46, 8, 0x12, 10, 9, .rw, 0x0, 1, 1⟩
def MODE_TX_ECHO : Fld := ⟨0x46, 8, 0x12, 8, 8, .rw, 0x0, 1, 1⟩
def MODE_FD_EN : Fld := ⟨0x46, 8, 0x12, 4, 4, .rws, 0x1, 1, 1⟩
def MODE_OP : Fld := ⟨0x46, 8, 0x12, 1, 0, .rws, 0x0, 1, 1⟩
def A_DIV : Fld := ⟨0x46, 8, 0x13, 31, 24, .rws, 0x1, 1, 1⟩
def A_PRE : Fld := ⟨0x46, 8, 0x13, 23, 16, .rws, 0x7F, 1, 1⟩
def A_POST : Fld := ⟨0x46, 8, 0x13, 15, 8, .rws, 0x20, 1, 1⟩
def A_JUMP : Fld := ⟨0x46, 8, 0x13, 7, 0, .rws, 0x20, 1, 1⟩
def DATA_TIMING_SSP_EN : Fld := ⟨0x46, 8, 0x14, 31, 31, .rws, 0x1, 1, 1⟩
def DATA_TIMING_SSP_OFS : Fld := ⟨0x46, 8, 0x14, 30, 24, .rws, 0x1E, 1, 1⟩
def D_DIV : Fld := ⟨0x46, 8, 0x14, 23, 20, .rws, 0x1, 1, 1⟩
def D_PRE : Fld := ⟨0x46, 8, 0x14, 19, 12, .rws, 0x1F, 1, 1⟩
def D_POST : Fld := ⟨0x46, 8, 0x14, 11, 6, .rws, 0x8, 1, 1⟩
def D_JUMP : Fld := ⟨0x46, 8, 0x14, 5, 0, .rws, 0x8, 1, 1⟩
def BUSOFF_DELAY_MS : Fld := ⟨0x46, 8, 0x15, 15, 0, .rw, 0x64, 1, 1⟩
def STAT_TEC : Fld := ⟨0x46, 8, 0x16, 31, 24, .ro, 0x0, 1, 1⟩
def STAT_REC : Fld := ⟨0x46, 8, 0x16, 23, 16, .ro, 0x0, 1, 1⟩
def STAT_RX_COUNT : Fld := ⟨0x46, 8, 0x16, 14, 8, .ro, 0x0, 1, 1⟩
def STAT_STATE : Fld := ⟨0x46, 8, 0x16, 2, 0, .ro, 0x0, 1, 1⟩
def LEC_DATA_PHASE : Fld := ⟨0x46, 8, 0x17, 7, 7, .ro, 0x0, 1, 1⟩
def LEC_CODE : Fld := ⟨0x46, 8, 0x17, 2, 0, .ro, 0x0, 1, 1⟩
def TXB_REQ : Fld := ⟨0x46, 8, 0x18, 31, 0, .w1s, 0x0, 1, 1⟩
def TXB_CANCEL : Fld := ⟨0x46, 8, 0x19, 31, 0, .wo, 0x0, 1, 1⟩
def TXB_DONE : Fld := ⟨0x46, 8, 0x1A, 31, 0, .w1c, 0x0, 1, 1⟩
def TXB_SEL : Fld := ⟨0x46, 8, 0x1B, 4, 0, .rw, 0x0, 1, 1⟩
def QUEUED_3 : Fld := ⟨0x46, 8, 0x1C, 28, 24, .ro, 0x0, 1, 1⟩
def QUEUED_2 : Fld := ⟨0x46, 8, 0x1C, 20, 16, .ro, 0x0, 1, 1⟩
def QUEUED_1 : Fld := ⟨0x46, 8, 0x1C, 12, 8, .ro, 0x0, 1, 1⟩
def QUEUED_0 : Fld := ⟨0x46, 8, 0x1C, 4, 0, .ro, 0x0, 1, 1⟩
def TX_FRAMES : Fld := ⟨0x46, 8, 0x20, 31, 0, .ctr, 0x0, 1, 1⟩
def RX_FRAMES : Fld := ⟨0x46, 8, 0x21, 31, 0, .ctr, 0x0, 1, 1⟩
def RX_OVERFLOWS : Fld := ⟨0x46, 8, 0x22, 31, 0, .ctr, 0x0, 1, 1⟩
def ERRORS : Fld := ⟨0x46, 8, 0x23, 31, 0, .ctr, 0x0, 1, 1⟩
def RETRANSMISSIONS : Fld := ⟨0x46, 8, 0x24, 31, 0, .ctr, 0x0, 1, 1⟩
def LOWER_ABORTED : Fld := ⟨0x46, 8, 0x25, 31, 0, .ctr, 0x0, 1, 1⟩
def BUS_OFFS : Fld := ⟨0x46, 8, 0x26, 31, 0, .ctr, 0x0, 1, 1⟩
def FILTER_REJECTS : Fld := ⟨0x46, 8, 0x27, 31, 0, .ctr, 0x0, 1, 1⟩
def FILT_EN : Fld := ⟨0x46, 8, 0x40, 31, 31, .rw, 0x0, 32, 2⟩
def FILT_REJECT : Fld := ⟨0x46, 8, 0x40, 30, 30, .rw, 0x0, 32, 2⟩
def FILT_IDE : Fld := ⟨0x46, 8, 0x40, 29, 29, .rw, 0x0, 32, 2⟩
def FILT_ID : Fld := ⟨0x46, 8, 0x40, 28, 0, .rw, 0x0, 32, 2⟩
def FILT_MASK : Fld := ⟨0x46, 8, 0x41, 28, 0, .rw, 0x0, 32, 2⟩
def HDR0_IDE : Fld := ⟨0x46, 8, 0x80, 31, 31, .rw, 0x0, 1, 1⟩
def HDR0_FDF : Fld := ⟨0x46, 8, 0x80, 30, 30, .rw, 0x0, 1, 1⟩
def HDR0_BRS : Fld := ⟨0x46, 8, 0x80, 29, 29, .rw, 0x0, 1, 1⟩
def HDR0_ID : Fld := ⟨0x46, 8, 0x80, 28, 0, .rw, 0x0, 1, 1⟩
def HDR1_DLC : Fld := ⟨0x46, 8, 0x81, 31, 28, .rw, 0x0, 1, 1⟩
def HDR1_RTR : Fld := ⟨0x46, 8, 0x81, 27, 27, .rw, 0x0, 1, 1⟩
def HDR1_QUEUE : Fld := ⟨0x46, 8, 0x81, 26, 24, .rw, 0x0, 1, 1⟩
def HDR1_RETRY : Fld := ⟨0x46, 8, 0x81, 23, 20, .rw, 0x0, 1, 1⟩
def HDR1_DEADLINE_US : Fld := ⟨0x46, 8, 0x81, 19, 0, .rw, 0x0, 1, 1⟩
def DATA : Fld := ⟨0x46, 8, 0x82, 31, 0, .rw, 0x0, 16, 1⟩
def STATUS_ATTEMPTS : Fld := ⟨0x46, 8, 0x92, 15, 8, .ro, 0x0, 1, 1⟩
def STATUS_OUTCOME : Fld := ⟨0x46, 8, 0x92, 7, 0, .ro, 0x0, 1, 1⟩
def SOF_RT : Fld := ⟨0x46, 8, 0x93, 31, 0, .ro, 0x0, 1, 1⟩
def WORST_NS : Fld := ⟨0x46, 8, 0x94, 31, 0, .ro, 0x0, 1, 1⟩
def RX_HDR0 : Fld := ⟨0x46, 8, 0xA0, 31, 0, .ro, 0x0, 1, 1⟩
def RX_HDR1_DLC : Fld := ⟨0x46, 8, 0xA1, 31, 28, .ro, 0x0, 1, 1⟩
def RX_HDR1_RTR : Fld := ⟨0x46, 8, 0xA1, 27, 27, .ro, 0x0, 1, 1⟩
def RX_HDR1_ESI : Fld := ⟨0x46, 8, 0xA1, 26, 26, .ro, 0x0, 1, 1⟩
def RX_HDR1_OVERFLOW : Fld := ⟨0x46, 8, 0xA1, 25, 25, .ro, 0x0, 1, 1⟩
def RX_HDR1_ECHO : Fld := ⟨0x46, 8, 0xA1, 24, 24, .ro, 0x0, 1, 1⟩
def RX_HDR1_FILTER : Fld := ⟨0x46, 8, 0xA1, 21, 16, .ro, 0x0, 1, 1⟩
def RX_RT : Fld := ⟨0x46, 8, 0xA2, 31, 0, .ro, 0x0, 1, 1⟩
def RX_DATA : Fld := ⟨0x46, 8, 0xA3, 31, 0, .ro, 0x0, 16, 1⟩
def flds0 : List Fld :=
  [CMD_RECOVER, RX_RELEASE, MODE_BUSOFF_AUTO, MODE_NOMATCH, MODE_RX_DEST, MODE_TX_ECHO,
   MODE_FD_EN, MODE_OP, A_DIV, A_PRE, A_POST, A_JUMP,
   DATA_TIMING_SSP_EN, DATA_TIMING_SSP_OFS, D_DIV, D_PRE, D_POST, D_JUMP,
   BUSOFF_DELAY_MS, STAT_TEC, STAT_REC, STAT_RX_COUNT, STAT_STATE, LEC_DATA_PHASE,
   LEC_CODE, TXB_REQ, TXB_CANCEL, TXB_DONE, TXB_SEL, QUEUED_3]
def flds1 : List Fld :=
  [QUEUED_2, QUEUED_1, QUEUED_0, TX_FRAMES, RX_FRAMES, RX_OVERFLOWS,
   ERRORS, RETRANSMISSIONS, LOWER_ABORTED, BUS_OFFS, FILTER_REJECTS, FILT_EN,
   FILT_REJECT, FILT_IDE, FILT_ID, FILT_MASK, HDR0_IDE, HDR0_FDF,
   HDR0_BRS, HDR0_ID, HDR1_DLC, HDR1_RTR, HDR1_QUEUE, HDR1_RETRY,
   HDR1_DEADLINE_US, DATA, STATUS_ATTEMPTS, STATUS_OUTCOME, SOF_RT, WORST_NS]
def flds2 : List Fld :=
  [RX_HDR0, RX_HDR1_DLC, RX_HDR1_RTR, RX_HDR1_ESI, RX_HDR1_OVERFLOW, RX_HDR1_ECHO,
   RX_HDR1_FILTER, RX_RT, RX_DATA]
/-- Every field of the page. -/
def flds : List Fld := flds0 ++ flds1 ++ flds2
end CAN

namespace ENG
def STATE_HALT_CODE : Fld := ⟨0x47, 8, 0x10, 31, 24, .ro, 0x0, 1, 1⟩
def STATE_IE : Fld := ⟨0x47, 8, 0x10, 10, 10, .ro, 0x0, 1, 1⟩
def STATE_TE : Fld := ⟨0x47, 8, 0x10, 9, 9, .ro, 0x0, 1, 1⟩
def STATE_PRIV : Fld := ⟨0x47, 8, 0x10, 8, 8, .ro, 0x1, 1, 1⟩
def STATE_STATE : Fld := ⟨0x47, 8, 0x10, 2, 0, .ro, 0x0, 1, 1⟩
def PC : Fld := ⟨0x47, 8, 0x11, 31, 0, .ro, 0x4000000, 1, 1⟩
def DBG_STEP_NOINT : Fld := ⟨0x47, 8, 0x12, 9, 9, .rw, 0x1, 1, 1⟩
def DBG_ATTACH : Fld := ⟨0x47, 8, 0x12, 8, 8, .rw, 0x0, 1, 1⟩
def DBG_STEP : Fld := ⟨0x47, 8, 0x12, 2, 2, .wo, 0x0, 1, 1⟩
def DBG_RESUME : Fld := ⟨0x47, 8, 0x12, 1, 1, .wo, 0x0, 1, 1⟩
def DBG_HALT : Fld := ⟨0x47, 8, 0x12, 0, 0, .wo, 0x0, 1, 1⟩
def BP_EN : Fld := ⟨0x47, 8, 0x13, 3, 0, .rw, 0x0, 1, 1⟩
def BP : Fld := ⟨0x47, 8, 0x14, 31, 2, .rw, 0x0, 4, 1⟩
def REGSEL_WINDOW : Fld := ⟨0x47, 8, 0x18, 11, 8, .rw, 0x0, 1, 1⟩
def REGSEL_CODE : Fld := ⟨0x47, 8, 0x18, 4, 0, .rw, 0x0, 1, 1⟩
def REGVAL : Fld := ⟨0x47, 8, 0x19, 31, 0, .rw, 0x0, 1, 1⟩
def WSTAT : Fld := ⟨0x47, 8, 0x1A, 19, 0, .ro, 0x10000, 1, 1⟩
def LAST_TRAP : Fld := ⟨0x47, 8, 0x1B, 31, 0, .ro, 0x0, 1, 1⟩
def HALTS : Fld := ⟨0x47, 8, 0x1C, 31, 0, .ctr, 0x0, 1, 1⟩
def TRAPS : Fld := ⟨0x47, 8, 0x1D, 31, 0, .ctr, 0x0, 1, 1⟩
def flds0 : List Fld :=
  [STATE_HALT_CODE, STATE_IE, STATE_TE, STATE_PRIV, STATE_STATE, PC,
   DBG_STEP_NOINT, DBG_ATTACH, DBG_STEP, DBG_RESUME, DBG_HALT, BP_EN,
   BP, REGSEL_WINDOW, REGSEL_CODE, REGVAL, WSTAT, LAST_TRAP,
   HALTS, TRAPS]
/-- Every field of the page. -/
def flds : List Fld := flds0
end ENG

namespace STORE
def WIN_BASE : Fld := ⟨0xC0, 1, 0x10, 25, 2, .rw, 0x0, 1, 1⟩
def STAT_ECC_ERR : Fld := ⟨0xC0, 1, 0x11, 0, 0, .w1c, 0x0, 1, 1⟩
def flds0 : List Fld :=
  [WIN_BASE, STAT_ECC_ERR]
/-- Every field of the page. -/
def flds : List Fld := flds0
end STORE

end Sys2Proof.Machine
end

