-- ==== Sys2Proof/Machine/State.lean ====
section
/-! DEFINITION. The state of the TH16 as plain data: the register file of the host plane and everything the spec's blocks hold
beside it, the queue of waiting commands, and `State.reset`. Register fields are named in Machine/RegTable.lean; what a
register shows that a block holds in another form is computed in Machine/Read.lean. -/

namespace Sys2Proof.Machine

/-- A sparse map from a number to a value: keys rising, no entry equal to what an unlisted key reads as. -/
abbrev Sparse (β : Type) := List (Nat × β)

/-- Words of the register file, keyed by 16-bit word address (R110). -/
abbrev WordMap := Sparse Word

/-- Bytes of one lane's memories, keyed by physical byte address (R387). -/
abbrev Bytes := List Host.Cell

/-! ### The event gatherer (R156 to R173) -/

/-- The four states of a source (R163). -/
inductive SrcState where
  | idle | held | pending | active
  deriving DecidableEq, Repr

/-- One source of the gatherer: its entry, its enable, its state, the step in which it became PENDING (R164), the target
that claimed it, and a doorbell's latch (R167). -/
structure Src where
  target : Nat
  prio : Nat
  coal : Nat
  en : Bool
  st : SrcState
  since : Nat
  claimedAt : Nat
  latch : Bool
  deriving DecidableEq, Repr

/-- One coalescer's count and times, in system clocks (R169, R170). -/
structure Coal where
  counted : Nat
  firstHeld : Option Nat
  lastFire : Option Nat
  lastCfg : Nat
  deriving DecidableEq, Repr

/-- The drive of one FIRQ line in EDGE mode: the last TOP, whether the line is in its released gap, and the tick at which that began (R173). -/
structure Firq where
  lastTop : Option Nat
  gap : Bool
  gapAt : Nat
  deriving DecidableEq, Repr

/-- What the island's copy of a night-watch entry watches in DORMANT (R175). -/
structure NwWatch where
  entry : Nat
  source : Nat
  aux : Bool
  alarm : Bool
  deriving DecidableEq, Repr

structure Evg where
  srcs : Sparse Src
  coals : Vector Coal 16
  firqA : Firq
  firqB : Firq
  nwCopy : List NwWatch
  nwRaise : Option (Nat × Nat)
  deriving DecidableEq, Repr

/-! ### Quoins and sessions (R132 to R153) -/

/-- One quoin: its holder (codes of R124), generation, BROKEN flag, rank and hold limit, the lane that last held it
(R148), and the tick at which it was taken (R152). -/
structure Quoin where
  holder : Nat
  gen : Nat
  broken : Bool
  rank : Nat
  limit : Nat
  lastLane : Nat
  since : Nat
  deriving DecidableEq, Repr

/-- A session's record of its last transaction (R100): header bytes 0 to 6, the status returned and the outcome
(1 pressed, 2 not pressed, 3 read-type). -/
structure Record where
  header : List Byte
  status : Nat
  outcome : Nat
  deriving DecidableEq, Repr

/-- One session: whether it is open, its key, its challenge, the delivered responses that wait to be judged, oldest first, each with
whether a lockout ran when it was delivered (R136, R137), its record, FORME.LIST, QUOIN.RESULT,
registered wait, RELEASED bits, whether a plane reset stands between it and its next transaction, and its lockout with the tick at which it began
(R132 to R138). -/
structure Session where
  isOpen : Bool
  key : Option (BitVec 256)
  challenge : BitVec 256
  responses : List (BitVec 256 × Bool)
  record : Option Record
  list : WordMap
  result : Word
  wait : Option Nat
  released : BitVec 96
  afterPlaneReset : Bool
  lockout : Bool
  lockAt : Nat
  galRstart : WordMap
  postOk : Word
  deriving DecidableEq, Repr

/-! ### The compositor (R386 to R433) -/

/-- The five state bits of PSR (R391). -/
structure Psr where
  ie : Bool
  te : Bool
  mon : Bool
  trans : Bool
  qw : Bool
  deriving DecidableEq, Repr

/-- What ENG.STATE.STATE reports. -/
inductive EngRun where
  | reset | running | idle | halted
  deriving DecidableEq, Repr

/-- A pending asynchronous trap: its TVAL and TINFO (R414, R416). -/
structure AsyncTrap where
  tval : Word
  tinfo : Word
  deriving DecidableEq, Repr

/-- One entry of the spill shelf: the recorded address and twelve registers (R423). -/
structure ShelfEntry where
  addr : Word
  regs : List Word
  deriving DecidableEq, Repr

/-- One cached translation: virtual page, physical page, and the permission bits of the second-level entry (R432). -/
structure TlbEntry where
  vpn : Nat
  ppn : Nat
  perm : Nat
  deriving DecidableEq, Repr

/-- A TAKEQ in its wait (R147, R401): quoin, destination register, and the tick at which its limit runs out. -/
structure QWait where
  quoin : Nat
  rd : Nat
  until_ : Nat
  deriving DecidableEq, Repr

/-- Registers and windows of one compositor (R389, R390). -/
structure EngRegs where
  x : Vector Word 8
  win : Vector (Vector Word 16) 12
  cwp : Nat
  wold : Nat
  deriving DecidableEq, Repr

/-- The special registers of one compositor that no other block holds (R391). -/
structure EngSpecial where
  psr : Psr
  epsr : Psr
  epc : Word
  cause : Nat
  tval : Word
  tinfo : Word
  tvec : Word
  ssp : Word
  mscratch : Word
  ptbr : Word
  mmuEn : Bool
  evcur : Word
  mlevel : Nat
  evsel : Nat
  rtHiS : Word
  rtWpS : Bool
  cycHiS : Word
  watchHiS : Word
  post : Vector Word 4
  deriving DecidableEq, Repr

/-- One compositor (R386): run state, registers, the ticks of its last reset and of its last halt, the spill shelf, pending asynchronous
traps as they arose (DMA: one per channel), the TAKEQ wait, the one that a debug halt ended (R401), the units done of a MOVB that has not
ended and whether it stands at a pre-emption point (R419), debug state (R407 to R409: a halt asked for, a step asked for, its instruction
executed, no interrupt in it), whether Chase has answered a fatal halt (R427), the two TLBs (R432). -/
structure Eng where
  run : EngRun
  haltCode : Nat
  pc : Word
  regs : EngRegs
  sp : EngSpecial
  since : Nat
  haltAt : Nat
  shelf : List ShelfEntry
  shelfPend : Bool
  spill : Option AsyncTrap
  dma : List AsyncTrap
  frisket : List AsyncTrap
  qwait : Option QWait
  qhalt : Option QWait
  movbUnits : Nat
  movbMid : Bool
  haltReq : Bool
  stepReq : Bool
  stepDone : Bool
  noInt : Bool
  fatalTold : Bool
  bpSkip : Bool
  tlb : List TlbEntry
  dtlb : List TlbEntry
  deriving DecidableEq, Repr

/-! ### The galley and DMA (R434 to R443) -/

/-- A 16-byte galley record (R439). -/
structure Slug where
  w0 : Word
  w1 : Word
  w2 : Word
  w3 : Word
  deriving DecidableEq, Repr

/-- The D0 and D1 channels and the galley counts of one lane (R434 to R443). -/
structure Gal where
  wcount : Nat
  rcount : Nat
  buf : List Slug
  d0Faulted : Bool
  d0Paused : Bool
  resumeFolio : Bool
  lossNoted : Bool
  folioSeq : Nat
  sinceFolio : Nat
  d1Idle : Bool
  d1Left : Nat
  d1Word3 : Word
  d1End : Nat
  linkLostFolio : Bool
  deriving DecidableEq, Repr

/-! ### The gutter link (R6 to R16, R69 to R75) -/

/-- What became of an impression at its slot (R212, R538). -/
inductive LaunchKind where
  | onTime | late (ns : Nat) | refused (code : Nat) | skipped | expired
  deriving DecidableEq, Repr

/-- A far side's report of a slot (R538), with the RW values that an SMU preset set (R205): LEVEL, LIMIT, IRANGE, DWELL_MS, RATE. -/
structure LaunchRep where
  sheet : Nat
  w2 : Word
  arg : Word
  kind : LaunchKind
  vals : List Nat
  deriving DecidableEq, Repr

/-- A write on its way to a far side: its writer, its word, what the proof showed of the word, and the number of the first step after that
proof (R93, R129). -/
structure FarWrite where
  w : Writer
  page : Page
  off : Nat
  v : Word
  proof : Word
  since : Nat
  deriving DecidableEq, Repr

/-- One downstream or upstream item of a gutter link. Downstream entries: a configuration write with its press number, place in
its press and last mark (R24), a word of a replay of the near-side image by its address (R11), a clear that goes with the replay
(R129), the arming of impression `id` (R209).
Downstream control: an RT_INC rate (R179), a step announcement (R184). Upstream control: a far-side event (R157), the report that a
press has been applied on a page (R128), the report of a launch (R538). Upstream entry: a slug. `pressed` is the PRESSED value of the
write's page under that press (R128). -/
inductive Item where
  | write (press pressed : Nat) (x : FarWrite) (idx : Nat) (last : Bool)
  | conf (idx : Nat) (addr : Nat) (v : Word) (last : Bool)
  | clear (idx : Nat) (x : FarWrite)
  | arm (id : Nat)
  | rate (inc : Word)
  | step (delta : Int) (at_ : Nat)
  | event (page : Page) (bit : Nat)
  | applied (page : Page) (pressed : Nat)
  | report (r : LaunchRep)
  | slug (x : Slug)
  deriving DecidableEq, Repr

/-- An item sent and not acknowledged: its number, its sendings so far, the FRAME that carried it last, the frames its side has sent
since, and whether it is due to be sent again (R8). -/
structure Sent where
  id : Nat
  item : Item
  sends : Nat
  frame : Nat
  age : Nat
  due : Bool
  deriving DecidableEq, Repr

/-- What KIND says (Table: Gutter frame header). -/
inductive FrameKind where
  | data | telemetry | idle
  deriving DecidableEq, Repr

/-- A frame as its sender filled it: the fields of its header, its time or status word, what its control slot and entries carry, and
the readings of a TELEMETRY frame (R6). ACK is absent while the sender has taken no good frame yet. -/
structure Frame where
  num : Nat
  ack : Option Nat
  kind : FrameKind
  safe : Bool
  replay : Bool
  items : List (Nat × Item)
  readings : List Nat
  time : Word
  deriving DecidableEq, Repr

/-- One receiver of a link (R69 to R72): locked or hunting; the `len` bits that it still looks at, the first received the most
significant; good frames of the candidate that stands first among them; bad frames in a row at the locked position; how many of
the bits have been judged at a locked position before; the FRAME of the last good frame; the run of good frames whose ACK names a frame
sent within the previous four. In lock the bits begin after the sync word of the last good frame. -/
structure Rx where
  locked : Bool
  bits : Nat
  len : Nat
  proved : Nat
  badRun : Nat
  judged : Nat
  lastGood : Option Nat
  ackRun : Nat
  deriving DecidableEq, Repr

/-- One side of a link: the FRAME of its next frame and how many it has sent, its queue, what waits for an acknowledgement, its receiver,
the items its receiver has taken, and the number of its next item. -/
structure Side where
  frame : Nat
  sent : Nat
  queue : List (Nat × Item)
  unacked : List Sent
  rx : Rx
  taken : List Nat
  nextId : Nat
  deriving DecidableEq, Repr

/-- One lane's gutter link: its two sides, the frames on their way, lock and staleness, far-side power, a replay not yet acknowledged
(R11), upstream control items held meanwhile, items the far side holds until they are whole (R24), the writes with a W1C bit or a
counter that wait until the far side takes writes (R12, R81, R129), the PRESSED values of writes sent whose apply has not been reported, the sequence of the next press on the near
side and of the next one to be applied on the far side (R24),
frames since the last TELEMETRY frame and whether one is due (R16), the rate in force on the far side (R179), the safe
state (R9), whether the lane has been READY since its last reset, the tick at which the last hunt began, and the tick of the far side's last
good frame (R9, R73). -/
structure Link where
  near : Side
  far : Side
  down : List Frame
  up : List Frame
  locked : Bool
  stale : Bool
  farPowered : Bool
  replayDue : Bool
  held : List Item
  farHold : List Item
  kept : List Item
  waits : List (Page × Nat)
  pressSeq : Nat
  applySeq : Nat
  telemAge : Nat
  telemDue : Bool
  rate : Word
  farSafe : Bool
  everReady : Bool
  huntFrom : Nat
  goodAt : Nat
  deriving DecidableEq, Repr

/-! ### Power, interlocks and boot (R27 to R82) -/

/-- What the module is powered for: OFF, DORMANT, held in reset, RUN or QUIET (Table: Power states). -/
inductive PwrMode where
  | off | dormant | inReset | run | quiet
  deriving DecidableEq, Repr

/-- One pair of interlock channels: the filtered channels (true closed), whether the closing has counted (R52), how far
the sequence of R51 has come (both open together, then both closed), and the last reading of each input (R49). -/
structure Ilk where
  a : Bool
  b : Bool
  counted : Bool
  bothOpened : Bool
  bothClosed : Bool
  readA : Bool
  readB : Bool
  deriving DecidableEq, Repr

/-- One firmware image slot (R65, R450): whether it holds an image, version, rollback index, issue byte, whether its
signature and digest verify, and its lane monitor code. -/
structure ImageSlot where
  present : Bool
  version : Word
  issue : Nat
  rollback : Nat
  verified : Bool
  mon : List Byte
  deriving DecidableEq, Repr

/-- One colophon entry (Table: Colophon entry); its CRC is computed where the entry is read. -/
structure LogEntry where
  rt : Nat
  index : Nat
  cls : Nat
  code : Nat
  lane : Nat
  origin : Nat
  dropped : Nat
  flags : Nat
  date : Word
  time : Word
  detail : List Word
  deriving DecidableEq, Repr

/-- The colophon log (R472 to R475): the fault region in slot order, the general region oldest first, the INDEX to come, drops
not yet told, the writer's place, erased sectors ahead of the writer, entries waiting in the RAM buffer (true: unmetered drops
do not apply), the erase in progress and its notice, what the erases have come to, and the ticks at which an erase fell due (R475), at which the
bucket was last filled (R474), and to which a clear holds the flash (R449). -/
structure Colophon where
  fault : List LogEntry
  general : List LogEntry
  next : Nat
  droppedBefore : Nat
  dropRun : Bool
  faultFullTold : Bool
  fullTold : Bool
  pos : Nat
  ahead : Nat
  buffer : List LogEntry
  granted : Bool
  preempted : Bool
  erases : Sparse Nat
  dueAt : Nat
  bucketAt : Nat
  clearTo : Nat
  deriving DecidableEq, Repr

/-- One record of the fault shelf of the always-on island, and whether it still has to be copied to the fault region at the next
boot (R473). -/
structure ShelfRec where
  entry : LogEntry
  toCopy : Bool
  deriving DecidableEq, Repr

/-- Supplies, reset, boot and the always-on island. Voltages in millivolts; `heldFrom` is the tick from which the present module reset is held
(R59), `t0` the last reset release and `runAt` the tick at which Chase last reached RUNNING (R57, R66). -/
structure Pwr where
  mode : PwrMode
  vin : Nat
  aux : Nat
  vio : Nat
  islandOn : Bool
  mrstLow : Bool
  softReset : Bool
  bootFailed : Bool
  watchdog : Bool
  brownout : Bool
  answers : Bool
  permits : Ilk
  slotA : ImageSlot
  slotB : ImageSlot
  failedSlot : Option Bool
  shelf : List ShelfRec
  adrStraps : Nat
  adrSampled : Nat
  lanesDone : Bool
  heldFrom : Nat
  t0 : Nat
  runAt : Nat
  deriving DecidableEq, Repr

/-! ### Impositions (R203 to R224, R538) -/

/-- One impression on its sheet (R204): when it was posted, its words, its poster's holder code, the lanes (16: module slots) in
which it has still to launch, those in which it is armed (R208), and those whose slot has the arming (R209). -/
structure Impression where
  id : Nat
  sheet : Nat
  time : Nat
  w2 : Word
  arg : Word
  poster : Nat
  todo : List Nat
  armed : List Nat
  slots : List Nat
  deriving DecidableEq, Repr

/-- A trigger frame as sent (Table: Trigger frame). -/
structure TrigFrame where
  group : Nat
  tag : Nat
  launch : Nat
  issued : Nat
  deriving DecidableEq, Repr

/-- Sheets, the sessions that wrote the reaction rules (R220), the SYNC_IN FIFO (rising, RT) and the last captured edge (R216),
the level of PPS_OUT with the clock at its rise, the clock at which a SYNC_OUT pulse ends, and the last trigger frame sent. -/
structure ImpSt where
  sheets : List Impression
  nextId : Nat
  ruleOwner : Vector (Option SessId) 4
  syncFifo : List (Bool × Nat)
  lastEdge : Option Nat
  ppsHigh : Bool
  ppsAt : Nat
  pulse : Option Nat
  trigSent : Option TrigFrame
  deriving DecidableEq, Repr

/-! ### The source-measure unit (R227 to R251) and frisket grants (R458 to R462) -/

/-- What one lane's SMU holds beside its registers: the LV output switch, the starter of the cycle and its delivered energy (in
products of units of the coarse V and I), the power of the last valid coarse sample, arcs of the cycle and the excursion in progress, the highest coarse current of the
dwell, a result that is due, a measurement in progress with the flags gathered, the millisecond after a range change, the
clamped values in force, the auto-zero run in progress with the far-side temperature at the last completed one in 0.1 °C (R247), the setpoint of
the HV range in 2^-149 / 40,000 V (R232) and whether it moves at 2,000 V/s (R237), and instants in ticks: entry into the present HV state, the
last sample of an excursion, the last range change, the start of the measurement, the start of the auto-zero run; `ramp` is the setpoint at
entry into RAMP, `ended` the instant at which the cycle's driving ended and the state it left (R242). -/
structure Smu where
  lvOn : Bool
  starter : Option Nat
  energy : Nat
  lastPower : Int
  arcs : Nat
  inArc : Bool
  maxI : Word
  resultDue : Bool
  tripped : Bool
  measuring : Bool
  measFlags : Nat
  rangeChange : Bool
  clampLevel : Bool
  clampLimit : Bool
  azForced : Bool
  azGranted : Bool
  azNoticed : Bool
  azTemp : Int
  setpoint : Int
  slewFast : Bool
  ramp : Int
  since : Nat
  ended : Option (Nat × Nat)
  arcAt : Nat
  rangeAt : Nat
  measAt : Nat
  azFrom : Nat
  deriving DecidableEq, Repr

/-- Chase's record of one frisket: holder, lane, limits, the tick at which it ends (none: without limit), and the session whose grant an
engine's grant follows (R461). -/
structure Grant where
  holder : Nat
  lane : Nat
  vmax : Word
  imax : Word
  emax : Word
  endAt : Option Nat
  parent : Option Nat
  deriving DecidableEq, Repr

/-! ### Filter chains (R254 to R273) -/

/-- A pod record on its way into the M chain: its stamp, axes, and the flags of its slug (R254, R340). -/
structure PodSample where
  stamp : Word
  x : Int
  y : Int
  z : Int
  flags : Nat
  deriving DecidableEq, Repr

/-- One filter chain beside its registers. Instants are lane time in 1/64 ns, so that every grid edge (3,125/64 ns) and every
output period is a whole number. The restart edge to come, the last restart edge, inputs of H1 since then, the last output
instant (of M: the inputs it took), where a TAP change starts looking for its instant, the tap in use, the end of the settling that a TAP
change brings, the inputs of the CIC, of the six half-band stages (of M: for each axis) and of the FIR, each newest first, the DC
estimate in units of 2^-32 and whether it waits for its first value, records waiting for M, whether M's pod has left, a folio that waits for
the first slug after a restart (R270), the changes of the window newest first with their instants (R268), and the inputs of the coarse
path's own CIC (R265). -/
structure Chain where
  due : Option Nat
  edge : Nat
  inputs : Nat
  last : Nat
  since : Nat
  tap : Nat
  settleTo : Nat
  hist : List Int
  half : Vector (List (List Int)) 3
  delay : List Int
  mean : Int
  loadMean : Bool
  podIn : List PodSample
  lost : Bool
  folio : Bool
  wins : List (Nat × Bool)
  coarse : List Int
  deriving DecidableEq, Repr

/-! ### The ultrasonic unit (R274 to R295) -/

/-- What a pair in progress was started with: its start t_s, whether in flow cadence, whether launched, whether it is the first after
a forced electronic zero, and the words that act for it: L_M, X_M, TAU0_NS, AREA_M2, K, C_MIN, C_MAX, WINDOW, DT_OFF (R280,
R289). -/
structure Pair where
  start : Nat
  flow : Bool
  launched : Bool
  preempted : Bool
  lm : Word
  xm : Word
  tau : Word
  area : Word
  k : Word
  cMin : Nat
  cMax : Nat
  window : Nat
  dtOff : Int
  deriving DecidableEq, Repr

/-- The ultrasonic unit beside its registers: the pair in progress, the end of the last pair while it is not over (step 6), the launched
pairs and a cadence pair that wait, the start of the lattice of cadence pairs, the next instant on it, and whether it is to begin anew at the
launched pair that waits (R281, R282), the start of the last
pair and the earliest start of the next, seeding and its last candidate, the references, the last valid pair (t_s, Q, V, C), when the last
valid pair above THRESH_OFF was,
runs of pairs, the true zero in progress, and the electronic zero, with the instant at which its run began and the far-side temperature at the
last completed one; a gain that waits for the end of the pair (R276). Instants are lane time. -/
structure Usnd where
  pair : Option Pair
  tail : Option Nat
  shotWaits : Nat
  cadWaits : Bool
  cadBase : Nat
  cadDue : Option Nat
  rebase : Bool
  offAt : Nat
  zcFrom : Nat
  zcTemp : Int
  gainNext : Option Nat
  lastStart : Nat
  earliest : Nat
  seeding : Bool
  cand : Option (Int × Int)
  refDown : Int
  refUp : Int
  lastValid : Option (Nat × Word × Word × Word)
  diffRun : Nat
  quietRun : Nat
  onRun : Nat
  gainOut : Bool
  zeroLeft : Nat
  zeroSum : Int
  zeroBad : Nat
  zeroN : Nat
  zcInitial : Bool
  zcForced : Bool
  zcAfter : Bool
  zcNoticed : Bool
  firstForced : Bool
  deriving DecidableEq, Repr

/-! ### The Duncol line and the pods on it (R296 to R353) -/

/-- An event record of a pod (R350). -/
structure PodEvt where
  tick : BitVec 16
  kind : Nat
  info : Nat
  arg : Word
  deriving DecidableEq, Repr

/-- One of a pod's three queues (R317, R351): what waits, what it has discarded since its last reply, and that reply with its
TOGGLE. -/
structure PodQueue (α : Type) where
  waiting : List α
  lost : Nat
  sent : List α
  sentLost : Nat
  toggle : Option Bool
  deriving DecidableEq, Repr

/-- A recogniser (R341, R342): its phase, samples the phase's condition has held, samples since the excursion began, its peak with
sign and age, whether it clipped, and the samples in which it may not emit yet. -/
structure Recog where
  phase : Nat
  count : Nat
  age : Nat
  peak : Int
  peakAge : Nat
  clip : Bool
  mute : Nat
  deriving DecidableEq, Repr

/-- A state machine of a pod (R344, R345): its state, samples in it at its next evaluation, samples since it left state 0, its signal. -/
structure PodSm where
  state : Nat
  inState : Nat
  away : Nat
  signal : Bool
  deriving DecidableEq, Repr

/-- The capture of a pod (R348): 0 IDLE, 1 ARMED, 2 FILLING, 3 FROZEN; its entries oldest first, samples since the last entry, and
the trigger with the samples since. -/
structure PodCap where
  state : Nat
  entries : List (Int × Int × Int)
  divCount : Nat
  preValid : Nat
  trigger : Nat
  since : Nat
  deriving DecidableEq, Repr

/-- An Efana pod as far as the line can tell (R305 to R353): identity (0: none has been there), power, joining, short address,
whether it has answered NEWCOMER, the clock at the last correct ROLLCALL it saw, its registers and programs, the stored profile, a WRITE to be applied, a SAVE in progress,
the gyroscope and its latest sample, filters, recognisers, machines, capture, recent samples (newest first) and queues. -/
structure Pod where
  id : BitVec 64
  powered : Bool
  frames : Nat
  joined : Bool
  addr : Option Nat
  answered : Bool
  lastRoll : Nat
  fw : Byte
  selftestFail : Bool
  regs : Sparse Byte
  prog : Sparse Word
  profile : Option (Sparse Byte × Sparse Word)
  saves : Nat
  saving : Bool
  write : Option (Nat × List Byte)
  gReady : Bool
  gyro : Int × Int × Int
  hp : Int × Int × Int
  gEst : Int × Int × Int
  recs : List Recog
  sms : List PodSm
  cap : PodCap
  hist : List (Int × Int × Int)
  qA : PodQueue PodRec
  qG : PodQueue PodRec
  qE : PodQueue PodEvt
  deriving DecidableEq, Repr

/-- A frame that the lane owes a pod of its own accord: the set-up of R336, step by step, or a reading of the ranges (R337). -/
inductive OwnFrame where
  | readCfg | writeA | writeG | writeStream
  deriving DecidableEq, Repr

/-- What the line keeps for one short address: censuses missed, its last presence and attention slots, measured latches (census
edge in ns of lane time, ticks in 256ths, newest first), the latch in use, predictions in a row, recorded ranges, toggles,
GAP and BACKGROUND_PREEMPTED to be shown, since when a frame is due, failed attempts, own frames to send, since when they are due and
since when they are being sent; the clock at the arrival, at the last instant that made a POLL due, and at the last good reply. Streams A, G
and events in order; times in ticks of the 200 MHz clock. -/
structure LineAddr where
  missed : Nat
  seen : Bool
  latches : List (Nat × Int)
  latch : Option (Nat × Int)
  predicted : Nat
  rangeA : Nat
  rangeG : Nat
  toggle : Vector Bool 3
  gap : Vector Bool 3
  pre : Vector Bool 3
  due : Vector (Option Nat) 3
  tries : Vector Nat 3
  own : List OwnFrame
  ownTries : Nat
  ownDue : Nat
  ownFrom : Option Nat
  arrived : Nat
  polledAt : Vector Nat 2
  goodAt : Vector Nat 3
  deriving DecidableEq, Repr

/-- The Duncol line of a lane: the pods, the addresses, what is due and since when, the presence slots that read 0 in the last ROLLCALL, the
search and its failed passes, the UNASSIGN and the request in progress, and the clock at the start of a LINE_FAULT. Times in ticks of the
200 MHz clock; the census edge and the last multiple of 250 ms in ns of lane time. -/
structure Line where
  pods : Vector Pod 24
  addrs : Vector LineAddr 24
  startDue : Bool
  bcastDue : Bool
  censusDue : Bool
  ticksDue : Bool
  attnDue : Option Nat
  censusAt : Nat
  attnAt : Nat
  edge : Nat
  roll : Nat
  newcomer : Bool
  passed : Bool
  passTries : Nat
  searchAt : Nat
  searchFree : Bool
  searchForced : Bool
  fullRun : Bool
  unassign : List Nat
  unTries : Nat
  reqAt : Nat
  reqTries : Nat
  reqAcked : Bool
  noticed : Bool
  faultAt : Nat
  deriving DecidableEq, Repr

/-! ### Lane timers and the CAN FD port (R354 to R385) -/

/-- One lane timer beside its registers: its count at lane clock period `at_`, followed events towards the next count, TOP and CMP
in force, OUT, whether CMP has matched since the last reload, the wraps since the start, and the capture in progress: leading edge (count
since the start, stamp), trailing edge, periods completed, the stamp and clock of its last slug's edge, GAP and SKIPPED to be shown. -/
structure Tmr where
  base : Nat
  at_ : Nat
  sub : Nat
  top : Nat
  cmp : Nat
  out : Bool
  hit : Bool
  wraps : Nat
  lead : Option (Nat × Word)
  trail : Option Nat
  periods : Nat
  lastSlug : Option (Word × Nat)
  gap : Bool
  skipped : Bool
  deriving DecidableEq, Repr

/-- A frame in the receive FIFO (R381): HDR0, HDR1 as the window shows it, stamp, data. -/
structure CanRx where
  hdr0 : Word
  hdr1 : Word
  stamp : Word
  data : List Byte
  deriving DecidableEq, Repr

/-- The CAN FD port beside its registers: timed launch queues, the buffer in an attempt and whether it is cancelled, when each
buffer became PENDING (ticks of the system clock), the receive FIFO, whether the next stored frame carries OVERFLOW, the stamp of the
start of frame of the attempt in progress, and the clock at the entry into BUS_OFF. -/
structure CanSt where
  queues : Vector (List Nat) 4
  attempt : Option Nat
  cancel : Bool
  since : Sparse Nat
  fifo : List CanRx
  overflow : Bool
  sof : Word
  offAt : Nat
  deriving DecidableEq, Repr

/-! ### Registration (R178 to R202) -/

/-- A step that Chase has decided or the host has asked for: the 64-bit time to load, whether it is a domain switch, and
whether it is relative to RT (a servo step) rather than absolute. -/
structure StepReq where
  delta : Int
  absolute : Option Nat
  isSwitch : Bool
  deriving DecidableEq, Repr

/-- The transmitter of J4 (R196, R222): the clock at which it is free, the frames that wait with whether each is a trigger frame, and the last
frame that went out, from the destination address to the FCS. -/
structure NetTx where
  freeAt : Nat
  queue : List (Bool × List Byte)
  sent : List Byte
  deriving DecidableEq, Repr

/-- The registration unit beside its registers: the fraction (units of 2^-24 ns), a step decided and a step announced with its
instant (R184, R185), the servo's frequency estimate and whether a switch slews (R191, R193), RT_INC over the last 60 s with the ticks
at which each value began (newest first), Chase's ring of captures (R189), the first instant at which PPS_OUT may rise (R218),
the payload of the last echo answer (R197), the transmitter, and what a switch had to slew at some clock (R193). -/
structure RegUnit where
  frac : Nat
  decided : Option StepReq
  announced : Option (StepReq × Nat)
  baseInc : Word
  switching : Bool
  incs : List (Nat × Word)
  captures : List (Bool × Nat)
  ppsFrom : Nat
  echo : List Byte
  net : NetTx
  slewFrom : Nat × Int
  deriving DecidableEq, Repr

/-- A foreign master: its clock identity and port, and the data set of its Announce (R186). -/
structure Foreign where
  clock : Nat
  port : Nat
  set : MasterSet
  deriving DecidableEq, Repr

/-- One PTP domain beside its registers: its parent, the foreign masters, a two-step Sync that waits for its Follow_Up (sequence, t2,
correction), the last t2 - t1 less correction, the Delay_Req in progress and its t3, mean path delay and offset once measured,
runs of offsets, messages handled in this second, and whether an Announce of the parent has been taken; the clock at the parent's last Announce
with its interval, at the last offset, at the entry into HOLDOVER, at the last Delay_Req and at which the next is due, and the interval that
Delay_Resp states (log 2 of seconds). -/
structure PtpDom where
  parent : Option Foreign
  foreign : List Foreign
  sync : Option (Nat × Int × Int)
  ms : Option Int
  req : Option Nat
  t3 : Option Int
  delay : Option Int
  off : Option Int
  goodRun : Nat
  badRun : Nat
  msgs : Nat
  told : Bool
  annAt : Nat
  annLog : Int
  offAt : Nat
  holdAt : Nat
  reqAt : Option Nat
  reqDue : Nat
  reqLog : Int
  deriving DecidableEq, Repr

/-! ### Chase (R447 to R484, R514 to R522) -/

/-- A session's service mailbox (R447, R448): arguments, STATE, OUTCOME, OP, SEQ and results. -/
structure Box where
  args : Vector Word 8
  state : Nat
  outcome : Nat
  op : Nat
  seq : Nat
  res : Vector Word 4
  deriving DecidableEq, Repr

/-- A request that waits for Chase (R448): its requester (codes of R124), service code and arguments. -/
structure SvcReq where
  who : Nat
  op : Nat
  args : List Word
  deriving DecidableEq, Repr

/-- A session's log read (R476): RD_REGION, RD_INDEX_HI, RD_INDEX_LO, a fetch under way, READY, GONE and the entry shown. -/
structure LogRead where
  fault : Bool
  hi : Word
  lo : Word
  fetching : Bool
  ready : Bool
  gone : Bool
  entry : List Word
  deriving DecidableEq, Repr

/-- A run of consecutive failures, the lockout it brings, and the tick at which that began (R483, R519). -/
structure Tries where
  fails : Nat
  locked : Bool
  at_ : Nat
  deriving DecidableEq, Repr

/-- Chase beside its registers: mailboxes, the monitors' SEQ, the requests in the order of their GOs, calibration records in
flash and which have been told due soon (R469, R471), the session that loaded each lane's program (R461), the island clock in
seconds since 2000-01-01 (R463 to R467), an inserted leap second with the OFFSET_S it was inserted under (R466), whether the
alarm is armed and whether it has fired in DORMANT (R468, R174), a CALENDAR_LOST entry owed (R467), log reads, the side-band challenge and the tries of the side-band
(R483, R519), the stored return record (R518), and a works erase that power loss has cut (R521). -/
structure Chase where
  boxes : Vector Box 8
  monSeq : Vector Nat 16
  queue : List SvcReq
  recs : Vector (Option (List Byte)) 16
  dueTold : BitVec 16
  loaders : Vector (Option SessId) 16
  islandSet : Bool
  islandSec : Nat
  leap : Int × Nat
  alarmArmed : Bool
  alarmHit : Bool
  calLost : Bool
  reads : Vector LogRead 8
  sbChallenge : BitVec 256
  steward : Tries
  works : Tries
  record : List Byte
  worksDue : Bool
  deriving DecidableEq, Repr

/-! ### The two-wire ports (R478 to R499) -/

/-- The side-band front end beside its registers: the two buffers, COUNT, the response of a command that is BUSY, the calendar
snapshot of CAL_READ, the image slot being loaded in NO_IMAGE with its bytes (R479 to R486), the tick from which its 100 ms without an
address match count, and that of the last wake NAK (R489). -/
structure Sb where
  inBuf : Vector Byte 256
  outBuf : Vector Byte 256
  count : Nat
  busy : Option Word
  snapDate : Word
  snapTime : Word
  snapStat : Word
  load : Option (Bool × Bytes)
  awakeFrom : Nat
  nakAt : Option Nat
  deriving DecidableEq, Repr

/-- A fixture operation in progress (R495): its code, COUNT + 1, memory address, whether it is the automatic one (R499), and the tick at which it
started (R496). -/
structure FixOp where
  op : Nat
  count : Nat
  addr : Nat
  auto : Bool
  at_ : Nat
  deriving DecidableEq, Repr

/-- The fixture controller beside its registers: the operation in progress, and an automatic read that waits for its end (R499). -/
structure Fix where
  busy : Option FixOp
  autoDue : Bool
  deriving DecidableEq, Repr

/-! ### The Forme port (R83 to R108) -/

/-- A transaction in progress whose header is through (R90, R108): opcode, header and data; the status that a read-type one has (R96); the
data words that it already has; what the proof showed of each word that a WRITE names, less what has been set or recorded again since
(R93, R122); the number of the first step after the proof; RCOUNT at the end of the header (R104); the words delivered; whether a lane
reset has cut its burst (R106); whether it runs in quad width (R83). -/
structure Started where
  op : Nat
  h : Hdr
  data : List Word
  status : Nat
  words : List Word
  seen : List (Nat × Word)
  since : Nat
  rcount : Nat
  sent : Nat
  cut : Bool
  quad : Bool
  deriving DecidableEq, Repr

/-- What the Forme port drove in the last transaction: status, data words, data CRC and press-tail bytes; and the transaction in progress. -/
structure FormeOut where
  status : Nat
  data : List Word
  dcrc : BitVec 16
  tail : List Byte
  started : Option Started
  deriving DecidableEq, Repr

/-- A store write pressed and not yet landed (R105). -/
structure StoreWrite where
  addr : Nat
  words : List Word
  deriving DecidableEq, Repr

/-! ### One lane and the module -/

/-- What one lane holds beside its registers. `marks` are the folio slugs of restarts, each with the number of slugs of the far side's
FIFO that go before it (R11); `hwAt` is the tick of the last HV-off (R53); `coarseAt`, `coarseFrom` and `rangeFrom` are lane times: the end of the last
coarse block, the last restart of the coarse path, the last change of SMU range (R265); `setAt` has for a W1C bit of a far-side word, by 32
times its address plus its number, one more than the number of the step that set it last (R93); `reports` are launch reports that have reached the near side and that Chase has still to count (R538). -/
structure Lane where
  link : Link
  eng : Eng
  gal : Gal
  mem : Bytes
  eccBad : List Nat
  ilk : Ilk
  permitAlive : Bool
  hwAt : Option Nat
  storeWrite : Option StoreWrite
  stepAt : Option (Int × Nat)
  timeOff : Int
  fifo : List Slug
  marks : List (Nat × Slug)
  seqs : Sparse Nat
  reports : List LaunchRep
  smu : Smu
  chains : Vector Chain 4
  coarseAt : Nat
  coarseFrom : Nat
  rangeFrom : Nat
  setAt : Sparse Nat
  usnd : Usnd
  line : Line
  tmrs : Vector Tmr 4
  cues : List (Nat × Nat)
  watchFrom : Nat
  can : CanSt
  deriving DecidableEq, Repr

/-- The whole TH16: the waiting commands, the register file (`regs` in force, `image` the near-side images of writable
mirrored fields, `frozen` what a stale page goes on showing), and every block. `freeCtr` counts free values taken, `stepNo`
the steps made, `clock` the ticks of the 200 MHz system clock; these three are the model's own. -/
structure State where
  pending : List Instr
  th8 : Bool
  freeCtr : Nat
  stepNo : Nat
  clock : Nat
  regs : WordMap
  image : WordMap
  frozen : WordMap
  pwr : Pwr
  evg : Evg
  log : Colophon
  quoins : Vector Quoin 96
  sess : Vector Session 8
  forme : FormeOut
  imp : ImpSt
  grants : List Grant
  chase : Chase
  sb : Sb
  fix : Fix
  ru : RegUnit
  ptpA : PtpDom
  ptpB : PtpDom
  lanes : Vector Lane 16
  deriving DecidableEq, Repr

/-- Why the machine could stop with a fault: no command of this part does, so there is no such reason. -/
inductive Fault where
  deriving DecidableEq, Repr

/-- Why a command has no answer. -/
inductive Refusal where
  /-- The command has no meaning in this model yet; raised by an arm of Dispatch.lean only. Safe: the run ends. -/
  | notModelled (mnemonic : String)
  deriving DecidableEq, Repr

/-! ### Reset -/

def Src.reset : Src := ⟨0x1F, 0, 0, false, .idle, 0, 0, false⟩
def Coal.reset : Coal := ⟨0, none, none, 0⟩
def Firq.reset : Firq := ⟨none, false, 0⟩
def Evg.reset : Evg := ⟨[], Vector.replicate 16 Coal.reset, Firq.reset, Firq.reset, [], none⟩

/-- Quoin q at module-scope reset (R142): free, generation 0, rank q for a module quoin and 28 + j for a lane quoin j, hold
limit 2,000 ms. Where the rotation of R148 starts before any lane has held the quoin is not stated: after lane 0 (DESIGN CHOICE,
log 111). -/
def Quoin.resetAt (q : Nat) : Quoin := ⟨0x7F, 0, false, if q < 32 then q else 28 + q % 4, 2000, 0, 0⟩

/-- The colophon log of a module as shipped: empty, every sector erased (log 5). -/
def Colophon.reset : Colophon := ⟨[], [], 0, 0, false, false, false, 0, 4097, [], false, false, [], 0, 0, 0⟩

def Session.reset : Session := ⟨false, none, 0, [], none, [], 0, none, 0, false, false, 0, [], 0⟩

def Psr.reset : Psr := ⟨false, false, true, false, false⟩
def EngRegs.reset : EngRegs := ⟨Vector.replicate 8 0, Vector.replicate 12 (Vector.replicate 16 0), 0, 0⟩
/-- The special registers of a compositor after a reset (R413). -/
def EngSpecial.reset : EngSpecial :=
  ⟨Psr.reset, ⟨false, false, false, false, false⟩, 0, 0, 0, 0, 0x04000000, 0, 0, 0, false, 0, 8, 0, 0, false, 0, 0, Vector.replicate 4 0⟩
/-- A compositor after a reset (R413). -/
def Eng.reset : Eng :=
  ⟨.reset, 0, 0x04000000, EngRegs.reset, EngSpecial.reset, 0, 0, [], false, none, [], [], none, none, 0, false, false, false, false, false, false, false, [], []⟩
def Gal.reset : Gal := ⟨0, 0, [], false, false, false, false, 0, 0, false, 0, 0, 0, false⟩

def Rx.reset : Rx := ⟨false, 0, 0, 0, 0, 0, none, 0⟩
def Side.reset : Side := ⟨0, 0, [], [], Rx.reset, [], 0⟩
/-- A gutter link before it first locks: stale, hunting, the far side unpowered and safe (R10, R57). -/
def Link.reset : Link :=
  ⟨Side.reset, Side.reset, [], [], false, true, false, false, [], [], [], [], 0, 0, 0, false, 0x05000000, true, false, 0, 0⟩

def Ilk.reset : Ilk := ⟨false, false, false, false, false, false, false⟩
def ImageSlot.reset : ImageSlot := ⟨false, 0, 0, 0, false, []⟩
/-- The supplies and the boot state as a power-on reset leaves them: +24 V and VIO present, AUX absent, the module held in
reset until RESET_RELEASE; both image slots as shipped are this model's choice (log 3). -/
def Pwr.reset : Pwr :=
  ⟨.inReset, 24000, 0, 3300, true, false, false, false, false, false, false, Ilk.reset,
   ⟨true, 0x01000000, 0x43, 0, true, []⟩, ImageSlot.reset, none, [], 3, 3, false, 0, 0, 0⟩

def ImpSt.reset : ImpSt := ⟨[], 0, Vector.replicate 4 none, [], none, false, 0, none, none⟩
def RegUnit.reset : RegUnit := ⟨0, none, none, 0x05000000, false, [], [], 0, [], ⟨0, [], []⟩, (0, 0)⟩
def PtpDom.reset : PtpDom := ⟨none, [], none, none, none, none, none, none, 0, 0, 0, false, 0, 0, 0, 0, none, 0, 0⟩
def Box.reset : Box := ⟨Vector.replicate 8 0, 0, 0, 0, 0, Vector.replicate 4 0⟩
def LogRead.reset : LogRead := ⟨false, 0, 0, false, false, false, List.replicate 16 0⟩
def Tries.reset : Tries := ⟨0, false, 0⟩
/-- Chase of a module as shipped (log 3): no calibration record, the calendar not set. -/
def Chase.reset : Chase :=
  ⟨Vector.replicate 8 Box.reset, Vector.replicate 16 0, [], Vector.replicate 16 none, 0, Vector.replicate 16 none, false, 0, (0, 0), false, false, false,
   Vector.replicate 8 LogRead.reset, 0, Tries.reset, Tries.reset, [], false⟩
def Sb.reset : Sb := ⟨Vector.replicate 256 0, Vector.replicate 256 0, 0, none, 0, 0, 0, none, 0, none⟩
def Fix.reset : Fix := ⟨none, false⟩
def FormeOut.reset : FormeOut := ⟨0, [], 0, [], none⟩

def Smu.reset : Smu :=
  ⟨false, none, 0, 0, 0, false, 0, false, false, false, 0, false, false, false, false, false, false, 0, 0, false, 0, 0, none, 0, 0, 0, 0⟩
/-- Six half-band stages with nothing in them, for each of the three axes. -/
def halfEmpty : Vector (List (List Int)) 3 := Vector.replicate 3 (List.replicate 6 [])
def Chain.reset : Chain := ⟨none, 0, 0, 0, 0, 0, 0, [], halfEmpty, [], 0, false, [], false, false, [], []⟩
def Usnd.reset : Usnd :=
  ⟨none, none, 0, false, 0, none, false, 0, 0, 0, none, 0, 0, false, none, 0, 0, none, 0, 0, 0, false, 0, 0, 0, 0, false, false, false, false, false⟩
def PodQueue.reset : PodQueue α := ⟨[], 0, [], 0, none⟩
def Recog.reset : Recog := ⟨0, 0, 0, 0, 0, false, 64⟩
def PodSm.reset : PodSm := ⟨0, 0, 0, false⟩
def PodCap.reset : PodCap := ⟨0, [], 0, 0, 0, 0⟩
/-- A place on the line at which no pod has been yet. -/
def Pod.reset : Pod :=
  ⟨0, false, 0, false, none, false, 0, 0, false, [], [], none, 0, false, none, false, (0, 0, 0), (0, 0, 0), (0, 0, 0),
   List.replicate 6 Recog.reset, List.replicate 4 PodSm.reset, PodCap.reset, [], PodQueue.reset, PodQueue.reset, PodQueue.reset⟩
def LineAddr.reset : LineAddr :=
  ⟨0, false, [], none, 0, 2, 1, Vector.replicate 3 false, Vector.replicate 3 false, Vector.replicate 3 false, Vector.replicate 3 none,
   Vector.replicate 3 0, [], 0, 0, none, 0, Vector.replicate 2 0, Vector.replicate 3 0⟩
def Line.reset : Line :=
  ⟨Vector.replicate 24 Pod.reset, Vector.replicate 24 LineAddr.reset, false, false, false, false, none, 0, 0, 0, 0, false, false, 0, 0,
   false, false, false, [], 0, 0, 0, false, false, 0⟩
def Tmr.reset : Tmr := ⟨0, 0, 0, 0xFFFFFFFF, 0x80000000, true, false, 0, none, none, 0, none, false, false⟩
def CanSt.reset : CanSt := ⟨Vector.replicate 4 [], none, false, [], [], false, 0, 0⟩

def Lane.reset : Lane :=
  ⟨Link.reset, Eng.reset, Gal.reset, [], [], Ilk.reset, false, none, none, none, 0, [], [], [], [], Smu.reset, Vector.replicate 4 Chain.reset, 0, 0, 0, [], Usnd.reset, Line.reset,
   Vector.replicate 4 Tmr.reset, [], 0, CanSt.reset⟩

/-- The module right after a power-on reset, held in reset: every register at its Reset column, nothing listed in any memory,
no command waiting. Listed are MOD.SUPPLY, which measures 24 V and VIO in its 3.3 V window, and RESET_CAUSE with CAUSE POWER_ON
(log 2). -/
def State.reset : State where
  pending := []
  th8 := false
  freeCtr := 0
  stepNo := 0
  clock := 0
  regs := [(0x16, 0x96000800), (0x19, 0x1)]
  image := []
  frozen := []
  pwr := Pwr.reset
  evg := Evg.reset
  log := Colophon.reset
  quoins := Vector.ofFn fun q => Quoin.resetAt q.val
  sess := Vector.replicate 8 Session.reset
  forme := FormeOut.reset
  imp := ImpSt.reset
  grants := []
  chase := Chase.reset
  sb := Sb.reset
  fix := Fix.reset
  ru := RegUnit.reset
  ptpA := PtpDom.reset
  ptpB := PtpDom.reset
  lanes := Vector.replicate 16 Lane.reset

end Sys2Proof.Machine
end

