-- ==== Sys2Proof/Machine/Ops.lean ====
section
/-! DEFINITION. The named operations every meaning is written over: sparse maps, lane access, the page map, reading and writing
a register field, counters, raising an event bit, registration time. -/

namespace Sys2Proof.Machine

/-! ### Sparse maps -/

/-- What key `k` reads as; `d` gives what an unlisted key reads as. -/
def sget (d : Nat → β) : Sparse β → Nat → β
  | [], k => d k
  | (a, v) :: r, k => if k == a then v else sget d r k

/-- Put (k, v) in its place in a rising list, whatever an unlisted key reads as. -/
def sput : Sparse β → Nat → β → Sparse β
  | [], k, v => [(k, v)]
  | (a, w) :: r, k, v => if k < a then (k, v) :: (a, w) :: r else if k == a then (k, v) :: r else (a, w) :: sput r k v

/-- Drop key `k`. -/
def sdel (m : Sparse β) (k : Nat) : Sparse β := m.filter (fun e => e.1 != k)

/-- Write `v` at `k`, keeping the canonical form. -/
def sset [DecidableEq β] (d : Nat → β) (m : Sparse β) (k : Nat) (v : β) : Sparse β :=
  if v = d k then sdel m k else sput m k v

/-- Keys rise from `lo`. -/
def srising : Nat → Sparse β → Bool
  | _, [] => true
  | lo, (a, _) :: r => decide (lo ≤ a) && srising (a + 1) r

/-- The canonical form: keys rising, no entry equal to what an unlisted key reads as. -/
def swf [DecidableEq β] (d : Nat → β) (m : Sparse β) : Bool :=
  srising 0 m && m.all (fun e => decide (e.2 ≠ d e.1))

/-- Bits of a word that have been set or recorded again are taken from what the proof of a WRITE in progress showed (R93, R122). -/
def FormeOut.strike (f : FormeOut) (addr : Nat) (m : Word) : FormeOut :=
  { f with started := f.started.map fun t => { t with seen := t.seen.map fun e => if e.1 = addr then (e.1, e.2 &&& ~~~m) else e } }

/-- The same in the state. -/
def State.strike (s : State) (addr : Nat) (m : Word) : State := { s with forme := s.forme.strike addr m }

end Sys2Proof.Machine

namespace Sys2Proof

open Machine

/-! ### The page map (R110 to R118) -/

def LaneKind.num : LaneKind → Nat
  | .lane => 0 | .smu => 1 | .chain => 2 | .usnd => 3 | .tmr => 4 | .dunc => 5 | .can => 6 | .eng => 7

def LaneKind.ofNum : Nat → LaneKind
  | 0 => .lane | 1 => .smu | 2 => .chain | 3 => .usnd | 4 => .tmr | 5 => .dunc | 6 => .can | _ => .eng

/-- The page number (Table: Page map). -/
def Page.num : Page → Nat
  | .mod => 0 | .forme => 1 | .sess => 2 | .quoin => 3 | .evg => 4 | .table j => 5 + j.val | .reg => 9 | .ptp => 0xA
  | .net => 0xB | .imp => 0xC | .chase => 0xD | .cal => 0xE | .log => 0xF | .sb => 0x10 | .fix => 0x11 | .sync => 0x12
  | .therm => 0x13 | .lane n k => 0x40 + 8 * n.val + k.num | .store n => 0xC0 + n.val

/-- The common header pages in page order; number j of them owns sources 4j to 4j + 3 (Table: Page map). -/
def commonPages : List Page :=
  [.mod, .forme, .sess, .quoin, .evg, .reg, .ptp, .net, .imp, .chase, .cal, .log, .sb, .fix, .sync, .therm]

/-- The page that a page number names; none for reserved and works pages. -/
def Page.ofNum (p : Nat) : Option Page :=
  if p < 5 then commonPages[p]?
  else if p < 9 then some (.table ⟨(p - 5) % 4, Nat.mod_lt _ (by decide)⟩)
  else if p < 0x14 then commonPages[p - 4]?
  else if p < 0x40 then none
  else if p < 0xC0 then some (.lane ⟨(p - 0x40) / 8 % 16, Nat.mod_lt _ (by decide)⟩ (LaneKind.ofNum (p % 8)))
  else if p < 0xD0 then some (.store ⟨(p - 0xC0) % 16, Nat.mod_lt _ (by decide)⟩)
  else none

/-- The lane a page belongs to. -/
def Page.lane? : Page → Option LaneId
  | .lane n _ => some n
  | .store n => some n
  | _ => none

/-- The fields of a page. -/
def Page.flds : Page → List Fld
  | .mod => MOD.flds | .forme => FORME.flds | .sess => SESS.flds | .quoin => QUOIN.flds | .evg => EVG.flds | .table _ => []
  | .reg => REG.flds | .ptp => PTP.flds | .net => NET.flds | .imp => IMP.flds | .chase => CHASE.flds | .cal => CAL.flds
  | .log => LOG.flds | .sb => SB.flds | .fix => FIX.flds | .sync => SYNC.flds | .therm => THERM.flds
  | .lane _ .lane => LANE.flds | .lane _ .smu => SMU.flds | .lane _ .chain => CHAIN.flds | .lane _ .usnd => USND.flds
  | .lane _ .tmr => TMR.flds | .lane _ .dunc => DUNC.flds | .lane _ .can => CAN.flds | .lane _ .eng => ENG.flds
  | .store _ => STORE.flds

/-- PG_ID.KIND (Table: Page map). -/
def Page.kindCode : Page → Nat
  | .mod => 1 | .forme => 2 | .sess => 3 | .quoin => 4 | .evg => 5 | .table _ => 0 | .reg => 7 | .ptp => 8 | .net => 9 | .imp => 0xA
  | .chase => 0xB | .cal => 0xC | .log => 0xD | .sb => 0xE | .fix => 0xF | .sync => 0x10 | .therm => 0x11
  | .lane _ k => 0x20 + k.num | .store _ => 0x30

/-- PG_CAPS.LAST, from the head of each page's register tables (R114). -/
def Page.last : Page → Nat
  | .mod => 0x1F | .forme => 0x7F | .sess => 0x7D | .quoin => 0xDF | .evg => 0xFF | .table _ => 0 | .reg => 0x3F | .ptp => 0x2B
  | .net => 0x1B | .imp => 0xFF | .chase => 0xDF | .cal => 0x4F | .log => 0x3F | .sb => 0x1C | .fix => 0xBF | .sync => 0x17
  | .therm => 0x2F | .lane _ .lane => 0x3C | .lane _ .smu => 0x7F | .lane _ .chain => 0xBF | .lane _ .usnd => 0x40
  | .lane _ .tmr => 0x3F | .lane _ .dunc => 0xB7 | .lane _ .can => 0xB2 | .lane _ .eng => 0x1D | .store _ => 0x11

/-- PG_CAPS.EV_COUNT: the event bits each page defines (R114, R158, R201, R225, R446 and the register tables). -/
def Page.evCount : Page → Nat
  | .mod => 8 | .quoin => 4 | .evg => 2 | .reg => 7 | .ptp => 5 | .net => 3 | .imp => 8 | .chase => 3 | .cal => 4 | .log => 5
  | .sb => 4 | .fix => 3 | .sync => 2 | .therm => 3 | .lane _ .lane => 14 | .lane _ .smu => 12 | .lane _ .chain => 6
  | .lane _ .usnd => 9 | .lane _ .tmr => 7 | .lane _ .dunc => 8 | .lane _ .can => 7 | .lane _ .eng => 3 | _ => 0

/-- PG_CAPS.MIRRORED (Table: Page map). -/
def Page.mirrored : Page → Bool
  | .lane _ .eng => false
  | .lane _ _ => true
  | _ => false

/-- PG_CAPS.STOPPABLE. -/
def Page.stoppable : Page → Bool
  | .imp | .lane _ .smu | .lane _ .chain | .lane _ .usnd | .lane _ .dunc | .lane _ .can => true
  | _ => false

/-- PG_CAPS [15:0] where a block chapter defines it: MOD reads the lanes fitted, SMU the preset count 16 (R114). -/
def Page.caps (th8 : Bool) : Page → Nat
  | .mod => if th8 then 0x00FF else 0xFFFF
  | .lane _ .smu => 16
  | _ => 0

/-- The quoin that guards the page's RWQ fields, 0xFF if none (R124, R202, R225, R329). -/
def Page.quoinNum : Page → Nat
  | .reg | .ptp | .net => 2
  | .imp | .sync => 3
  | .lane n .dunc => 0x21 + 4 * n.val
  | _ => 0xFF

/-- Is the word at this offset of the page a mirrored far-side field? LANE is mixed: 0x16 to 0x19 (Table: Page map). The
common header's event, error and routing registers are near-side (R157); PG_CTL and PG_STAT of a mirrored page are mirrored. -/
def Page.mirrorAt (p : Page) (off : Nat) : Bool :=
  match p with
  | .lane _ .lane => decide (0x16 ≤ off ∧ off ≤ 0x19)
  | .lane _ .eng => false
  | .lane _ _ => off == 2 || decide (0x10 ≤ off)
  | _ => false

/-- All ones in the bits a page defines as events. -/
def Page.evBits (p : Page) : Word := bitMask (p.evCount - 1) 0 &&& (if p.evCount = 0 then 0 else BitVec.allOnes 32)

/-- Word address of an offset of a page. -/
def Page.at_ (p : Page) (off : Nat) : Nat := p.num * 256 + off

end Sys2Proof

namespace Sys2Proof.Machine

/-! ### What an unlisted register word reads as: its Reset column (R125) -/

/-- The reset word of the common header (Tables PG_ID to PG_APPLIED); words a block computes at the read are 0 here. -/
def headerReset (p : Page) (off : Nat) : Word :=
  match off with
  | 3 => if p.stoppable then 0x00010000 else 0
  | 7 => p.evBits
  | 0xA => match p with | .store _ => 0xFFFFFFFF | _ => 0
  | _ => 0

/-- The reset word of a page's block registers: the Reset columns of its fields. -/
def blockReset (fs : List Fld) (off : Nat) : Word :=
  fs.foldl (fun w f => if f.covers off then w ||| BitVec.ofNat 32 (f.reset <<< f.lo) else w) 0

/-- Words whose reset differs from copy to copy: the M chain's SHIFT word (0), PTP domain B's EN and DOMAIN (0, 1),
the coalescer 0 that does not exist, SB.CFG at island power-up (R493), the ranks of R142. -/
def resetException (p : Page) (off : Nat) : Option Word :=
  match p, off with
  | .lane _ .chain, 0x20 => some 0
  | .ptp, 0x20 => some 0x03010000
  | .evg, 0x70 => some 0
  | .sb, 0x10 => some 0x100
  | .quoin, off => if 0x80 ≤ off ∧ off ≤ 0xDF then
      some (BitVec.ofNat 32 ((if off - 0x80 < 32 then off - 0x80 else 28 + (off - 0x80) % 4) * 65536 + 2000)) else none
  | _, _ => none

/-- The first of the model's own addresses beyond the register file: the FIR coefficients of all banks. -/
def coefBase : Nat := 0x10000

/-- Where coefficient i of bank b (0 A, 1 B) of chain c of lane n is kept; the register file shows 64 of them at a time (R262). -/
def coefAddr (n c b i : Nat) : Nat := coefBase + n * 512 + (2 * c + b) * 64 + i

/-- Bank A resets to h[0] = 1.0, every other coefficient to 0 (R261). -/
def coefReset (addr : Nat) : Word := if addr < 0x20000 ∧ addr % 64 = 0 ∧ addr / 64 % 2 = 0 then 0x00400000 else 0

/-- Where word i of CAN transmit buffer b of lane n is kept; the window at 0x80 shows one buffer at a time (text before R372). -/
def canAddr (n b i : Nat) : Nat := 0x20000 + n * 1024 + b * 32 + i

/-- The Reset column of the word at an address. -/
def resetWord (addr : Nat) : Word :=
  if coefBase ≤ addr then coefReset addr else
  match Page.ofNum (addr / 256) with
  | none => 0
  | some p =>
    if addr % 256 < 0x10 then (match p with | .table _ => 0 | _ => headerReset p (addr % 256))
    else (resetException p (addr % 256)).getD (blockReset p.flds (addr % 256))

/-! ### Words and fields of the register file -/

/-- The word in force at an address. -/
def State.wd (s : State) (addr : Nat) : Word := sget resetWord s.regs addr

/-- The word of a page that selects what its window shows: COEF_SEL (R262), TXB_SEL (text before R372). -/
def selOff : Page → Nat
  | .lane _ .can => 0x1B
  | _ => 0x25

/-- The address behind an offset of a page, when the word that selects its window is `sel`. -/
def winAddr (p : Page) (off : Nat) (sel : Word) : Nat :=
  match p with
  | .lane n .chain => if 0x80 ≤ off ∧ off < 0xC0 then coefAddr n.val (bitsOf sel 1 0) (bitsOf sel 4 4) (off - 0x80) else p.at_ off
  | .lane n .can => if 0x80 ≤ off ∧ off < 0x95 then canAddr n.val (bitsOf sel 4 0) (off - 0x80) else p.at_ off
  | _ => p.at_ off

/-- The far side's own selection, for `winAddr`. -/
def State.selFar (s : State) (p : Page) : Word := sget resetWord s.regs (p.at_ (selOff p))
/-- The selection in the near-side image. -/
def State.selNear (s : State) (p : Page) : Word := sget resetWord s.image (p.at_ (selOff p))

/-- Set the word in force at an address. -/
def State.setWd (s : State) (addr : Nat) (v : Word) : State := { s with regs := sset resetWord s.regs addr v }

/-- Field `f` of lane `n` (0 on a common page), copy `i`. -/
def State.g (s : State) (f : Fld) (n : Nat) (i : Nat := 0) : Nat := bitsOf (s.wd (f.addr n i)) f.hi f.lo

/-- Is a field non-zero? -/
def State.on (s : State) (f : Fld) (n : Nat) (i : Nat := 0) : Bool := s.g f n i != 0

/-- Write field `f` of lane `n`, copy `i`. -/
def State.p (s : State) (f : Fld) (n : Nat) (i v : Nat) : State :=
  s.setWd (f.addr n i) (withBits (s.wd (f.addr n i)) f.hi f.lo v)

/-- Write copy 0. -/
def State.put (s : State) (f : Fld) (n : Nat) (v : Nat) : State := s.p f n 0 v

/-- Advance a counter, which saturates at its all-ones value (R126). -/
def State.bump (s : State) (f : Fld) (n : Nat) (i : Nat := 0) (by_ : Nat := 1) : State :=
  s.p f n i (min (s.g f n i + by_) (2 ^ f.width - 1))

/-- Header words by page. -/
def State.hw (s : State) (p : Page) (off : Nat) : Word := s.wd (p.at_ off)
def State.setHw (s : State) (p : Page) (off : Nat) (v : Word) : State := s.setWd (p.at_ off) v

/-- PG_STAT.STOPPED and PG_CTL.RUN of a page (R115). -/
def State.stopped (s : State) (p : Page) : Bool := bitAt (s.hw p 3) 16
def State.setStopped (s : State) (p : Page) (b : Bool) : State := s.setHw p 3 (withBits (s.hw p 3) 16 16 (b2n b))
def State.run (s : State) (p : Page) : Bool := bitAt (s.hw p 2) 0
def State.setRun (s : State) (p : Page) (b : Bool) : State := s.setHw p 2 (withBits (s.hw p 2) 0 0 (b2n b))
/-- Write PG_STAT [15:0]. -/
def State.setPgStat (s : State) (p : Page) (v : Nat) : State := s.setHw p 3 (withBits (s.hw p 3) 15 0 v)

/-! ### Lanes -/

def State.lane (s : State) (n : LaneId) : Lane := s.lanes[n]
def State.setLane (s : State) (n : LaneId) (l : Lane) : State := { s with lanes := s.lanes.set n l }
def State.upLane (s : State) (n : LaneId) (f : Lane → Lane) : State := s.setLane n (f (s.lane n))
def State.upLink (s : State) (n : LaneId) (f : Link → Link) : State := s.upLane n fun l => { l with link := f l.link }
def State.upGal (s : State) (n : LaneId) (f : Gal → Gal) : State := s.upLane n fun l => { l with gal := f l.gal }
def State.upEng (s : State) (n : LaneId) (f : Eng → Eng) : State := s.upLane n fun l => { l with eng := f l.eng }

/-- Queue a downstream item on lane n. -/
def State.sendDown (s : State) (n : LaneId) (it : Item) : State :=
  s.upLink n fun l => { l with near := { l.near with queue := l.near.queue ++ [(l.near.nextId, it)], nextId := l.near.nextId + 1 } }

/-- Queue an upstream item on lane n. -/
def State.sendUp (s : State) (n : LaneId) (it : Item) : State :=
  s.upLink n fun l => { l with far := { l.far with queue := l.far.queue ++ [(l.far.nextId, it)], nextId := l.far.nextId + 1 } }

/-- W1C bits `m` of a far-side field are set in this step (R93). -/
def State.setW1c (s : State) (f : Fld) (n : LaneId) (i m : Nat) : State :=
  let bits := (List.range f.width).filter fun b => m / 2 ^ b % 2 == 1
  (s.p f n i (s.g f n i ||| m)).upLane n fun l =>
    { l with setAt := bits.foldl (fun t b => sset (fun _ => 0) t (32 * f.addr n i + f.lo + b) (s.stepNo + 1)) l.setAt }

/-- What the proof of a write to a far side showed, less the W1C bits set since (R93). -/
def State.proofNow (s : State) (n : LaneId) (x : FarWrite) : Word :=
  (List.range 32).foldl (fun m b =>
    if x.since < sget (fun _ => 0) (s.lane n).setAt (32 * x.page.at_ x.off + b) then m &&& ~~~(bitMask b b) else m) x.proof

/-- The lanes a TH16 or TH8 fits (R1). -/
def State.fitted (s : State) (n : LaneId) : Bool := !s.th8 || decide (n.val < 8)

/-- MOD.LANES.FITTED. -/
def State.fittedMask (s : State) : Nat := if s.th8 then 0xFF else 0xFFFF

/-- All lanes, in order. -/
def allLanes : List LaneId := List.finRange 16

/-- Do something for each lane of a list, in order. -/
def State.forLanes (s : State) (ls : List LaneId) (f : LaneId → State → State) : State := ls.foldl (fun s n => f n s) s

/-- The mirrors of lane n show values in force: its link is locked and its far side powered (R10, R12). -/
def State.live (s : State) (n : LaneId) : Bool := (s.lane n).link.locked && (s.lane n).link.farPowered

def State.session (s : State) (k : SessId) : Session := s.sess[k]
def State.upSess (s : State) (k : SessId) (f : Session → Session) : State := { s with sess := s.sess.set k (f (s.session k)) }
def allSess : List SessId := List.finRange 8

/-! ### Free values -/

/-- Take a fresh free value (log 4). -/
def State.fresh (s : State) : Word × State := (Config.free s.freeCtr, { s with freeCtr := s.freeCtr + 1 })

/-! ### Registration time (R178 to R183) -/

/-- 64-bit registration time (R180). -/
def State.rt64 (s : State) : Nat := (s.g REG.RT_HI 0 + s.g REG.WRAP_PENDING 0) * 2 ^ 32 + s.g REG.RT_LO 0

/-- The low 32 bits of registration time. -/
def State.rtLo (s : State) : Word := s.wd (REG.RT_LO.addr 0 0)

/-- Extend a 32-bit stamp against a 64-bit reference (R183). -/
def extendStamp (st : Nat) (t : Nat) : Int :=
  let c : Int := ((t - t % 2 ^ 32 : Nat) : Int) + (st : Int)
  if c - (t : Int) ≥ ((2 ^ 31 : Nat) : Int) then c - ((2 ^ 32 : Nat) : Int)
  else if c - (t : Int) < -((2 ^ 31 : Nat) : Int) then c + ((2 ^ 32 : Nat) : Int) else c

/-- The counter after `k` ticks of the system clock (R178): RT_LO and its fraction advance by k times RT_INC, and a pass
through zero sets WRAP_PENDING (R180). -/
def State.ticks (s : State) (k : Nat) : State :=
  let sum := (s.g REG.RT_LO 0 * 2 ^ 24 + s.ru.frac) + k * s.g REG.RT_INC 0
  let s := { s with ru := { s.ru with frac := sum % 2 ^ 24 }, clock := s.clock + k }
  let s := s.put REG.RT_LO 0 (sum / 2 ^ 24 % 2 ^ 32)
  if 2 ^ 56 ≤ sum then s.put REG.WRAP_PENDING 0 1 else s

end Sys2Proof.Machine
end

