-- ==== Sys2Proof/Machine/Gatherer.lean ====
section
/-! DEFINITION. The event gatherer's operations (spec/07_event_gatherer.md): sources, occurrences, coalescers, claim and
complete, TOP, raising an event bit of a page, the FIRQ lines. -/

namespace Sys2Proof.Machine

/-- The outcome of one command. -/
abbrev Out := Host.Outcome State Fault Refusal

/-! ### Sources -/

/-- The page and own source number behind a source; none for a doorbell (R156, Table: Page map). -/
def sourcePage (src : Nat) : Option (Page × Nat) :=
  if src < 64 then (commonPages[src / 4]?).map fun p => (p, src % 4)
  else if src < 960 then
    some (.lane ⟨(src - 64) / 56 % 16, Nat.mod_lt _ (by decide)⟩ (LaneKind.ofNum ((src - 64) / 7 % 8)), (src - 64) % 7)
  else none

/-- The first source a page owns, and how many (Table: Page map). -/
def pageBase (p : Page) : Nat :=
  match p with
  | .lane n k => 64 + 56 * n.val + 7 * k.num
  | .store _ => 0
  | .table _ => 0
  | _ => 4 * commonPages.idxOf p

def pageOwned : Page → Nat
  | .lane _ _ => 7
  | .store _ => 0
  | .table _ => 0
  | _ => 4

/-- EV_SOURCE field of an event bit's group (R118). -/
def State.route (s : State) (p : Page) (bit : Nat) : Nat := bitsOf (s.hw p 0xA) (4 * (bit / 4) + 3) (4 * (bit / 4))

/-- The pending, unmasked bits of a page that are routed to its own source `i`. -/
def State.routedBits (s : State) (p : Page) (i : Nat) : List Nat :=
  (List.range 32).filter fun b => bitAt (s.hw p 4) b && !bitAt (s.hw p 7) b && s.route p b == i

def State.src (s : State) (i : Nat) : Src := sget (fun _ => Src.reset) s.evg.srcs i
def State.setSrc (s : State) (i : Nat) (x : Src) : State :=
  { s with evg := { s.evg with srcs := sset (fun _ => Src.reset) s.evg.srcs i x } }

/-- A source's level, or a doorbell's latch (R157, R167). -/
def State.level (s : State) (i : Nat) : Bool :=
  match sourcePage i with
  | some (p, j) => !(s.routedBits p j).isEmpty
  | none => (s.src i).latch

def State.coal (s : State) (c : Nat) : Coal := s.evg.coals[c]?.getD Coal.reset
def State.setCoal (s : State) (c : Nat) (x : Coal) : State :=
  { s with evg := { s.evg with coals := s.evg.coals.setIfInBounds c x } }

/-- Make a source PENDING in this step. -/
def State.makePending (s : State) (i : Nat) : State := s.setSrc i { s.src i with st := .pending, since := s.stepNo }

/-- The members of a coalescer that are in a state other than IDLE. -/
def State.busyMembers (s : State) (c : Nat) : List Nat :=
  (s.evg.srcs.filter fun e => e.2.coal == c && e.2.st != .idle).map (·.1)

/-- TIME of a coalescer in ticks of the 200 MHz clock. -/
def State.coalTicks (s : State) (c : Nat) : Nat := s.g EVG.COAL_TIME 0 c * 200

/-- A coalescer is idle: no busy member, and TIME passed since its last fire and its last configuration write (R170). -/
def State.coalIdle (s : State) (c : Nat) : Bool :=
  (s.busyMembers c).isEmpty
    && (match (s.coal c).lastFire with | none => true | some t => decide (t + s.coalTicks c ≤ s.clock))
    && decide ((s.coal c).lastCfg + s.coalTicks c ≤ s.clock)

/-- A coalescer fires: every HELD member becomes PENDING in this step and the count returns to 0 (R169). -/
def State.fire (s : State) (c : Nat) : State :=
  let held := (s.evg.srcs.filter fun e => e.2.coal == c && e.2.st == .held).map (·.1)
  (held.foldl (fun s i => s.makePending i) s).setCoal c { s.coal c with counted := 0, firstHeld := none, lastFire := some s.clock }

/-- Fire if the counted occurrences meet COUNT (R169). -/
def State.fireIfCounted (s : State) (c : Nat) : State :=
  if s.g EVG.COAL_COUNT 0 c ≤ (s.coal c).counted then s.fire c else s

/-- Count one occurrence at a coalescer. -/
def State.countAt (s : State) (c : Nat) (held : Bool) : State :=
  let x := s.coal c
  s.setCoal c { x with counted := x.counted + 1, firstHeld := if held && x.firstHeld.isNone then some s.clock else x.firstHeld }

/-- One occurrence at a source (R163, R169, R170); a PEND_CLR whose proof lies before it leaves the source alone (R93, R162). -/
def State.occur (s : State) (i : Nat) : State :=
  let x := s.src i
  if !x.en then s
  else
    let s := s.strike (Page.evg.at_ (0xE0 + i / 32)) (bitMask (i % 32) (i % 32))
    if x.coal = 0 then (if x.st = .idle then s.makePending i else s)
  else if x.st = .idle then
    if s.on EVG.COAL_BYPASS 0 x.coal && s.coalIdle x.coal then (s.makePending i).fire x.coal
    else ((s.setSrc i { x with st := .held }).countAt x.coal true).fireIfCounted x.coal
  else (s.countAt x.coal false).fireIfCounted x.coal

/-- The evaluation of a source "as after DONE" (R163, R167). -/
def State.afterDone (s : State) (i : Nat) : State :=
  let s := s.setSrc i { s.src i with st := .idle }
  if s.level i then s.occur i else s

/-! ### Event bits -/

/-- An occurrence of event bit `bit` of page `p` on the near side (R117, R157): the bit sets, and an unmasked, routed bit
counts at its source; an EV_CLR whose proof lies before it leaves the bit alone (R93). -/
def State.raise (s : State) (p : Page) (bit : Nat) : State :=
  let s := (s.setHw p 4 (s.hw p 4 ||| bitMask bit bit)).strike (p.at_ 5) (bitMask bit bit)
  if bitAt (s.hw p 7) bit || s.route p bit == 0xF then s else s.occur (pageBase p + s.route p bit)

/-- An occurrence on the far side of lane n: the event travels upstream in a control slot and sets its bit when it arrives (R8, R11,
R157). -/
def State.farRaise (s : State) (n : LaneId) (k : LaneKind) (bit : Nat) : State := s.sendUp n (.event (.lane n k) bit)

/-- MOD event bits (R158). -/
def State.raiseMod (s : State) (bit : Nat) : State := s.raise .mod bit

/-! ### TOP (R164) -/

/-- The highest PRIO among sources ACTIVE at target t; none if no source is. -/
def State.activePrio (s : State) (t : Nat) : Option Nat :=
  s.evg.srcs.foldl (fun m e => if e.2.st = .active ∧ e.2.claimedAt = t then
    (match m with | none => some e.2.prio | some p => some (max p e.2.prio)) else m) none

/-- Is the source deliverable to target t? -/
def State.deliverable (s : State) (t : Nat) (x : Src) : Bool :=
  x.st == .pending && x.target == t && decide (s.g EVG.TCTL_THRESH 0 t ≤ x.prio)
    && (match s.activePrio t with | none => true | some p => decide (p < x.prio))

/-- TOP_t: highest PRIO, then the earliest step, then the lowest number. -/
def State.top (s : State) (t : Nat) : Option Nat :=
  (s.evg.srcs.foldl (fun (m : Option (Nat × Src)) e =>
    if s.deliverable t e.2 then
      match m with
      | none => some e
      | some (j, y) => if y.prio < e.2.prio || (y.prio == e.2.prio && decide (e.2.since < y.since)) then some e else some (j, y)
    else m) none).map (·.1)

/-- The word of EVG.TOP_t, EVTOP and EVCUR. -/
def State.topWord (s : State) (t : Nat) : Word :=
  let act := s.activePrio t
  let w := match s.top t with
    | none => 0
    | some i => 0x80000000 ||| BitVec.ofNat 32 ((s.src i).prio <<< 24) ||| BitVec.ofNat 32 i
  match act with
  | none => w
  | some p => w ||| 0x40000000 ||| BitVec.ofNat 32 (p <<< 27)

/-! ### Claim and complete (R166 to R168) -/

/-- A CLAIM or DONE that names a source in no fitting state (R166). -/
def State.miss (s : State) (i : Nat) : State := (s.put EVG.MISS_SOURCE 0 i).raise .evg 0

/-- CLAIM of source i at target t. -/
def State.claim (s : State) (t i : Nat) : State :=
  let x := s.src i
  if x.st = .pending ∧ x.target = t then s.setSrc i { x with st := .active, claimedAt := t, latch := false } else s.miss i

/-- Can target t complete source i now? -/
def State.completes (s : State) (t i : Nat) : Bool :=
  ((s.src i).st == .pending && (s.src i).target == t) || ((s.src i).st == .active && (s.src i).claimedAt == t)

/-- DONE of source i at target t: a PENDING doorbell's latch clears, then the level is sampled (R167). -/
def State.complete (s : State) (t i : Nat) : State :=
  if s.completes t i then
    (s.setSrc i { s.src i with latch := (s.src i).latch && (s.src i).st != .pending }).afterDone i
  else s.miss i

/-! ### Doorbells (R159, R167) -/

/-- A ring: the latch sets, and an enabled doorbell counts an occurrence. -/
def State.ring (s : State) (i : Nat) : State := (s.setSrc i { s.src i with latch := true }).occur i

/-! ### What settles after a command -/

/-- The FIRQ line of target t in EDGE mode starts its gap when TOP changes to another source while it stays valid (R173). -/
def settleFirq (edge : Bool) (now : Nat) (top : Option Nat) (f : Firq) : Firq :=
  match f.lastTop, top with
  | some a, some b => ⟨some b, edge && (f.gap || a != b), if a != b then now else f.gapAt⟩
  | _, t => ⟨t, false, f.gapAt⟩

/-- FIRQ_A# (false) or FIRQ_B# (true) is driven low (R173); released in reset, DORMANT and OFF (R37). -/
def State.firqLow (s : State) (b : Bool) : Bool :=
  (s.pwr.mode == .run || s.pwr.mode == .quiet)
    && (s.top (b2n b)).isSome && !(if b then s.evg.firqB.gap else s.evg.firqA.gap)

end Sys2Proof.Machine
end

