-- ==== Sys2Proof/Machine/Judge.lean ====
section
/-! DEFINITION. How one register write is judged and accepted (R2, R3, R5, R25, R81, R115 to R131, R139 to R141, R445, R537): rights,
quoin, stopped state, range, then the link; PG_ERR, PG_APPLIED, near-side images and downstream items. -/

namespace Sys2Proof.Machine

/-! ### Codes -/

/-- Configuration error codes (R119). -/
def errRange : Nat := 1
def errOrder : Nat := 2
def errRights : Nat := 3
def errStopped : Nat := 4
def errBudget : Nat := 5
def errFrisket : Nat := 6
def errCal : Nat := 7
def errDate : Nat := 8
def errQuoin : Nat := 9
def errLate : Nat := 0xA
def errAbsent : Nat := 0xB
def errMinshift : Nat := 0xC
def errStale : Nat := 0xD

end Sys2Proof.Machine

namespace Sys2Proof

/-- Holder code of a writer (R124). -/
def Writer.holder : Writer → Nat
  | .host k => k.val
  | .user n => 0x10 + n.val
  | .monitor n => 0x10 + n.val
  | .chase => 0x20

/-- PG_ERR.WRITER (R121). -/
def Writer.code : Writer → Nat
  | .host _ => 0
  | .user _ => 1
  | .monitor _ => 1
  | .chase => 2

/-- Is the writer the steward (R141)? -/
def Writer.steward : Writer → Bool
  | .host k => k == 0
  | _ => false

end Sys2Proof

namespace Sys2Proof.Machine

/-! ### Masks of a word by access code -/

/-- The bits of a word that carry an access code. -/
def fldMask (fs : List Fld) (off : Nat) (a : Acc) : Word :=
  fs.foldl (fun w f => if f.acc = a ∧ f.covers off = true then w ||| bitMask f.hi f.lo else w) 0

/-- The bits of a word of a page that carry an access code, the common header included (Table: Common header). TCTL
of Chase and of the compositors, and the rights of S0, are RO (Table: EVG.TCTL_t, R140); bits 5 to 8 of CREAD and CWRITE are
reserved (R139). -/
def accMask (p : Page) (off : Nat) (a : Acc) : Word :=
  if (p = .evg ∧ (0x42 ≤ off ∧ off ≤ 0x52 ∨ off = 0x70)) ∨ (p = .sess ∧ 0x40 ≤ off ∧ off ≤ 0x45) then 0
  else if off < 0x10 then
    match off, a with
    | 2, .rw => if p.stoppable then 1 else 0
    | 2, .wo => 0xC0000000
    | 5, .w1c => p.evBits
    | 6, .w1s => p.evBits
    | 8, .w1s => p.evBits
    | 9, .w1c => p.evBits
    | 0xA, .rw => 0xFFFFFFFF
    | _, _ => 0
  else if p = .sess ∧ 0x48 ≤ off ∧ off % 8 < 2 then fldMask p.flds off a &&& 0xFFFFFE1F
  else fldMask p.flds off a

/-- The bits a write stores: RW, RWS and RWQ. -/
def storeMask (p : Page) (off : Nat) : Word := accMask p off .rw ||| accMask p off .rws ||| accMask p off .rwq

/-- The bits that act when written as 1: W1S, W1C and WO. -/
def actMask (p : Page) (off : Nat) : Word := accMask p off .w1s ||| accMask p off .w1c ||| accMask p off .wo

/-! ### Rights (R139 to R141, R445) -/

/-- Bits reserved to the steward (Table: Steward powers, R158, R168, R453, R459, and the register tables). -/
def stewardMask (p : Page) (off : Nat) : Word :=
  match p with
  | .sess => if off = 0x12 then 0xFE else if 0x20 ≤ off ∧ off ≤ 0x27 then 0xFFFFFFFF
             else if off = 0x28 then 0x307 else if 0x40 ≤ off then 0xFFFFFFFF else 0
  | .quoin => if off = 0x15 ∨ (0x80 ≤ off ∧ off ≤ 0xDF) then 0xFFFFFFFF else 0
  | .evg => if off = 0x15 then 0xFFFFFFFF else 0
  | .reg => if off = 0x1E ∨ off = 0x1F ∨ off = 0x20 ∨ off = 0x21 then 0xFFFFFFFF else 0
  | .chase => if 0x27 ≤ off ∧ off ≤ 0x2F ∨ (0x60 ≤ off ∧ off ≤ 0x9F) then 0xFFFFFFFF else 0
  | .cal => if off = 0x18 then 1 else 0
  | .log => if off = 0x10 then 1 else if off = 0x11 then 3 else 0
  | _ => 0

/-- Bits that accept writes only from the lane's engine at monitor privilege and from Chase (R445). -/
def monMask (p : Page) (off : Nat) : Word :=
  match p with
  | .lane _ .lane => if (0x20 ≤ off ∧ off ≤ 0x23) ∨ off = 0x2F ∨ off = 0x30 ∨ off = 0x31 ∨ off = 0x34 ∨ off = 0x35 then 0xFFFFFFFF else 0
  | _ => 0

/-- Bits of the REG page that the mode forbids this writer (R179, R185, R195). -/
def State.modeMask (s : State) (w : Writer) (p : Page) (off : Nat) : Word :=
  match p with
  | .reg =>
    if off = 0x13 then (if s.g REG.MODE 0 = 2 ∧ w.steward = true then 0 else 0xFFFFFFFF)
    else if off = 0x1E ∨ off = 0x1F ∨ off = 0x20 then (if s.g REG.MODE 0 = 2 then 0 else 0xFFFFFFFF)
    else if off = 0x21 then (if s.g REG.MODE 0 = 0 then 0xFFFFFFFF else 0)
    else 0
  | _ => 0

/-- The bits of a word this writer may not write. Chase writes the MON bits (R445) and is not the steward. -/
def State.restricted (s : State) (w : Writer) (p : Page) (off : Nat) : Word :=
  match w with
  | .chase => stewardMask p off ||| s.modeMask w p off
  | .monitor _ => stewardMask p off ||| s.modeMask w p off
  | .host k => (if k = 0 then 0 else stewardMask p off) ||| monMask p off ||| s.modeMask w p off
  | .user _ => stewardMask p off ||| monMask p off ||| s.modeMask w p off

/-- The number of a common page as CREAD and CWRITE count it; bit 4 covers the source table (R139). -/
def rightsBit : Page → Nat
  | .table _ => 4
  | p => p.num

/-- Is a page's lane fitted (R1)? -/
def State.present (s : State) (p : Page) : Bool := match p.lane? with | some n => s.fitted n | none => true

/-- Has this writer the right to write this word: a session while open (R98) and inside its rights (Table: Rights of a session), an
engine its own lane's pages (R388)? -/
def State.mayPress (s : State) (w : Writer) (p : Page) (off : Nat) : Bool :=
  match w with
  | .chase => true
  | .user m => match p with | .lane n _ => n == m | _ => false
  | .monitor m => match p with | .lane n _ => n == m | _ => false
  | .host k =>
    if !(s.session k).isOpen then false
    else if k = 0 then true
    else match p with
    | .mod => false
    | .lane n kd => bitAt (s.wd (SESS.LANES.addr 0 k.val)) n.val && bitAt (s.wd (SESS.LANES.addr 0 k.val)) (24 + kd.num)
    | .store n => bitAt (s.wd (SESS.SWRITE.addr 0 k.val)) (16 + n.val)
    | .forme => decide (0x40 ≤ off ∧ off ≤ 0x7F) || bitAt (s.wd (SESS.CWRITE.addr 0 k.val)) 1
    | .quoin => off == 0x10 || bitAt (s.wd (SESS.CWRITE.addr 0 k.val)) 3
    | p => bitAt (s.wd (SESS.CWRITE.addr 0 k.val)) (rightsBit p)

/-- A TAKE of a lane quoin whose lane lies outside a session's LANES: a transaction that touches it returns RIGHTS (R139). -/
def State.quoinBarred (s : State) (w : Writer) (v : Word) : Bool :=
  match w with
  | .host k => k != 0 && bitsOf v 11 8 == 1 && decide (32 ≤ bitsOf v 7 0) && decide (bitsOf v 7 0 < 96)
      && !bitAt (s.wd (SESS.LANES.addr 0 k.val)) ((bitsOf v 7 0 - 32) / 4)
  | _ => false

/-- The near side works: the module is in RUN or QUIET (Table: Power states). -/
def State.awake (s : State) : Bool := s.pwr.mode == .run || s.pwr.mode == .quiet

/-- May this writer write this word at all: while the near side works, on a lane that is fitted, and with the right to it? -/
def State.writable (s : State) (w : Writer) (p : Page) (off : Nat) : Bool := s.awake && s.present p && s.mayPress w p off

/-- May this session read this page (Table: Rights of a session)? -/
def State.readable (s : State) (k : SessId) (p : Page) : Bool :=
  if !(s.session k).isOpen then false
  else if k = 0 then true
  else match p with
  | .mod | .forme | .sess | .quoin => true
  | .lane n kd => bitAt (s.wd (SESS.LANES.addr 0 k.val)) n.val && bitAt (s.wd (SESS.LANES.addr 0 k.val)) (16 + kd.num)
  | .store n => bitAt (s.wd (SESS.SREAD.addr 0 k.val)) n.val
  | p => bitAt (s.wd (SESS.CREAD.addr 0 k.val)) (rightsBit p)

/-! ### Images -/

/-- The value a write is compared with: the near-side image of a mirrored word, else the word itself (R127, R537). -/
def State.imageWd (s : State) (p : Page) (off : Nat) : Word :=
  if p.mirrorAt off then sget resetWord s.image (winAddr p off (s.selNear p)) else s.wd (p.at_ off)

/-- A word with the storing bits of `v` put in. -/
def mergeWord (p : Page) (off : Nat) (old v : Word) : Word :=
  (old &&& ~~~(storeMask p off)) ||| (v &&& storeMask p off)

/-- PG_CTL with KEEP keeps [15:0] (R123). -/
def keepAdj (s : State) (p : Page) (off : Nat) (v : Word) : Word :=
  if off = 2 ∧ bitAt v 30 = true then (v &&& 0xFFFF0000) ||| (s.imageWd p 2 &&& 0xFFFF) else v

/-- Enter a write in the near-side image. -/
def State.putImage (s : State) (p : Page) (off : Nat) (v : Word) : State :=
  let a := winAddr p off (s.selNear p)
  { s with image := sset resetWord s.image a (mergeWord p off (sget resetWord s.image a) v) }

/-- The state as if a write had been stored, for the range rules that look at other fields of the press. -/
def State.staged (s : State) (p : Page) (off : Nat) (v : Word) : State :=
  if p.mirrorAt off then s.putImage p off (keepAdj s p off v)
  else s.setWd (p.at_ off) (mergeWord p off (s.wd (p.at_ off)) (keepAdj s p off v))

/-- Field `f` as the near side knows it: the image of a mirrored field, the value of another. -/
def State.gi (s : State) (f : Fld) (n : Nat) (i : Nat := 0) : Nat :=
  match Page.ofNum (f.addr n i / 256) with
  | some p => bitsOf (s.imageWd p (f.addr n i % 256)) f.hi f.lo
  | none => 0

/-! ### Judging -/

/-- Would the write start a far-side block (R12, R79)? -/
def State.startsBlock (s : State) (p : Page) (off : Nat) (v : Word) : Bool :=
  match p with
  | .lane _ k =>
    (off == 2 && p.mirrored && p.stoppable && bitAt v 0 && !bitAt (s.imageWd p 2) 0)
      || (match k with
          | .smu => off == 0x10 && (bitAt v 0 || bitAt v 3)
          | .usnd => off == 0x10 && (bitAt v 1 || bitAt v 2)
          | .tmr => off == 0x10 && bitsOf v 3 0 != 0
          | .dunc => off == 0x28 && bitAt v 31
          | .can => (off == 0x10 && bitAt v 0) || (off == 0x18 && v != 0)
          | _ => false)
  | _ => false

/-- What the link and the far side of a mirrored page say to a write that passed every other check (R12, R25, R62, R79, R81): before READY
a RUN bit goes into the image like every stored field, and a strobe is refused. -/
def State.farCheck (s : State) (p : Page) (off : Nat) (v : Word) : Option Nat :=
  match p.lane? with
  | none => none
  | some n =>
    if !p.mirrorAt off || (off == 2 && bitAt v 30) then none
    else if !(s.lane n).link.locked then some errStale
    else
      let ph := s.g LANE.STATE_PHASE n
      if s.startsBlock p off v && (!(s.lane n).link.farPowered || ph == 4 || (ph != 3 && off != 2)) then some errAbsent
      else if v &&& accMask p off .wo &&& (if off = 2 then 0 else 0xFFFFFFFF) != 0 && (!(s.lane n).link.farPowered || (ph != 3 && ph != 4))
      then some errAbsent
      else none

/-- PG_STAT.STOPPED as the near side knows it: mirrored on a mirrored page, and frozen while the lane is stale (R10, R116). -/
def State.stoppedSeen (s : State) (p : Page) : Bool :=
  match p.lane? with
  | some n => if p.mirrored && (s.lane n).link.stale then bitAt (sget resetWord s.frozen (p.at_ 3)) 16 else s.stopped p
  | none => s.stopped p

/-- The holder of the quoin that guards a page. -/
def State.pageHolder (s : State) (p : Page) : Nat := (s.quoins[p.quoinNum]?.getD (Quoin.resetAt 0)).holder

/-- May this requester take this quoin (R139, R143)? -/
def State.quoinRight (s : State) (h q : Nat) : Bool :=
  if h = 0 ∨ h = 0x20 then true
  else if h < 8 then
    if q < 32 then bitAt (s.wd (SESS.QUOINS.addr 0 h)) q else bitAt (s.wd (SESS.LANES.addr 0 h)) ((q - 32) / 4)
  else if 0x10 ≤ h ∧ h < 0x20 then
    if q < 32 then bitAt (s.wd (QUOIN.ENG_RIGHTS.addr 0 0)) q else (q - 32) / 4 == h - 0x10
  else false

/-- A holder of the page's quoin that has lost the right to it (R140). -/
def State.quoinRightLost (s : State) (w : Writer) (p : Page) : Bool :=
  s.pageHolder p == w.holder && !s.quoinRight w.holder p.quoinNum

/-- A block's own refusal against what the link says: an unlocked link refuses with STALE right after the checks of R5 (R25), before any
other code of the block's rules. -/
def linkFirst (chk far : Option Nat) : Option Nat :=
  match chk with
  | none => far
  | some c => if c ≠ errRange ∧ c ≠ errStopped ∧ c ≠ errQuoin ∧ far = some errStale then far else some c

/-- The checks of R5 in order, whoever writes, then those of the far side; `chk` is the check of the word's own rules. -/
def State.judge (s : State) (w : Writer) (p : Page) (off : Nat) (v : Word) (chk : Option Nat) : Option Nat :=
  let chg := (s.imageWd p off ^^^ keepAdj s p off v) &&& storeMask p off
  let act := v &&& actMask p off
  if (chg ||| act) &&& s.restricted w p off ≠ 0 ∨ chk = some errRights then some errRights
  else if accMask p off .rwq ≠ 0 ∧ s.quoinRightLost w p = true then some errRights
  else if accMask p off .rwq ≠ 0 ∧ s.pageHolder p ≠ w.holder then some errQuoin
  else if chg &&& accMask p off .rws ≠ 0 ∧ s.stoppedSeen p = false then some errStopped
  else if v &&& accMask p off .ctr ≠ 0 then some errRange
  else linkFirst chk (s.farCheck p off v)

/-! ### PG_ERR (R121, R161) -/

/-- PG_ERR of a page names a refused write. An ERR_CLR whose proof lies before it leaves it (R122). -/
def State.setErr (s : State) (w : Writer) (p : Page) (off code : Nat) (more : Bool) : State :=
  (s.setHw p 0xB (BitVec.ofNat 32 (w.code * 2 ^ 17 + b2n more * 2 ^ 16 + off % 256 * 256 + code))).strike (p.at_ 2) 0x80000000

/-- Record one refusal in PG_ERR of its page; a source-table refusal is recorded on the EVG page. -/
def State.recordErr (s : State) (w : Writer) (p : Page) (off code : Nat) (more : Bool) : State :=
  match p with
  | .table j => ((s.setErr w .evg off code more).put EVG.TABLE_SOURCE 0 (256 * j.val + off)).raise .evg 1
  | _ =>
    let s := s.setErr w p off code more
    if p = .evg ∧ 0x58 ≤ off ∧ off ≤ 0x67 then s.raise .evg 1 else s

/-! ### PG_APPLIED (R128) -/

/-- A write accepted words on the page: PRESSED advances, and APPLIED follows if all is in force. -/
def State.pressedOn (s : State) (p : Page) (inForce : Bool) : State :=
  match p with
  | .table _ => s
  | _ =>
    let old := s.hw p 0xD
    let pr := (bitsOf old 31 16 + 1) % 65536
    let ap := if inForce && bitsOf old 31 16 == bitsOf old 15 0 then pr else bitsOf old 15 0
    s.setHw p 0xD (BitVec.ofNat 32 (pr * 65536 + ap))

/-- Everything pressed on the page is in force. -/
def State.allApplied (s : State) (p : Page) : State :=
  s.setHw p 0xD (withBits (s.hw p 0xD) 15 0 (bitsOf (s.hw p 0xD) 31 16))

/-! ### Accepting -/

/-- The far side takes writes: live, and READY or SAFE (R12, R81). -/
def State.farTakes (s : State) (n : LaneId) : Bool :=
  s.live n && (s.g LANE.STATE_PHASE n == 3 || s.g LANE.STATE_PHASE n == 4)

/-- A page with the common header. -/
def Page.hasHeader (p : Page) : Bool := match p with | .table _ => false | _ => true

/-- PRESSED of a page as the write that is being accepted leaves it (R128). -/
def State.pressedNext (s : State) (p : Page) : Nat := (bitsOf (s.hw p 0xD) 31 16 + 1) % 65536

/-- Does a word clear bits or a counter on the far side, so that the near-side image cannot stand for it (R129)? -/
def farClears (p : Page) (off : Nat) (v : Word) : Bool := v &&& accMask p off .w1c != 0 || accMask p off .ctr != 0

/-- A mirrored word sets out for the far side under R8 (R24). While the far side takes no writes the near-side image keeps what it stores
(R12, R81), and what it clears waits beside the image (R129). -/
def State.carry (s : State) (n : LaneId) (x : FarWrite) (idx : Nat) (last : Bool) : State :=
  let it : Item := .write (s.lane n).link.pressSeq (s.pressedNext x.page) x idx last
  (if s.farTakes n then s.sendDown n it
   else if farClears x.page x.off x.v then s.upLink n fun l => { l with kept := l.kept ++ [it] } else s).upLink n fun l =>
    { l with waits := l.waits ++ [(x.page, s.pressedNext x.page)] }

/-- A press is on its way: the sequence of lane n advances (R24). -/
def State.pressSent (s : State) (n : LaneId) : State :=
  if s.farTakes n then s.upLink n fun l => { l with pressSeq := l.pressSeq + 1 } else s

end Sys2Proof.Machine

namespace Sys2Proof

/-- Is this a mirrored word? PG_CTL with KEEP writes no mirrored field (R123). -/
def Page.farWord (p : Page) (off : Nat) (v : Word) : Bool := p.mirrorAt off && !(off == 2 && bitAt v 30)

/-- Was the word in force as soon as it was accepted: is it a word of a near-side field, or one that writes no mirrored field (R128)? -/
def Page.inForceAtOnce (p : Page) (off : Nat) (v : Word) : Bool := !p.farWord off v

end Sys2Proof

namespace Sys2Proof.Machine

/-- Accept one word. A near-side word takes effect at once; a mirrored word enters the near-side image and sets out for the far side, a
press of its own. ERR_CLR clears PG_ERR at the press (R122). -/
def State.acceptWord (s : State) (w : Writer) (p : Page) (off : Nat) (v proof : Word) (eff : State → State) : State :=
  let s := if off = 2 ∧ bitAt v 31 = true ∧ Page.hasHeader p = true then s.setHw p 0xB 0 else s
  match p.lane? with
  | some n => if p.farWord off v then ((s.putImage p off (keepAdj s p off v)).carry n ⟨w, p, off, v, proof, s.stepNo⟩ 0 true).pressSent n else eff s
  | none => eff s

/-- One writer's write of one word, whole: judged on the value asked for, and refused, or accepted with the value `adj` that the
block puts in its place. -/
def pressAdj (w : Writer) (p : Page) (off : Nat) (v adj proof : Word) (chk : State → Option Nat) (eff : State → State) (s : State) : State :=
  if !s.writable w p off then s
  else match s.judge w p off v (chk (s.staged p off v)) with
    | some c => s.recordErr w p off c false
    | none => (s.acceptWord w p off adj proof eff).pressedOn p (p.inForceAtOnce off v)

/-- One writer's write of one word as it stands. -/
def pressOne (w : Writer) (p : Page) (off : Nat) (v proof : Word) (chk : State → Option Nat) (eff : State → State) (s : State) : State :=
  pressAdj w p off v v proof chk eff s

/-! ### Storing -/

/-- The plain effect of an accepted word: storing bits take the value, W1S bits set, W1C bits clear where the proof saw them
set (R93), and a counter cleared with 0 keeps what it counted since the proof (R126). -/
def storeEff (p : Page) (off : Nat) (v proof : Word) (s : State) : State :=
  let a := winAddr p off (s.selFar p)
  let old := s.wd a
  let x := mergeWord p off old (keepAdj s p off v) ||| (v &&& accMask p off .w1s)
  let x := x &&& ~~~(v &&& accMask p off .w1c &&& proof)
  let c := accMask p off .ctr
  let x := if c = 0 then x else (x &&& ~~~c) ||| (((old &&& c) - (proof &&& c)) &&& c)
  s.setWd a x

end Sys2Proof.Machine
end

