-- ==== Sys2Proof/Machine/Colophon.lean ====
section
/-! DEFINITION. Writing the colophon log (spec/18_chase_services.md R472 to R475; spec/22_field_failures_and_returns.md R516, R522):
entries, the meter, the two regions, the fault shelf, erase ahead; and the alert causes of the side-band (R493). -/

namespace Sys2Proof.Machine

/-- An alert cause of the side-band becomes pending (R493). -/
def State.alert (s : State) (cause : Nat) : State :=
  s.put SB.STAT_PENDING 0 (s.g SB.STAT_PENDING 0 ||| 2 ^ cause)

/-- Stages of MOD.BOOT.STAGE (Table: MOD.BOOT). -/
def stageRom : Nat := 0
def stageCheckA : Nat := 1
def stageCheckB : Nat := 2
def stageInit : Nat := 3
def stageRunning : Nat := 5
def stageNoImage : Nat := 0xF

/-- Chase is RUNNING (R68). -/
def State.chaseUp (s : State) : Bool := s.g MOD.BOOT_STAGE 0 == stageRunning

/-- Seven free words: a DETAIL whose content the spec does not state (log 6). -/
def State.freeDetail (s : State) : List Word × State :=
  ((List.range 7).map fun i => Config.free (s.freeCtr + i), { s with freeCtr := s.freeCtr + 7 })

/-- The class of an entry code (Table: Entry codes; R522). -/
def logClass (code : Nat) : Nat := if code / 16 = 0 then 1 else if code / 16 = 6 then 7 else code / 16 + 1

/-- An entry as it stands at this moment, its INDEX still to come; TIME_UNSET while the calendar is not set (log 7). -/
def State.mkEntry (s : State) (code lane origin flags : Nat) (detail : List Word) : LogEntry :=
  let unset := s.g CAL.STAT_SRC 0 == 0
  ⟨s.rt64, 0, logClass code, code, lane, origin, 0, flags ||| (if unset then 4 else 0),
   if unset then 0 else s.wd (CAL.DATE.addr 0 0), if unset then 0 else s.wd (CAL.TIME.addr 0 0), detail⟩

/-- Number of entries either region holds at most, sectors of the general region, entries of a sector (R472). -/
def generalMax : Nat := 262144
def faultMax : Nat := 4096
def sectorEntries : Nat := 64
def generalSectors : Nat := 4097

/-- The island keeps a fault record on the shelf: the newest 64 stay (R473), and the alert cause FAULT is pending (R493). -/
def State.shelve (s : State) (e : LogEntry) (toCopy : Bool) : State :=
  let s := { s with pwr := { s.pwr with shelf := (ShelfRec.mk e toCopy :: s.pwr.shelf).take 64 } }
  s.alert 0

/-- A general entry is dropped (R474, R516). -/
def State.dropEntry (s : State) : State :=
  let s := s.bump LOG.DROPPED 0
  let told := s.log.dropRun
  let s := { s with log := { s.log with droppedBefore := min (s.log.droppedBefore + 1) 0xFFFF, dropRun := true } }
  if told then s else s.raise .log 0

/-- An erase of the next sector falls due. -/
def State.wearDue (s : State) : State := State.put { s with log := { s.log with dueAt := s.clock } } LOG.STAT_WEAR_DUE 0 1

/-- Write one entry into the general region, whose writer has a place for it: INDEX, DROPPED_BEFORE, BACKGROUND_PREEMPTED, the
oldest entries overwritten, and the erase that falls due when the writer enters the last erased sector (R472, R475). -/
def State.writeGeneral (s : State) (e : LogEntry) : State :=
  let l := s.log
  let e := { e with index := l.next, dropped := l.droppedBefore, flags := e.flags ||| (if l.preempted then 2 else 0) }
  let enters := l.pos % sectorEntries == 0
  let ahead := if enters then l.ahead - 1 else l.ahead
  let g := l.general ++ [e]
  let l := { l with general := g.drop (g.length - generalMax), next := l.next + 1, droppedBefore := 0, dropRun := false,
                    preempted := false, pos := (l.pos + 1) % (generalSectors * sectorEntries), ahead := ahead }
  let s := { s with log := l }
  let s := if s.on LOG.STAT_ERASING 0 && !l.granted then s.bump LOG.WEAR_DEFERS 0 else s
  let s := if enters && ahead == 0 then s.wearDue else s
  if g.length ≥ generalMax then
    let s := s.put LOG.STAT_GEN_FULL 0 1
    if s.log.fullTold then s else State.raise { s with log := { s.log with fullTold := true } } .log 1
  else s

/-- Has the writer an erased place, with no unsuspended erase running (R475)? -/
def State.writerReady (s : State) : Bool :=
  !(s.on LOG.STAT_ERASING 0 && s.log.granted) && (s.log.pos % sectorEntries != 0 || s.log.ahead != 0)

/-- An entry on its way into the general region: written, held in the RAM buffer while it must wait, or dropped when the buffer is
full (R475). -/
def State.intoGeneral (s : State) (e : LogEntry) : State :=
  if s.writerReady && s.log.buffer.isEmpty then s.writeGeneral e
  else if s.log.buffer.length < 512 then { s with log := { s.log with buffer := s.log.buffer ++ [e] } }
  else s.dropEntry

/-- RETAIN stops the general region when it is full (R474). -/
def State.retained (s : State) : Bool := s.on LOG.CFG_MODE 0 && decide (generalMax ≤ s.log.general.length)

/-- Write an entry into the fault region, or its overflow (R473). -/
def State.intoFault (s : State) (e : LogEntry) : State :=
  if s.log.fault.length < faultMax then
    let s := { s with log := { s.log with fault := s.log.fault ++ [{ e with index := s.log.next }], next := s.log.next + 1 } }
    let s := (s.put LOG.STAT_FAULT_COUNT 0 s.log.fault.length).raise .log 2
    if s.log.fault.length = faultMax then
      let s := s.put LOG.STAT_FAULT_FULL 0 1
      if s.log.faultFullTold then s else State.raise { s with log := { s.log with faultFullTold := true } } .log 3
    else s
  else s.intoGeneral { e with flags := e.flags ||| 1 }

/-- An entry is offered to the colophon log (R472 to R474, R516, R522). -/
def State.offer (s : State) (e : LogEntry) : State :=
  let frozen := s.on LOG.STAT_FROZEN 0
  if e.cls = 7 then s.intoGeneral e
  else if e.cls = 4 then
    let s := s.shelve e (!s.chaseUp)
    if frozen || !s.chaseUp then s else s.intoFault e
  else if frozen then s.bump LOG.DROPPED 0
  else if s.g LOG.BUCKET 0 = 0 || s.retained then s.dropEntry
  else (s.put LOG.BUCKET 0 (s.g LOG.BUCKET 0 - 1)).intoGeneral e

/-- Offer an entry whose DETAIL the spec leaves open. -/
def State.logIt (s : State) (code lane origin : Nat) : State :=
  let (d, s) := s.freeDetail
  s.offer (s.mkEntry code lane origin 0 d)

/-- Offer an entry with a stated DETAIL. -/
def State.logWith (s : State) (code lane origin : Nat) (d : List Word) : State := s.offer (s.mkEntry code lane origin 0 d)

/-- "No lane" in an entry. -/
def noLane : Nat := 0xFF

/-- A MOD.BG bit rises: BG_NOTICE (R510). -/
def State.bgLane (s : State) (n : LaneId) (b : Bool) : State :=
  let old := s.g MOD.BG_LANES 0
  let new := if b then old ||| 2 ^ n.val else old &&& (0xFFFF - 2 ^ n.val)
  let s' := s.put MOD.BG_LANES 0 new
  if b && old != new then s'.raiseMod 7 else s'

end Sys2Proof.Machine
end

