-- ==== Sys2Proof/Machine/EngBase.lean ====
section
/-! DEFINITION. The compositor's registers and windows, taking a trap and returning from one, halts, and what settles after every
command (spec/16_compositor.md, spec/17_traps_memory_dma.md R414 to R427; R172, R173). -/

namespace Sys2Proof.Machine

/-! ### PSR (R391) -/

def Psr.toWord (p : Psr) : Word :=
  BitVec.ofNat 32 (b2n p.ie + 2 * b2n p.te + 4 * b2n p.mon + 8 * b2n p.trans + 16 * b2n p.qw)

def Psr.ofWord (w : Word) : Psr := ⟨bitAt w 0, bitAt w 1, bitAt w 2, bitAt w 3, bitAt w 4⟩

/-! ### Registers and windows (R389, R390) -/

/-- Register code `c` of window `w`; codes 24 to 31 name no register and read 0 here. -/
def EngRegs.rd (r : EngRegs) (w c : Nat) : Word :=
  if c = 0 then 0 else if c < 8 then r.x[c]?.getD 0 else (r.win[w]?.getD (Vector.replicate 16 0))[c - 8]?.getD 0

/-- Write register code `c` of window `w`; x0 discards the value. -/
def EngRegs.wr (r : EngRegs) (w c : Nat) (v : Word) : EngRegs :=
  if c = 0 then r else if c < 8 then { r with x := r.x.setIfInBounds c v }
  else { r with win := r.win.setIfInBounds w ((r.win[w]?.getD (Vector.replicate 16 0)).setIfInBounds (c - 8) v) }

def Eng.r (e : Eng) (c : Nat) : Word := e.regs.rd e.regs.cwp c
def Eng.w (e : Eng) (c : Nat) (v : Word) : Eng := { e with regs := e.regs.wr e.regs.cwp c v }

/-- WRES: resident windows (R390). -/
def EngRegs.wres (r : EngRegs) : Nat := (r.cwp + 12 - r.wold) % 12 + 1

/-- The word of WSTAT. -/
def EngRegs.wstat (r : EngRegs) : Word := BitVec.ofNat 32 (r.wres * 65536 + r.wold * 256 + r.cwp)

/-- Copy b0 to b3 of window `f` into a0 to a3 of window `t`. -/
def EngRegs.passDown (r : EngRegs) (f t : Nat) : EngRegs :=
  [0, 1, 2, 3].foldl (fun r i => r.wr t (8 + i) (r.rd f (20 + i))) r

/-- Copy a0 to a3 of window `f` into b0 to b3 of window `t`. -/
def EngRegs.passUp (r : EngRegs) (f t : Nat) : EngRegs :=
  [0, 1, 2, 3].foldl (fun r i => r.wr t (20 + i) (r.rd f (8 + i))) r

def EngRegs.next (r : EngRegs) : Nat := (r.cwp + 1) % 12
def EngRegs.prev (r : EngRegs) : Nat := (r.cwp + 11) % 12

/-- The twelve registers of a window that carry state: a0 to a3, k0 to k7 (R389). -/
def EngRegs.twelve (r : EngRegs) (w : Nat) : List Word := (List.range 12).map fun i => r.rd w (8 + i)

/-- Put twelve registers into a window. -/
def EngRegs.setTwelve (r : EngRegs) (w : Nat) (vs : List Word) : EngRegs :=
  (vs.zip (List.range 12)).foldl (fun r e => r.wr w (8 + e.2) e.1) r

/-- A lane's engine. -/
def State.eng (s : State) (n : LaneId) : Eng := (s.lane n).eng

/-- Set a register of lane n's current window. -/
def State.setReg (s : State) (n : LaneId) (c : Nat) (v : Word) : State := s.upEng n fun e => e.w c v

/-! ### Halts (R407, R414, R426) -/

/-- The engine halts: HALTS advances, a DEBUG halt raises HALT (R407; log 8), and a fatal one ENGINE_FATAL (R427). A TAKEQ wait ends as an interrupt would end
it. -/
def State.halt (s : State) (n : LaneId) (code : Nat) : State :=
  let now := s.clock
  let s := s.upEng n fun e => { e with run := .halted, haltCode := code, haltAt := now, haltReq := false, stepReq := false, stepDone := false, noInt := false,
                                       fatalTold := false, movbUnits := 0, movbMid := false }
  let s := s.bump ENG.HALTS n
  if code = 1 then s.raise (.lane n .eng) 0 else s.raise (.lane n .lane) 13

/-- A wait of a TAKEQ ends for a trap or a halt: rd receives the remaining microseconds, and PSR.QW is set (R401, R416). -/
def State.suspendWait (s : State) (n : LaneId) : State :=
  match (s.eng n).qwait with
  | none => s
  | some q =>
    let left := min ((q.until_ - s.clock + 199) / 200) 65535
    s.upEng n fun e => { (e.w q.rd (BitVec.ofNat 32 left)) with qwait := none, sp := { e.sp with psr := { e.sp.psr with qw := true } } }

/-! ### Taking a trap: one shared operation (R415, R416) -/

/-- What a trap saves: cause, EPC, TVAL, TINFO. -/
structure TrapInfo where
  cause : Nat
  epc : Word
  tval : Word
  tinfo : Word
  deriving DecidableEq, Repr

/-- Step 4: the handler's address. -/
def EngSpecial.vector (p : EngSpecial) (cause : Nat) : Word := p.tvec + BitVec.ofNat 32 (16 * cause)

/-- The entry: EPSR, EPC, CAUSE, TVAL, TINFO; PSR; the trap-reserve window, which makes WRES one more (R422); PC. -/
def Eng.enter (e : Eng) (t : TrapInfo) : Eng :=
  { e with
    run := .running, movbUnits := 0, movbMid := false, noInt := false,
    sp := { e.sp with epsr := e.sp.psr, epc := t.epc, cause := t.cause, tval := t.tval, tinfo := t.tinfo,
                      psr := ⟨false, false, true, false, false⟩ },
    regs := { e.regs.passDown e.regs.cwp e.regs.next with cwp := e.regs.next },
    pc := e.sp.vector t.cause }

/-- A trap is taken: the entry, and what the ENG page counts of it. -/
def State.takeTrap (s : State) (n : LaneId) (t : TrapInfo) : State :=
  let s := (s.suspendWait n).upEng n fun e => e.enter t
  (s.put ENG.LAST_TRAP n t.cause).bump ENG.TRAPS n

/-- A synchronous trap of the instruction about to execute: taken, or a fatal halt (R414, R426; log 9). -/
def State.syncTrap (s : State) (n : LaneId) (t : TrapInfo) : State :=
  let e := s.eng n
  if !e.sp.psr.te then s.halt n 2
  else if e.sp.psr.mon ∧ (t.cause = 1 ∨ t.cause = 2 ∨ t.cause = 3 ∨ t.cause = 4 ∨ t.cause = 0xC) then s.halt n 4
  else if 12 ≤ e.regs.wres then s.halt n 2
  else s.takeTrap n t

/-! ### Asynchronous traps (R394, R414, R417) -/

/-- The interrupt that the engine would take with status `p`, if any (R165, R394). -/
def State.irqFor (s : State) (n : LaneId) (p : Psr) : Option Nat :=
  match s.top (3 + n.val) with
  | none => none
  | some i =>
    if p.te && (p.ie || (!p.mon && decide ((s.eng n).sp.mlevel ≤ (s.src i).prio))) then some i else none

/-- The asynchronous trap that would be taken with status `p`: spill, DMA, frisket in that order, then the interrupt; the EPC is
filled in by whoever takes it. The source is given for an interrupt. -/
def State.asyncFor (s : State) (n : LaneId) (p : Psr) : Option (TrapInfo × Option Nat) :=
  let e := s.eng n
  if !p.te then none
  else match e.spill with
  | some t => some (⟨9, 0, t.tval, t.tinfo⟩, none)
  | none => match e.dma.head? with
    | some t => some (⟨0xA, 0, t.tval, t.tinfo⟩, none)
    | none => match e.frisket.head? with
      | some t => some (⟨0xB, 0, t.tval, t.tinfo⟩, none)
      | none => match s.irqFor n p with
        | some i => some (⟨0x10 + (s.src i).prio, 0, BitVec.ofNat 32 i, 0⟩, some i)
        | none => none

/-- The asynchronous trap takeable now, at a pre-emption point (R414, R419). -/
def State.asyncNow (s : State) (n : LaneId) : Option (TrapInfo × Option Nat) :=
  let e := s.eng n
  if (e.run = .running ∨ e.run = .idle) ∧ e.movbMid = false ∧ e.noInt = false ∧ e.regs.wres ≤ 11 then s.asyncFor n e.sp.psr else none

/-- What taking an asynchronous trap consumes: the pending trap, or the source, which becomes ACTIVE and is named in EVCUR, in the format
of TOP as it stood when the source was taken (R165, Table: EVG.TOP_t; log 114). -/
def State.consumeAsync (s : State) (n : LaneId) (cause : Nat) (irq : Option Nat) : State :=
  match irq with
  | some i => (s.claim (3 + n.val) i).upEng n fun e => { e with sp := { e.sp with evcur := s.topWord (3 + n.val) } }
  | none => s.upEng n fun e =>
      if cause = 9 then { e with spill := none } else if cause = 0xA then { e with dma := e.dma.tail } else { e with frisket := e.frisket.tail }

/-- Take a takeable asynchronous trap: EPC is the instruction at the pre-emption point. -/
def State.takeAsync (s : State) (n : LaneId) : State :=
  match s.asyncNow n with
  | none => s
  | some (t, irq) => (s.consumeAsync n t.cause irq).takeTrap n { t with epc := (s.eng n).pc }

/-! ### What an instruction may rely on -/

/-- A breakpoint that matches the user instruction at PC (R409). -/
def State.bpMatch (s : State) (n : LaneId) : Bool :=
  let e := s.eng n
  s.on ENG.DBG_ATTACH n && !e.sp.psr.mon && !e.bpSkip
    && (List.range 4).any fun k => bitAt (s.wd (ENG.BP_EN.addr n.val 0)) k
        && bitsOf (s.wd ((Page.lane n .eng).at_ (0x14 + k))) 31 2 == bitsOf e.pc 31 2

/-- The engine executes its next instruction: running, in no wait, with nothing that acts before it (R417). `movb` says the
instruction is the MOVB in progress. -/
def State.engReady (s : State) (n : LaneId) (movb : Bool := false) : Bool :=
  let e := s.eng n
  s.fitted n && e.run == .running && e.qwait.isNone && (movb || e.movbUnits == 0) && (s.asyncNow n).isNone && !s.bpMatch n

/-- A debug halt: DEBUG, and STEP_DONE when it ends a step (R407, R408). -/
def State.debugHalt (s : State) (n : LaneId) (step : Bool) : State :=
  let w := (s.eng n).qwait
  let s := ((s.suspendWait n).upEng n fun e => { e with run := .running, stepDone := false, qhalt := w }).halt n 1
  if step then s.raise (.lane n .eng) 2 else s

/-- After an instruction that was at user privilege (`user`): a STEP halts with DEBUG when its one user instruction has executed
(R408); one that took a synchronous trap executes again after the monitor's RTT, and one that was a TRAP is executed (`trap`)
and halts when the monitor returns. -/
def State.afterInstr (s : State) (n : LaneId) (user : Bool) (trap : Bool := false) : State :=
  let e := s.eng n
  if !user || e.run == .halted then s
  else if e.sp.psr.mon && !trap then s
  else
    let s := s.upEng n fun e => { e with bpSkip := false }
    if !e.stepReq then s
    else if trap then s.upEng n fun e => { e with stepReq := false, stepDone := true, haltReq := true }
    else s.debugHalt n true

/-! ### What settles after a command -/

/-- A debug halt that is asked for is made at a user boundary or pre-emption point at which no trap is due; it ends an IDLE (R400, R407,
R417). -/
def State.haltDue (s : State) (n : LaneId) : Bool :=
  let e := s.eng n
  e.haltReq && (e.run == .running || e.run == .idle) && !e.sp.psr.mon && !e.movbMid && (s.asyncNow n).isNone

def State.haltEngs (s : State) : State :=
  s.forLanes allLanes fun n s => if s.haltDue n then s.debugHalt n (s.eng n).stepDone else s

/-- A compositor in IDLE leaves it when TOP of its target is valid (R172) or a trap is due (R400). -/
def State.wakeDue (s : State) (n : LaneId) : Bool :=
  (s.eng n).run == .idle && ((s.top (3 + n.val)).isSome || (s.asyncNow n).isSome)

def State.wakeEngs (s : State) : State :=
  { s with lanes := Vector.ofFn fun n => if s.wakeDue n then { s.lane n with eng := { s.eng n with run := .running } } else s.lane n }

/-- What the FIRQ lines have come to (R173). -/
def State.settleFirqs (s : State) : State :=
  { s with evg := { s.evg with firqA := settleFirq (s.on EVG.TCTL_EDGE 0 0) s.clock (s.top 0) s.evg.firqA,
                               firqB := settleFirq (s.on EVG.TCTL_EDGE 0 1) s.clock (s.top 1) s.evg.firqB } }

/-- What settles once no debug halt is due: waking compositors, FIRQ gaps, one step more. -/
def State.settleRest (s : State) : State := { s.wakeEngs.settleFirqs with stepNo := s.stepNo + 1 }

/-- After every command: halting compositors, then the rest. -/
def State.settle (s : State) : State := s.haltEngs.settleRest

/-- The command is complete: what settles settles, and the machine goes on. -/
def fin (s : State) : Out := .next s.settle

end Sys2Proof.Machine
end

