-- ==== Sys2Proof/Machine/Mmu.lean ====
section
/-! DEFINITION. The memories of a lane and its MMU (spec/16_compositor.md R386, R387; spec/17_traps_memory_dma.md R429 to R433). Memory is
held as bytes by physical address; what nothing has written reads 0 (lane store is cleared by a reset; log 31 for the SRAMs). -/

namespace Sys2Proof.Machine

/-! ### Memory -/

/-- What a byte reads that nothing has written. -/
def memReset (_ : Nat) : Byte := 0

/-- The canonical form of a lane's memory. -/
def Memory.wf (m : Bytes) : Bool := swf memReset m

def Memory.rd (m : Bytes) (a : Nat) : Byte := sget memReset m a
def Memory.wr (m : Bytes) (a : Nat) (v : Byte) : Bytes := sset memReset m a v

/-- `k` bytes from address `a`, low address first (R386). -/
def Memory.bytes (m : Bytes) (a k : Nat) : List Byte := (List.range k).map fun i => Memory.rd m (a + i)
def Memory.putBytes (m : Bytes) (a : Nat) : List Byte → Bytes
  | [] => m
  | b :: r => Memory.putBytes (Memory.wr m a b) (a + 1) r

/-- The lowest `k` bytes of a number. -/
def leBytes : Nat → Nat → List Byte
  | 0, _ => []
  | k + 1, v => BitVec.ofNat 8 v :: leBytes k (v / 256)

def State.memByte (s : State) (n : LaneId) (a : Nat) : Byte := Memory.rd (s.lane n).mem a
def State.memNat (s : State) (n : LaneId) (a k : Nat) : Nat := leNat (Memory.bytes (s.lane n).mem a k)
def State.memWord (s : State) (n : LaneId) (a : Nat) : Word := BitVec.ofNat 32 (s.memNat n a 4)

/-- Words (by byte address / 4) with an uncorrectable ECC error, among `k` bytes from `a` (Table: Fault kinds). -/
def State.eccHit (s : State) (n : LaneId) (a k : Nat) : Bool :=
  (s.lane n).eccBad.any fun w => decide (a < 4 * w + 4) && decide (4 * w < a + k)

/-- Store bytes; a word that is written whole carries good check bits again. -/
def State.putMem (s : State) (n : LaneId) (a : Nat) (bs : List Byte) : State :=
  s.upLane n fun l => { l with mem := Memory.putBytes l.mem a bs,
                               eccBad := l.eccBad.filter fun w => !(decide (a ≤ 4 * w) && decide (4 * w + 4 ≤ a + bs.length)) }

def State.putWord (s : State) (n : LaneId) (a : Nat) (v : Word) : State := s.putMem n a (leBytes 4 v.toNat)

/-! ### The physical map (R387) -/

inductive Region where
  | store | isram | dsram | regs | none
  deriving DecidableEq, Repr

/-- Bytes of lane store. -/
def storeSize : Nat := 0x4000000

def regionOf (a : Nat) : Region :=
  if a < storeSize then .store
  else if a < 0x4010000 then .isram
  else if a < 0x4020000 then .dsram
  else if 0x4800000 ≤ a ∧ a < 0x4840000 then .regs else .none

/-- Fetch, load or store. -/
inductive Way where
  | fetch | load | store
  deriving DecidableEq, Repr

/-- Does the region of a physical address allow the access? Register space is open to the engine's own loads and stores. -/
def regionAllows (a : Nat) (w : Way) (regs : Bool) : Bool :=
  match w, regionOf a with
  | .fetch, .isram => true
  | .fetch, _ => false
  | _, .none => false
  | _, .regs => regs
  | _, _ => true

/-! ### The walk (R429 to R432) -/

/-- KIND and LEVEL of a translation fault (Table: Fault kinds). -/
structure XFault where
  kind : Nat
  level : Nat
  deriving DecidableEq, Repr

def fkNotValid : Nat := 1
def fkPermission : Nat := 2
def fkRegion : Nat := 3
def fkEcc : Nat := 4
def fkMismatch : Nat := 5
def fkFormat : Nat := 6

/-- May a table lie in this physical page: lane store or data SRAM? -/
def tablePage (p : Nat) : Bool := decide (p < 0x4000) || (decide (0x4010 ≤ p) && decide (p < 0x4020))

/-- The walker's answer: physical page and the low byte of the second-level entry. -/
def State.walk (s : State) (n : LaneId) (va : Nat) : Except XFault (Nat × Nat) :=
  let a1 := (s.eng n).sp.ptbr.toNat + 4 * (va / 2 ^ 22 % 1024)
  let e1 := s.memWord n a1
  if s.eccHit n a1 4 then .error ⟨fkEcc, 0⟩
  else if !bitAt e1 0 then .error ⟨fkNotValid, 0⟩
  else if bitsOf e1 31 27 ≠ 0 ∨ bitsOf e1 11 1 ≠ 0 then .error ⟨fkFormat, 0⟩
  else if !tablePage (bitsOf e1 26 12) then .error ⟨fkRegion, 1⟩
  else
    let a2 := bitsOf e1 26 12 * 4096 + 4 * (va / 4096 % 1024)
    let e2 := s.memWord n a2
    if s.eccHit n a2 4 then .error ⟨fkEcc, 1⟩
    else if !bitAt e2 0 then .error ⟨fkNotValid, 1⟩
    else if bitsOf e2 31 27 ≠ 0 ∨ bitsOf e2 11 8 ≠ 0 ∨ bitsOf e2 6 5 ≠ 0 then .error ⟨fkFormat, 1⟩
    else .ok (bitsOf e2 26 12, bitsOf e2 7 0)

/-- Do the bits of a second-level entry permit the access (R431)? -/
def permits (perm : Nat) (w : Way) (user dma : Bool) : Bool :=
  let bit (i : Nat) : Bool := perm / 2 ^ i % 2 == 1
  (match w with | .fetch => bit 3 | .load => bit 1 | .store => bit 2) && (!user || bit 4) && (!dma || bit 7)

/-- How a translated access is made. -/
structure Access where
  way : Way
  user : Bool
  dma : Bool
  regs : Bool
  deriving DecidableEq, Repr

/-- Entries of the two TLBs. -/
def tlbSize (dma : Bool) : Nat := if dma then 16 else 32

/-- Enter a translation, in rotation. -/
def tlbEnter (l : List TlbEntry) (size : Nat) (x : TlbEntry) : List TlbEntry :=
  let l := l.filter (fun y => y.vpn != x.vpn) ++ [x]
  l.drop (l.length - size)

def Eng.tlbOf (e : Eng) (dma : Bool) : List TlbEntry := if dma then e.dtlb else e.tlb

/-- Translate through the MMU: the physical address, or the fault; a permitted translation enters the TLB. -/
def State.translate (s : State) (n : LaneId) (va : Nat) (x : Access) : Except XFault Nat × State :=
  let e := s.eng n
  if !e.sp.mmuEn then (.error ⟨fkNotValid, 0⟩, s)
  else match (e.tlbOf x.dma).find? fun t => t.vpn == va / 4096 && permits t.perm x.way x.user x.dma with
  | some t =>
    let pa := t.ppn * 4096 + va % 4096
    if regionAllows pa x.way x.regs then (.ok pa, s) else (.error ⟨fkRegion, 1⟩, s)
  | none =>
    match s.walk n va with
    | .error f => (.error f, s)
    | .ok (ppn, perm) =>
      let pa := ppn * 4096 + va % 4096
      if !permits perm x.way x.user x.dma then (.error ⟨fkPermission, 1⟩, s)
      else if !regionAllows pa x.way x.regs then (.error ⟨fkRegion, 1⟩, s)
      else
        let t : TlbEntry := ⟨va / 4096, ppn, perm⟩
        (.ok pa, s.upEng n fun e =>
          if x.dma then { e with dtlb := tlbEnter e.dtlb (tlbSize true) t } else { e with tlb := tlbEnter e.tlb (tlbSize false) t })

/-- An access of the engine itself: untranslated while PSR.TRANS is 0 (R387). -/
def State.engXlate (s : State) (n : LaneId) (va : Nat) (w : Way) : Except XFault Nat × State :=
  let e := s.eng n
  if e.sp.psr.trans then s.translate n va ⟨w, !e.sp.psr.mon, false, true⟩
  else if va < 0x8000000 ∧ regionAllows va w true = true then (.ok va, s) else (.error ⟨fkRegion, 0⟩, s)

/-- SPILLW and FILLW always translate (R429). -/
def State.spillXlate (s : State) (n : LaneId) (va : Nat) (w : Way) : Except XFault Nat × State :=
  s.translate n va ⟨w, !(s.eng n).sp.psr.mon, false, false⟩

/-! ### TINFO (Table: TINFO) -/

/-- The word TINFO. -/
def mkTinfo (f : XFault) (write user : Bool) (movbSrc : Bool := false) (channel : Nat := 0) (count : Nat := 0) : Word :=
  BitVec.ofNat 32 (count * 65536 + channel * 256 + f.kind * 16 + f.level * 8 + b2n write * 4 + b2n user * 2 + b2n movbSrc)

/-- TINFO of a cause that sets only WRITE and USER. -/
def mkTinfoAlign (write user : Bool) : Word := BitVec.ofNat 32 (b2n write * 4 + b2n user * 2)

/-! ### TLB invalidation (R433) -/

def Eng.tlbi (e : Eng) (va : Nat) : Eng :=
  { e with tlb := e.tlb.filter (fun t => t.vpn != va / 4096), dtlb := e.dtlb.filter (fun t => t.vpn != va / 4096) }
def Eng.tlbia (e : Eng) : Eng := { e with tlb := [], dtlb := [] }

end Sys2Proof.Machine
end

