-- ==== Sys2Proof/Machine/Operands.lean ====
section
/-! DEFINITION. The operand forms of the compositor's instructions (spec/16_compositor.md R389, R395): sign and zero extension,
the words of the five formats, branch targets. -/

namespace Sys2Proof.Machine

/-- A 16-bit immediate, sign extended. -/
def sext16 (v : BitVec 16) : Word := v.signExtend 32
/-- A 16-bit immediate, zero extended. -/
def zext16 (v : BitVec 16) : Word := v.zeroExtend 32
/-- The displacement of a branch or jump: four times the signed offset. -/
def disp16 (v : BitVec 16) : Word := sext16 v * 4
def disp26 (v : BitVec 26) : Word := v.signExtend 32 * 4

/-- The words of the formats R, I (also S and B, with the registers in their places) and J (Table: Instruction formats). -/
def encR (op rd rs1 rs2 funct : Nat) : Word := BitVec.ofNat 32 (op * 2 ^ 26 + rd * 2 ^ 21 + rs1 * 2 ^ 16 + rs2 * 2 ^ 11 + funct)
def encI (op r1 r2 imm : Nat) : Word := BitVec.ofNat 32 (op * 2 ^ 26 + r1 * 2 ^ 21 + r2 * 2 ^ 16 + imm)
def encJ (op off : Nat) : Word := BitVec.ofNat 32 (op * 2 ^ 26 + off)

/-- A register code that names a register (Table: Register codes). -/
def codeOk (c : Nat) : Bool := decide (c < 24)

end Sys2Proof.Machine
end

