-- ==== Sys2Proof/Machine/Alu.lean ====
section
/-! DEFINITION. The arithmetic and logic instructions of the compositor (spec/16_compositor.md R396, R397). -/

namespace Sys2Proof.Machine

/-! ### Executing one instruction (R386, R389, R395) -/

/-- The illegal trap of an instruction word (R416). -/
def State.illegal (s : State) (n : LaneId) (w : Word) : State := s.syncTrap n ⟨1, (s.eng n).pc, w, 0⟩
/-- The privilege trap. -/
def State.privTrap (s : State) (n : LaneId) (w : Word) : State := s.syncTrap n ⟨2, (s.eng n).pc, w, 0⟩

/-- The engine of lane n executes one instruction with word `w` and register codes `cs`: nothing while it is not about to
execute an instruction (log 33); illegal for a code that names no register; else `body`. -/
def State.instr (s : State) (n : LaneId) (w : Word) (cs : List Nat) (body : State → State) : State :=
  if !s.engReady n then s
  else
    let user := !(s.eng n).sp.psr.mon
    (if cs.all codeOk then body s else s.illegal n w).afterInstr n user

/-- A result in rd, and on to the next instruction. -/
def State.ret (s : State) (n : LaneId) (rd : Nat) (v : Word) : State :=
  s.upEng n fun e => { e.w rd v with pc := e.pc + 4 }

/-- On to the next instruction. -/
def State.nextPc (s : State) (n : LaneId) : State := s.upEng n fun e => { e with pc := e.pc + 4 }

/-! ### Register arithmetic (Table: ALU and floating-point functs) -/

/-- The result of the integer functs 0x000 to 0x010; none for a division by zero. -/
def aluOf (funct : Nat) (a b : Word) : Option Word :=
  match funct with
  | 0x000 => some (a + b)
  | 0x001 => some (a - b)
  | 0x002 => some (a &&& b)
  | 0x003 => some (a ||| b)
  | 0x004 => some (a ^^^ b)
  | 0x005 => some (a <<< bitsOf b 4 0)
  | 0x006 => some (a >>> bitsOf b 4 0)
  | 0x007 => some (a.sshiftRight (bitsOf b 4 0))
  | 0x008 => some (wordOf (ltS a b))
  | 0x009 => some (wordOf (ltU a b))
  | 0x00A => some (a * b)
  | 0x00B => some (BitVec.ofInt 32 (a.toInt * b.toInt / 2 ^ 32))
  | 0x00C => some (BitVec.ofNat 32 (a.toNat * b.toNat / 2 ^ 32))
  | 0x00D => if b = 0 then none else some (a.sdiv b)
  | 0x00E => if b = 0 then none else some (a / b)
  | 0x00F => if b = 0 then none else some (a.srem b)
  | 0x010 => if b = 0 then none else some (a % b)
  | _ => none

/-- An integer operation on two registers (R396, R397). -/
def State.alu (s : State) (n : LaneId) (funct rd rs1 rs2 : Nat) : State :=
  s.instr n (encR 0 rd rs1 rs2 funct) [rd, rs1, rs2] fun s =>
    match aluOf funct ((s.eng n).r rs1) ((s.eng n).r rs2) with
    | some v => s.ret n rd v
    | none => s.syncTrap n ⟨0xC, (s.eng n).pc, 0, 0⟩

/-- A shift by the amount in the rs2 field. -/
def State.shiftImm (s : State) (n : LaneId) (funct rd rs1 sh : Nat) : State :=
  s.instr n (encR 0 rd rs1 sh funct) [rd, rs1] fun s =>
    let a := (s.eng n).r rs1
    s.ret n rd (if funct = 0x011 then a <<< sh else if funct = 0x012 then a >>> sh else a.sshiftRight sh)

/-- The result of the floating-point functs 0x020 to 0x028. -/
def fpuOf (funct : Nat) (a b : Word) : Word :=
  match funct with
  | 0x020 => f32Add a b
  | 0x021 => f32Sub a b
  | 0x022 => f32Mul a b
  | 0x023 => f32Div a b
  | 0x024 => f32Min a b
  | 0x025 => f32Max a b
  | 0x026 => wordOf (f32Eq a b)
  | 0x027 => wordOf (f32Lt a b)
  | _ => wordOf (f32Le a b)

def State.fpu (s : State) (n : LaneId) (funct rd rs1 rs2 : Nat) : State :=
  s.instr n (encR 0 rd rs1 rs2 funct) [rd, rs1, rs2] fun s => s.ret n rd (fpuOf funct ((s.eng n).r rs1) ((s.eng n).r rs2))

/-- The functs of one operand: CLZ, FCVTSW, FCVTWS, FSQRT. -/
def unaryOf (funct : Nat) (a : Word) : Word :=
  match funct with
  | 0x014 => BitVec.ofNat 32 (clzFrom 32 a)
  | 0x029 => f32OfInt a.toInt
  | 0x02A => f32ToInt a
  | _ => f32Sqrt a

def State.unary (s : State) (n : LaneId) (funct rd rs1 : Nat) : State :=
  s.instr n (encR 0 rd rs1 0 funct) [rd, rs1] fun s => s.ret n rd (unaryOf funct ((s.eng n).r rs1))

/-! ### Immediates (opcodes 0x01 to 0x07) -/

def immOf (op : Nat) (a : Word) (imm : BitVec 16) : Word :=
  match op with
  | 0x01 => a + sext16 imm
  | 0x02 => a &&& zext16 imm
  | 0x03 => a ||| zext16 imm
  | 0x04 => a ^^^ zext16 imm
  | 0x05 => wordOf (ltS a (sext16 imm))
  | _ => wordOf (ltU a (sext16 imm))

def State.aluImm (s : State) (n : LaneId) (op rd rs1 : Nat) (imm : BitVec 16) : State :=
  s.instr n (encI op rd rs1 imm.toNat) [rd, rs1] fun s => s.ret n rd (immOf op ((s.eng n).r rs1) imm)

def State.lui (s : State) (n : LaneId) (rd : Nat) (imm : BitVec 16) : State :=
  s.instr n (encI 7 rd 0 imm.toNat) [rd] fun s => s.ret n rd (zext16 imm <<< 16)

/-! ### The instructions -/

def execAddi (n : LaneId) (rd rs1 : BitVec 5) (imm : BitVec 16) (s : State) : Out := fin (s.aluImm n 0x01 rd.toNat rs1.toNat imm)
def execAndi (n : LaneId) (rd rs1 : BitVec 5) (imm : BitVec 16) (s : State) : Out := fin (s.aluImm n 0x02 rd.toNat rs1.toNat imm)
def execOri (n : LaneId) (rd rs1 : BitVec 5) (imm : BitVec 16) (s : State) : Out := fin (s.aluImm n 0x03 rd.toNat rs1.toNat imm)
def execXori (n : LaneId) (rd rs1 : BitVec 5) (imm : BitVec 16) (s : State) : Out := fin (s.aluImm n 0x04 rd.toNat rs1.toNat imm)
def execSlti (n : LaneId) (rd rs1 : BitVec 5) (imm : BitVec 16) (s : State) : Out := fin (s.aluImm n 0x05 rd.toNat rs1.toNat imm)
def execSltiu (n : LaneId) (rd rs1 : BitVec 5) (imm : BitVec 16) (s : State) : Out := fin (s.aluImm n 0x06 rd.toNat rs1.toNat imm)
def execLui (n : LaneId) (rd : BitVec 5) (imm : BitVec 16) (s : State) : Out := fin (s.lui n rd.toNat imm)

def execAddR (n : LaneId) (rd rs1 rs2 : BitVec 5) (s : State) : Out := fin (s.alu n 0x000 rd.toNat rs1.toNat rs2.toNat)
def execSubR (n : LaneId) (rd rs1 rs2 : BitVec 5) (s : State) : Out := fin (s.alu n 0x001 rd.toNat rs1.toNat rs2.toNat)
def execAndR (n : LaneId) (rd rs1 rs2 : BitVec 5) (s : State) : Out := fin (s.alu n 0x002 rd.toNat rs1.toNat rs2.toNat)
def execOrR (n : LaneId) (rd rs1 rs2 : BitVec 5) (s : State) : Out := fin (s.alu n 0x003 rd.toNat rs1.toNat rs2.toNat)
def execXorR (n : LaneId) (rd rs1 rs2 : BitVec 5) (s : State) : Out := fin (s.alu n 0x004 rd.toNat rs1.toNat rs2.toNat)
def execSll (n : LaneId) (rd rs1 rs2 : BitVec 5) (s : State) : Out := fin (s.alu n 0x005 rd.toNat rs1.toNat rs2.toNat)
def execSrl (n : LaneId) (rd rs1 rs2 : BitVec 5) (s : State) : Out := fin (s.alu n 0x006 rd.toNat rs1.toNat rs2.toNat)
def execSra (n : LaneId) (rd rs1 rs2 : BitVec 5) (s : State) : Out := fin (s.alu n 0x007 rd.toNat rs1.toNat rs2.toNat)
def execSlt (n : LaneId) (rd rs1 rs2 : BitVec 5) (s : State) : Out := fin (s.alu n 0x008 rd.toNat rs1.toNat rs2.toNat)
def execSltu (n : LaneId) (rd rs1 rs2 : BitVec 5) (s : State) : Out := fin (s.alu n 0x009 rd.toNat rs1.toNat rs2.toNat)
def execMul (n : LaneId) (rd rs1 rs2 : BitVec 5) (s : State) : Out := fin (s.alu n 0x00A rd.toNat rs1.toNat rs2.toNat)
def execMulh (n : LaneId) (rd rs1 rs2 : BitVec 5) (s : State) : Out := fin (s.alu n 0x00B rd.toNat rs1.toNat rs2.toNat)
def execMulhu (n : LaneId) (rd rs1 rs2 : BitVec 5) (s : State) : Out := fin (s.alu n 0x00C rd.toNat rs1.toNat rs2.toNat)
def execDiv (n : LaneId) (rd rs1 rs2 : BitVec 5) (s : State) : Out := fin (s.alu n 0x00D rd.toNat rs1.toNat rs2.toNat)
def execDivu (n : LaneId) (rd rs1 rs2 : BitVec 5) (s : State) : Out := fin (s.alu n 0x00E rd.toNat rs1.toNat rs2.toNat)
def execRem (n : LaneId) (rd rs1 rs2 : BitVec 5) (s : State) : Out := fin (s.alu n 0x00F rd.toNat rs1.toNat rs2.toNat)
def execRemu (n : LaneId) (rd rs1 rs2 : BitVec 5) (s : State) : Out := fin (s.alu n 0x010 rd.toNat rs1.toNat rs2.toNat)
def execSlli (n : LaneId) (rd rs1 sh : BitVec 5) (s : State) : Out := fin (s.shiftImm n 0x011 rd.toNat rs1.toNat sh.toNat)
def execSrli (n : LaneId) (rd rs1 sh : BitVec 5) (s : State) : Out := fin (s.shiftImm n 0x012 rd.toNat rs1.toNat sh.toNat)
def execSrai (n : LaneId) (rd rs1 sh : BitVec 5) (s : State) : Out := fin (s.shiftImm n 0x013 rd.toNat rs1.toNat sh.toNat)
def execClz (n : LaneId) (rd rs1 : BitVec 5) (s : State) : Out := fin (s.unary n 0x014 rd.toNat rs1.toNat)

def execFadd (n : LaneId) (rd rs1 rs2 : BitVec 5) (s : State) : Out := fin (s.fpu n 0x020 rd.toNat rs1.toNat rs2.toNat)
def execFsub (n : LaneId) (rd rs1 rs2 : BitVec 5) (s : State) : Out := fin (s.fpu n 0x021 rd.toNat rs1.toNat rs2.toNat)
def execFmul (n : LaneId) (rd rs1 rs2 : BitVec 5) (s : State) : Out := fin (s.fpu n 0x022 rd.toNat rs1.toNat rs2.toNat)
def execFdiv (n : LaneId) (rd rs1 rs2 : BitVec 5) (s : State) : Out := fin (s.fpu n 0x023 rd.toNat rs1.toNat rs2.toNat)
def execFmin (n : LaneId) (rd rs1 rs2 : BitVec 5) (s : State) : Out := fin (s.fpu n 0x024 rd.toNat rs1.toNat rs2.toNat)
def execFmax (n : LaneId) (rd rs1 rs2 : BitVec 5) (s : State) : Out := fin (s.fpu n 0x025 rd.toNat rs1.toNat rs2.toNat)
def execFeq (n : LaneId) (rd rs1 rs2 : BitVec 5) (s : State) : Out := fin (s.fpu n 0x026 rd.toNat rs1.toNat rs2.toNat)
def execFlt (n : LaneId) (rd rs1 rs2 : BitVec 5) (s : State) : Out := fin (s.fpu n 0x027 rd.toNat rs1.toNat rs2.toNat)
def execFle (n : LaneId) (rd rs1 rs2 : BitVec 5) (s : State) : Out := fin (s.fpu n 0x028 rd.toNat rs1.toNat rs2.toNat)
def execFcvtsw (n : LaneId) (rd rs1 : BitVec 5) (s : State) : Out := fin (s.unary n 0x029 rd.toNat rs1.toNat)
def execFcvtws (n : LaneId) (rd rs1 : BitVec 5) (s : State) : Out := fin (s.unary n 0x02A rd.toNat rs1.toNat)
def execFsqrt (n : LaneId) (rd rs1 : BitVec 5) (s : State) : Out := fin (s.unary n 0x02B rd.toNat rs1.toNat)

end Sys2Proof.Machine
end

