-- ==== Sys2Proof/Machine/Crypto.lean ====
section
/-! DEFINITION. The published algorithms the spec names without giving them: SHA-256 and SHA-512 (FIPS 180-4), HMAC-SHA-256 (RFC 2104)
and Ed25519 verification (RFC 8032), as R135, R450, R454, R483 and R519 use them (log 35). -/

namespace Sys2Proof.Machine

/-! ### SHA-2, over words of `w` bits held as numbers -/

/-- Integer k-th root of `x`, found bit by bit from bit `b` down. -/
def rootFrom (k x : Nat) : Nat → Nat → Nat
  | 0, r => r
  | b + 1, r => rootFrom k x b (if (r + 2 ^ b) ^ k ≤ x then r + 2 ^ b else r)

/-- The first 80 primes. -/
def primes80 : List Nat := ((List.range 410).drop 2).filter fun p => ((List.range 20).drop 2).all fun d => decide (p ≤ d) || p % d != 0

/-- The first `w` bits of the fraction of the k-th root of each prime. -/
def rootFractions (k w : Nat) (ps : List Nat) : Array Nat :=
  (ps.map fun p => rootFrom k (p * 2 ^ (k * w)) (w + 6) 0 % 2 ^ w).toArray

def sha256K : Array Nat := rootFractions 3 32 (primes80.take 64)
def sha256H : Array Nat := rootFractions 2 32 (primes80.take 8)
def sha512K : Array Nat := rootFractions 3 64 primes80
def sha512H : Array Nat := rootFractions 2 64 (primes80.take 8)

/-- Rotate right. -/
def rotr (w x k : Nat) : Nat := x / 2 ^ k ||| (x * 2 ^ (w - k)) % 2 ^ w

/-- The rotations and shifts of one member of the SHA-2 family. -/
structure Sha where
  w : Nat
  rounds : Nat
  k : Array Nat
  h : Array Nat
  bigA : Nat × Nat × Nat
  bigE : Nat × Nat × Nat
  small0 : Nat × Nat × Nat
  small1 : Nat × Nat × Nat

def sha256P : Sha := ⟨32, 64, sha256K, sha256H, (2, 13, 22), (6, 11, 25), (7, 18, 3), (17, 19, 10)⟩
def sha512P : Sha := ⟨64, 80, sha512K, sha512H, (28, 34, 39), (14, 18, 41), (1, 8, 7), (19, 61, 6)⟩

def Sha.big (p : Sha) (r : Nat × Nat × Nat) (x : Nat) : Nat := rotr p.w x r.1 ^^^ rotr p.w x r.2.1 ^^^ rotr p.w x r.2.2
def Sha.small (p : Sha) (r : Nat × Nat × Nat) (x : Nat) : Nat := rotr p.w x r.1 ^^^ rotr p.w x r.2.1 ^^^ x / 2 ^ r.2.2

/-- The message schedule of one block of 16 words. -/
def Sha.schedule (p : Sha) (block : Array Nat) : Array Nat :=
  (List.range (p.rounds - 16)).foldl (fun (a : Array Nat) i =>
    a.push ((p.small p.small1 (a.getD (i + 14) 0) + a.getD (i + 9) 0 + p.small p.small0 (a.getD (i + 1) 0) + a.getD i 0) % 2 ^ p.w)) block

/-- One round over the eight working variables. -/
def Sha.round (p : Sha) (sch : Array Nat) (v : Array Nat) (t : Nat) : Array Nat :=
  let g := fun i => v.getD i 0
  let ch := (g 4 &&& g 5) ^^^ ((2 ^ p.w - 1 - g 4) &&& g 6)
  let maj := (g 0 &&& g 1) ^^^ (g 0 &&& g 2) ^^^ (g 1 &&& g 2)
  let t1 := g 7 + p.big p.bigE (g 4) + ch + p.k.getD t 0 + sch.getD t 0
  let t2 := p.big p.bigA (g 0) + maj
  #[(t1 + t2) % 2 ^ p.w, g 0, g 1, g 2, (g 3 + t1) % 2 ^ p.w, g 4, g 5, g 6]

/-- One block. -/
def Sha.block (p : Sha) (h block : Array Nat) : Array Nat :=
  let sch := p.schedule block
  let v := (List.range p.rounds).foldl (p.round sch) h
  ((List.range 8).map fun i => (h.getD i 0 + v.getD i 0) % 2 ^ p.w).toArray

/-- The message with its padding. -/
def Sha.pad (p : Sha) (m : List Byte) : List Byte :=
  let blk := p.w * 2
  let len := p.w / 4
  let z := (2 * blk - 1 - len - m.length % blk) % blk
  m ++ 0x80 :: List.replicate z 0 ++ beBytes len (8 * m.length)

/-- Blocks of 16 words, up to `fuel` of them. -/
def Sha.blocks (p : Sha) : Nat → List Byte → Array Nat → Array Nat
  | 0, _, h => h
  | f + 1, m, h =>
    if m.isEmpty then h
    else p.blocks f (m.drop (p.w * 2))
      (p.block h (((List.range 16).map fun i => beNat ((m.drop (i * (p.w / 8))).take (p.w / 8))).toArray))

/-- The digest. -/
def Sha.digest (p : Sha) (m : List Byte) : List Byte :=
  let m := p.pad m
  ((p.blocks (m.length / (p.w * 2)) m p.h).toList.map (beBytes (p.w / 8))).flatten

def sha256 (m : List Byte) : List Byte := sha256P.digest m
def sha512 (m : List Byte) : List Byte := sha512P.digest m

/-- HMAC-SHA-256 with a 32-byte key. -/
def hmacSha256 (key m : List Byte) : List Byte :=
  let k := key ++ List.replicate 32 0
  sha256 (k.map (· ^^^ 0x5C) ++ sha256 (k.map (· ^^^ 0x36) ++ m))

/-! ### Ed25519 -/

def edP : Nat := 2 ^ 255 - 19
def edL : Nat := 2 ^ 252 + 27742317777372353535851937790883648493

/-- a to the power of the number with bits `b` below 2^256, modulo p. -/
def edPow (a e : Nat) : Nat :=
  (List.range 256).foldl (fun r i => let r := r * r % edP; if e / 2 ^ (255 - i) % 2 = 1 then r * a % edP else r) 1

def edInv (a : Nat) : Nat := edPow a (edP - 2)
def edD : Nat := (edP - 121665) * edInv 121666 % edP

/-- Extended coordinates X, Y, Z, T. -/
abbrev EdPt := Nat × Nat × Nat × Nat

def edAdd (a b : EdPt) : EdPt :=
  let (x1, y1, z1, t1) := a
  let (x2, y2, z2, t2) := b
  let aa := (y1 + edP - x1) * (y2 + edP - x2) % edP
  let bb := (y1 + x1) * (y2 + x2) % edP
  let c := 2 * t1 * t2 % edP * edD % edP
  let d := 2 * z1 * z2 % edP
  let e := bb + edP - aa
  let f := d + edP - c
  let g := d + c
  let h := bb + aa
  (e * f % edP, g * h % edP, f * g % edP, e * h % edP)

def edZero : EdPt := (0, 1, 1, 0)

/-- k times a point. -/
def edMul (k : Nat) (q : EdPt) : EdPt :=
  (List.range 256).foldl (fun r i => let r := edAdd r r; if k / 2 ^ (255 - i) % 2 = 1 then edAdd r q else r) edZero

/-- The x of a point from y and the sign bit, if there is one. -/
def edX (y sign : Nat) : Option Nat :=
  let u := (y * y + edP - 1) % edP
  let v := (edD * (y * y % edP) + 1) % edP
  let x2 := u * edInv v % edP
  let r := edPow x2 ((edP + 3) / 8)
  let r := if r * r % edP = x2 then some r
           else let r := r * edPow 2 ((edP - 1) / 4) % edP; if r * r % edP = x2 then some r else none
  match r with
  | none => none
  | some x => if x = 0 ∧ sign = 1 then none else some (if x % 2 = sign then x else (edP - x) % edP)

/-- The point that 32 bytes encode. -/
def edDecode (bs : List Byte) : Option EdPt :=
  let v := beNat bs.reverse
  let y := v % 2 ^ 255
  if bs.length ≠ 32 ∨ edP ≤ y then none
  else (edX y (v / 2 ^ 255)).map fun x => (x, y, 1, x * y % edP)

def edBase : EdPt :=
  let y := 4 * edInv 5 % edP
  match edX y 0 with
  | some x => (x, y, 1, x * y % edP)
  | none => edZero

/-- Are two points the same? -/
def edEq (a b : EdPt) : Bool :=
  a.1 * b.2.2.1 % edP == b.1 * a.2.2.1 % edP && a.2.1 * b.2.2.1 % edP == b.2.1 * a.2.2.1 % edP

/-- Does `sig` sign `m` under the public key `pub`? -/
def edVerify (pub sig m : List Byte) : Bool :=
  let r := sig.take 32
  let k := beNat (sig.drop 32).reverse
  match edDecode pub, edDecode r with
  | some a, some rp =>
    let h := beNat (sha512 (r ++ pub ++ m)).reverse % edL
    sig.length == 64 && decide (k < edL) && edEq (edMul k edBase) (edAdd rp (edMul h a))
  | _, _ => false

end Sys2Proof.Machine
end

