-- ==== Sys2Proof/Machine/Evg.lean ====
section
/-! DEFINITION. The commands of the event gatherer (spec/07_event_gatherer.md R159 to R173) and of the event registers of every page
(spec/05_register_pages.md R117, R118). -/

namespace Sys2Proof.Machine

/-! ### Event registers of a page (R117, R118, R93) -/

/-- EV_CLR: the bits written as 1 that the proof saw set, and that have not been set again since, are cleared; `proof` has those bits
(R93, log 115). -/
def evClrEff (p : Page) (v proof : Word) (s : State) : State := s.setHw p 4 (s.hw p 4 &&& ~~~(v &&& proof))

/-- The bits of a word, lowest first. -/
def bitList (v : Word) : List Nat := (List.range 32).filter fun i => bitAt v i

/-- EV_SET: each defined bit written as 1 is an occurrence. -/
def evSetEff (p : Page) (v : Word) (s : State) : State := (bitList (v &&& p.evBits)).foldl (fun s b => s.raise p b) s

/-- EV_MASK_SET. -/
def evMaskSetEff (p : Page) (v : Word) (s : State) : State := s.setHw p 7 (s.hw p 7 ||| (v &&& p.evBits))

/-- EV_MASK_CLR: a pending bit that a press unmasks counts as one occurrence at its source. -/
def evMaskClrEff (p : Page) (v : Word) (s : State) : State :=
  let fresh := bitList (s.hw p 4 &&& s.hw p 7 &&& v &&& p.evBits)
  let s := s.setHw p 7 (s.hw p 7 &&& ~~~(v &&& p.evBits))
  fresh.foldl (fun s b => if s.route p b = 0xF then s else s.occur (pageBase p + s.route p b)) s

/-- The range rule of EV_SOURCE: every group names an owned source or 0xF. -/
def evSourceChk (p : Page) (v : Word) : Option Nat :=
  if (List.range 8).all fun g => bitsOf v (4 * g + 3) (4 * g) == 0xF || decide (bitsOf v (4 * g + 3) (4 * g) < pageOwned p) then none
  else some errRange

/-- EV_SOURCE: a pending, unmasked bit routed to a source it was not routed to counts as one occurrence there. -/
def evSourceEff (p : Page) (v : Word) (s : State) : State :=
  let moved := (bitList (s.hw p 4 &&& ~~~(s.hw p 7))).filter fun b =>
    bitsOf v (4 * (b / 4) + 3) (4 * (b / 4)) != s.route p b && bitsOf v (4 * (b / 4) + 3) (4 * (b / 4)) != 0xF
  let s := s.setHw p 0xA v
  moved.foldl (fun s b => s.occur (pageBase p + s.route p b)) s

/-! ### Bitmaps (R162) -/

/-- A source of a lane that a TH8 does not have (R161). -/
def State.srcAbsent (s : State) (i : Nat) : Bool := s.th8 && ((decide (512 ≤ i) && decide (i < 960)) || (decide (976 ≤ i) && decide (i ≤ 991)))

def State.enSet (s : State) (i : Nat) : State :=
  if s.srcAbsent i then s
  else
    let s := (s.setSrc i { s.src i with en := true }).strike (Page.evg.at_ (0xA0 + i / 32)) (bitMask (i % 32) (i % 32))
    if s.level i then s.occur i else s

def State.enClr (s : State) (i : Nat) : State :=
  let x := s.src i
  s.setSrc i { x with en := false, st := if x.st = .held ∨ x.st = .pending then .idle else x.st }

def State.pendSet (s : State) (i : Nat) : State := if s.srcAbsent i then s else s.occur i

def State.pendClr (s : State) (i : Nat) : State :=
  let x := s.src i
  if x.st = .held ∨ x.st = .pending then (s.setSrc i { x with latch := false }).afterDone i
  else s.setSrc i { x with latch := false }

/-- Do `f` for the sources that the bits of word `w` of a bitmap name. -/
def State.forSources (s : State) (w : Nat) (v : Word) (f : State → Nat → State) : State :=
  (bitList v).foldl (fun s b => f s (32 * w + b)) s

/-- The enables and the HELD or PENDING states of bitmap word `w`. -/
def State.enWord (s : State) (w : Nat) : Word :=
  (List.range 32).foldl (fun a b => if (s.src (32 * w + b)).en then a ||| bitMask b b else a) 0
def State.pendWord (s : State) (w : Nat) : Word :=
  (List.range 32).foldl (fun a b => if (s.src (32 * w + b)).st = .held ∨ (s.src (32 * w + b)).st = .pending then a ||| bitMask b b else a) 0

def execEnSet (w : Writer) (i : Nat) (v : Word) (s : State) : Out :=
  fin (if 32 ≤ i then s else pressOne w .evg (0x80 + i) v 0 (fun _ => none) (fun s => s.forSources i v State.enSet) s)
def execEnClr (w : Writer) (i : Nat) (v proof : Word) (s : State) : Out :=
  fin (if 32 ≤ i then s else pressOne w .evg (0xA0 + i) v proof (fun _ => none) (fun s => s.forSources i (v &&& proof) State.enClr) s)
def execPendSet (w : Writer) (i : Nat) (v : Word) (s : State) : Out :=
  fin (if 32 ≤ i then s else pressOne w .evg (0xC0 + i) v 0 (fun _ => none) (fun s => s.forSources i v State.pendSet) s)
def execPendClr (w : Writer) (i : Nat) (v proof : Word) (s : State) : Out :=
  fin (if 32 ≤ i then s else pressOne w .evg (0xE0 + i) v proof (fun _ => none) (fun s => s.forSources i (v &&& proof) State.pendClr) s)

/-! ### Claim and complete (R166 to R168) -/

def claimEff (t : Nat) (v : Word) (s : State) : State := if bitAt v 31 then s.claim t (bitsOf v 9 0) else s
def doneEff (t : Nat) (v : Word) (s : State) : State := if bitAt v 31 then s.complete t (bitsOf v 9 0) else s
def forceDoneChk (v : Word) : Option Nat := if bitsOf v 20 16 ≤ 18 then none else some errRange
def forceDoneEff (v : Word) (s : State) : State := if bitAt v 31 then s.complete (bitsOf v 20 16) (bitsOf v 9 0) else s

def execClaim (w : Writer) (t : Bool) (v : Word) (s : State) : Out :=
  fin (pressOne w .evg (0x11 + 2 * b2n t) v 0 (fun _ => none) (claimEff (b2n t) v) s)
def execDone (w : Writer) (t : Bool) (v : Word) (s : State) : Out :=
  fin (pressOne w .evg (0x12 + 2 * b2n t) v 0 (fun _ => none) (doneEff (b2n t) v) s)
def execForceDone (w : Writer) (v : Word) (s : State) : Out :=
  fin (pressOne w .evg 0x15 v 0 (fun _ => forceDoneChk v) (forceDoneEff v) s)

/-! ### Source entries (R161) -/

/-- The lane that owns a source or a lane doorbell. -/
def sourceLane (i : Nat) : Option Nat :=
  if 64 ≤ i ∧ i < 960 then some ((i - 64) / 56) else if 960 ≤ i ∧ i < 992 then some ((i - 960) / 2) else none

/-- The checks of a source entry. -/
def State.entryChk (s : State) (i : Nat) (v : Word) : Option Nat :=
  let t := bitsOf v 31 27
  if s.srcAbsent i then some errAbsent
  else if t ≠ 0x1F ∧ 18 < t then some errRange
  else if t ≠ 0x1F ∧ s.th8 = true ∧ 11 ≤ t then some errAbsent
  else match sourceLane i with
    | some n => if t = 0x1F ∨ t ≤ 2 ∨ t = 3 + n then none else some errRange
    | none => none

/-- An accepted source entry: a HELD source whose COAL changes becomes PENDING (Table: Source states and transitions). -/
def entryEff (i : Nat) (v : Word) (s : State) : State :=
  let x := s.src i
  let s := s.setSrc i { x with target := bitsOf v 31 27, prio := bitsOf v 26 24, coal := bitsOf v 23 20 }
  if x.st = .held ∧ x.coal ≠ bitsOf v 23 20 then s.makePending i else s

def execSourceEntryWrite (w : Writer) (src : Nat) (v : Word) (s : State) : Out :=
  fin (if 1024 ≤ src then s
    else pressOne w (.table ⟨src / 256 % 4, Nat.mod_lt _ (by decide)⟩) (src % 256) v 0 (fun s => s.entryChk src v) (entryEff src v) s)

/-! ### Coalescers and FIRQ (R169 to R173) -/

def coalChk (v : Word) : Option Nat := if bitsOf v 23 16 = 0 ∨ bitsOf v 15 0 = 0 then some errRange else none

/-- R169: TIME has passed since the first occurrence held. -/
def State.coalTimeUp (s : State) (c : Nat) : Bool :=
  match (s.coal c).firstHeld with | some t => decide (t + s.coalTicks c ≤ s.clock) | none => false

/-- R171: the write does not restart the coalescer; it fires at once if the new COUNT or TIME is already met. -/
def coalEff (c : Nat) (v : Word) (s : State) : State :=
  let s := storeEff .evg (0x70 + c) v 0 s
  let s := s.setCoal c { s.coal c with lastCfg := s.clock }
  if s.g EVG.COAL_COUNT 0 c ≤ (s.coal c).counted then s.fire c
  else if s.coalTimeUp c then s.fire c else s

def execCoalWrite (w : Writer) (c : Nat) (v : Word) (s : State) : Out :=
  fin (if c = 0 ∨ 16 ≤ c then s else pressOne w .evg (0x70 + c) v 0 (fun _ => coalChk v) (coalEff c v) s)

def execCoalescerTimeFire (c : Nat) (s : State) : Out := fin (if s.coalTimeUp c then s.fire c else s)

/-- A released line is driven low again once 200 ns have passed (R173). -/
def Firq.back (f : Firq) (now : Nat) : Firq := if f.gapAt + 40 ≤ now then { f with gap := false } else f

def execFirqEdgeReassert (t : Bool) (s : State) : Out :=
  fin { s with evg := if t then { s.evg with firqB := s.evg.firqB.back s.clock } else { s.evg with firqA := s.evg.firqA.back s.clock } }

/-! ### Range rules and effects of the other EVG words -/

/-- The range rules of the EVG page by offset. -/
def evgChk (off : Nat) (v : Word) : Option Nat :=
  if off = 0x15 then forceDoneChk v
  else if off = 0x40 ∨ off = 0x41 then (if 8 < bitsOf v 3 0 then some errRange else none)
  else if 0x58 ≤ off ∧ off ≤ 0x67 then
    (if bitsOf v 9 0 < 64 ∨ 992 ≤ bitsOf v 9 0 then none else some errRange)
  else if 0x71 ≤ off ∧ off ≤ 0x7F then coalChk v else none

/-- The effect of an accepted word of the EVG page. -/
def evgEff (off : Nat) (v proof : Word) (s : State) : State :=
  if off = 0x11 then claimEff 0 v s
  else if off = 0x12 then doneEff 0 v s
  else if off = 0x13 then claimEff 1 v s
  else if off = 0x14 then doneEff 1 v s
  else if off = 0x15 then forceDoneEff v s
  else if 0x71 ≤ off ∧ off ≤ 0x7F then coalEff (off - 0x70) v s
  else if 0x80 ≤ off ∧ off ≤ 0x9F then s.forSources (off - 0x80) v State.enSet
  else if 0xA0 ≤ off ∧ off ≤ 0xBF then s.forSources (off - 0xA0) (v &&& proof) State.enClr
  else if 0xC0 ≤ off ∧ off ≤ 0xDF then s.forSources (off - 0xC0) v State.pendSet
  else if 0xE0 ≤ off ∧ off ≤ 0xFF then s.forSources (off - 0xE0) (v &&& proof) State.pendClr
  else storeEff .evg off v proof s

/-! ### Doorbells (R159) -/

/-- May this session ring this doorbell (Table: Who may ring a doorbell)? -/
def State.sessionRings (s : State) (k : SessId) (i : Nat) : Bool :=
  if k = 0 then true
  else if 960 ≤ i ∧ i < 992 then
    bitAt (s.wd (SESS.LANES.addr 0 k.val)) ((i - 960) / 2) && bitAt (s.wd (SESS.LANES.addr 0 k.val)) 31
  else bitAt (s.wd (SESS.CWRITE.addr 0 k.val)) 4

/-- May the engine of lane m ring this doorbell? -/
def engineRings (m i : Nat) : Bool := (decide (960 ≤ i) && decide (i < 992) && (i - 960) / 2 == m) || (decide (1008 ≤ i) && decide (i < 1024))

end Sys2Proof.Machine
end

