-- ==== Sys2Proof/Machine/Slugs.lean ====
section
/-! DEFINITION. Making a slug on the far side of a lane: its sequence, and the 512-entry FIFO (R15, R439). -/

namespace Sys2Proof.Machine

/-- The next SEQUENCE of a source on lane n (R439, R512). -/
def State.seqOf (s : State) (n : LaneId) (source : Nat) : Nat := sget (fun _ => 0) (s.lane n).seqs source

/-- Advance it. -/
def State.nextSeq (s : State) (n : LaneId) (source : Nat) (by_ : Nat := 1) : State :=
  s.upLane n fun l => { l with seqs := sset (fun _ => 0) l.seqs source ((sget (fun _ => 0) l.seqs source + by_) % 65536) }

/-- The words of a slug (Table: Slug format). -/
def mkSlug (source flags seq : Nat) (stamp p0 p1 : Word) : Slug :=
  ⟨BitVec.ofNat 32 (source * 2 ^ 24 + flags % 256 * 2 ^ 16 + seq % 65536), stamp, p0, p1⟩

/-- Number of slugs that the far side's FIFO holds at most (R15). -/
def fifoMax : Nat := 512

/-- Put a slug into the far side's FIFO, or discard it and count (R15, R158). -/
def State.pushSlug (s : State) (n : LaneId) (x : Slug) : State :=
  if (s.lane n).fifo.length < fifoMax then s.upLane n fun l => { l with fifo := l.fifo ++ [x] }
  else (s.bump LANE.FIFO_DROPS n).farRaise n .lane 6

/-- A new slug of a source, numbered and queued. -/
def State.slug (s : State) (n : LaneId) (source flags : Nat) (stamp p0 p1 : Word) : State :=
  (s.pushSlug n (mkSlug source flags (s.seqOf n source) stamp p0 p1)).nextSeq n source

/-! ### Folios (R440) -/

/-- The marker of a folio in the slug stream; D0 fills in its sequence and the count of discarded slugs when it writes it. -/
def folioMark (reason source : Nat) (stamp : Word) (hi : Word) : Slug :=
  ⟨BitVec.ofNat 32 (0x3F * 2 ^ 24), stamp, hi, BitVec.ofNat 32 (reason * 2 ^ 24 + source * 2 ^ 16)⟩

/-- A folio of lane n's galley falls due now, after the slugs that D0 already holds. -/
def State.folio (s : State) (n : LaneId) (reason : Nat) : State :=
  if s.on LANE.GAL_STAT_RUNNING n then
    s.upGal n fun g => { g with buf := g.buf ++ [folioMark reason 0 s.rtLo (BitVec.ofNat 32 (s.rt64 / 2 ^ 32))] }
  else s

end Sys2Proof.Machine
end

