-- ==== Sys2Proof/Machine/ImpBase.lean ====
section
/-! DEFINITION. Impositions (spec/09_impositions.md R203 to R214, R220, R538): sheets, the checks of a post, cancelling, arming, the
choice of the impression that a slot launches, and what becomes of impressions at a step or the loss of a lane. -/

namespace Sys2Proof.Machine

/-! ### Fields of an impression (Table: Impression format) -/

def impAction (w2 : Word) : Nat := bitsOf w2 31 24
def impSheet (w2 : Word) : Nat := bitsOf w2 23 19
def impLate (w2 : Word) : Nat := bitsOf w2 18 17
def impLane (w2 : Word) : Nat := bitsOf w2 15 12
def impTag (w2 : Word) : Nat := bitsOf w2 11 0

/-- The number that stands for the module slots. -/
def moduleSlots : Nat := 16

/-- The slot groups an impression is armed in (R205, R209). -/
def impLanes (w2 arg : Word) : List Nat :=
  let a := impAction w2
  if a = 0x20 ∨ a = 0x21 then [moduleSlots]
  else if a = 0x0B then [impSheet w2]
  else if a = 0x06 ∧ impSheet w2 = 16 then (List.range 16).filter fun n => bitAt arg (16 + n)
  else [impLane w2]

/-- The lane page whose write rights the poster needs (Table: Action codes). -/
def impKind (a : Nat) : Option LaneKind :=
  if a = 1 ∨ a = 2 then some .smu else if a = 3 ∨ a = 4 ∨ a = 6 then some .chain else if a = 5 ∨ a = 9 then some .tmr
  else if a = 7 then some .can else if a = 8 then some .usnd else if a = 0xA then some .eng else none

/-- The ARG of an action is in range (R205, Table: Action codes). -/
def impArgOk (s : State) (a sheet : Nat) (arg : Word) : Bool :=
  let v := arg.toNat
  match a with
  | 1 => decide (v ≤ 15)
  | 2 => v == 0
  | 3 => decide (v ≤ 15)
  | 4 => decide (v ≤ 15)
  | 5 => decide (v ≤ 0xFFFF)
  | 6 => bitsOf arg 15 4 == 0 && bitsOf arg 3 0 != 0
         && (if sheet = 16 then bitsOf arg 31 16 != 0 && bitsOf arg 31 16 &&& s.fittedMask == bitsOf arg 31 16 else bitsOf arg 31 16 == 0)
  | 7 => decide (v ≤ 3)
  | 8 => v == 0
  | 9 => decide (v ≤ 0xFF) && (bitsOf arg 3 0 &&& bitsOf arg 7 4) == 0
  | 0xA => true
  | 0xB => decide (960 ≤ v) && decide (v ≤ 1023)
  | 0x20 => bitsOf arg 15 2 == 0 && bitsOf arg 1 0 != 3 && (bitsOf arg 1 0 == 2) == (bitsOf arg 31 16 != 0)
  | 0x21 => true
  | _ => false

/-- The fields of an impression are in range (R204, R205). -/
def impFieldsOk (s : State) (w2 arg : Word) : Bool :=
  let a := impAction w2
  let sh := impSheet w2
  decide (sh ≤ 16) && !bitAt w2 16 && impLate w2 != 3
    && (if sh = 16 then (!(a == 6 || a == 0xB || a == 0x20 || a == 0x21) || impLane w2 == 0)
        else impLane w2 == sh && a != 0x20 && a != 0x21)
    && impArgOk s a sh arg

/-- The writer for whom Chase checks rights, from a poster's holder code. -/
def posterWriter (h : Nat) : Writer :=
  if h = 0x20 then .chase else if h < 8 then .host ⟨h % 8, Nat.mod_lt _ (by decide)⟩ else .user ⟨h % 16, Nat.mod_lt _ (by decide)⟩

/-- Rights to an action (R207, check 1). -/
def State.impRights (s : State) (h : Nat) (w2 arg : Word) : Bool :=
  let w := posterWriter h
  let a := impAction w2
  (h == 0x20) || (decide (8 ≤ h) || s.mayPress w .imp 0x82)
    && (match impKind a with
        | some k => (impLanes w2 arg).all fun n => s.mayPress w (.lane ⟨n % 16, Nat.mod_lt _ (by decide)⟩ k) 0x10
        | none => true)
    && (if a = 0x20 then s.mayPress w .sync 0x10 else true)
    && (if a = 0x21 then s.mayPress w .net 0x10 else true)
    && (if a = 0xB then
          (if h < 8 then s.sessionRings ⟨h % 8, Nat.mod_lt _ (by decide)⟩ arg.toNat else engineRings (h % 16) arg.toNat)
        else true)

/-- Sheet, lanes and doorbell are present (R207, check 3; R161). -/
def State.impPresent (s : State) (w2 arg : Word) : Bool :=
  !(s.th8 && ((decide (8 ≤ impSheet w2) && decide (impSheet w2 < 16))
      || (impLanes w2 arg).any (fun n => decide (8 ≤ n) && decide (n < 16))
      || (impAction w2 == 0xB && s.srcAbsent arg.toNat)))

def State.onSheet (s : State) (sh : Nat) : List Impression := s.imp.sheets.filter fun x => x.sheet == sh

/-- Impressions a sheet holds at most (R203). -/
def sheetMax : Nat := 256

/-- The five checks of a post, in order (R207); for an engine the sheet must be its own lane's. -/
def State.postChk (s : State) (h : Nat) (time : Nat) (w2 arg : Word) : Option Nat :=
  if !s.impRights h w2 arg then some errRights
  else if !impFieldsOk s w2 arg || (decide (8 ≤ h) && h != 0x20 && impSheet w2 != h % 16) then some errRange
  else if !s.impPresent w2 arg then some errAbsent
  else if time + s.g IMP.LATE_TOL 0 * 1000 < s.rt64 then some errLate
  else if sheetMax ≤ (s.onSheet (impSheet w2)).length then some errRange else none

/-- Put an impression on its sheet; SHEET_LOW when the free entries fall to LOW_AT or below (R225). -/
def State.putImpression (s : State) (h : Nat) (time : Nat) (w2 arg : Word) : State :=
  let sh := impSheet w2
  let before := sheetMax - (s.onSheet sh).length
  let x : Impression := ⟨s.imp.nextId, sh, time, w2, arg, h, impLanes w2 arg, [], []⟩
  let s := { s with imp := { s.imp with sheets := s.imp.sheets ++ [x], nextId := s.imp.nextId + 1 } }
  let low := s.g IMP.SHEET_LOW_AT 0 sh
  if before - 1 ≤ low ∧ low < before then s.raise .imp 4 else s

/-! ### The last exception and the counts (R212, R538) -/

/-- IMP.LAST_EXCEPTION. -/
def State.impException (s : State) (kind sheet code tag : Nat) : State :=
  (((s.put IMP.LAST_KIND 0 kind).put IMP.LAST_SHEET 0 sheet).put IMP.LAST_CODE 0 code).put IMP.LAST_TAG 0 tag

/-- Chase counts what became of an impression (R212, R538; log 11). -/
def State.countLaunch (s : State) (r : LaunchRep) : State :=
  let tag := impTag r.w2
  match r.kind with
  | .onTime => s.bump IMP.LAUNCHED 0
  | .late ns =>
    let s := ((s.bump IMP.LAUNCHED 0).bump IMP.LATE 0).put IMP.LAST_LATE_NS 0 (min ns 0xFFFFFFFF)
    (s.impException 1 r.sheet 0 tag).raise .imp 0
  | .refused c => ((s.bump IMP.REFUSED 0).impException 3 r.sheet c tag).raise .imp 2
  | .skipped => ((s.bump IMP.SKIPPED 0).impException 2 r.sheet 0 tag).raise .imp 1
  | .expired => ((s.bump IMP.SKIPPED 0).impException 5 r.sheet 0 tag).raise .imp 1

/-! ### Arming (R209, R224) -/

/-- PG_STAT.STOPPED of the IMP page: RUN is 0 and nothing is armed (R224). -/
def State.impStopped (s : State) : State :=
  s.setStopped .imp (!s.run .imp && s.imp.sheets.all fun x => x.armed.isEmpty)

/-- Replace one impression; one with nothing left to do leaves its sheet (R203). -/
def State.setImpression (s : State) (x : Impression) : State :=
  let sheets := s.imp.sheets.map fun y => if y.id = x.id then x else y
  State.impStopped { s with imp := { s.imp with sheets := sheets.filter fun y => !y.todo.isEmpty } }

/-- Impressions armed in a slot group. -/
def State.armedIn (s : State) (m : Nat) : List Impression := s.imp.sheets.filter fun x => x.armed.contains m

/-- Slots of a group (R208). -/
def slotMax : Nat := 16

/-- May group m take an arming: the module slots always, a lane when READY with its link locked (R209)? -/
def State.groupReady (s : State) (m : Nat) : Bool :=
  if m = moduleSlots then true else s.on LANE.STATE_LOCKED m && s.g LANE.STATE_PHASE m == 3

/-- A comes before b on a sheet. -/
def impBefore (a b : Impression) : Bool := decide (a.time < b.time) || (a.time == b.time && decide (a.id < b.id))

/-- The impression of sheet `sh` that waits first for group m. -/
def State.firstWaiting (s : State) (sh m : Nat) : Option Impression :=
  (s.onSheet sh).foldl (fun b x => if x.todo.contains m && !x.armed.contains m then
    (match b with | none => some x | some y => if impBefore x y then some x else b) else b) none

/-- One second, in nanoseconds: the horizon (R209). -/
def second : Nat := 1000000000

/-- Impression `id` is armed in group m: a module slot has it at once, a lane's slot when the arming has crossed the link (R8, R209). -/
def State.slotArmed (s : State) (m id : Nat) : State :=
  { s with imp := { s.imp with sheets := s.imp.sheets.map fun x =>
      if x.id = id ∧ x.armed.contains m = true ∧ x.slots.contains m = false then { x with slots := x.slots ++ [m] } else x } }

/-- Chase sends the arming. -/
def State.sendArm (s : State) (m id : Nat) : State :=
  if h : m < 16 then s.sendDown ⟨m, h⟩ (.arm id) else s.slotArmed m id

/-- The feeder arms the first waiting impression of sheet `sh` in group m, if every condition of R209 holds. -/
def State.feed (s : State) (sh m : Nat) : State :=
  match s.firstWaiting sh m with
  | none => s
  | some x =>
    if s.run .imp && decide (x.time ≤ s.rt64 + second) && decide ((s.armedIn m).length < slotMax) && s.groupReady m && s.ru.announced.isNone
    then (s.setImpression { x with armed := x.armed ++ [m] }).sendArm m x.id else s

/-- Return the impressions armed in group m to their sheets (R213). -/
def State.unarm (s : State) (m : Nat) : State :=
  State.impStopped { s with imp := { s.imp with sheets := s.imp.sheets.map fun x =>
    { x with armed := x.armed.filter (· != m), slots := x.slots.filter (· != m) } } }

/-- Return every armed impression to its sheet (R214, R224). -/
def State.unarmAll (s : State) : State :=
  State.impStopped { s with imp := { s.imp with sheets := s.imp.sheets.map fun x => { x with armed := [], slots := [] } } }

/-- Clear a lane's sheet; impressions of the module sheet stay (Table: Effects of each reset). -/
def State.clearSheet (s : State) (sh : Nat) : State :=
  State.impStopped { s with imp := { s.imp with sheets := s.imp.sheets.filter fun x => x.sheet != sh } }

/-! ### Launching (R210, R212) -/

/-- Lane time: RT as the far side keeps it. -/
def State.laneTime (s : State) (n : LaneId) : Nat := ((s.rt64 : Int) + (s.lane n).timeOff).toNat

/-- The time that group m's comparators compare: lane time, or registration time for the module slots. -/
def State.slotTime (s : State) (m : Nat) : Nat := if h : m < 16 then s.laneTime ⟨m, h⟩ else s.rt64

/-- The tick of group m at which an impression is due: of 40.96 MHz in a lane, of 200 MHz in the registration unit. -/
def slotTick (m time : Nat) : Nat := if m < 16 then (time * 128 + 3124) / 3125 else (time + 4) / 5

/-- The slot's comparison: time minus TIME modulo 2³² as a signed value; due from 0 on (R210). -/
def State.slotDiff (s : State) (m : Nat) (x : Impression) : Int := signedOf 32 (wrapInt 32 ((s.slotTime m : Int) - (x.time : Int)))

/-- The lateness of an impression in group m: by its comparator where a slot has it, else by registration time (R212). -/
def State.lateness (s : State) (m : Nat) (x : Impression) : Int :=
  if x.slots.contains m then s.slotDiff m x else (s.rt64 : Int) - (x.time : Int)

/-- Which of two impressions of one group goes first: by the tick in which they are due, then the module sheet, then the order of posting
(R210). -/
def slotBefore (m : Nat) (a b : Impression) : Bool :=
  let ta := slotTick m a.time
  let tb := slotTick m b.time
  decide (ta < tb)
    || (ta == tb && ((a.sheet == 16 && b.sheet != 16) || ((a.sheet == 16) == (b.sheet == 16) && decide (a.id < b.id))))

/-- Is an impression handled as SKIP (R212)? -/
def State.impSkips (s : State) (x : Impression) : Bool :=
  impAction x.w2 == 1 || impLate x.w2 == 1 || (impLate x.w2 == 0 && s.g IMP.POLICY 0 == 0)

/-- LATE_TOL in nanoseconds. -/
def State.lateTol (s : State) : Nat := s.g IMP.LATE_TOL 0 * 1000

/-- The RW values an SMU preset has set on lane m (R205). -/
def State.presetVals (s : State) (m : Nat) : List Nat :=
  [s.g SMU.LEVEL m, s.g SMU.LIMIT m, s.g SMU.IRANGE m, s.g SMU.DWELL_MS m, s.g SMU.RATE m]

/-- An impression that a slot of group m launches now: it is due, and its policy does not skip it. -/
def State.launches (s : State) (m : Nat) (x : Impression) : Bool :=
  x.slots.contains m && decide (0 ≤ s.slotDiff m x) && !(decide ((s.lateTol : Int) < s.slotDiff m x) && s.impSkips x)

/-- The impression that group m launches next, whatever its action. -/
def State.nextDue (s : State) (m : Nat) : Option Impression :=
  s.imp.sheets.foldl (fun b x => if s.launches m x then
    (match b with | none => some x | some y => if slotBefore m x y then some x else b) else b) none

/-- Group m is done with an impression; its report travels upstream, or is counted at once for a module slot (R538). -/
def State.slotDone (s : State) (m : Nat) (x : Impression) (kind : LaunchKind) : State :=
  let s := s.setImpression { x with todo := x.todo.filter (· != m), armed := x.armed.filter (· != m), slots := x.slots.filter (· != m) }
  let r : LaunchRep := ⟨x.sheet, x.w2, x.arg, kind, if impAction x.w2 = 1 then s.presetVals m else []⟩
  if h : m < 16 then s.sendUp ⟨m, h⟩ (.report r) else s.countLaunch r

/-- What a launch is reported as: refused with a code, late beyond LATE_TOL, or on time (R205, R212). -/
def State.launchKind (s : State) (code : Option Nat) (late : Int) : LaunchKind :=
  match code with
  | some c => .refused c
  | none => if (s.lateTol : Int) < late then .late late.toNat else .onTime

/-- A slot of group m launches the impression that is next, if its action is `action`; `act` is what the action does, and the code with
which the block refuses it. -/
def State.launchNext (s : State) (m action : Nat) (act : Impression → State → Option Nat × State) : State :=
  match s.nextDue m with
  | none => s
  | some x =>
    if impAction x.w2 = action then
      let r := act x s
      r.2.slotDone m x (s.launchKind r.1 (s.slotDiff m x))
    else s

/-- The instant of lane time at which a slot of lane n launches an impression: TIME, or now where it is late (R212). -/
def State.launchAt (s : State) (n : LaneId) (x : Impression) : Nat :=
  if (s.lateTol : Int) < s.slotDiff n.val x then s.laneTime n else x.time

/-! ### Cancelling (R208) -/

/-- The launch report in an item. -/
def Item.report? : Item → Option LaunchRep
  | .report r => some r
  | _ => none

/-- The reports of lane n that Chase has not counted: on their way, held by a replay, or arrived. -/
def State.reportsOut (s : State) (n : LaneId) : List LaunchRep :=
  let l := s.lane n
  let k := l.link
  l.reports ++ (k.held ++ ((k.far.unacked.filter fun e => !k.near.taken.contains e.id).map (·.item))
    ++ ((k.far.queue.filter fun e => !k.near.taken.contains e.1).map (·.2))).filterMap Item.report?

/-- Cancel a TAG on a sheet: how many went, how many had launched and were not yet known. -/
def State.cancelTag (s : State) (sh tag : Nat) : Nat × Nat × State :=
  let hit : Impression → Bool := fun x => x.sheet == sh && impTag x.w2 == tag
  let gone := (s.imp.sheets.filter hit).length
  let late := allLanes.foldl (fun a n => a + ((s.reportsOut n).filter fun r => r.sheet == sh && impTag r.w2 == tag
    && (match r.kind with | .onTime => true | .late _ => true | _ => false)).length) 0
  let s := State.impStopped { s with imp := { s.imp with sheets := s.imp.sheets.filter fun x => !hit x } }
  let s := s.bump IMP.CANCELLED 0 0 gone
  (gone, late, if late = 0 then s else (s.impException 4 sh 0 tag).raise .imp 3)

/-! ### At a step, and when a lane leaves (R213, R214) -/

/-- R214: every armed impression returns, STEP_REARM is raised, and RELATIVE moves every TIME by the step. -/
def State.impAtStep (s : State) (delta : Int) : State :=
  let s := s.unarmAll
  let s := if s.on IMP.STEP_MODE 0 then
    { s with imp := { s.imp with sheets := s.imp.sheets.map fun x => { x with time := ((x.time : Int) + delta).toNat } } } else s
  s.raise .imp 5

/-- R220: the close of a session clears EN of the rules it wrote. -/
def State.closeRules (s : State) (k : SessId) : State :=
  (List.range 4).foldl (fun s r => if (s.imp.ruleOwner[r]?.getD none) == some k then s.p IMP.RULE_EN 0 r 0 else s) s

end Sys2Proof.Machine
end

