-- ==== Sys2Proof/Machine/LaneBase.lean ====
section
/-! DEFINITION. What several blocks of a lane share: its phase (R77, R79), the hardware HV-off cause (R53), frisket grants
(R234, R458 to R462), background work (R507 to R510), and the frisket trap of the lane's engine (R238). -/

namespace Sys2Proof.Machine

/-! ### Phase -/

def phOff : Nat := 0
def phHunt : Nat := 1
def phSelftest : Nat := 2
def phReady : Nat := 3
def phSafe : Nat := 4
def phReset : Nat := 5

def State.phase (s : State) (n : LaneId) : Nat := s.g LANE.STATE_PHASE n

/-- A change of phase raises MOD.LANE_CHANGE (R158). -/
def State.setPhase (s : State) (n : LaneId) (ph : Nat) : State :=
  if s.phase n = ph then s else (s.put LANE.STATE_PHASE n ph).raiseMod 1

/-- Events of lane n's LANE page. -/
def State.raiseLane (s : State) (n : LaneId) (bit : Nat) : State := s.raise (.lane n .lane) bit

/-- The stale mark of a lane, in the link and in LANE.STATE (R10, R11); its time error is then not current (R199). -/
def State.setStale (s : State) (n : LaneId) (b : Bool) : State :=
  let s := (s.upLink n fun l => { l with stale := b }).put LANE.STATE_STALE n (b2n b)
  if b then s.p REG.LANE_ERR_VALID 0 n.val 0 else s

/-- A lane fails a self-test check: SELFTEST, PHASE = SAFE, STALE clears, armed impressions return (R213), a colophon entry,
LANE_SELFTEST_FAIL (R79). -/
def State.laneFails (s : State) (n : LaneId) (bits code : Nat) : State :=
  let s := (s.put LANE.SELFTEST_FAILED n (s.g LANE.SELFTEST_FAILED n ||| bits)).put LANE.SELFTEST_PASS n 0
  let s := (((s.setPhase n phSafe).setStale n false).unarm n.val).logIt code n.val 0x20
  s.raiseLane n 2

/-! ### The hardware HV-off cause (R53, R239) -/

/-- Why HV is held off: LAST_CAUSE, or where no HV-off is recorded yet the lowest code of what holds it off (log 12). -/
def State.hwCause (s : State) (n : LaneId) : Nat :=
  let c := s.g LANE.ILK_LAST_CAUSE n
  if c ≠ 0 then c
  else if !s.on LANE.ILK_A n then 1
  else if !s.on LANE.ILK_B n then 2
  else if s.on LANE.ILK_DISCREPANCY n then 3
  else if !s.on MOD.PERMIT_PERMITTED 0 then 4 else 5

/-! ### Frisket (R234, R458 to R461) -/

/-- A frisket: VMAX, IMAX, EMAX. -/
structure Frisket where
  v : Word
  i : Word
  e : Word
  deriving DecidableEq, Repr

/-- The base frisket: the LV range without restriction, no HV range (text before R234). -/
def baseFrisket : Frisket := ⟨0x41F00000, 0x3E4CCCCD, 0⟩

/-- The grant of a holder on a lane. -/
def State.grantOf (s : State) (h n : Nat) : Option Grant := s.grants.find? fun g => g.holder == h && g.lane == n

/-- The frisket of a holder on a lane; Chase's own writes are not clamped (log 13). -/
def State.frisket (s : State) (h n : Nat) : Frisket :=
  if h = 0x20 then ⟨f32Inf, f32Inf, f32Inf⟩
  else match s.grantOf h n with
    | some g => ⟨g.vmax, g.imax, g.emax⟩
    | none => baseFrisket

/-- 30 V, the top of the LV range. -/
def volts30 : Word := 0x41F00000
/-- 1,000 V. -/
def volts1000 : Word := 0x447A0000

/-- Does a frisket allow the HV range (R235, R458)? -/
def Frisket.allowsHv (f : Frisket) : Bool := f32Lt volts30 f.v

/-- The lower of two friskets, value by value. -/
def Frisket.min (a b : Frisket) : Frisket := ⟨f32Min a.v b.v, f32Min a.i b.i, f32Min a.e b.e⟩

/-- A user engine's write was clamped or refused: trap cause 0x0B becomes pending, after those of earlier stores (R238,
R416; log 127). -/
def State.frisketTrap (s : State) (w : Writer) (n : LaneId) (off : Nat) (refused : Bool) : State :=
  match w with
  | .user m =>
    let t : AsyncTrap := ⟨BitVec.ofNat 32 (0x4800000 + 4 * (Page.lane n .smu).at_ off), if refused then 0x800 else 0⟩
    if m = n then s.upEng n fun e => { e with frisket := e.frisket ++ [t] } else s
  | _ => s

/-- Lane n has a far side that is powered: what happens on a far side can happen. -/
def State.farUp (s : State) (n : LaneId) : Bool := s.fitted n && (s.lane n).link.farPowered

/-- Its blocks run as well: the far side is neither in its safe state nor tripped (R9, R44). -/
def State.farRuns (s : State) (n : LaneId) : Bool := s.farUp n && !(s.lane n).link.farSafe && !s.on LANE.ISO_TRIPPED n

/-! ### Far-side events by page -/

def State.farSmu (s : State) (n : LaneId) (bit : Nat) : State := s.farRaise n .smu bit
def State.farChain (s : State) (n : LaneId) (bit : Nat) : State := s.farRaise n .chain bit
def State.farUsnd (s : State) (n : LaneId) (bit : Nat) : State := s.farRaise n .usnd bit
def State.farTmr (s : State) (n : LaneId) (bit : Nat) : State := s.farRaise n .tmr bit
def State.farDunc (s : State) (n : LaneId) (bit : Nat) : State := s.farRaise n .dunc bit
def State.farCan (s : State) (n : LaneId) (bit : Nat) : State := s.farRaise n .can bit

/-- A word of binary32 that a field holds. -/
def State.fw (s : State) (f : Fld) (n : Nat) (i : Nat := 0) : Word := s.wd (f.addr n i)
/-- The same as the near side's image has it. -/
def State.fwi (s : State) (f : Fld) (n : Nat) (i : Nat := 0) : Word := BitVec.ofNat 32 (s.gi f n i)

/-- Set a field of a mirrored page in the near-side image too (R205, R127). -/
def State.putBoth (s : State) (f : Fld) (n i v : Nat) : State :=
  let s := s.p f n i v
  let a := f.addr n i
  { s with image := sset resetWord s.image a (withBits (sget resetWord s.image a) f.hi f.lo v) }

/-- The page as PRESSED counts a launch by Chase whose values are in force (R205). -/
def State.launchCounted (s : State) (p : Page) : State := s.pressedOn p true

end Sys2Proof.Machine
end

