-- ==== Sys2Proof/Machine/Smu.lean ====
section
/-! DEFINITION. The lane source-measure unit (spec/10_source_measure.md R227 to R253): configuration and its checks, the frisket
clamp, results, the HV state machine, arcs, auto-zero, presets and the SMU launches. -/

namespace Sys2Proof.Machine

def State.smu (s : State) (n : LaneId) : Smu := (s.lane n).smu
def State.upSmu (s : State) (n : LaneId) (f : Smu → Smu) : State := s.upLane n fun l => { l with smu := f l.smu }

/-! ### Configurations and their checks (R227, R228) -/

/-- The configuration that the checks of R228 and R239 look at. -/
structure SmuCfg where
  mode : Nat
  vrange : Nat
  sense : Nat
  offc : Nat
  irange : Nat
  level : Word
  limit : Word
  rate : Nat
  dwell : Nat
  passHi : Word
  arcEn : Bool
  arcI : Word
  run : Bool
  deriving DecidableEq, Repr

/-- The configuration in the near-side image, which is what a press is checked against. -/
def State.smuImage (s : State) (n : LaneId) : SmuCfg :=
  ⟨s.gi SMU.CFG_MODE n, s.gi SMU.CFG_VRANGE n, s.gi SMU.CFG_SENSE n, s.gi SMU.CFG_OFFSET_COMP n, s.gi SMU.IRANGE n,
   s.fwi SMU.LEVEL n, s.fwi SMU.LIMIT n, s.gi SMU.RATE n, s.gi SMU.DWELL_MS n, s.fwi SMU.PASS_HI n, s.gi SMU.ARC_EN n != 0,
   s.fwi SMU.ARC_I n, bitAt (s.imageWd (.lane n .smu) 2) 0⟩

/-- The configuration in force on the far side. -/
def State.smuForce (s : State) (n : LaneId) : SmuCfg :=
  ⟨s.g SMU.CFG_MODE n, s.g SMU.CFG_VRANGE n, s.g SMU.CFG_SENSE n, s.g SMU.CFG_OFFSET_COMP n, s.g SMU.IRANGE n,
   s.fw SMU.LEVEL n, s.fw SMU.LIMIT n, s.g SMU.RATE n, s.g SMU.DWELL_MS n, s.fw SMU.PASS_HI n, s.on SMU.ARC_EN n,
   s.fw SMU.ARC_I n, s.run (.lane n .smu)⟩

/-- Modes that force a voltage: FV, IR, HIPOT. -/
def forcesVolts (mode : Nat) : Bool := mode == 1 || mode == 8 || mode == 9
/-- HV modes: IR, HIPOT. -/
def hvMode (mode : Nat) : Bool := mode == 8 || mode == 9
/-- LV modes that force a current. -/
def forcesAmps (mode : Nat) : Bool := decide (2 ≤ mode) && decide (mode ≤ 5)

/-- R227: is the CFG word one of Table: SMU modes? -/
def SmuCfg.modeOk (c : SmuCfg) : Bool :=
  (c.mode == 0 || (decide (1 ≤ c.mode) && decide (c.mode ≤ 5) && c.vrange == 0) || (hvMode c.mode && c.vrange == 1))
    && (c.offc == 0 || c.mode == 4) && (c.mode != 4 || c.sense == 1)

/-- Full scale of the LV current ranges, as binary32 (log 14). -/
def lvAmps : Nat → Word
  | 0 => 0x3E4CCCCD | 1 => 0x3CA3D70A | 2 => 0x3B03126F | 3 => 0x3951B717 | _ => 0x37A7C5AC

/-- Full scale of the HV current ranges, as binary32 (log 14). -/
def hvAmps : Nat → Word
  | 0 => 0x3B03126F | 1 => 0x3951B717 | 2 => 0x37A7C5AC | 3 => 0x360637BD | _ => 0x3456BF95

/-- R228: the LEVEL of a configuration. -/
def SmuCfg.levelOk (c : SmuCfg) : Bool :=
  f32Finite c.level && (
    if c.mode = 0 then true
    else if hvMode c.mode then f32Le 0 c.level && f32Le c.level volts1000
    else if c.mode = 1 then f32Le (f32Abs c.level) volts30
    else f32Le (f32Abs c.level) (lvAmps c.irange))

/-- R228: the LIMIT of a configuration. -/
def SmuCfg.limitOk (c : SmuCfg) : Bool :=
  f32Finite c.limit && (
    if c.mode = 0 then true
    else f32Lt 0 c.limit && (if hvMode c.mode then f32Le c.limit 0x3B03126F
      else if c.mode = 1 then f32Le c.limit 0x3E4CCCCD else f32Le c.limit volts30))

/-- R228: the IRANGE of a configuration. -/
def SmuCfg.irangeOk (c : SmuCfg) : Bool := decide (c.irange ≤ 4) && (!forcesAmps c.mode || c.levelOk)

/-- LIMIT as it acts: a current limit above the range's full scale acts as that full scale (R228). -/
def SmuCfg.actingLimit (c : SmuCfg) : Word :=
  if hvMode c.mode then f32Min c.limit (hvAmps c.irange) else if c.mode = 1 then f32Min c.limit (lvAmps c.irange) else c.limit

/-- START's own checks 2 to 5 of R239 on a configuration. -/
def State.startChk (s : State) (n : LaneId) (c : SmuCfg) : Option Nat :=
  if !(hvMode c.mode && c.run) then some errRange
  else if s.g SMU.STAT_STATE n ≠ 0 then some errRange
  else if c.mode = 9 ∧ f32Le c.passHi c.limit = false then some errRange
  else if c.arcEn = true ∧ f32Le c.arcI c.limit = false then some errRange
  else if s.on SMU.STAT_CAL_EXPIRED n && !s.on CAL.POLICY 0 then some errCal
  else none

/-- The frisket that a writer's START is judged by (check 6). -/
def State.friskChk (s : State) (h : Nat) (n : LaneId) : Option Nat := if (s.frisket h n).allowsHv then none else some errFrisket

/-- MEASURE is accepted only in an LV mode with RUN at 1 (R230). -/
def measureOk (c : SmuCfg) : Bool := c.run && decide (1 ≤ c.mode) && decide (c.mode ≤ 5)

/-- The checks of a CMD word: ABORT wins over STOP, and STOP over START (R243, R239, R230). -/
def State.smuCmdChk (s : State) (w : Writer) (n : LaneId) (v : Word) : Option Nat :=
  match s.farCheck (.lane n .smu) 0x10 v with
  | some c => some c
  | none =>
    if bitAt v 3 && !measureOk (s.smuImage n) then some errRange
    else if bitAt v 0 && !bitAt v 1 && !bitAt v 2 then
      (match s.startChk n (s.smuImage n) with
       | some c => some c
       | none => s.friskChk w.holder n)
    else none

/-- The range rules of the SMU page, on the state that the press would leave. -/
def smuChk (w : Writer) (n : LaneId) (off : Nat) (v : Word) (s : State) : Option Nat :=
  let c := s.smuImage n
  let bad : Bool := match off with
    | 0x14 => !c.modeOk
    | 0x15 => !c.irangeOk
    | 0x16 => !c.levelOk
    | 0x17 => !c.limitOk
    | 0x18 => decide (bitsOf v 15 0 < 1) || decide (2000 < bitsOf v 15 0)
    | 0x19 => decide (3600000 < bitsOf v 21 0)
    | 0x1A => bitsOf v 15 0 == 0
    | 0x1B => !f32Finite v
    | 0x1C => !f32Finite v
    | 0x1E => !f32Finite v
    | _ => false
  if bad then some errRange else if off = 0x10 then s.smuCmdChk w n v else none

/-! ### The clamp (R234, R236) -/

/-- Clamp a magnitude, keeping the sign. -/
def clampTo (m v : Word) : Word := if f32Lt m (f32Abs v) then m ||| (v &&& 0x80000000) else v

/-- A cycle is in progress: ARMING to RAMP_DOWN. -/
def State.inCycle (s : State) (n : LaneId) : Bool := decide (1 ≤ s.g SMU.STAT_STATE n) && decide (s.g SMU.STAT_STATE n ≤ 4)

/-- The copy of the starter's frisket that the SMU took at START. -/
def State.friskCopy (s : State) (n : LaneId) : Frisket := ⟨s.fw SMU.F_VMAX n, s.fw SMU.F_IMAX n, s.fw SMU.F_EMAX n⟩

/-- The limits that a write of this holder is clamped to. -/
def State.clampBy (s : State) (h : Nat) (n : LaneId) : Frisket :=
  if s.inCycle n then (s.frisket h n).min (s.friskCopy n) else s.frisket h n

/-- What LEVEL and LIMIT become. -/
def clampLevelTo (mode : Nat) (f : Frisket) (v : Word) : Word :=
  if mode = 0 then v else if forcesVolts mode then clampTo f.v v else clampTo f.i v
def clampLimitTo (mode : Nat) (f : Frisket) (v : Word) : Word :=
  if mode = 0 then v else if forcesVolts mode then clampTo f.i v else clampTo f.v v

/-- The value that a write of a word leaves in force. -/
def State.smuAdj (s : State) (h : Nat) (n : LaneId) (off : Nat) (v : Word) : Word :=
  if off = 0x16 then clampLevelTo (s.gi SMU.CFG_MODE n) (s.clampBy h n) v
  else if off = 0x17 then clampLimitTo (s.gi SMU.CFG_MODE n) (s.clampBy h n) v else v

/-- STAT.FRISKET_CLAMP: a value in force is clamped. -/
def State.showClamp (s : State) (n : LaneId) : State :=
  s.put SMU.STAT_FRISKET_CLAMP n (b2n ((s.smu n).clampLevel || (s.smu n).clampLimit))

/-- What the SMU reports of an accepted write of LEVEL or LIMIT: LAST_REQ, FRISKET_CLAMP, FRISKET (R234). LAST_REQ holds the value asked
for whether the clamp changed it or not (DEDUCED, log 110). -/
def State.noteClamp (s : State) (n : LaneId) (off : Nat) (v adj : Word) : State :=
  if off = 0x16 then
    let s := ((s.upSmu n fun x => { x with clampLevel := v != adj }).showClamp n).put SMU.LAST_REQ_LEVEL n v.toNat
    if v = adj then s else s.farSmu n 5
  else if off = 0x17 then
    let s := ((s.upSmu n fun x => { x with clampLimit := v != adj }).showClamp n).put SMU.LAST_REQ_LIMIT n v.toNat
    if v = adj then s else s.farSmu n 5
  else s

/-! ### Auto-zero against foreground (R247) -/

/-- Foreground begins: an unforced, ungranted auto-zero run is abandoned. -/
def State.azForeground (s : State) (n : LaneId) : State :=
  if s.on SMU.STAT_AZ_RUNNING n && !(s.smu n).azForced && !(s.smu n).azGranted then
    (s.put SMU.STAT_AZ_RUNNING n 0).bump SMU.AZ_DEFERS n else s

/-! ### States (R229, R240) -/

/-- PG_STAT.STOPPED: RUN is 0, the HV state is OFF and the LV output switch is open (R229). -/
def State.smuStopped (s : State) (n : LaneId) : State :=
  s.setStopped (.lane n .smu) (!s.run (.lane n .smu) && s.g SMU.STAT_STATE n == 0 && !(s.smu n).lvOn)

/-- Change the HV state, which PG_STAT copies (R240). RAMP begins from the setpoint as it stands, RAMP_DOWN goes at RATE, and where nothing
drives the output the setpoint is 0. -/
def State.setHv (s : State) (n : LaneId) (st : Nat) : State :=
  let s := s.upSmu n fun x =>
    let sp : Int := if 2 ≤ st ∧ st ≤ 4 then x.setpoint else 0
    { x with since := s.clock, setpoint := sp, ramp := sp, slewFast := if st = 3 then x.slewFast else false, measAt := s.clock }
  ((s.put SMU.STAT_STATE n st).setPgStat (.lane n .smu) st).smuStopped n

/-- Ticks of the 200 MHz clock in one millisecond and in one 10 µs sample (R242). -/
def msTicks : Nat := 200000
def sampleTicks : Nat := 2000

/-- Flags of RES_STAT that come from what is in progress on the sense amplifiers: BACKGROUND_PREEMPTED, RANGE_CHANGE, AUTOZERO (R228,
R248). -/
def State.senseFlags (s : State) (n : LaneId) : Nat :=
  16 * b2n (s.on SMU.STAT_AZ_RUNNING n && (s.smu n).azForced) + 64 * b2n (s.smu n).rangeChange + 128 * s.g SMU.STAT_AZ_RUNNING n

/-- A result measurement starts or restarts (R230). -/
def State.measure (s : State) (n : LaneId) : State :=
  let s := s.azForeground n
  s.upSmu n fun x => { x with measuring := true, measFlags := s.senseFlags n, measAt := s.clock }

/-- A result is being averaged: an LV measurement; in IR the last min(MEAS_MS, DWELL_MS) of the dwell, or all of a dwell that holds; in
HIPOT the dwell (R230). -/
def State.averaging (s : State) (n : LaneId) : Bool :=
  let dw := s.g SMU.DWELL_MS n
  ((s.smu n).lvOn && (s.smu n).measuring)
    || (s.g SMU.STAT_STATE n == 3
        && (s.g SMU.CFG_MODE n == 9 || dw == 0
            || decide ((s.smu n).since + dw * msTicks ≤ s.clock + min (s.g SMU.MEAS_MS n) dw * msTicks)))

/-- A result that is being averaged carries these flags. -/
def State.flagResult (s : State) (n : LaneId) (bits : Nat) : State :=
  if s.averaging n then s.upSmu n fun x => { x with measFlags := x.measFlags ||| bits } else s

/-- An LV mode is running. -/
def State.lvRuns (s : State) (n : LaneId) : Bool := (s.smu n).lvOn

/-- A cycle that ends with a cause other than 0 or 10 gives VERDICT ABORTED with VALID = 0, and no result (R230). -/
def State.abortResult (s : State) (n : LaneId) (cause : Nat) : State :=
  if cause = 0 ∨ cause = 10 then s
  else ((s.put SMU.RES_STAT_VALID n 0).put SMU.RES_STAT_VERDICT n 3).upSmu n fun x => { x with resultDue := false }

/-- The driving of a cycle ends now, in the HV state it stands in. -/
def State.markEnd (s : State) (n : LaneId) : State := s.upSmu n fun x => { x with ended := some (s.clock, s.g SMU.STAT_STATE n) }

/-- The HV state in which a cycle that ended in this same 10 µs sample stood; 0 where none did. -/
def State.endedNow (s : State) (n : LaneId) : Nat :=
  match (s.smu n).ended with
  | some (t, st) => if t / sampleTicks = s.clock / sampleTicks then st else 0
  | none => 0

/-- The cycle ends through DISCHARGE with a cause (R241). Of the causes that one 10 µs sample detects, the lowest is recorded; a cycle that
a STOP or its dwell ended has no cause to keep (R242). -/
def State.endCycle (s : State) (n : LaneId) (cause : Nat) : State :=
  if s.inCycle n then (((s.markEnd n).put SMU.STAT_CAUSE n cause).setHv n 5).abortResult n cause
  else if s.g SMU.STAT_STATE n == 5 && s.endedNow n != 0 && cause != 0 && (s.g SMU.STAT_CAUSE n == 0 || decide (cause < s.g SMU.STAT_CAUSE n))
  then (s.put SMU.STAT_CAUSE n cause).abortResult n cause
  else s

/-- The flags that hold now, in the order of RES_STAT.FLAGS. -/
def State.smuFlagsNow (s : State) (n : LaneId) : Nat :=
  s.g SMU.STAT_COMPLIANCE n + 2 * s.g SMU.STAT_POWER_LIMIT n + 4 * s.g SMU.STAT_FRISKET_CLAMP n + 8 * s.g SMU.STAT_CAL_EXPIRED n
    + s.senseFlags n

/-- A dwell is over, and a result of IR or HIPOT falls due with the flags that hold at its end (R230; log 106). -/
def State.dwellEnds (s : State) (n : LaneId) : State :=
  let s := s.markEnd n
  s.upSmu n fun x => { x with resultDue := s.g SMU.CFG_MODE n == 9 || (s.g SMU.CFG_MODE n == 8 && s.g SMU.DWELL_MS n != 0),
                              measFlags := x.measFlags ||| s.smuFlagsNow n }

/-- STOP: through RAMP_DOWN, from ARMING through DISCHARGE (R241); `cause` is 0, or 13 at an engine reset (R58). -/
def State.hvStop (s : State) (n : LaneId) (cause : Nat) : State :=
  let st := s.g SMU.STAT_STATE n
  if st = 1 then s.endCycle n cause
  else if st = 2 ∨ st = 3 then
    let s := s.markEnd n
    ((s.put SMU.STAT_CAUSE n cause).setHv n 4).abortResult n cause
  else s

/-- The effect of START on the far side: from OFF into ARMING with the starter's frisket (R236, R239); a held HV-off ends it at once
with the hardware cause. -/
def State.hvStart (s : State) (n : LaneId) (h : Nat) : State :=
  if s.g SMU.STAT_STATE n ≠ 0 then s
  else
    let f := s.frisket h n
    let s := ((s.put SMU.F_VMAX n f.v.toNat).put SMU.F_IMAX n f.i.toNat).put SMU.F_EMAX n f.e.toNat
    let s := (s.put SMU.E_USED n 0).upSmu n fun x =>
      { x with starter := some h, energy := 0, arcs := 0, inArc := false, maxI := 0, resultDue := false, tripped := false, measFlags := 0, ended := none }
    let s := (s.bump SMU.HV_CYCLES n).setHv n 1
    if s.on LANE.ILK_HW_OFF n then s.endCycle n (s.hwCause n) else s

/-- The effect of a CMD word on the far side (R243). -/
def State.smuCmd (s : State) (n : LaneId) (h : Nat) (v : Word) : State :=
  let s := if bitAt v 2 then s.endCycle n 8 else if bitAt v 1 then s.hvStop n 0 else if bitAt v 0 then s.hvStart n h else s
  let s := if bitAt v 3 && s.lvRuns n then s.measure n else s
  if bitAt v 4 && s.on SMU.STAT_AZ_DUE n && !s.on SMU.STAT_AZ_RUNNING n then
    ((s.put SMU.STAT_AZ_RUNNING n 1).upSmu n fun x => { x with azGranted := true, azForced := false, azFrom := s.clock }).flagResult n 0x80
  else s

/-- RUN falls: the LV output switch opens, an HV cycle is stopped (R229). -/
def State.smuRunOff (s : State) (n : LaneId) : State :=
  let s := s.setRun (.lane n .smu) false
  let s := s.upSmu n fun x => { x with lvOn := false, measuring := false }
  (s.hvStop n 0).smuStopped n

/-- RUN rises: an LV mode closes its switch and a measurement starts; an HV mode is enabled. -/
def State.smuRunOn (s : State) (n : LaneId) : State :=
  let s := s.setRun (.lane n .smu) true
  let m := s.g SMU.CFG_MODE n
  let s := if 1 ≤ m ∧ m ≤ 5 ∧ s.farRuns n = true then (s.upSmu n fun x => { x with lvOn := true }).measure n else s
  s.smuStopped n

/-- The far side goes safe, or its converter trips: the LV output switch opens (R9, Table: Lane pin states). -/
def State.smuSafe (s : State) (n : LaneId) : State := (s.upSmu n fun x => { x with lvOn := false, measuring := false }).smuStopped n

/-- That state ends: an LV mode that RUN still asks for closes its switch again. -/
def State.smuBack (s : State) (n : LaneId) : State := if s.run (.lane n .smu) then s.smuRunOn n else s

/-! ### Effects of accepted words -/

/-- LEVEL: a running cycle is retargeted, and its dwell starts again; an LV measurement restarts (R230, R243). -/
def smuLevelEff (n : LaneId) (v : Word) (s : State) : State :=
  let s := storeEff (.lane n .smu) 0x16 v 0 s
  let st := s.g SMU.STAT_STATE n
  let s := if st = 3 ∨ st = 2 then s.setHv n 2 else s
  if s.lvRuns n then s.measure n else s

/-- The SMU's range changes now: coarse samples near that instant are not valid (R265). -/
def State.rangeChanged (s : State) (n : LaneId) : State := s.upLane n fun l => { l with rangeFrom := s.laneTime n }

/-- IRANGE: make-before-break, RANGE_CHANGE for 1 ms, an LV measurement restarts (R228, R230). -/
def smuIrangeEff (n : LaneId) (v : Word) (s : State) : State :=
  let changed := s.g SMU.IRANGE n != bitsOf v 2 0
  let s := storeEff (.lane n .smu) 0x15 v 0 s
  let s := if changed then s.rangeChanged n else s
  let s := if changed && (s.lvRuns n || s.inCycle n) then
    (s.upSmu n fun x => { x with rangeChange := true, rangeAt := s.clock }).flagResult n 0x40 else s
  if s.lvRuns n then s.measure n else s

/-- The words that a changing CFG write resets: IRANGE, LEVEL, LIMIT, PASS_LO, PASS_HI (R227). -/
def cfgResets : List Nat := [0x15, 0x16, 0x17, 0x1B, 0x1C]

/-- Reset those words that the press does not write itself, in force. -/
def State.cfgReset (s : State) (n : LaneId) (kept : List Nat) : State :=
  let s := (cfgResets.filter fun o => !kept.contains o).foldl
    (fun s o => s.setWd ((Page.lane n .smu).at_ o) (resetWord ((Page.lane n .smu).at_ o))) s
  (s.upSmu n fun x => { x with clampLevel := x.clampLevel && kept.contains 0x16, clampLimit := x.clampLimit && kept.contains 0x17 }).showClamp n

/-- The same in the near-side image. -/
def State.cfgResetImage (s : State) (n : LaneId) (kept : List Nat) : State :=
  (cfgResets.filter fun o => !kept.contains o).foldl (fun s o =>
    { s with image := sset resetWord s.image ((Page.lane n .smu).at_ o) (resetWord ((Page.lane n .smu).at_ o)) }) s

/-- CFG (R227): `kept` are the words that the same press writes. -/
def smuCfgEff (n : LaneId) (v : Word) (kept : List Nat) (s : State) : State :=
  let old := s.wd ((Page.lane n .smu).at_ 0x14)
  let s := storeEff (.lane n .smu) 0x14 v 0 s
  if s.wd ((Page.lane n .smu).at_ 0x14) = old then s else (s.cfgReset n kept).rangeChanged n

/-- PG_CTL of the SMU page. -/
def smuRunEff (n : LaneId) (v : Word) (s : State) : State :=
  if bitAt v 0 then (if s.run (.lane n .smu) then s else s.smuRunOn n) else (if s.run (.lane n .smu) then s.smuRunOff n else s)

/-- The effect of an accepted word of the SMU page on the far side; `h` is the writer's holder code. -/
def smuEff (h : Nat) (n : LaneId) (off : Nat) (v proof : Word) (kept : List Nat) (s : State) : State :=
  match off with
  | 2 => if bitAt v 30 then s else smuRunEff n v s
  | 0x10 => s.smuCmd n h v
  | 0x14 => smuCfgEff n v kept s
  | 0x15 => smuIrangeEff n v s
  | 0x16 => smuLevelEff n v s
  | o => storeEff (.lane n .smu) o v proof s

/-- One writer's write of one SMU word, with the clamp, its report and the frisket trap. -/
def smuPress (w : Writer) (n : LaneId) (off : Nat) (v proof : Word) (s : State) : State :=
  let p := Page.lane n .smu
  let st := s.staged p off v
  let adj := st.smuAdj w.holder n off v
  let s' := pressAdj w p off v adj proof (smuChk w n off v) (smuEff w.holder n off adj proof []) s
  if !s.writable w p off then s'
  else match s.judge w p off v (smuChk w n off v st) with
  | some c => if c = errFrisket then s'.frisketTrap w n off true else s'
  | none =>
    let s' := s'.noteClamp n off v adj
    let s' := if off = 0x14 ∧ s.imageWd p 0x14 ≠ s'.imageWd p 0x14 then s'.cfgResetImage n [] else s'
    if v = adj then s' else s'.frisketTrap w n off false

def execSmuStart (w : Writer) (n : LaneId) (s : State) : Out := fin (smuPress w n 0x10 0x01 0 s)
def execSmuStop (w : Writer) (n : LaneId) (s : State) : Out := fin (smuPress w n 0x10 0x02 0 s)
def execSmuAbort (w : Writer) (n : LaneId) (s : State) : Out := fin (smuPress w n 0x10 0x04 0 s)
def execSmuMeasure (w : Writer) (n : LaneId) (s : State) : Out := fin (smuPress w n 0x10 0x08 0 s)
def execAzGrant (w : Writer) (n : LaneId) (s : State) : Out := fin (smuPress w n 0x10 0x10 0 s)
def execSmuCfgWrite (w : Writer) (n : LaneId) (v : Word) (s : State) : Out := fin (smuPress w n 0x14 v 0 s)
def execSmuLevelWrite (w : Writer) (n : LaneId) (v : Word) (s : State) : Out := fin (smuPress w n 0x16 v 0 s)
def execSmuIrangeWrite (w : Writer) (n : LaneId) (v : Word) (s : State) : Out := fin (smuPress w n 0x15 v 0 s)
def execSmuRun (w : Writer) (n : LaneId) (v : Word) (s : State) : Out := fin (smuPress w n 2 v 0 s)

/-! ### The HV state machine's own transitions (R241, R246) -/

/-- Enter OFF: HV_DONE, and HV_ABORT if the cause is not 0. -/
def State.hvOff (s : State) (n : LaneId) : State :=
  let s := ((s.setHv n 0).upSmu n fun x => { x with starter := none }).farSmu n 0
  if s.g SMU.STAT_CAUSE n ≠ 0 then s.farSmu n 1 else s

/-- The ticks that the lane's SMU has stood in its HV state. -/
def State.hvFor (s : State) (n : LaneId) : Nat := s.clock - (s.smu n).since

/-- The far side is powered and its SMU has stood in HV state `st` for at least `t` ticks. -/
def State.hvStood (s : State) (n : LaneId) (st t : Nat) : Bool := s.farUp n && s.g SMU.STAT_STATE n == st && decide (t ≤ s.hvFor n)

def execHvArmingComplete (n : LaneId) (s : State) : Out :=
  fin (if s.farUp n && s.g SMU.STAT_STATE n == 1 && !s.on LANE.ILK_HW_OFF n && decide (s.hvFor n ≤ 2 * msTicks)
    then (s.setHv n 2).azForeground n else s)

def execHvArmingTimeout (n : LaneId) (s : State) : Out :=
  fin (if s.hvStood n 1 (2 * msTicks) then s.endCycle n 11 else s)

/-- One volt of the setpoint's unit (R232), and one sample's step at 1 V/s. -/
def spVolt : Nat := 40000 * f32One
def spStep : Nat := f32One

/-- |LEVEL - start| / RATE + 500 ms have passed in RAMP, with RATE as it stands (R241, R243). -/
def State.rampOver (s : State) (n : LaneId) : Bool :=
  let way := (40000 * f32Units (s.fw SMU.LEVEL n) - (s.smu n).ramp).natAbs
  decide (way * 200000000 + 500 * msTicks * (s.g SMU.RATE n * spVolt) ≤ s.hvFor n * (s.g SMU.RATE n * spVolt))

def execRampTimeout (n : LaneId) (s : State) : Out :=
  fin (if s.hvStood n 2 0 && s.rampOver n then s.endCycle n 11 else s)

def execDwellElapsed (n : LaneId) (s : State) : Out :=
  fin (if s.hvStood n 3 (s.g SMU.DWELL_MS n * msTicks) && s.g SMU.DWELL_MS n != 0 then (s.dwellEnds n).hvStop n 0 else s)

/-- R246: DISCHARGE_FAIL, SELFTEST.FAILED bit 4, PHASE = SAFE with the effects of R79. -/
def execDischargeFault (n : LaneId) (s : State) : Out :=
  fin (if s.hvStood n 5 (300 * msTicks) && s.phase n == phReady then ((s.setHv n 6).farSmu n 10).laneFails n 0x10 0x032 else s)

/-! ### The coarse path (R231 to R233, R236, R242, R245) -/

/-- A status bit that the loop's state drives, and its event at each entry. -/
def State.loopBit (s : State) (n : LaneId) (f : Fld) (b : Bool) (ev flag : Nat) : State :=
  let was := s.on f n
  let s := s.put f n (b2n b)
  let s := if b then s.flagResult n flag else s
  if b && !was then s.farSmu n ev else s

/-- CONT: the closure and opening edges (R231). -/
def State.contEdge (s : State) (n : LaneId) (v i stamp : Word) : State :=
  if s.g SMU.CFG_MODE n = 3 ∧ (s.smu n).lvOn = true then
    let r := f32Div v i
    let hi := s.fw SMU.PASS_HI n
    let was := s.on SMU.STAT_CONT_CLOSED n
    let now := if f32Le r hi then true
      else if f32IsInf r || (f32Finite r && decide (5 * f32Units hi < 4 * f32Units r)) then false else was
    if was = now then s
    else (((s.put SMU.STAT_CONT_CLOSED n (b2n now)).put SMU.CONT_RT n stamp.toNat).farSmu n 7)
  else s

/-- The HV state that a coarse sample of current is judged in: one that a cause of the same 10 µs sample ended still counts (R242). -/
def State.sampleState (s : State) (n : LaneId) : Nat :=
  if s.endedNow n ≠ 0 then s.endedNow n else s.g SMU.STAT_STATE n

/-- An excursion above ARC_I in RAMP or DWELL: one arc, and whether it ends the cycle (R245). -/
def State.arcSample (s : State) (n : LaneId) (i : Word) : Bool × State :=
  let st := s.sampleState n
  let s := if f32Le (s.fw SMU.ARC_I n) i then s.upSmu n fun x => { x with arcAt := s.clock } else s
  if s.on SMU.ARC_EN n && (st == 2 || st == 3) && f32Lt (s.fw SMU.ARC_I n) i && !(s.smu n).inArc then
    let s := ((s.bump SMU.ARCS n).upSmu n fun x => { x with inArc := true, arcs := x.arcs + 1 }).farSmu n 6
    if s.g SMU.ARC_LIMIT n < (s.smu n).arcs then (true, s)
    else (false, s.upSmu n fun x => { x with measFlags := x.measFlags ||| 0x20 })
  else (false, s)

/-- E_USED grows by 25 µs of a power while the converter drives (RAMP, DWELL, RAMP_DOWN), rounded to binary32; has it reached F_EMAX (R236;
log 15)? -/
def State.energyAdd (s : State) (n : LaneId) (p : Int) : Bool × State :=
  let st := s.g SMU.STAT_STATE n
  if 2 ≤ st ∧ st ≤ 4 ∧ 0 < p then
    let e := (s.smu n).energy + p.toNat
    let s := (s.upSmu n fun x => { x with energy := e }).put SMU.E_USED n (f32Round false e (40000 * f32One)).toNat
    (decide (f32Mag (s.fw SMU.F_EMAX n) * (40000 * f32One) ≤ e) && f32Finite (s.fw SMU.F_EMAX n), s)
  else (false, s)

/-- The energy of one valid coarse sample. -/
def State.energySample (s : State) (n : LaneId) (v i : Word) : Bool × State :=
  let p : Int := if f32Finite v = true ∧ f32Finite i = true then f32Units v * f32Units i else 0
  (s.upSmu n fun x => { x with lastPower := p }).energyAdd n p

/-- Ticks of one coarse block (R265). -/
def coarseTicks : Nat := 5000

/-- The state is DWELL, or the dwell ended within the coarse block that ends now. -/
def State.dwelt (s : State) (n : LaneId) : Bool :=
  s.g SMU.STAT_STATE n == 3
    || (match (s.smu n).ended with | some (t, st) => st == 3 && s.g SMU.STAT_STATE n != 0 && decide (s.clock < t + coarseTicks) | none => false)

/-- HIPOT in DWELL: the highest current, and the trip (R227, R242). -/
def State.hipotSample (s : State) (n : LaneId) (i : Word) : Bool × State :=
  if s.g SMU.CFG_MODE n = 9 ∧ s.dwelt n = true then
    let s := s.upSmu n fun x => { x with maxI := f32Max x.maxI i }
    (f32Lt (s.fw SMU.PASS_HI n) i, s)
  else (false, s)

/-- Coarse V within ±(0.1 % + 0.5 V) of LEVEL (R241). -/
def atLevel (v lvl : Word) : Bool :=
  f32Finite v && f32Finite lvl
    && decide (1000 * (f32Units v - f32Units lvl).natAbs ≤ (f32Units lvl).natAbs + 500 * f32One)

/-- DWELL is entered: HIPOT's highest current is that of this dwell (R227, R243). -/
def State.enterDwell (s : State) (n : LaneId) : State := (s.upSmu n fun x => { x with maxI := 0 }).setHv n 3

/-- The trip of HIPOT, with VERDICT FAIL: cause 10, which stands above the 0 of a dwell that ended in the same block (R242). -/
def State.hipotTrips (s : State) (n : LaneId) : State :=
  (s.upSmu n fun x => { x with tripped := true, resultDue := true }).endCycle n 10

/-- Coarse V below 30 V. -/
def below30 (v : Word) : Bool := f32Lt v volts30

/-- The loop drives the output: an LV mode's switch is closed, or the HV state is RAMP to RAMP_DOWN. -/
def State.driving (s : State) (n : LaneId) : Bool :=
  (s.smu n).lvOn || (decide (2 ≤ s.g SMU.STAT_STATE n) && decide (s.g SMU.STAT_STATE n ≤ 4))

/-- A value held at a magnitude, keeping the sign. -/
def holdAt (m v : Word) : Word := if f32Lt m (f32Abs v) then m ||| (v &&& 0x80000000) else v

/-- 2.0 W over a voltage: the current that R233 leaves. -/
def wattsOver (v : Word) : Word := f32Div 0x40000000 (f32Abs v)

/-- A voltage and a current whose product is at or above 2.0 W (R36, R233). -/
def atPower (v i : Word) : Bool :=
  f32Finite v && f32Finite i && decide (2 * f32One * f32One ≤ f32Mag (f32Abs v) * f32Mag (f32Abs i))

/-- Where the loop holds the output for a load that would take `v` and `i`: the current at LIMIT where a voltage is forced, the voltage at
LIMIT where a current is forced (R232), and the current at 2.0 W over the voltage (R233); whether it holds at LIMIT, and at 2.0 W. -/
def State.loop (s : State) (n : LaneId) (v i : Word) : Word × Word × Bool × Bool :=
  if s.driving n then
    let c := s.smuForce n
    let lim := c.actingLimit
    let forced := forcesVolts c.mode
    let held := f32Le lim (f32Abs (if forced then i else v))
    let v := if forced then v else holdAt lim v
    let i := if forced then holdAt lim i else i
    let full := atPower v i
    (v, if full then holdAt (wattsOver v) i else i, held, full)
  else (v, i, false, false)

/-- The setpoint of the HV range moves one coarse sample's way: toward LEVEL in RAMP and DWELL, not while compliance holds it in RAMP
(R232), toward 0 in RAMP_DOWN; at RATE, or at 2,000 V/s after a lowered frisket (R237). -/
def State.slewSetpoint (s : State) (n : LaneId) (held : Bool) : State :=
  let st := s.g SMU.STAT_STATE n
  if st = 2 ∨ st = 3 ∨ st = 4 then
    let goal : Int := if st = 4 then 0 else 40000 * f32Units (s.fw SMU.LEVEL n)
    s.upSmu n fun x =>
      let step : Int := ((if x.slewFast then 2000 else s.g SMU.RATE n) * spStep : Nat)
      let sp := if st = 2 ∧ held = true then x.setpoint
        else if x.setpoint < goal then min goal (x.setpoint + step) else max goal (x.setpoint - step)
      { x with setpoint := sp, slewFast := x.slewFast && sp != goal }
  else s

/-- What one coarse sample of V and I does; `comp` and `plim` say whether the loop holds at LIMIT and at 2.0 W in it. -/
def State.coarse (s : State) (n : LaneId) (v i stamp : Word) (comp plim : Bool) : State :=
  let s := (s.slewSetpoint n comp).loopBit n SMU.STAT_COMPLIANCE comp 3 0x01
  let s := s.loopBit n SMU.STAT_POWER_LIMIT plim 4 0x02
  let s := s.contEdge n v i stamp
  let (arc, s) := s.arcSample n i
  let (full, s) := s.energySample n v i
  let (trip, s) := s.hipotSample n i
  if arc then s.endCycle n 9
  else if trip then (s.dwellEnds n).hipotTrips n
  else if full then (s.farSmu n 5).endCycle n 12
  else match s.g SMU.STAT_STATE n with
    | 2 => if atLevel v (s.fw SMU.LEVEL n) then s.enterDwell n else s
    | 4 => if below30 v then s.setHv n 5 else s
    | 5 => if below30 v then s.hvOff n else s
    | _ => s

def execArcExcursionEnd (n : LaneId) (s : State) : Out :=
  fin (if s.farUp n && decide ((s.smu n).arcAt + 10 * sampleTicks ≤ s.clock) then s.upSmu n fun x => { x with inArc := false } else s)

def execRangeChangeEnd (n : LaneId) (s : State) : Out :=
  fin (if s.farUp n && decide ((s.smu n).rangeAt + msTicks ≤ s.clock) then s.upSmu n fun x => { x with rangeChange := false } else s)

/-! ### Results (R230) -/

/-- The verdict: 0 none, 1 PASS, 2 FAIL. -/
def State.verdict (s : State) (n : LaneId) (v r : Word) : Nat :=
  let lo := s.fw SMU.PASS_LO n
  let hi := s.fw SMU.PASS_HI n
  let pf : Bool → Nat := fun b => if b then 1 else 2
  match s.g SMU.CFG_MODE n with
  | 3 => pf (f32Le r hi)
  | 4 => pf (f32Le lo r && f32Le r hi)
  | 5 => pf (f32Le lo v && f32Le v hi)
  | 8 => pf (f32Le lo r)
  | 9 => pf (!(s.smu n).tripped)
  | _ => 0

/-- Ticks from the trigger of an LV measurement to its result: SETTLE_MS + MEAS_MS, for both phases with OFFSET_COMP (R227, R230). -/
def State.measTicks (s : State) (n : LaneId) : Nat :=
  (s.g SMU.SETTLE_MS n + s.g SMU.MEAS_MS n) * msTicks * (if s.g SMU.CFG_MODE n = 4 ∧ s.on SMU.CFG_OFFSET_COMP n = true then 2 else 1)

/-- May a result be produced: an LV measurement whose time has passed; a due result of IR or HIPOT, once the coarse block in which the dwell
ended is over; or IR that holds with DWELL_MS 0, every MEAS_MS (R230)? -/
def State.resultReady (s : State) (n : LaneId) : Bool :=
  let x := s.smu n
  (x.lvOn && x.measuring && decide (x.measAt + s.measTicks n ≤ s.clock)) || (x.resultDue && !s.dwelt n)
    || (s.g SMU.CFG_MODE n == 8 && s.g SMU.STAT_STATE n == 3 && s.g SMU.DWELL_MS n == 0
        && decide (x.measAt + s.g SMU.MEAS_MS n * msTicks ≤ s.clock))

/-- FLAGS of a result: those gathered, those that hold now unless the dwell's end took them, and CAL_EXPIRED (R249). -/
def State.resultFlags (s : State) (n : LaneId) : Nat :=
  ((s.smu n).measFlags ||| (if (s.smu n).resultDue then 8 * s.g SMU.STAT_CAL_EXPIRED n else s.smuFlagsNow n)) % 256

/-- A result from the averages of V and I, in RES4W with OFFSET_COMP from those of both phases (R227, R230; log 16). -/
def State.result (s : State) (n : LaneId) (v i v2 i2 stamp : Word) : State :=
  let offc := s.g SMU.CFG_MODE n == 4 && s.on SMU.CFG_OFFSET_COMP n
  let dv := if offc then f32Sub v v2 else v
  let di := if offc then f32Sub i i2 else i
  let r := f32Div dv (if s.g SMU.CFG_MODE n = 9 then (s.smu n).maxI else di)
  let rv := if offc then f32Div dv 0x40000000 else v
  let ri := if s.g SMU.CFG_MODE n = 9 then (s.smu n).maxI else if offc then f32Div di 0x40000000 else i
  let s := ((s.put SMU.RES_V n rv.toNat).put SMU.RES_I n ri.toNat).put SMU.RES_R n r.toNat
  let s := (s.put SMU.RES_RT n stamp.toNat).put SMU.RES_STAT_SEQ n ((s.g SMU.RES_STAT_SEQ n + 1) % 65536)
  let s := (s.put SMU.RES_STAT_VALID n 1).put SMU.RES_STAT_VERDICT n (s.verdict n rv r)
  let s := (s.put SMU.RES_STAT_FLAGS n (s.resultFlags n)).put SMU.RES_STAT_MODE n (s.g SMU.CFG_MODE n)
  (s.upSmu n fun x => { x with measuring := false, resultDue := false, measFlags := 0, measAt := s.clock }).farSmu n 2

def execSmuResult (n : LaneId) (v i v2 i2 stamp : Word) (s : State) : Out :=
  fin (if s.farUp n && s.resultReady n then s.result n v i v2 i2 stamp else s)

/-! ### Auto-zero (R247, R248, R507 to R510) -/

/-- A V or I window of the CHAIN page is open. -/
def State.viWindow (s : State) (n : LaneId) : Bool := s.g CHAIN.WIN n &&& 3 != 0

/-- Nothing of R247's foreground holds. -/
def State.azFree (s : State) (n : LaneId) : Bool :=
  !s.viWindow n && s.g SMU.STAT_STATE n != 2 && s.g SMU.STAT_STATE n != 3 && !(s.smu n).measuring

/-- Would a launch of preset `p` start a cycle, or a measurement: by its action, or in an LV mode that runs by its LEVEL (R230, R251)? -/
def State.stepIsForeground (s : State) (n : LaneId) (p : Nat) : Bool :=
  (hvMode (s.g SMU.CFG_MODE n) && s.g SMU.PRESET_ACTION n p == 1) || s.lvRuns n

/-- An armed impression of the lane that would open a V or I window, start a cycle or start a measurement falls due within 5 ms. -/
def State.azSoon (s : State) (n : LaneId) : Bool :=
  (s.armedIn n.val).any fun x =>
    decide (x.time < s.laneTime n + 5000000)
      && ((impAction x.w2 == 1 && s.stepIsForeground n (bitsOf x.arg 3 0)) || (impAction x.w2 == 3 && bitsOf x.arg 1 0 != 0))

/-- Auto-zero falls due 60 s after the last completed run, or where the far-side temperature `t`, in 0.1 °C, has moved more than 2 °C (R247). -/
def execAzDue (n : LaneId) (t : BitVec 16) (s : State) : Out :=
  fin (if s.farUp n && (decide (60 ≤ s.g SMU.AZ_AGE_S n) || decide (20 < (t.toInt - (s.smu n).azTemp).natAbs))
    then s.put SMU.STAT_AZ_DUE n 1 else s)

def execAzRunStart (n : LaneId) (s : State) : Out :=
  fin (if s.farUp n && s.on SMU.STAT_AZ_DUE n && !s.on SMU.STAT_AZ_RUNNING n && s.azFree n && !s.azSoon n then
    (s.put SMU.STAT_AZ_RUNNING n 1).upSmu n fun x => { x with azForced := false, azGranted := false, azFrom := s.clock } else s)

/-- MOD.BG bit n follows the notices of the lane's units (R510). -/
def State.bgFollow (s : State) (n : LaneId) : State :=
  s.bgLane n ((s.smu n).azNoticed || (s.lane n).usnd.zcNoticed || (s.lane n).line.noticed)

/-- A run of 4 ms completes, at a far-side temperature of `t` (R247). -/
def execAzRunComplete (n : LaneId) (t : BitVec 16) (s : State) : Out :=
  fin (if s.farUp n && s.on SMU.STAT_AZ_RUNNING n && decide ((s.smu n).azFrom + 4 * msTicks ≤ s.clock) then
    let s := s.flagResult n (s.senseFlags n)
    let s := ((s.put SMU.STAT_AZ_RUNNING n 0).put SMU.STAT_AZ_DUE n 0).put SMU.AZ_AGE_S n 0
    let s := (s.put SMU.AZ_OVERDUE_S n 0).upSmu n fun x => { x with azForced := false, azGranted := false, azNoticed := false, azTemp := t.toInt }
    (s.bgFollow n).farSmu n 9
  else s)

/-- Seconds that background work is due before it runs regardless; the notice comes 1 s before (R248, R510). -/
def bgForced : Nat := 600

def execAzNotice (n : LaneId) (s : State) : Out :=
  fin (if s.farUp n && s.on SMU.STAT_AZ_DUE n && decide (bgForced ≤ s.g SMU.AZ_OVERDUE_S n + 1) then
    ((s.upSmu n fun x => { x with azNoticed := true }).bgFollow n).farSmu n 8 else s)

def execAzForced (n : LaneId) (s : State) : Out :=
  fin (if s.farUp n && s.on SMU.STAT_AZ_DUE n && !s.on SMU.STAT_AZ_RUNNING n && decide (bgForced ≤ s.g SMU.AZ_OVERDUE_S n) then
    let s := (s.put SMU.STAT_AZ_RUNNING n 1).upSmu n fun x => { x with azForced := true, azGranted := false, azFrom := s.clock }
    (s.flagResult n 0x90).bump SMU.AZ_PREEMPTS n
  else s)

/-- One second passes for the lane's auto-zero: its age, and while the lane is READY its overdue time and deferrals (R247, R507; log
17). -/
def State.azSecond (s : State) (n : LaneId) : State :=
  let s := s.bump SMU.AZ_AGE_S n
  if s.on SMU.STAT_AZ_DUE n && s.phase n == phReady then (s.bump SMU.AZ_OVERDUE_S n).bump SMU.AZ_DEFERS n else s

/-! ### Slug flags (R252) -/

/-- Bits [7:2] of the flags byte of a V or I slug. -/
def State.smuSlugFlags (s : State) (n : LaneId) : Nat :=
  4 * b2n (s.on SMU.STAT_COMPLIANCE n || s.on SMU.STAT_POWER_LIMIT n) + 8 * s.g SMU.STAT_FRISKET_CLAMP n
    + 16 * s.g SMU.STAT_CAL_EXPIRED n + 32 * s.g SMU.STAT_AZ_RUNNING n
    + 64 * b2n (s.on SMU.STAT_AZ_RUNNING n && (s.smu n).azForced) + 128 * b2n (s.smu n).rangeChange

/-! ### Presets and the SMU launches (R205, R251) -/

/-- The configuration that preset `p` would leave, before the clamp. -/
def State.presetCfg (s : State) (n : LaneId) (p : Nat) : SmuCfg :=
  let c := s.smuForce n
  let r := s.g SMU.PRESET_RATE n p
  { c with level := s.fw SMU.PRESET_LEVEL n p, limit := s.fw SMU.PRESET_LIMIT n p, irange := s.g SMU.PRESET_IRANGE n p,
           dwell := s.g SMU.PRESET_DWELL_MS n p, rate := if r = 0 then c.rate else r }

/-- R228 for a whole configuration. -/
def SmuCfg.ok (c : SmuCfg) : Bool :=
  c.levelOk && c.limitOk && c.irangeOk && decide (1 ≤ c.rate) && decide (c.rate ≤ 2000) && decide (c.dwell ≤ 3600000)

/-- A launch applies preset `p` as one write by the poster `h`; any refusal refuses the whole step. -/
def State.smuStep (s : State) (n : LaneId) (h p : Nat) : Option Nat × State :=
  let c := s.presetCfg n p
  let f := s.clampBy h n
  let lv := clampLevelTo c.mode f c.level
  let lm := clampLimitTo c.mode f c.limit
  let act := s.g SMU.PRESET_ACTION n p
  let refusal : Option Nat :=
    if !c.ok then some errRange
    else if act = 1 then
      (if s.phase n = phSafe then some errAbsent
       else match s.startChk n { c with limit := lm } with | some x => some x | none => s.friskChk h n)
    else if act = 3 then (if measureOk c then none else some errRange)
    else none
  match refusal with
  | some x => (some x, s)
  | none =>
    let s := (s.put SMU.DWELL_MS n c.dwell).put SMU.RATE n c.rate
    let s := (s.put SMU.LIMIT n lm.toNat).noteClamp n 0x17 c.limit lm
    let s := if s.g SMU.IRANGE n = c.irange then s else smuIrangeEff n (BitVec.ofNat 32 c.irange) s
    let s := (smuLevelEff n lv s).noteClamp n 0x16 c.level lv
    (none, if act = 1 then s.smuCmd n h 1 else if act = 2 then s.smuCmd n h 2 else if act = 3 then s.smuCmd n h 8 else s)

def execSmuStep (n : LaneId) (s : State) : Out :=
  fin (if s.farUp n then s.launchNext n.val 1 (fun x s => s.smuStep n x.poster (bitsOf x.arg 3 0)) else s)

/-- SMU_OFF acts as a write of RUN = 0 (R205). -/
def execSmuOff (n : LaneId) (s : State) : Out :=
  fin (if s.farUp n then s.launchNext n.val 2 (fun _ s => (none, smuRunEff n 0 s)) else s)

/-! ### The frisket of a cycle in progress (R237) -/

/-- The starter's frisket on lane n was lowered: the copy and the values in force follow at once, and the output moves to a lowered LEVEL at
2,000 V/s, the HV state as it stands (DESIGN CHOICE for the state, log 119); an exhausted energy ends the cycle. -/
def State.friskLowered (s : State) (h : Nat) (n : LaneId) : State :=
  if s.inCycle n && (s.smu n).starter == some h then
    let f := (s.friskCopy n).min (s.frisket h n)
    let s := ((s.put SMU.F_VMAX n f.v.toNat).put SMU.F_IMAX n f.i.toNat).put SMU.F_EMAX n f.e.toNat
    let m := s.g SMU.CFG_MODE n
    let lv := clampLevelTo m f (s.fw SMU.LEVEL n)
    let lm := clampLimitTo m f (s.fw SMU.LIMIT n)
    let s := (s.upSmu n fun x =>
      { x with clampLevel := x.clampLevel || s.fw SMU.LEVEL n != lv, clampLimit := x.clampLimit || s.fw SMU.LIMIT n != lm,
               slewFast := x.slewFast || s.fw SMU.LEVEL n != lv }).showClamp n
    let s := (s.putBoth SMU.LEVEL n 0 lv.toNat).putBoth SMU.LIMIT n 0 lm.toNat
    if f32Finite f.e && decide (f32Mag f.e * (40000 * f32One) ≤ (s.smu n).energy) then (s.farSmu n 5).endCycle n 12 else s
  else s

/-- The starter's grant ended: the cycle ends with cause FRISKET. -/
def State.friskEnded (s : State) (h : Nat) (n : LaneId) : State :=
  if (s.smu n).starter = some h then s.endCycle n 12 else s

end Sys2Proof.Machine
end

