-- ==== Sys2Proof/Machine/CalRec.lean ====
section
/-! DEFINITION. A lane's calibration record as it governs its samples (spec/18_chase_services.md Table: Calibration record, R469;
spec/10_source_measure.md R250): the record, its entries, and the calibrated value of a converter's integer (R265, R269). -/

namespace Sys2Proof.Machine

/-! ### The record -/

/-- A little-endian number of `k` bytes at an offset of a record as it lies in lane store (R386; log 37). -/
def recNat (r : List Byte) (off k : Nat) : Nat := leNat ((r.drop off).take k)
def recWord (r : List Byte) (off : Nat) : Word := BitVec.ofNat 32 (recNat r off 4)

def recMagic : Nat := 0x43414C33

/-- A record is present with a good CRC. -/
def recValid (r : List Byte) : Bool := r.length == 256 && recNat r 0xFC 4 == crc32 (r.take 0xFC)

/-- Lane n's usable record. -/
def State.calRec (s : State) (n : LaneId) : Option (List Byte) :=
  match s.chase.recs[n] with
  | some r => if recValid r then some r else none
  | none => none

/-- Gain and offset of entry k. -/
def recEntry (r : List Byte) (k : Nat) : Word × Word := (recWord r (0x20 + 8 * k), recWord r (0x24 + 8 * k))

/-! ### Calibrated values -/

/-- What a converter's full scale stands for, in parts of `den`: the value at -1, 0 and +1 of full scale are `mid - span`, `mid` and
`mid + span`. -/
structure Scale where
  span : Nat
  mid : Nat
  den : Nat
  deriving DecidableEq, Repr

/-- Full scale of the LV and HV ranges of V (text before R226). -/
def voltScale (vrange : Nat) : Scale := if vrange = 0 then ⟨30, 0, 1⟩ else ⟨1000, 0, 1⟩
/-- Full scale of a current range (Table: SMU ranges and accuracy). -/
def ampScale (vrange irange : Nat) : Scale :=
  if vrange = 0 then ⟨2, 0, 10 ^ (irange + 1)⟩ else ⟨2, 0, 10 ^ (irange + 3)⟩
/-- Full scale of an AUX input (Table: AUX inputs). -/
def auxScale : Nat → Scale
  | 0 => ⟨5, 0, 4⟩ | 1 => ⟨10, 0, 1⟩ | 2 => ⟨10, 0, 1⟩ | 3 => ⟨5, 0, 1⟩ | _ => ⟨100, 50, 1⟩

/-- The scale of chain c of a lane now, the entry of its calibration record, and the range or input. -/
def State.chainScale (s : State) (n : LaneId) (c : Nat) : Scale × Nat × Nat :=
  let vr := s.g SMU.CFG_VRANGE n
  let ir := s.g SMU.IRANGE n
  let aux := s.g CHAIN.AUX_SEL n
  match c with
  | 0 => (voltScale vr, 11 + 2 * vr, vr)
  | 1 => (ampScale vr ir, 5 * vr + ir, 5 * vr + ir)
  | _ => (auxScale aux, 14 + aux, aux)

/-- The calibrated value of the integer `x` where 2^full stands for full scale, as binary32: gain times the nominal value, plus offset, exact
and rounded once (DEDUCED, log 117). -/
def calibrated (sc : Scale) (gain offset : Word) (full : Nat) (x : Int) : Word :=
  let num := ((sc.mid : Int) * 2 ^ full + sc.span * x) * f32Units gain + f32Units offset * (2 ^ full * sc.den : Nat)
  f32OfRatio (decide (num < 0)) num.natAbs (2 ^ full * sc.den * f32One)

/-- The calibrated value of an integer of chain c. -/
def State.calValue (s : State) (n : LaneId) (c full : Nat) (x : Int) : Word :=
  let (sc, k, sel) := s.chainScale n c
  match s.calRec n with
  | some r => calibrated sc (recEntry r k).1 (recEntry r k).2 full x
  | none => Config.uncalibrated c (64 * sel + full) x

end Sys2Proof.Machine
end

