-- ==== Sys2Proof/Machine/Chain.lean ====
section
/-! DEFINITION. The filter and decimation chains (spec/11_filter_chains.md R254 to R273), the committed upstream rate (R13, R267, R283,
R318), windows, and the coarse path (R265). -/

namespace Sys2Proof.Machine

def State.chain (s : State) (n : LaneId) (c : Fin 4) : Chain := (s.lane n).chains[c]
def State.upChain (s : State) (n : LaneId) (c : Fin 4) (f : Chain → Chain) : State :=
  s.upLane n fun l => { l with chains := l.chains.set c (f l.chains[c]) }

/-- The four chains in order: V, I, AUX, M. -/
def allChains : List (Fin 4) := [0, 1, 2, 3]

/-- TAP of a chain. -/
def tapFld (c : Nat) : Fld := match c with | 0 => CHAIN.TAP_V | 1 => CHAIN.TAP_I | 2 => CHAIN.TAP_AUX | _ => CHAIN.TAP_M
/-- SWAP_RT of a chain. -/
def swapRtFld (c : Nat) : Fld := match c with | 0 => CHAIN.SWAP_RT_V | 1 => CHAIN.SWAP_RT_I | _ => CHAIN.SWAP_RT_AUX
/-- GROWTH of bank b of a chain. -/
def growthFld (c b : Nat) : Fld :=
  match 2 * c + b with
  | 0 => CHAIN.GROWTH_5 | 1 => CHAIN.GROWTH_4 | 2 => CHAIN.GROWTH_3 | 3 => CHAIN.GROWTH_2 | 4 => CHAIN.GROWTH_1 | _ => CHAIN.GROWTH_0


/-! ### Times (R215, R256, R266), in 1/64 ns -/

/-- Spacing of the grid edges. -/
def gridStep : Nat := 3125
/-- Output period of V, I and AUX at tap k. -/
def tapPeriod (k : Nat) : Nat := 100000 * 2 ^ k
/-- Span of V, I and AUX at tap k: 62 modulator samples of the CIC, 22 samples at the input rate of each half-band stage, and 63
periods with the FIR (R256). -/
def tapSpan (k : Nat) (fir : Bool) : Nat := 62 * 2 * gridStep + 22 * 100000 * (2 ^ k - 1) + if fir then 63 * tapPeriod k else 0

/-- The first whole multiple of 100 µs after an instant: the next grid edge whose index is a multiple of 2,048 (R266). -/
def nextStart (t : Nat) : Nat := (t / 100000 + 1) * 100000 * 64

/-- The first instant after `t` of the lattice that starts at `e` with period `p`. -/
def nextOn (e p t : Nat) : Nat := e + ((t - e) / p + 1) * p

/-- The low 32 bits of an instant, rounded down to whole nanoseconds. -/
def stampOf (t : Nat) : Word := BitVec.ofNat 32 (t / 64)

/-! ### Minimum shifts (R258) -/

/-- SHIFT field of stage i. -/
def shiftOf (w i : Nat) : Nat := w / 2 ^ (3 * i) % 8

/-- The stages on a chain's path with their growths, from the tap code, FIR_EN and its bank's growth, DC_EN. -/
def pathStages (c k : Nat) (fir : Bool) (g : Nat) (dc : Bool) : List (Nat × Nat) :=
  let h := (List.range 6).filterMap fun i => if i < k then some (i + 1, 1) else none
  if c = 3 then h else (0, 20) :: h ++ (if fir then [(7, g)] else []) ++ (if dc then [(8, 1)] else [])

/-- The bound b before the first stage. -/
def boundIn (c : Nat) : Nat := if c = 3 then 16 else 12

/-- Minimum shifts in SHIFT format, and whether every stage keeps b at or below 31. -/
def minShifts (c shift : Nat) (stages : List (Nat × Nat)) : Nat × Bool :=
  let r := stages.foldl (fun (a : Int × Nat × Bool) st =>
    let b := a.1 + st.2
    let m := (b - 31).toNat
    let b' := b - shiftOf shift st.1
    (b', a.2.1 + m * 2 ^ (3 * st.1), a.2.2 && decide (b' ≤ 31))) (((boundIn c : Nat) : Int), 0, true)
  r.2

/-- A configuration of chain c, read through `rd` (the values in force, or the near-side image). -/
def chainMin (rd : Fld → Nat → Nat) (c : Nat) (swapped : Bool) : Nat × Bool :=
  let bank := if swapped then 1 - rd CHAIN.FILT_BANK c else rd CHAIN.FILT_BANK c
  minShifts c (rd CHAIN.SHIFT c)
    (pathStages c (rd (tapFld c) 0) (rd CHAIN.FILT_FIR_EN c != 0) (rd (growthFld c bank) 0) (rd CHAIN.FILT_DC_EN c != 0))

def State.rdFar (s : State) (n : LaneId) (f : Fld) (i : Nat) : Nat := s.g f n i
/-- The near-side image; GROWTH follows from the image's coefficients. -/
def State.rdNear (s : State) (n : LaneId) (f : Fld) (i : Nat) : Nat := s.gi f n i

/-! ### Coefficients (R261, R262) -/

/-- A coefficient word as an integer of 22 fraction bits. -/
def coefOf (w : Word) : Int := signedOf 24 w.toNat

/-- Growth of a bank of 64 coefficients: the smallest g with the sum of magnitudes at most 2^(22 + g). -/
def growthOf (cs : List Int) : Nat :=
  let t := cs.foldl (fun a c => a + c.natAbs) 0
  ((List.range 8).find? fun g => decide (t ≤ 2 ^ (22 + g))).getD 7

/-- The coefficients of a bank in force. -/
def State.bankFar (s : State) (n : LaneId) (c b : Nat) : List Int :=
  (List.range 64).map fun i => coefOf (s.wd (coefAddr n.val c b i))
/-- The same in the near-side image. -/
def State.bankNear (s : State) (n : LaneId) (c b : Nat) : List Int :=
  (List.range 64).map fun i => coefOf (sget resetWord s.image (coefAddr n.val c b i))

/-- Does chain c meet R258 in the near-side image, with its bank in use or after a swap? -/
def State.chainFits (s : State) (n : LaneId) (c : Nat) (swapped : Bool) : Bool :=
  let bank := if swapped then 1 - s.gi CHAIN.FILT_BANK n c else s.gi CHAIN.FILT_BANK n c
  let g := if c < 3 then growthOf (s.bankNear n c bank) else 0
  (minShifts c (s.gi CHAIN.SHIFT n c)
    (pathStages c (s.gi (tapFld c) n) (decide (c < 3) && s.gi CHAIN.FILT_FIR_EN n c != 0) g
      (decide (c < 3) && s.gi CHAIN.FILT_DC_EN n c != 0))).2

/-- Must chain c meet R258: enabled and in SHIFT mode (R259)? -/
def State.shiftRuled (s : State) (n : LaneId) (c : Nat) : Bool := s.gi CHAIN.EN n / 2 ^ c % 2 == 1 && s.gi CHAIN.SHIFT_SAT n c == 0

/-! ### The committed upstream rate (R13), in 64ths of a slug per second -/

/-- Rate of a stream's rate code in Hz (text before R316). -/
def rateHz (code : Nat) : Nat := 100 * 2 ^ code

/-- Sum over the streaming sources of lane n in the near-side image: enabled chains, the ultrasonic unit while it runs, streams with
GAL (R267, R283, R318; log 19). -/
def State.committed64 (s : State) (n : LaneId) : Nat :=
  let en := s.gi CHAIN.EN n
  let fine := ([0, 1, 2].map fun c => if en / 2 ^ c % 2 = 1 then 640000 * 64 / 2 ^ s.gi (tapFld c) n else 0).foldl (· + ·) 0
  let a := s.gi CHAIN.M_SRC_ADDR n
  let pod := rateHz (if s.gi CHAIN.M_SRC_SET n = 1 then s.gi DUNC.STREAM_RATE_G n a else s.gi DUNC.STREAM_RATE_A n a)
  let m := if en / 8 % 2 = 1 then pod * 64 / 2 ^ s.gi CHAIN.TAP_M n else 0
  let us := if bitAt (s.imageWd (.lane n .usnd) 2) 0 then (if s.gi USND.CAD_CADENCE n = 1 then 640 else 32000) else 0
  let st := ((List.range 24).map fun k =>
    (if s.gi DUNC.STREAM_EN_A n k = 1 ∧ s.gi DUNC.STREAM_GAL_A n k = 1 then 64 * rateHz (s.gi DUNC.STREAM_RATE_A n k) else 0)
      + (if s.gi DUNC.STREAM_EN_G n k = 1 ∧ s.gi DUNC.STREAM_GAL_G n k = 1 then 64 * rateHz (s.gi DUNC.STREAM_RATE_G n k) else 0)).foldl (· + ·) 0
  fine + m + us + st

/-- LANE.RATE. -/
def State.committed (s : State) (n : LaneId) : Nat := s.committed64 n / 64

/-- Is the committed rate above R13's limit? -/
def State.overRate (s : State) (n : LaneId) : Bool := decide (488281 * 64 < s.committed64 n)

/-! ### The checks of a CHAIN word -/

/-- The chains that a word of the page belongs to, for R259. -/
def minShiftChains (old new : State) (n : LaneId) (off : Nat) : List Nat :=
  (List.range 4).filter fun c =>
    if off = 2 then true
    else if off = 0x10 then old.gi CHAIN.EN n / 2 ^ c % 2 != new.gi CHAIN.EN n / 2 ^ c % 2
    else if off = 0x11 then old.gi (tapFld c) n != new.gi (tapFld c) n
    else if off = 0x14 + 4 * c ∨ off = 0x15 + 4 * c then old.imageWd (.lane n .chain) off != new.imageWd (.lane n .chain) off
    else if 0x80 ≤ off then c == new.gi CHAIN.COEF_SEL_CHAIN n && new.gi CHAIN.COEF_SEL_BANK n == new.gi CHAIN.FILT_BANK n c
    else false

/-- Does the word raise a chain's rate (R267)? -/
def chainRaises (old new : State) (n : LaneId) (off : Nat) : Bool :=
  if off = 0x10 then (List.range 4).any fun c => old.gi CHAIN.EN n / 2 ^ c % 2 == 0 && new.gi CHAIN.EN n / 2 ^ c % 2 == 1
  else if off = 0x11 then (List.range 4).any fun c => decide (new.gi (tapFld c) n < old.gi (tapFld c) n)
  else false

/-- The downstream items of lane n that the far side has not carried out: waiting, on their way, or held until their press is whole (R24). -/
def State.downItems (s : State) (n : LaneId) : List Item :=
  let k := (s.lane n).link
  ((k.near.queue ++ k.near.unacked.map fun e => (e.id, e.item)).filter fun e => !k.far.taken.contains e.1).map (·.2) ++ k.farHold

/-- An item that carries a SWAP of chain c of lane n. -/
def Item.isSwap (n : LaneId) (c : Nat) : Item → Bool
  | .write _ _ x _ _ => x.page == .lane n .chain && x.off == 0x24 && bitAt x.v c
  | _ => false

/-- A SWAP of chain c is pending, on the far side or on its way there (R263). -/
def State.swapPends (s : State) (n : LaneId) (c : Nat) : Bool :=
  s.on CHAIN.STAT_SWAP_PENDING n c || (s.downItems n).any (Item.isSwap n c)

/-- A SWAP of chain c: in SWAP mode, running, none pending (R263). -/
def State.swapOk (s : State) (n : LaneId) (c : Nat) : Bool :=
  s.gi CHAIN.FILT_LOAD n c == 1 && s.on CHAIN.STAT_RUNNING n c && !s.swapPends n c

/-- The range rules of one CHAIN word, in the state that the press would leave. -/
def chainRange (n : LaneId) (off : Nat) (v : Word) (s : State) : Bool :=
  let tap7 := (List.range 4).any fun c => s.gi (tapFld c) n == 7
  if off = 0x11 then tap7
  else if off = 0x12 then decide (4 < bitsOf v 2 0)
  else if off = 0x13 then decide (23 < bitsOf v 4 0)
  else if off = 0x20 then bitsOf v 2 0 != 0 || bitsOf v 26 21 != 0
  else if off = 0x15 ∨ off = 0x19 ∨ off = 0x1D then decide (bitsOf v 25 16 < 1) || decide (1000 < bitsOf v 25 16)
  else if off = 0x24 then (List.range 3).any fun c => bitAt v c && !s.swapOk n c
  else if off = 0x25 then bitsOf v 1 0 == 3
  else if 0x80 ≤ off then bitsOf v 31 24 != (if bitAt v 23 then 0xFF else 0)
  else false

/-- A changed coefficient word that may not change now (R262). -/
def coefStopped (old new : State) (n : LaneId) (off : Nat) : Bool :=
  let c := new.gi CHAIN.COEF_SEL_CHAIN n
  0x80 ≤ off && old.imageWd (.lane n .chain) off != new.imageWd (.lane n .chain) off && !old.stopped (.lane n .chain)
    && (new.gi CHAIN.FILT_LOAD n c == 0 || new.gi CHAIN.COEF_SEL_BANK n == new.gi CHAIN.FILT_BANK n c || new.swapPends n c)

/-- The checks of a CHAIN word beyond R5: STOPPED_ONLY of a coefficient, RANGE, R13, then those of the far side, then MINSHIFT
(R259). `old` is the state before the press, `s` the one it would leave. -/
def chainChk (old : State) (n : LaneId) (off : Nat) (v : Word) (s : State) : Option Nat :=
  if coefStopped old s n off then some errStopped
  else if chainRange n off v s then some errRange
  else if chainRaises old s n off && s.overRate n then some errRange
  else match old.farCheck (.lane n .chain) off v with
    | some c => some c
    | none =>
      let starts := off != 2 || (bitAt v 0 && !bitAt v 30 && !bitAt (old.imageWd (.lane n .chain) 2) 0)
      if starts && (minShiftChains old s n off).any (fun c => s.shiftRuled n c && !s.chainFits n c false) then some errMinshift
      else if off == 0x24 && (List.range 3).any (fun c => bitAt v c && s.gi CHAIN.SHIFT_SAT n c == 0 && !s.chainFits n c true)
      then some errMinshift
      else none

/-! ### Running (R266, R270) -/

/-- Should chain c's fine path run? -/
def State.chainWanted (s : State) (n : LaneId) (c : Nat) : Bool := s.run (.lane n .chain) && s.g CHAIN.EN n / 2 ^ c % 2 == 1

/-- PG_STAT of the page: [3:0] the fine paths running, STOPPED. -/
def State.chainStat (s : State) (n : LaneId) : State :=
  let m := (List.range 4).foldl (fun a c => a + s.g CHAIN.STAT_RUNNING n c * 2 ^ c) 0
  let s := s.setPgStat (.lane n .chain) m
  s.setStopped (.lane n .chain) (!s.run (.lane n .chain) && m == 0)

/-- A running chain is to restart on the next edge whose index is a multiple of 2,048. -/
def State.chainDue (s : State) (n : LaneId) (c : Fin 4) : State := s.upChain n c fun x => { x with due := some (nextStart (s.laneTime n)) }

/-- Fine paths follow RUN and EN: a new one is due to restart, one no longer wanted stops. -/
def State.chainFollow (s : State) (n : LaneId) : State :=
  State.chainStat (allChains.foldl (fun s (c : Fin 4) =>
    if s.chainWanted n c then (if s.on CHAIN.STAT_RUNNING n c || (s.chain n c).due.isSome then s else s.chainDue n c)
    else ((s.p CHAIN.STAT_RUNNING n c 0).p CHAIN.STAT_SETTLING n c 0).upChain n c fun x => { x with due := none }) s) n

/-- Is chain c's window open? -/
def State.winOpen (s : State) (n : LaneId) (c : Nat) : Bool := s.g CHAIN.WIN n / 2 ^ c % 2 == 1

/-- Was chain c's window open at an instant (R268)? -/
def State.winAt (s : State) (n : LaneId) (c : Fin 4) (t : Nat) : Bool :=
  match (s.chain n c).wins.find? fun e => decide (e.1 ≤ t) with
  | some e => e.2
  | none => false

/-- Change WIN at an instant: WINDOW at each change of a bit (R268), and the opening of a V or I window is foreground (R247). -/
def State.setWin (s : State) (n : LaneId) (m at_ : Nat) : State :=
  let old := s.g CHAIN.WIN n
  if old = m then s
  else
    let s := allChains.foldl (fun s (c : Fin 4) => if (old ^^^ m).testBit c then
      (s.upChain n c fun x => { x with wins := (at_, m.testBit c) :: x.wins }).farChain n 4 else s) (s.put CHAIN.WIN n m)
    if (m &&& 3) &&& (15 - old) != 0 then s.azForeground n else s

/-- Changes of the window that no later output can ask for are forgotten. -/
def Chain.pruneWins (x : Chain) (t : Nat) : Chain :=
  { x with wins := x.wins.takeWhile (fun e => decide (t < e.1)) ++ (x.wins.dropWhile fun e => decide (t < e.1)).take 1 }

/-- Chain c restarts on the grid edge at `e` (1/64 ns): every state clears, RESTART, and a folio goes before the first slug if the window is
open (R270). -/
def State.chainRestart (s : State) (n : LaneId) (c : Fin 4) (e : Nat) : State :=
  let freeze := decide (c.val < 3) && s.on CHAIN.FILT_FREEZE n c
  let k := s.g (tapFld c) n
  let st := stampOf e
  let s := s.upChain n c fun x =>
    { x with due := none, edge := e, inputs := 0, last := if c.val = 3 then 0 else e, since := if c.val = 3 then 0 else e, tap := k, settleTo := 0,
             hist := [], half := halfEmpty, delay := [], mean := if freeze then x.mean else 0, loadMean := true, lost := false,
             podIn := x.podIn.filter fun y => decide (0 < signedOf 32 (y.stamp - st).toNat), folio := s.winAt n c e }
  let s := (s.p CHAIN.STAT_RUNNING n c 1).p CHAIN.STAT_SETTLING n c 1
  (((s.put CHAIN.RESTART_RT n st.toNat).bump CHAIN.RESTARTS n).farChain n 3).chainStat n

/-- Lane time in 1/64 ns. -/
def State.laneFine (s : State) (n : LaneId) : Nat := 64 * s.laneTime n

/-- A restart that is due comes about on its edge (R266, R270, R271). -/
def execChainRestart (n : LaneId) (c : Fin 4) (s : State) : Out :=
  fin (match (s.chain n c).due with
    | some e => if s.farRuns n && s.chainWanted n c && decide (e ≤ s.laneFine n) then s.chainRestart n c e else s
    | none => s)

/-- A restart on the edge on which the chain has just restarted acts once (R270). -/
def State.restartOnce (s : State) (n : LaneId) (c : Fin 4) (e : Nat) : State :=
  let x := s.chain n c
  if x.edge = e ∧ x.inputs = 0 ∧ x.due = none then s else s.chainRestart n c e

/-- Every running chain of the lane is due to restart: after a step, after a relock (R215, R270). -/
def State.chainsDue (s : State) (n : LaneId) : State :=
  allChains.foldl (fun s (c : Fin 4) => if s.on CHAIN.STAT_RUNNING n c then s.chainDue n c else s) s

/-! ### Stage arithmetic (R258, R260) -/

/-- Shift right and round to the nearest, ties toward plus infinity. -/
def roundShift (x : Int) (k : Nat) : Int := if k = 0 then x else (x + 2 ^ (k - 1)) / 2 ^ k

/-- A stage's result, and whether SAT clamped it. -/
def stage (sat : Bool) (x : Int) (k : Nat) : Int × Bool :=
  let r := roundShift x k
  if clampInt 32 r = r then (r, false) else if sat then (clampInt 32 r, true) else (Config.stageWide r, false)

/-- The sum of products of coefficients and a line of inputs, both newest first. -/
def firSum : List Int → List Int → Int
  | h :: hs, x :: xs => h * x + firSum hs xs
  | _, _ => 0

/-- The bits of stages that clamped, from the stage results of a path that begins at stage i. -/
def clampBits (i : Nat) : List (Int × Bool) → Nat
  | [] => 0
  | r :: rs => (if r.2 then 2 ^ i else 0) + clampBits (i + 1) rs

/-! ### The CIC (R254, R255) -/

/-- One boxcar of 32 through a list of coefficients. -/
def boxcar (l : List Int) : List Int :=
  (List.range (l.length + 31)).map fun i => ((List.range 32).map fun j => if j ≤ i then (l[i - j]?).getD 0 else 0).foldl (· + ·) 0

/-- The impulse response of the sinc⁴ CIC that decimates by 32: four boxcars, 125 samples. -/
def cicTaps : List Int := boxcar (boxcar (boxcar (boxcar [1])))

/-- What a modulator's bit enters a chain as. -/
def modSample (b : Bool) : Int := if b then 2048 else -2048

/-- The CIC's inputs after 32 more modulator bits, of which bit `at_` of `bits` is the first. -/
def cicFeed (hist : List Int) (bits at_ : Nat) : List Int :=
  (((List.range 32).map fun i => modSample (bits.testBit (at_ + (31 - i)))) ++ hist).take 125

/-! ### The half-band stages (R255) -/

/-- One value `v` enters stage i as its input number `cnt` since the restart: every stage that it reaches computes, on each second input of
its own. The new lines, and the results from stage i on. -/
def halves (sat : Bool) (shift : Nat) : Nat → List (List Int) → Nat → Int → List (List Int) × List (Int × Bool)
  | _, [], _, _ => ([], [])
  | i, d :: ds, cnt, v =>
    let d := (v :: d).take 23
    if cnt % 2 = 0 then
      let y := stage sat (Config.halfBand d) (24 + shiftOf shift i)
      let r := halves sat shift (i + 1) ds (cnt / 2) y.1
      (d :: r.1, y :: r.2)
    else (d :: ds, [])

/-- The last result of a path, or the value that entered it. -/
def lastOf (v : Int) (rs : List (Int × Bool)) : Int := (rs.getLast?.map (·.1)).getD v

/-- The next output of C enters the half-band stages of a chain at tap k: the chain, the value at the tap, the stages that clamped. -/
def Chain.fineStep (sat : Bool) (shift k bits : Nat) (a : Chain × Int × Nat) (j : Nat) : Chain × Int × Nat :=
  let hist := cicFeed a.1.hist bits (32 * j)
  let y := stage sat (firSum cicTaps hist) (shiftOf shift 0)
  let h := halves sat shift 1 a.1.half[0] (a.1.inputs + 1) y.1
  let rs := h.2.take k
  ({ a.1 with hist := hist, half := a.1.half.set 0 h.1, inputs := a.1.inputs + 1 }, lastOf y.1 rs, a.2.2 ||| clampBits 0 (y :: rs))

/-- The modulator bits of `m` outputs of C pass through C and the half-band stages. -/
def Chain.fine (x : Chain) (sat : Bool) (shift k bits m : Nat) : Chain × Int × Nat :=
  (List.range m).foldl (Chain.fineStep sat shift k bits) (x, 0, 0)

/-- STICKY bits set; the first from zero on the page raises SAT (R260). -/
def State.setSticky (s : State) (n : LaneId) (c m : Nat) : State :=
  if m = 0 then s
  else
    let clear := (List.range 4).all fun i => s.g CHAIN.STICKY n i == 0
    let s := s.setW1c CHAIN.STICKY n c m
    if clear then s.farChain n 0 else s

/-- Net shift in front of the DC block. -/
def netShift (shift k : Nat) (fir : Bool) : Int :=
  (((List.range (k + 1)).map fun i => (shiftOf shift i : Int)).foldl (· + ·) 0) + if fir then (shiftOf shift 7 : Int) else 0

/-! ### The output of V, I and AUX (R256, R257, R261, R263, R264, R269) -/

/-- The instant of the next output and its tap code (R256, R271). -/
def State.nextOutput (s : State) (n : LaneId) (c : Fin 4) : Nat × Nat :=
  let x := s.chain n c
  let k := s.g (tapFld c) n
  let o := nextOn x.edge (tapPeriod x.tap) x.last
  if k = x.tap then (o, k)
  else
    let w := nextOn x.edge (tapPeriod k) (max x.last x.since)
    if w ≤ o then (w, k) else (o, x.tap)

/-- The tap of a running chain changes at the instant `t` of its first output at tap k. -/
def State.tapSwitch (s : State) (n : LaneId) (c : Fin 4) (t k : Nat) : State :=
  let x := s.chain n c
  if k = x.tap then s
  else
    let fir := s.on CHAIN.FILT_FIR_EN n c
    let sh := s.g CHAIN.SHIFT n c
    let d := netShift sh k fir - netShift sh x.tap fir
    s.upChain n c fun x =>
      { x with tap := k, delay := [], settleTo := if fir then t + 63 * tapPeriod k else x.settleTo,
               mean := if 0 ≤ d then roundShift x.mean d.toNat else x.mean * 2 ^ (-d).toNat }

/-- A pending SWAP completes at an output boundary (R263). -/
def State.swapAt (s : State) (n : LaneId) (c : Fin 4) (stamp : Word) : State :=
  if s.on CHAIN.STAT_SWAP_PENDING n c then
    let s := (s.p CHAIN.FILT_BANK n c (1 - s.g CHAIN.FILT_BANK n c)).p CHAIN.STAT_SWAP_PENDING n c 0
    (s.put (swapRtFld c) n stamp.toNat).farChain n 2
  else s

/-- The first output without SETTLING (R257). -/
def State.settled (s : State) (n : LaneId) (c : Nat) (settling : Bool) : State :=
  if !settling && s.on CHAIN.STAT_SETTLING n c then (s.p CHAIN.STAT_SETTLING n c 0).farChain n 1
  else if settling then s.p CHAIN.STAT_SETTLING n c 1 else s

/-- The estimate of the DC block after a sample (R264): m + α(x - m), to 2^-32 (log 18). -/
def dcStep (alpha x m : Int) : Int := m + roundShift (alpha * (x * 2 ^ 32 - m)) 32

/-- A slug of chain c's output at instant `t`, if the window admits it, with the folio of a restart before it (R268, R270). -/
def State.chainSlug (s : State) (n : LaneId) (c : Fin 4) (t flags : Nat) (stamp p0 p1 : Word) : State :=
  let x := s.chain n c
  let s' := if s.winAt n c t then
      let e := x.edge
      let s := if x.folio then s.pushSlug n (folioMark 2 (c.val + 1) (stampOf e) (BitVec.ofNat 32 (e / 64 / 2 ^ 32))) else s
      (s.upChain n c fun x => { x with folio := false }).slug n (c.val + 1) flags stamp p0 p1
    else s
  s'.upChain n c fun x => x.pruneWins t

/-- One output of V, I or AUX: `bits` are the modulator's bits since the output before it, bit 0 the oldest. -/
def State.chainOut (s : State) (n : LaneId) (c : Fin 4) (bits : Nat) : State :=
  let (t, k) := s.nextOutput n c
  if s.laneFine n < t then s
  else
    let before := (s.chain n c).last
    let s := (s.tapSwitch n c t k).swapAt n c (stampOf t)
    let sat := s.on CHAIN.SHIFT_SAT n c
    let sh := s.g CHAIN.SHIFT n c
    let fir := s.on CHAIN.FILT_FIR_EN n c
    let (x, y, m) := (s.chain n c).fine sat sh k bits ((t - before) / 100000)
    let delay := if fir then (y :: x.delay).take 64 else []
    let (y, cf) := if fir then stage sat (firSum (s.bankFar n c (s.g CHAIN.FILT_BANK n c)) delay) (22 + shiftOf sh 7) else (y, false)
    let m := m + if cf then 2 ^ 7 else 0
    let settling := decide (t < x.edge + tapSpan k fir) || decide (t < x.settleTo)
    let dc := s.on CHAIN.FILT_DC_EN n c
    let hold := s.on CHAIN.FILT_FREEZE n c || m != 0
    let (o, cd) := if dc then stage sat (y * 2 ^ 32 - x.mean) (32 + shiftOf sh 8) else (y, false)
    let loads := dc && !settling && x.loadMean
    let mean := if !dc || hold then x.mean else if loads then y * 2 ^ 32 else dcStep (Config.dcAlpha (s.g CHAIN.FILT_CORNER n c) k) y x.mean
    let m := m + if cd then 2 ^ 8 else 0
    let s := s.upChain n c fun _ => { x with last := t, delay := delay, mean := mean, loadMean := x.loadMean && settling }
    let s := (s.setSticky n c m).settled n c settling
    let flags := b2n (m != 0) + 2 * b2n settling + if c.val < 2 then s.smuSlugFlags n else 0
    let net := (netShift sh k fir).toNat + if dc then shiftOf sh 8 else 0
    s.chainSlug n c t flags (stampOf t) (BitVec.ofInt 32 o) (s.calValue n c 31 (o * 2 ^ net))

/-! ### The output of M (R255 to R257, R269, R340) -/

/-- One axis of an M output (R269): shifted right by OUT_SHIFT and clamped to 16 bits. -/
def mAxis (outShift : Nat) (y : Int) : Int × Nat :=
  let z := y / 2 ^ outShift
  (clampInt 16 z, if clampInt 16 z = z then 0 else 2 ^ 9)

/-- One pod record enters M's half-band stages at tap k on all three axes: the chain, its values at the tap, the stages that clamped. -/
def Chain.mStep (sat : Bool) (shift k : Nat) (a : Chain × (Int × Int × Int) × Nat) (r : PodSample) : Chain × (Int × Int × Int) × Nat :=
  let hx := halves sat shift 1 a.1.half[0] (a.1.inputs + 1) r.x
  let hy := halves sat shift 1 a.1.half[1] (a.1.inputs + 1) r.y
  let hz := halves sat shift 1 a.1.half[2] (a.1.inputs + 1) r.z
  let bits := clampBits 1 (hx.2.take k) ||| clampBits 1 (hy.2.take k) ||| clampBits 1 (hz.2.take k)
  ({ a.1 with half := #v[hx.1, hy.1, hz.1], inputs := a.1.inputs + 1 },
   (lastOf r.x (hx.2.take k), lastOf r.y (hy.2.take k), lastOf r.z (hz.2.take k)), a.2.2 ||| bits)

/-- The flags that an M slug takes from the pod samples behind it. -/
def mFlags (used : List PodSample) (last : PodSample) : Nat :=
  4 * (last.flags % 2) + 8 * b2n (used.any fun p => p.flags / 2 % 2 == 1) + 16 * (last.flags / 8 % 2) + 32 * (last.flags / 4 % 2)

/-- The first multiple of 2^k after `c`. -/
def nextCount (k c : Nat) : Nat := (c / 2 ^ k + 1) * 2 ^ k

/-- How many inputs since the restart M's next output completes, and its tap code: outputs stay on the lattice of the restart, and a new TAP
takes over at its own first instant after the apply (R271). -/
def State.mNext (s : State) (n : LaneId) : Nat × Nat :=
  let x := s.chain n 3
  let k := s.g CHAIN.TAP_M n
  let o := nextCount x.tap x.last
  let w := nextCount k (max x.last x.since)
  if k = x.tap then (o, k) else if w ≤ o then (w, k) else (o, x.tap)

/-- The instant of a 32-bit stamp of the last 4.29 s, in 1/64 ns. -/
def State.stampInstant (s : State) (n : LaneId) (st : Word) : Nat :=
  64 * (s.laneTime n - (BitVec.ofNat 32 (s.laneTime n) - st).toNat)

/-- One output of M from its waiting pod records. -/
def State.mOut (s : State) (n : LaneId) : State :=
  let c : Fin 4 := 3
  let (goal, k) := s.mNext n
  let x := s.chain n c
  let used := x.podIn.take (goal - x.inputs)
  match used.getLast? with
  | none => s
  | some last =>
    if used.length < goal - x.inputs then s
    else
      let sat := s.on CHAIN.SHIFT_SAT n 3
      let os := s.g CHAIN.FILT_OUT_SHIFT n
      let (x, v, m) := used.foldl (Chain.mStep sat (s.g CHAIN.SHIFT n 3) k) (x, (0, 0, 0), 0)
      let s := s.upChain n c fun _ => { x with podIn := x.podIn.drop used.length, last := goal, tap := k }
      let ax := mAxis os v.1
      let ay := mAxis os v.2.1
      let az := mAxis os v.2.2
      let m := m ||| ax.2 ||| ay.2 ||| az.2
      let settling := decide (goal < 22 * (2 ^ k - 1))
      let s := (s.setSticky n 3 m).settled n 3 settling
      let flags := b2n (m != 0) + 2 * b2n settling + mFlags used last
      s.chainSlug n c (s.stampInstant n last.stamp) flags last.stamp (BitVec.ofNat 32 (wrapInt 16 ax.1 * 65536 + wrapInt 16 ay.1))
        (BitVec.ofNat 32 (wrapInt 16 az.1 * 65536 + s.g CHAIN.M_SRC_ADDR n * 256 + s.g CHAIN.M_SRC_SET n * 128))

/-- A record of the pod that M_SRC names. A running chain takes it if it was stamped after the restart edge (R270); a chain whose pod had left
restarts on the last grid edge before it (R272). -/
def State.mTake (s : State) (n : LaneId) (r : PodSample) : State :=
  let t := s.stampInstant n r.stamp
  let s := if (s.chain n 3).lost then s.chainRestart n 3 ((t - 1) / gridStep * gridStep) else s
  if (s.chain n 3).edge < t then s.upChain n 3 fun x => { x with podIn := x.podIn ++ [r] } else s

/-- One output of chain c; for V, I and AUX from the modulator bits since the output before. -/
def execChainOutput (n : LaneId) (c : Fin 4) (bits : Nat) (s : State) : Out :=
  fin (if s.farRuns n && s.on CHAIN.STAT_RUNNING n c then (if c.val = 3 then s.mOut n else s.chainOut n c bits) else s)

/-! ### Register writes -/

/-- The words of GROWTH for the bank that a coefficient write changed (R262). -/
def State.setGrowth (s : State) (n : LaneId) : State :=
  let w := s.selFar (.lane n .chain)
  let c := bitsOf w 1 0
  let b := bitsOf w 4 4
  s.put (growthFld c b) n (growthOf (s.bankFar n c b))

/-- GROWTH of every bank follows the coefficients in force (R262). -/
def State.regrow (s : State) (n : LaneId) : State :=
  (List.range 6).foldl (fun s i => s.put (growthFld (i / 2) (i % 2)) n (growthOf (s.bankFar n (i / 2) (i % 2)))) s

/-- Where a chain that runs begins to look for the first instant of a new tap: now, and for M after the records that have arrived. -/
def State.tapFrom (s : State) (n : LaneId) (c : Fin 4) : Nat :=
  if c.val = 3 then (s.chain n 3).inputs + (s.chain n 3).podIn.length else s.laneFine n

/-- The effect of an accepted CHAIN word on the far side. -/
def chainEff (n : LaneId) (off : Nat) (v proof : Word) (s : State) : State :=
  let p := Page.lane n .chain
  if off = 2 then (if bitAt v 30 then s else (s.setRun p (bitAt v 0)).chainFollow n)
  else if off = 0x10 then
    let win := bitsOf v 11 8
    let s := (s.put CHAIN.EN n (bitsOf v 3 0)).setWin n win (s.laneFine n)
    s.chainFollow n
  else if off = 0x11 then
    let s := storeEff p off v proof s
    allChains.foldl (fun s (c : Fin 4) => if (s.chain n c).tap = s.g (tapFld c) n then s
      else s.upChain n c fun x => { x with since := s.tapFrom n c }) s
  else if off = 0x13 then
    let old := s.wd (p.at_ 0x13)
    let s := storeEff p off v proof s
    if s.wd (p.at_ 0x13) = old then s
    else
      let s := s.upChain n 3 fun x => { x with podIn := [], lost := false }
      if s.on CHAIN.STAT_RUNNING n 3 then s.chainDue n 3 else s
  else if off = 0x24 then (List.range 3).foldl (fun s c => if bitAt v c then s.p CHAIN.STAT_SWAP_PENDING n c 1 else s) s
  else if 0x80 ≤ off then (storeEff p off v proof s).setGrowth n
  else storeEff p off v proof s

/-- What an accepted CHAIN word changes in the near-side image beside its own fields: a SWAP changes FILT.BANK (R263). -/
def State.chainNear (s : State) (n : LaneId) (off : Nat) (v : Word) : State :=
  if off = 0x24 then
    (List.range 3).foldl (fun s c => if bitAt v c then
      let a := CHAIN.FILT_BANK.addr n c
      { s with image := sset resetWord s.image a (sget resetWord s.image a ^^^ 2) } else s) s
  else s

/-- One writer's write of one CHAIN word. -/
def chainPress (w : Writer) (n : LaneId) (off : Nat) (v proof : Word) (s : State) : State :=
  let p := Page.lane n .chain
  let s' := pressOne w p off v proof (chainChk s n off v) (chainEff n off v proof) s
  if s.writable w p off && (s.judge w p off v (chainChk s n off v (s.staged p off v))).isNone then s'.chainNear n off v else s'

/-- RUN (off 2), or EN and WIN (off 0x10). -/
def execChainCtlWrite (w : Writer) (n : LaneId) (ctl : Bool) (v : Word) (s : State) : Out :=
  fin (chainPress w n (if ctl then 0x10 else 2) v 0 s)
def execChainTapWrite (w : Writer) (n : LaneId) (v : Word) (s : State) : Out := fin (chainPress w n 0x11 v 0 s)
def execMSrcWrite (w : Writer) (n : LaneId) (v : Word) (s : State) : Out := fin (chainPress w n 0x13 v 0 s)
def execCoefWrite (w : Writer) (n : LaneId) (i : Fin 64) (v : Word) (s : State) : Out := fin (chainPress w n (0x80 + i.val) v 0 s)
def execCoefSelWrite (w : Writer) (n : LaneId) (v : Word) (s : State) : Out := fin (chainPress w n 0x25 v 0 s)
def execSwap (w : Writer) (n : LaneId) (v : Word) (s : State) : Out := fin (chainPress w n 0x24 v 0 s)

/-! ### Launches (R205, R215, R268) -/

/-- WINDOW_OPEN sets WIN bits at the instant of the launch. -/
def execWindowOpen (n : LaneId) (s : State) : Out :=
  fin (if s.farUp n then s.launchNext n.val 3 (fun x s =>
    (none, s.setWin n (s.g CHAIN.WIN n ||| bitsOf x.arg 3 0) (64 * s.launchAt n x))) else s)

/-- WINDOW_CLOSE clears them. -/
def execWindowClose (n : LaneId) (s : State) : Out :=
  fin (if s.farUp n then s.launchNext n.val 4 (fun x s =>
    (none, s.setWin n (s.g CHAIN.WIN n &&& (15 - bitsOf x.arg 3 0)) (64 * s.launchAt n x))) else s)

/-- The grid edge nearest an instant given in nanoseconds; midway, the later (R215). -/
def gridEdge (t : Nat) : Nat := (2 * 64 * t + gridStep) / (2 * gridStep) * gridStep

/-- SYNC_RESET: every running chain of the mask restarts on one edge (R215, R270). -/
def execSyncReset (n : LaneId) (s : State) : Out :=
  fin (if s.farUp n then s.launchNext n.val 6 (fun x s =>
    (none, allChains.foldl (fun s (c : Fin 4) =>
      if bitAt x.arg c && s.on CHAIN.STAT_RUNNING n c then s.restartOnce n c (gridEdge (s.launchAt n x)) else s) s)) else s)

/-! ### The coarse path (R265) -/

/-- Nanoseconds of a coarse block, and those before it in which a disturbance still shows. -/
def coarseBlock : Nat := 25000
def coarseReach : Nat := 4500

/-- The end of the block that ends now: the last whole multiple of 25 µs of lane time. -/
def State.blockEnd (s : State) (n : LaneId) : Nat := s.laneTime n / coarseBlock * coarseBlock

/-- A block that ends at `e` is valid after a disturbance at `d`: it neither includes it nor begins less than 4.5 µs after it. -/
def blockClear (d e : Nat) : Bool := decide (d + coarseReach + coarseBlock ≤ e)

/-- The coarse path restarts and realigns to the lattice: at lane start and at a step. -/
def State.coarseRestart (s : State) (n : LaneId) : State :=
  let s := s.upLane n fun l => { l with coarseAt := s.laneTime n, coarseFrom := s.laneTime n }
  allChains.foldl (fun s (c : Fin 4) => s.upChain n c fun x => { x with coarse := [] }) s

/-- Sixteen outputs of a chain's coarse CIC: its inputs after them, and their sum. -/
def coarseSum (hist : List Int) (bits : Nat) : List Int × Int :=
  (List.range 16).foldl (fun a j => let h := cicFeed a.1 bits (32 * j); (h, a.2 + firSum cicTaps h)) (hist, 0)

/-- The coarse sample of chain c from the 512 modulator bits of its block: the mean of 16 outputs, of which 2^31 stands for full scale,
calibrated. -/
def State.coarseValue (s : State) (n : LaneId) (c : Fin 4) (bits : Nat) : Word :=
  s.calValue n c 35 (coarseSum (s.chain n c).coarse bits).2

/-- The registers of the coarse path. -/
def State.coarseRegs (s : State) (n : LaneId) (v i a stamp : Word) (valid : BitVec 3) : State :=
  let s := ((s.put CHAIN.COARSE_V n v.toNat).put CHAIN.COARSE_I n i.toNat).put CHAIN.COARSE_AUX n a.toNat
  (s.put CHAIN.COARSE_RT n stamp.toNat).put CHAIN.COARSE_STAT_VALID n valid.toNat

/-- VALID of V, I and AUX of a block that ends at `e`: a change of SMU range disturbs V and I. -/
def State.coarseValid (s : State) (n : LaneId) (e : Nat) : BitVec 3 :=
  let l := s.lane n
  let own := blockClear l.coarseFrom e
  let vi := own && blockClear l.rangeFrom e
  BitVec.ofNat 3 (b2n vi + 2 * b2n vi + 4 * b2n own)

/-- One coarse block ends; `bv`, `bi` and `ba` are the 512 modulator bits that V, I and AUX would give in it, bit 0 the oldest, and the loop
holds what V and I show to LIMIT and to 2.0 W (R232, R233). A block that is not valid for V and I leaves every judgement as it was, and counts energy at
the last power. -/
def execCoarseSample (n : LaneId) (bv bi ba : Nat) (s : State) : Out :=
  let e := s.blockEnd n
  fin (if s.farUp n && s.phase n == phReady && decide ((s.lane n).coarseAt < e) then
    let (v, i, comp, plim) := s.loop n (s.coarseValue n 0 bv) (s.coarseValue n 1 bi)
    let a := s.coarseValue n 2 ba
    let valid := s.coarseValid n e
    let stamp := BitVec.ofNat 32 e
    let s := s.upLane n fun l => { l with coarseAt := e }
    let s := ((s.upChain n 0 fun x => { x with coarse := (coarseSum x.coarse bv).1 }).upChain n 1 fun x =>
      { x with coarse := (coarseSum x.coarse bi).1 }).upChain n 2 fun x => { x with coarse := (coarseSum x.coarse ba).1 }
    let s := s.coarseRegs n v i a stamp valid
    if valid.getLsbD 0 && valid.getLsbD 1 then s.coarse n v i stamp comp plim
    else
      let (full, s) := s.energyAdd n (s.smu n).lastPower
      if full then (s.farSmu n 5).endCycle n 12 else s
  else s)

end Sys2Proof.Machine
end

