-- ==== Sys2Proof/Machine/Usnd.lean ====
section
/-! DEFINITION. The ultrasonic transit-time unit (spec/12_ultrasonic_flow.md R274 to R295). -/

namespace Sys2Proof.Machine

def State.us (s : State) (n : LaneId) : Usnd := (s.lane n).usnd
def State.upUs (s : State) (n : LaneId) (f : Usnd → Usnd) : State := s.upLane n fun l => { l with usnd := f l.usnd }

/-! ### STATE and CADENCE -/

def usStopped : Nat := 0
def usSeeding : Nat := 1
def usValid : Nat := 2
def usHolding : Nat := 3
def usEmpty : Nat := 4
def usFault : Nat := 5

/-- A change of STATE raises STATE_CHANGE (R287); PG_STAT copies it. -/
def State.usState (s : State) (n : LaneId) (st : Nat) : State :=
  if s.g USND.STAT_STATE n = st then s
  else ((s.put USND.STAT_STATE n st).setPgStat (.lane n .usnd) st).farUsnd n 1

/-- Nanoseconds of one millisecond. -/
def nsMs : Nat := 1000000

/-- Period of a cadence: idle 100 ms, flow 2 ms (R281). -/
def cadPeriod (c : Nat) : Nat := if c = 1 then 100 * nsMs else 2 * nsMs

/-- The next instant after `t` at which a cadence pair starts on the lattice from `base`; none in TRIGGERED and where the unit stands. -/
def cadNext (c base t : Nat) : Option Nat := if c = 1 ∨ c = 2 then some (nextOn base (cadPeriod c) (max base t)) else none

/-- A change of the cadence in force raises CADENCE_CHANGE, and the lattice goes on with the new period (R281). -/
def State.usCadence (s : State) (n : LaneId) (c : Nat) : State :=
  if s.g USND.STAT_CADENCE n = c then s
  else
    let s := s.upUs n fun u =>
      { u with offAt := s.laneTime n,
               cadDue := if c = 1 ∨ c = 2 then (if u.cadBase = 0 then u.cadDue else cadNext c u.cadBase (s.laneTime n)) else none }
    (s.put USND.STAT_CADENCE n c).farUsnd n 0

/-- The cadence in force that CAD starts with: AUTO starts in idle cadence. -/
def cadStart (cad : Nat) : Nat := if cad = 0 then 1 else cad

/-- A pair is in progress: from its start to step 6 of Table: Pair timing (R279). -/
def Usnd.busy (u : Usnd) : Bool := u.pair.isSome || u.tail.isSome

/-- PG_STAT.STOPPED: RUN is 0 and no pair in progress (R280). -/
def State.usStop (s : State) (n : LaneId) : State :=
  let idle := !s.run (.lane n .usnd) && !(s.us n).busy
  let s := s.setStopped (.lane n .usnd) idle
  if idle then (s.usState n usStopped).usCadence n 0 else s

/-- Two signed picosecond registers as numbers. -/
def State.psReg (s : State) (n : LaneId) (f : Fld) : Int := signedOf 32 (s.g f n)
def State.putPs (s : State) (n : LaneId) (f : Fld) (i : Int) : State := s.put f n (wrapInt 32 i)

/-- DT_OFF = ZERO_DT + (DT_EL - ZERO_DT_EL) (R289). -/
def State.dtOffSet (s : State) (n : LaneId) : State :=
  s.putPs n USND.DT_OFF (s.psReg n USND.ZERO_DT + (s.psReg n USND.DT_EL - s.psReg n USND.ZERO_DT_EL))

/-! ### Seeding, the true zero's end (R286, R290) -/

/-- Enter SEEDING. -/
def State.seed (s : State) (n : LaneId) : State :=
  (s.upUs n fun u => { u with seeding := true, cand := none, diffRun := 0, onRun := 0 }).usState n usSeeding

/-- Abandon a true zero in progress. -/
def State.zeroFail (s : State) (n : LaneId) : State :=
  if s.on USND.STAT_ZERO_RUNNING n then (s.put USND.STAT_ZERO_RUNNING n 0).farUsnd n 4 else s

/-! ### Starting pairs (R279 to R282, R292) -/

/-- How long a pair lasts, in nanoseconds. -/
def State.pairLen (s : State) (n : LaneId) : Nat := 2 * 1000 * (s.g USND.ECHO_TO n + s.g USND.GAP_US n)

/-- A pair starts at lane time `t`: the words that act for it are those in force now (R280). The lattice of cadence pairs begins with the first
pair after RUN, and goes on from a launched pair that had one skipped (R281, R282). -/
def State.startPair (s : State) (n : LaneId) (t : Nat) (launched : Bool) : State :=
  let u := s.us n
  let c := s.g USND.STAT_CADENCE n
  let p : Pair := ⟨t, c == 2, launched, u.firstForced, s.fw USND.L_M n, s.fw USND.X_M n, s.fw USND.TAU0_NS n,
    s.fw USND.AREA_M2 n, s.fw USND.K n, s.g USND.C_MIN n, s.g USND.C_MAX n, s.g USND.WINDOW n, s.psReg n USND.DT_OFF⟩
  let next := t + s.pairLen n
  let anew := u.cadBase == 0 || u.rebase
  s.upUs n fun u =>
    { u with pair := some p, tail := some next, lastStart := t, earliest := if c = 3 then max next (t + 2 * nsMs) else next, firstForced := false,
             rebase := false, cadBase := if anew then t else u.cadBase, cadDue := if anew then cadNext c t t else u.cadDue }

/-- A cadence pair is skipped and counted (R282, R292). -/
def State.skipPair (s : State) (n : LaneId) : State := s.bump USND.SKIPPED_PAIRS n

/-- The electronic zero that is granted or forced begins; a cadence pair that waits would start within it (R292). -/
def State.zcBegin (s : State) (n : LaneId) : State :=
  let s := if (s.us n).cadWaits then s.skipPair n else s
  (s.put USND.STAT_ZC_RUNNING n 1).upUs n fun u => { u with zcAfter := false, zcForced := true, cadWaits := false, zcFrom := s.laneTime n }

/-- What waits starts once no pair is in progress: the granted or forced electronic zero first; then a launched pair, which skips a
cadence pair that waits; then that cadence pair. -/
def State.usNext (s : State) (n : LaneId) : State :=
  let u := s.us n
  if u.busy then s
  else if !s.run (.lane n .usnd) then (s.upUs n fun u => { u with shotWaits := 0, cadWaits := false, zcAfter := false }).usStop n
  else if u.zcAfter then s.zcBegin n
  else if s.on USND.STAT_ZC_RUNNING n || decide (s.laneTime n < u.earliest) || !s.farRuns n then s
  else
    let t := max u.earliest (min (s.laneTime n) u.zcFrom)
    if u.shotWaits ≠ 0 then
      let s := if u.cadWaits then s.skipPair n else s
      (s.upUs n fun u => { u with shotWaits := u.shotWaits - 1, cadWaits := false, rebase := u.rebase || u.cadWaits }).startPair n t true
    else if u.cadWaits then (s.upUs n fun u => { u with cadWaits := false }).startPair n t false
    else s

/-- Lane time has come to the end of the pair: it is over, a gain that waited takes effect (R276), and what waits starts. -/
def State.usPass (s : State) (n : LaneId) : State :=
  match (s.us n).tail with
  | some e =>
    if e ≤ s.laneTime n ∧ (s.us n).pair = none then
      let s := match (s.us n).gainNext with | some g => s.put USND.RX_GAIN n g | none => s
      (s.upUs n fun u => { u with tail := none, gainNext := none }).usNext n
    else s
  | none => if (s.us n).shotWaits ≠ 0 ∨ (s.us n).cadWaits = true then s.usNext n else s

/-- An electronic zero that is neither granted nor forced nor the first is abandoned for a pair (R291). -/
def State.zcAbandon (s : State) (n : LaneId) : State :=
  if s.on USND.STAT_ZC_RUNNING n then (s.put USND.STAT_ZC_RUNNING n 0).bump USND.ZC_DEFERS n else s

/-- A launched pair (CMD.SHOT or USND_SHOT): at once, or delayed to the end of the pair or electronic zero in progress (R282, R291, R292). -/
def State.usShot (s : State) (n : LaneId) (t : Nat) : State :=
  let s := s.usPass n
  let u := s.us n
  if !s.run (.lane n .usnd) || !s.farRuns n then s
  else if u.busy || (s.on USND.STAT_ZC_RUNNING n && (u.zcInitial || u.zcForced)) || decide (t < u.earliest) || u.shotWaits != 0 then
    ((s.upUs n fun u => { u with shotWaits := u.shotWaits + 1 }).bump USND.LAUNCH_DELAYS n).farUsnd n 8
  else (s.zcAbandon n).startPair n t true

/-- The next instant of the lattice. -/
def State.cadStep (s : State) (n : LaneId) (d : Nat) : State :=
  s.upUs n fun u => { u with cadDue := some (d + cadPeriod (s.g USND.STAT_CADENCE n)) }

/-- A cadence pair falls due at `d`: skipped during a launched pair or a granted or forced electronic zero, delayed by a cadence pair longer
than its period, started otherwise (R281, R282, R292). -/
def State.cadPair (s : State) (n : LaneId) (d : Nat) : State :=
  let u := s.us n
  let lnch := match u.pair with | some p => p.launched | none => false
  let s := s.cadStep n d
  if s.on USND.STAT_ZC_RUNNING n && u.zcForced then s.skipPair n
  else if u.shotWaits != 0 then (s.skipPair n).upUs n fun u => { u with rebase := true }
  else if lnch then
    (s.skipPair n).upUs n fun u => { u with cadBase := u.lastStart, cadDue := cadNext (s.g USND.STAT_CADENCE n) u.lastStart (s.laneTime n) }
  else if u.busy then s.upUs n fun u => { u with cadWaits := true }
  else (s.zcAbandon n).startPair n (max d u.earliest) false

/-- A cadence pair that is due starts, once its instant has come. -/
def execCadencePairStart (n : LaneId) (s : State) : Out :=
  let s' := s.usPass n
  fin (match (s'.us n).cadDue with
    | some d => if s.farRuns n && s.run (.lane n .usnd) && !(s'.us n).zcInitial && decide (d ≤ s.laneTime n) then s'.cadPair n d else s
    | none => s)

def execUsndShot (n : LaneId) (s : State) : Out :=
  fin (if s.farRuns n then s.launchNext n.val 8 (fun x s => (none, s.usShot n (s.launchAt n x))) else s)

/-! ### What the ports do (R274) -/

/-- One of the ports UT_A and UT_B: high-impedance, held at UT_COM through 1 kΩ, driven with a burst, or received on. -/
inductive UtPort where
  | hiZ | held
  | burst (kHz cycles volts : Nat)
  | receive
  deriving DecidableEq, Repr

/-- The drive voltage (R275). -/
def driveVolts (d : Nat) : Nat := if d = 0 then 12 else if d = 1 then 24 else 48

/-- A shot, `d` nanoseconds after its first drive edge: what its transmitting port and its receiving port do. -/
def State.utShot (s : State) (n : LaneId) (d : Nat) : UtPort × UtPort :=
  let f := s.g USND.EXC_FREQ n
  let cyc := s.g USND.EXC_CYCLES n
  if d * f < cyc * nsMs then (.burst f cyc (driveVolts (s.g USND.EXC_DRIVE n)), .held)
  else if s.g USND.DET_BLANK_US n * 1000 ≤ d ∧ d < s.g USND.ECHO_TO n * 1000 then (.held, .receive)
  else (.held, .held)

/-- What UT_A and UT_B do now: a down shot transmits on the upstream transducer, an up shot on the other (R274, R279; Table: Lane pin states).
A burst goes before what the blanking would leave held. -/
def State.utPorts (s : State) (n : LaneId) : UtPort × UtPort :=
  if !s.farRuns n then (.hiZ, .hiZ)
  else
    match (s.us n).pair with
    | none => (.held, .held)
    | some p =>
      let d := s.laneTime n - p.start
      let up := 1000 * (s.g USND.ECHO_TO n + s.g USND.GAP_US n)
      let (tx, rx) := if d < up then s.utShot n d else s.utShot n (d - up)
      let aSends := (decide (d < up)) == !s.on USND.EXC_UPSTREAM n
      if s.laneTime n < p.start then (.held, .held) else if aSends then (tx, rx) else (rx, tx)

/-! ### One shot (R277) -/

/-- Round a ratio to the nearest whole number, ties up (log 21). -/
def roundRatio (num den : Int) : Int := (2 * num + den) / (2 * den)

/-- FREQ in kHz; the period P is 10^9 / FREQ picoseconds (R275). -/
def State.freq (s : State) (n : LaneId) : Nat := s.g USND.EXC_FREQ n

/-- The first wave: the first half-cycle of polarity POL, after receive opens and before ECHO_TO, whose peak exceeds FW_THRESH. -/
def State.firstWave (s : State) (n : LaneId) (x : Shot) : Option HalfCycle :=
  x.halves.find? fun h => h.neg == s.on USND.DET_POL n && decide (s.g USND.DET_FW_THRESH n < h.peak)
    && decide (s.g USND.DET_BLANK_US n * 1000000 ≤ h.at_) && decide (h.at_ < s.g USND.ECHO_TO n * 1000000)

/-- The crossings from crossing 0 on: after the peak, in the direction that leaves it. -/
def crossings (x : Shot) (h : HalfCycle) : List Nat := (x.cross.filter fun c => c.2 == h.neg && decide (h.at_ < c.1)).map (·.1)

/-- The crossings that the TDC stamps. -/
def State.stamped (s : State) (n : LaneId) (x : Shot) (h : HalfCycle) : List Nat :=
  ((crossings x h).drop (s.g USND.DET_ZC_SKIP n)).take (s.g USND.DET_ZC_COUNT n)

/-- The transit value T of stamped crossings in whole picoseconds (log 21). -/
def State.transitOf (s : State) (n : LaneId) (ts : List Nat) : Int :=
  let skip := s.g USND.DET_ZC_SKIP n
  let f : Int := (s.freq n : Int)
  let sum := ((ts.zip (List.range ts.length)).foldl (fun a e => a + (f * (e.1 : Int) - ((e.2 + skip : Nat) : Int) * 1000000000)) 0)
  roundRatio sum (f * (ts.length : Int))

/-- The transit value of a shot, where a first wave and every stamped crossing come within ECHO_TO. -/
def State.transit (s : State) (n : LaneId) (x : Shot) : Option Int :=
  match s.firstWave n x with
  | none => none
  | some h =>
    let ts := s.stamped n x h
    if ts.length = s.g USND.DET_ZC_COUNT n ∧ ts.all (fun t => decide (t ≤ s.g USND.ECHO_TO n * 1000000)) = true then some (s.transitOf n ts) else none

/-- The amplitude of a shot: the first wave's peak. -/
def State.shotAmp (s : State) (n : LaneId) (x : Shot) : Option Nat := (s.firstWave n x).map (·.peak)

/-- The transit value of a shot that is not NO_SIGNAL. -/
def State.signal (s : State) (n : LaneId) (x : Shot) : Option Int :=
  match s.shotAmp n x with
  | some a => if a < s.g USND.ERR_EMPTY_AMP n then none else s.transit n x
  | none => none

/-! ### Checks and flow (R284, R285, R288) -/

/-- The sum check, exact: L / C_MAX <= t_f <= L / C_MIN. -/
def sumOk (p : Pair) (tu td : Int) : Bool :=
  let one : Int := (f32One : Nat)
  let tf := (tu + td) * one - 2000 * f32Units p.tau
  let l := 2000000000000 * f32Units p.lm
  decide (l ≤ (p.cMax : Int) * tf) && decide ((p.cMin : Int) * tf ≤ l)

/-- Is a difference in picoseconds within W = WINDOW / 100 of a period? -/
def within (window freq : Nat) (d : Int) : Bool := decide (d.natAbs * 100 * freq ≤ window * 1000000000)

/-- A quotient as binary32 (log 22). -/
def flowRatio (num den : Int) : Word :=
  if den = 0 then Config.flowByZero num else f32OfRatio (decide (num < 0) != decide (den < 0)) num.natAbs den.natAbs

/-- Q, V, C (R288). -/
def flow (p : Pair) (tu td : Int) : Word × Word × Word :=
  if !(f32Finite p.lm && f32Finite p.xm && f32Finite p.tau && f32Finite p.area && f32Finite p.k) then (f32NaN, f32NaN, f32NaN)
  else
    let one : Int := (f32One : Nat)
    let a := tu * one - 1000 * f32Units p.tau
    let b := td * one - 1000 * f32Units p.tau
    let d := tu - td - p.dtOff
    let l := f32Units p.lm
    let x := f32Units p.xm
    let num := l * l * d * 1000000000000
    let den := 2 * x * a * b
    (flowRatio (f32Units p.k * f32Units p.area * 60000 * num) (one * den), flowRatio (num * one) den,
     flowRatio (l * (a + b) * 1000000000000) (2 * a * b))

/-! ### The end of a pair (R276, R279, R285 to R288, R290, R293) -/

/-- The whole dB by which a target stands above an amplitude, at most 3. -/
def dbAbove (target amp : Nat) : Nat :=
  ((List.range 3).filter fun d => decide (10 ^ (d + 1) * amp ^ 20 ≤ target ^ 20)).length

/-- The move of the gain in dB: toward the value that brings the amplitude to the target, at most 3 dB (R276; log 20). -/
def agcMove (target amp : Nat) : Int :=
  if amp < target then (min 3 (dbAbove target amp + b2n (Config.agcUp target amp)) : Nat)
  else if target < amp then -((min 3 (dbAbove amp target + b2n (Config.agcUp target amp)) : Nat) : Int)
  else 0

/-- AGC after a pair. -/
def State.agc (s : State) (n : LaneId) (amp : Nat) : State :=
  if s.on USND.RX_AGC n then
    let g : Int := (s.g USND.RX_GAIN n : Int) + agcMove (s.g USND.RX_AMP_TARGET n) amp
    let out := decide (g < 0) || decide (60 < g)
    let s' := (s.put USND.RX_GAIN n (if g < 0 then 0 else if 60 < g then 60 else g.toNat)).upUs n fun u => { u with gainOut := out }
    if out && !(s.us n).gainOut then s'.farUsnd n 7 else s'
  else s

/-- A valid pair: references, the last valid values, AUTO's way into flow cadence, the true zero. -/
def State.validPair (s : State) (n : LaneId) (p : Pair) (tu td : Int) (q v c : Word) : State :=
  let s := s.upUs n fun u =>
    { u with seeding := false, cand := none, refDown := td, refUp := tu, lastValid := some (p.start, q, v, c), diffRun := 0, quietRun := 0,
             onRun := if f32Le (s.fw USND.THRESH_ON n) (f32Abs q) then u.onRun + 1 else 0,
             offAt := if f32Lt (s.fw USND.THRESH_OFF n) (f32Abs q) then s.laneTime n else u.offAt }
  let s := s.usState n usValid
  let s := if s.g USND.CAD_CADENCE n = 0 ∧ s.g USND.STAT_CADENCE n = 1 ∧ 3 ≤ (s.us n).onRun then s.usCadence n 2 else s
  if s.on USND.STAT_ZERO_RUNNING n then
    let sum := (s.us n).zeroSum + (tu - td - (s.psReg n USND.DT_EL - s.psReg n USND.ZERO_DT_EL))
    let left := (s.us n).zeroLeft - 1
    let s := s.upUs n fun u => { u with zeroSum := sum, zeroLeft := left }
    if left = 0 then
      let el := s.g USND.DT_EL n
      let s := s.putBoth USND.ZERO_DT n 0 (wrapInt 32 (roundRatio sum (s.us n).zeroN))
      ((s.putBoth USND.ZERO_DT_EL n 0 el).dtOffSet n).put USND.STAT_ZERO_RUNNING n 0 |>.farUsnd n 3
    else s
  else s

/-- An unusable pair during a true zero. -/
def State.zeroBadPair (s : State) (n : LaneId) : State :=
  if s.on USND.STAT_ZERO_RUNNING n then
    let s := s.upUs n fun u => { u with zeroBad := u.zeroBad + 1 }
    if (s.us n).zeroN < 8 * (s.us n).zeroBad then s.zeroFail n else s
  else s

/-- What an unusable pair reports (R287): flags, Q, V, C. -/
def State.unusable (s : State) (n : LaneId) (p : Pair) (noSig : Bool) : (Nat × Word × Word × Word) × State :=
  let u := s.us n
  if noSig && s.on USND.ERR_MODE n && decide (s.g USND.ERR_EMPTY_N n ≤ u.quietRun) then
    ((0x10, 0, 0, f32NaN), s.usState n usEmpty)
  else if u.seeding then ((0, f32NaN, f32NaN, f32NaN), s.usState n usSeeding)
  else
    match u.lastValid with
    | some (t, q, v, c) =>
      if p.start ≤ t + 1000000 * s.g USND.HOLD_MS n then ((8, q, v, c), s.usState n usHolding)
      else ((0, f32NaN, f32NaN, f32NaN), s.usState n usFault)
    | none => ((0, f32NaN, f32NaN, f32NaN), s.usState n usFault)

/-- Δt in units of 2 ps, saturated (R293; log 21). -/
def dtUnits (d : Int) : Nat := wrapInt 16 (clampInt 16 (roundRatio d 2))

/-- C in units of 0.1 m/s (R293). -/
def cUnits (c : Word) : Nat :=
  if f32IsNaN c then 0xFFFF
  else if f32IsInf c then 0xFFFE
  else
    let r := roundRatio (10 * f32Units c) (f32One : Nat)
    if r < 0 then 0 else min r.toNat 0xFFFE

/-- Report a pair: registers and slug. -/
def State.usReport (s : State) (n : LaneId) (p : Pair) (dt : Int) (flags : Nat) (q v c : Word) : State :=
  let st := BitVec.ofNat 32 p.start
  let s := ((s.put USND.Q n q.toNat).put USND.V n v.toNat).put USND.C n c.toNat
  let seq := s.seqOf n 0x30
  let s := ((s.put USND.RES_RT n st.toNat).put USND.RES_SEQ n seq).put USND.RES_FLAGS n flags
  let s := s.slug n 0x30 flags st q (BitVec.ofNat 32 (dtUnits dt * 65536 + cUnits c))
  (s.put USND.STAT_SEQ n (s.seqOf n 0x30)).bump USND.PAIRS n

/-- The verdict on a pair with both signals: 0 valid, 1 REJECTED_DIFF, 2 REJECTED_SUM, 3 a seeding pair. -/
def State.pairKind (s : State) (n : LaneId) (p : Pair) (tu td : Int) : Nat × Option (Int × Int) :=
  let u := s.us n
  let w := within p.window (s.freq n)
  if !sumOk p tu td then (2, none)
  else if u.seeding then
    if w (tu - td - p.dtOff) then
      match u.cand with
      | some (cd, cu) => if w (td - cd) && w (tu - cu) then (0, none) else (3, some (td, tu))
      | none => (3, some (td, tu))
    else (3, none)
  else if w (td - u.refDown) && w (tu - u.refUp) && w (tu - td - p.dtOff) then (0, none) else (1, none)

/-- A pair with a signal in both directions. While the unit seeds, Q is computed and never held (R286). -/
def State.pairSeen (s : State) (n : LaneId) (p : Pair) (tu td : Int) (base : Nat) : State :=
  let dt := tu - td - p.dtOff
  let s := ((s.putPs n USND.T_UP tu).putPs n USND.T_DOWN td).putPs n USND.DT dt
  let (kind, cand) := s.pairKind n p tu td
  let (q, v, c) := flow p tu td
  let s := s.upUs n fun u => { u with quietRun := 0, cand := cand }
  if kind = 0 then (s.validPair n p tu td q v c).usReport n p dt base q v c
  else if kind = 3 then
    let s := (s.zeroBadPair n).usState n usSeeding
    s.usReport n p dt (base + 0x20) q v c
  else
    let seed := b2n (s.us n).seeding * 0x20
    let s := s.upUs n fun u => { u with onRun := 0, diffRun := if kind = 1 then u.diffRun + 1 else 0 }
    let s := (s.bump (if kind = 1 then USND.REJ_DIFF else USND.REJ_SUM) n).zeroBadPair n
    let ((f, q', v', c'), s) := s.unusable n p false
    let (q, v, c) := if seed = 0 then (q', v', c') else (q, v, c)
    let s := s.usReport n p dt (base + kind + f + seed) q v c
    if 4 ≤ (s.us n).diffRun then (s.seed n).farUsnd n 2 else s

/-- The transit value of a shot, free where the shot has none (log 4). -/
def State.someTransit (s : State) (n : LaneId) (x : Shot) : Int × State :=
  match s.transit n x with
  | some t => (t, s)
  | none => let (a, s) := s.fresh; (a.toInt, s)

/-- The amplitude of a shot, free where no first wave came (log 4). -/
def State.someAmp (s : State) (n : LaneId) (x : Shot) : Nat × State :=
  match s.shotAmp n x with
  | some a => (a, s)
  | none => let (a, s) := s.fresh; (a.toNat % 1024, s)

/-- A pair with NO_SIGNAL in either direction. -/
def State.pairQuiet (s : State) (n : LaneId) (p : Pair) (down up : Shot) (base : Nat) : State :=
  let (tu, s) := s.someTransit n up
  let (td, s) := s.someTransit n down
  let dt := tu - td - p.dtOff
  let s := ((s.putPs n USND.T_UP tu).putPs n USND.T_DOWN td).putPs n USND.DT dt
  let seed := b2n (s.us n).seeding * 0x20
  let s := s.upUs n fun u => { u with quietRun := u.quietRun + 1, onRun := 0, cand := none, diffRun := 0 }
  let s := (s.bump USND.NO_SIGNAL n).zeroBadPair n
  let ((f, q, v, c), s) := s.unusable n p true
  s.usReport n p dt (base + 4 + f + seed) q v c

/-- The up receive window ends. -/
def State.pairEnd (s : State) (n : LaneId) (down up : Shot) : State :=
  match (s.us n).pair with
  | none => s
  | some p =>
    let base := b2n p.preempted * 0x40 + b2n p.flow * 0x80
    let (au, s) := s.someAmp n up
    let (ad, s) := s.someAmp n down
    let s := (s.put USND.AMP_UP n au).put USND.AMP_DN n ad
    let s := match s.signal n up, s.signal n down with
      | some tu, some td => s.pairSeen n p tu td base
      | _, _ => s.pairQuiet n p down up base
    ((s.upUs n fun u => { u with pair := none }).agc n (min au ad)).usPass n

/-- Step 4 of Table: Pair timing has come. -/
def State.upWindowOver (s : State) (n : LaneId) : Bool :=
  match (s.us n).tail with
  | some e => decide (e ≤ s.laneTime n + 1000 * s.g USND.GAP_US n)
  | none => false

def execPairEnd (n : LaneId) (down up : Shot) (s : State) : Out := fin (if s.farUp n && s.upWindowOver n then s.pairEnd n down up else s)

/-- 2 s have passed with no valid pair whose |Q| exceeds THRESH_OFF (R281). -/
def execAutoIdleReturn (n : LaneId) (s : State) : Out :=
  fin (if s.farUp n && s.run (.lane n .usnd) && s.g USND.CAD_CADENCE n == 0 && s.g USND.STAT_CADENCE n == 2
      && decide ((s.us n).offAt + 2 * second ≤ s.laneTime n) then
    (s.upUs n fun u => { u with onRun := 0 }).usCadence n 1 else s)

/-! ### The electronic zero (R291, R292, R507, R509) -/

/-- The electronic zero falls due 300 s after the last completed run, or where the far-side temperature `t`, in 0.1 °C, has moved more than
2 °C. -/
def execZcDue (n : LaneId) (t : BitVec 16) (s : State) : Out :=
  fin (if s.farUp n && s.run (.lane n .usnd)
      && (decide (300 ≤ s.g USND.ZC_AGE_S n) || decide (20 < (t.toInt - (s.us n).zcTemp).natAbs)) then s.put USND.STAT_ZC_DUE n 1 else s)

/-- Nothing of R291's foreground holds: no pair in progress or due within 5 ms, no true zero. -/
def State.zcFree (s : State) (n : LaneId) : Bool :=
  let u := s.us n
  !u.busy && u.shotWaits == 0 && !u.cadWaits && !s.on USND.STAT_ZERO_RUNNING n
    && (match u.cadDue with | some d => decide (s.laneTime n + 5 * nsMs ≤ d) | none => true)
    && !((s.armedIn n.val).any fun x => impAction x.w2 == 8 && decide (x.time < s.laneTime n + 5 * nsMs))

def execZcRunStart (n : LaneId) (s : State) : Out :=
  fin (if s.farRuns n && s.run (.lane n .usnd) && s.on USND.STAT_ZC_DUE n && !s.on USND.STAT_ZC_RUNNING n && s.zcFree n then
    (s.put USND.STAT_ZC_RUNNING n 1).upUs n fun u => { u with zcForced := false, zcInitial := false, zcFrom := s.laneTime n } else s)

/-- Nanoseconds of 32 reference pairs (text before R291). -/
def zcRun : Nat := 3200000

/-- A run completes, with the asymmetry that it measured, at a far-side temperature of `t`. The first pair after a start follows it (R280). -/
def execZcRunComplete (n : LaneId) (dtEl : Int) (t : BitVec 16) (s : State) : Out :=
  fin (if s.farUp n && s.on USND.STAT_ZC_RUNNING n && decide ((s.us n).zcFrom + zcRun ≤ s.laneTime n) then
    let s := ((s.putPs n USND.DT_EL dtEl).dtOffSet n).put USND.STAT_ZC_RUNNING n 0
    let s := ((s.put USND.STAT_ZC_DUE n 0).put USND.ZC_AGE_S n 0).put USND.ZC_OVERDUE_S n 0
    let s := s.upUs n fun u =>
      { u with zcInitial := false, zcForced := false, zcNoticed := false, zcTemp := t.toInt, zcFrom := s.laneTime n,
               cadDue := if u.zcInitial && (s.g USND.STAT_CADENCE n == 1 || s.g USND.STAT_CADENCE n == 2) then some (s.laneTime n) else u.cadDue }
    ((s.bgFollow n).farUsnd n 6).usNext n
  else s)

/-- Seconds for which the electronic zero is due before it runs regardless; the notice comes 1 s before (R292). -/
def zcBoundS : Nat := 300

def execZcNotice (n : LaneId) (s : State) : Out :=
  fin (if s.farUp n && s.on USND.STAT_ZC_DUE n && decide (zcBoundS ≤ s.g USND.ZC_OVERDUE_S n + 1) then
    ((s.upUs n fun u => { u with zcNoticed := true }).bgFollow n).farUsnd n 5 else s)

/-- A granted or forced run: at once, or at the end of the pair in progress. -/
def State.zcBound (s : State) (n : LaneId) : State :=
  if s.on USND.STAT_ZC_RUNNING n then s.upUs n fun u => { u with zcForced := true }
  else if (s.us n).busy then s.upUs n fun u => { u with zcAfter := true } else s.zcBegin n

def execZcForced (n : LaneId) (s : State) : Out :=
  fin (if s.farUp n && s.run (.lane n .usnd) && s.on USND.STAT_ZC_DUE n && decide (zcBoundS ≤ s.g USND.ZC_OVERDUE_S n) then
    ((s.bump USND.ZC_PREEMPTS n).upUs n fun u => { u with firstForced := true }).zcBound n else s)

/-- One second passes for the electronic zero (log 17). -/
def State.zcSecond (s : State) (n : LaneId) : State :=
  let s := s.bump USND.ZC_AGE_S n
  if s.on USND.STAT_ZC_DUE n && s.phase n == phReady then (s.bump USND.ZC_OVERDUE_S n).bump USND.ZC_DEFERS n else s

/-! ### Restarts (R294) -/

/-- The far side goes safe, or the converter trips: a pair in progress is discarded, a run of the electronic zero writes nothing. -/
def State.usSafe (s : State) (n : LaneId) : State :=
  let s := (s.put USND.STAT_ZC_RUNNING n 0).upUs n fun u =>
    { u with pair := none, tail := none, shotWaits := 0, cadWaits := false, zcAfter := false, zcForced := false, gainNext := none }
  if s.run (.lane n .usnd) then s else s.usStop n

/-- The unit restarts: SEEDING, AUTO in idle cadence, the electronic zero due, a true zero abandoned. The zero before the first pair after a
start begins again where it was cut short (R280). -/
def State.usRestart (s : State) (n : LaneId) : State :=
  if s.run (.lane n .usnd) then
    let s := ((s.zeroFail n).seed n).put USND.STAT_ZC_DUE n 1
    let s := if (s.us n).zcInitial then s.put USND.STAT_ZC_RUNNING n 1 else s
    let s := s.upUs n fun u => { u with zcFrom := s.laneTime n, earliest := 0 }
    let s := if s.g USND.CAD_CADENCE n = 0 then s.usCadence n 1 else s
    s.upUs n fun u => { u with cadDue := if u.cadBase = 0 then u.cadDue else cadNext (s.g USND.STAT_CADENCE n) u.cadBase (s.laneTime n) }
  else s.usStop n

/-! ### Register writes -/

/-- R280: the geometry with which RUN is refused. -/
def State.usRunBad (s : State) (n : LaneId) : Bool :=
  let lm := s.fwi USND.L_M n
  let xm := s.fwi USND.X_M n
  let tau := s.fwi USND.TAU0_NS n
  let one : Int := (f32One : Nat)
  let f := s.gi USND.EXC_FREQ n
  let cm : Int := (s.gi USND.C_MIN n : Int)
  let z : Int := ((s.gi USND.DET_ZC_SKIP n + s.gi USND.DET_ZC_COUNT n + 1 : Nat) : Int)
  !(f32Lt 0 lm && f32Lt 0 xm && f32Lt 0 (s.fwi USND.AREA_M2 n) && f32Lt xm lm)
    || !(f32Le 0x3F000000 (s.fwi USND.K n) && f32Le (s.fwi USND.K n) 0x3FC00000)
    || !(f32Finite lm && f32Finite tau)
    || !decide (f32Units tau * cm * (f : Int) + 1000000000 * f32Units lm * (f : Int) + z * 1000000 * cm * one
        < 1000 * (s.gi USND.ECHO_TO n : Int) * cm * (f : Int) * one)

/-- The checks of one USND word, on the state that the press would leave. -/
def usndChk (old : State) (n : LaneId) (off : Nat) (v : Word) (s : State) : Option Nat :=
  let bad : Bool := match off with
    | 2 => bitAt v 0 && !bitAt v 30 && !bitAt (old.imageWd (.lane n .usnd) 2) 0 && (s.usRunBad n || s.overRate n)
    | 0x14 => decide (bitsOf v 11 0 < 500) || decide (4000 < bitsOf v 11 0) || decide (bitsOf v 20 16 < 1) || decide (16 < bitsOf v 20 16)
              || bitsOf v 25 24 == 3
    | 0x15 => bitsOf v 25 16 == 0 || decide (60 < bitsOf v 5 0)
    | 0x16 => bitsOf v 21 16 == 0 || decide (32 < bitsOf v 21 16) || bitsOf v 9 0 == 0
    | 0x17 => decide (bitsOf v 26 16 < 50) || decide (1000 < bitsOf v 26 16) || decide (bitsOf v 10 0 < 20) || decide (2000 < bitsOf v 10 0)
    | 0x18 => s.gi USND.CAD_CADENCE n != old.gi USND.CAD_CADENCE n && s.overRate n
    | 0x19 => f32Lt (s.fwi USND.THRESH_ON n) (s.fwi USND.THRESH_OFF n)
    | 0x1A => f32Lt (s.fwi USND.THRESH_ON n) (s.fwi USND.THRESH_OFF n)
    | 0x1B => bitsOf v 7 4 == 0
    | 0x1C => decide (60000 < bitsOf v 15 0)
    | 0x1D => decide (bitsOf v 7 0 < 5) || decide (50 < bitsOf v 7 0)
    | 0x1E => decide (bitsOf v 31 16 ≤ bitsOf v 15 0)
    | 0x25 => decide (bitsOf v 15 0 < 16) || decide (4096 < bitsOf v 15 0)
    | _ => false
  if bad then some errRange else none

/-- The true zero starts, if STATE is VALID (R290). -/
def State.zeroStart (s : State) (n : LaneId) : State :=
  if s.g USND.STAT_STATE n = usValid then
    let z := s.g USND.ZERO_N n
    (s.put USND.STAT_ZERO_RUNNING n 1).upUs n fun u => { u with zeroLeft := z, zeroSum := 0, zeroBad := 0, zeroN := z }
  else (s.put USND.STAT_ZERO_RUNNING n 0).farUsnd n 4

/-- A CMD word: the reseed acts before the zero. -/
def State.usCmd (s : State) (n : LaneId) (v : Word) : State :=
  let s := if bitAt v 3 && s.run (.lane n .usnd) then s.seed n else s
  let s := if bitAt v 2 then s.zeroStart n else s
  let s := if bitAt v 4 && s.on USND.STAT_ZC_DUE n then s.zcBound n else s
  if bitAt v 1 then s.usShot n (s.laneTime n) else s

/-- RUN rises: SEEDING, the cadence of CAD, the electronic zero at once. -/
def State.usStart (s : State) (n : LaneId) : State :=
  let s := s.setRun (.lane n .usnd) true
  let s := (s.seed n).usCadence n (cadStart (s.g USND.CAD_CADENCE n))
  let s := (s.put USND.STAT_ZC_DUE n 1).put USND.STAT_ZC_RUNNING n (b2n (s.farRuns n))
  let f : Usnd → Usnd := fun u =>
    { u with zcInitial := true, zcForced := false, lastValid := none, quietRun := 0, shotWaits := 0, cadWaits := false, cadBase := 0,
             cadDue := none, rebase := false, zcFrom := s.laneTime n }
  (s.upUs n f).usStop n

/-- RUN falls: the true zero is abandoned, no further pair starts. -/
def State.usHalt (s : State) (n : LaneId) : State :=
  let s := ((s.setRun (.lane n .usnd) false).zeroFail n).put USND.STAT_ZC_RUNNING n 0
  let s := s.upUs n fun u =>
    { u with zcInitial := false, zcForced := false, firstForced := false, shotWaits := 0, cadWaits := false, zcAfter := false,
             cadDue := none, cadBase := 0 }
  s.usStop n

/-- A gain that a writer sets while a pair is in progress waits for its end (R276). -/
def State.gainWrite (s : State) (n : LaneId) (v proof : Word) : State :=
  let g := s.g USND.RX_GAIN n
  let s := storeEff (.lane n .usnd) 0x15 v proof s
  if (s.us n).busy then (s.put USND.RX_GAIN n g).upUs n fun u => { u with gainNext := some (bitsOf v 5 0) } else s

/-- The effect of an accepted USND word. -/
def usndEff (n : LaneId) (off : Nat) (v proof : Word) (s : State) : State :=
  let p := Page.lane n .usnd
  if off = 2 then
    if bitAt v 30 then s
    else if bitAt v 0 then (if s.run p then s else s.usStart n) else if s.run p then s.usHalt n else s
  else if off = 0x10 then s.usCmd n v
  else if off = 0x15 then s.gainWrite n v proof
  else if off = 0x18 then
    let old := s.g USND.CAD_CADENCE n
    let s := storeEff p off v proof s
    if s.run p && s.g USND.CAD_CADENCE n != old then (s.upUs n fun u => { u with onRun := 0 }).usCadence n (cadStart (s.g USND.CAD_CADENCE n))
    else s
  else storeEff p off v proof s

/-- One writer's write of one USND word. -/
def usndPress (w : Writer) (n : LaneId) (off : Nat) (v proof : Word) (s : State) : State :=
  pressOne w (.lane n .usnd) off v proof (usndChk s n off v) (usndEff n off v proof) s

def execUsndRun (w : Writer) (n : LaneId) (v : Word) (s : State) : Out := fin (usndPress w n 2 v 0 s)
def execCadenceWrite (w : Writer) (n : LaneId) (v : Word) (s : State) : Out := fin (usndPress w n 0x18 v 0 s)
def execShot (w : Writer) (n : LaneId) (s : State) : Out := fin (usndPress w n 0x10 2 0 s)
def execZero (w : Writer) (n : LaneId) (s : State) : Out := fin (usndPress w n 0x10 4 0 s)
def execReseed (w : Writer) (n : LaneId) (s : State) : Out := fin (usndPress w n 0x10 8 0 s)
def execZcGrant (w : Writer) (n : LaneId) (s : State) : Out := fin (usndPress w n 0x10 0x10 0 s)

end Sys2Proof.Machine
end

