-- ==== Sys2Proof/Machine/Pod.lean ====
section
/-! DEFINITION. The Efana pods (spec/14_efana_pods.md R330 to R353): registers and the checks of a WRITE, the profile, recognisers,
state machines, capture, and their event records. -/

namespace Sys2Proof.Machine

def State.line (s : State) (n : LaneId) : Line := (s.lane n).line
def State.upLine (s : State) (n : LaneId) (f : Line → Line) : State := s.upLane n fun l => { l with line := f l.line }
/-- Pod number p of lane n. -/
def State.pod (s : State) (n : LaneId) (p : Fin 24) : Pod := (s.line n).pods[p]
def State.upPod (s : State) (n : LaneId) (p : Fin 24) (f : Pod → Pod) : State :=
  s.upLine n fun l => { l with pods := l.pods.set p (f l.pods[p]) }

/-! ### Registers (R353) -/

/-- A field of the register map: first address, bytes, lowest and highest value, factory value; signed if `lo` is negative. -/
structure PodFld where
  addr : Nat
  len : Nat
  lo : Int
  hi : Int
  reset : Int
  deriving DecidableEq, Repr

/-- The recogniser parameters (Table: Recogniser parameters). -/
def podParams : List PodFld :=
  [⟨0x20, 1, 0, 3, 3⟩, ⟨0x21, 2, 1, 64000, 1500⟩, ⟨0x23, 1, 1, 50, 4⟩, ⟨0x24, 1, 1, 255, 5⟩, ⟨0x28, 1, 10, 255, 20⟩,
   ⟨0x2A, 2, 11, 2000, 400⟩, ⟨0x2C, 1, 0, 3, 3⟩, ⟨0x2D, 2, 1, 64000, 500⟩, ⟨0x2F, 1, 1, 255, 20⟩, ⟨0x30, 2, 50, 2000, 300⟩,
   ⟨0x32, 2, 10, 1000, 60⟩, ⟨0x34, 1, 3, 90, 30⟩, ⟨0x35, 2, 0, 10000, 100⟩, ⟨0x38, 2, -2000, 2000, 0⟩, ⟨0x3A, 2, -2000, 2000, 0⟩,
   ⟨0x3C, 2, -2000, 2000, 1000⟩, ⟨0x3E, 2, 1, 64000, 8000⟩]

/-- The writable fields outside the window and CTRL (Table: Pod registers). -/
def podFlds : List PodFld :=
  [⟨0x12, 1, 0, 3, 0⟩, ⟨0x13, 1, 0, 63, 0⟩, ⟨0x14, 1, 0, 63, 0⟩, ⟨0x40, 2, 0, 1023, 0x200⟩, ⟨0x42, 1, 0, 63, 0⟩, ⟨0x43, 1, 0, 3, 0⟩,
   ⟨0x48, 1, 0, 15, 0⟩, ⟨0x50, 2, 0, 60000, 0⟩, ⟨0x52, 2, 0, 60000, 0⟩, ⟨0x54, 2, 0, 60000, 0⟩, ⟨0x56, 2, 0, 60000, 0⟩] ++ podParams

/-- The factory value of a register byte. -/
def podReset (a : Nat) : Byte :=
  if a = 0x10 then 0x20 else if a = 0x11 then 0x10
  else match podFlds.find? fun f => decide (f.addr ≤ a) && decide (a < f.addr + f.len) with
    | some f => BitVec.ofNat 8 (wrapInt 16 f.reset / 256 ^ (f.addr + f.len - 1 - a))
    | none => 0

/-- An M6 has a gyroscope (R305). -/
def Pod.m6 (p : Pod) : Bool := p.id.toNat / 2 ^ 56 == 0x36

/-- A stored register byte; G_CFG of an M3 reads 0 (R332). -/
def Pod.byte (p : Pod) (a : Nat) : Nat := if a = 0x11 ∧ p.m6 = false then 0 else (sget podReset p.regs a).toNat
def Pod.setByte (p : Pod) (a v : Nat) : Pod := { p with regs := sset podReset p.regs a (BitVec.ofNat 8 v) }
/-- Two bytes, most significant first. -/
def Pod.half (p : Pod) (a : Nat) : Nat := 256 * p.byte a + p.byte (a + 1)

/-- Range code of the accelerometer, its full scale in mg; the same of the gyroscope in °/s (R330). -/
def Pod.rangeA (p : Pod) : Nat := p.byte 0x10 / 16 % 8
def Pod.rangeG (p : Pod) : Nat := p.byte 0x11 / 16 % 4
def Pod.fs (p : Pod) : Nat := 4000 * 2 ^ p.rangeA
def Pod.fsG (p : Pod) : Nat := 250 * 2 ^ p.rangeG

/-- State m's instruction of a machine (R346); all zero as shipped (log 2). -/
def Pod.instr (p : Pod) (m st : Nat) : Word := sget (fun _ => 0) p.prog (32 * m + st)

/-- The value of a byte as a READ returns it (R349, R353). -/
def Pod.readByte (p : Pod) (a : Nat) : Byte :=
  if a < 8 then BitVec.ofNat 8 (p.id.toNat / 256 ^ (7 - a))
  else if a = 8 then p.fw
  else if a = 9 then BitVec.ofNat 8 (8 * b2n p.saving + 4 * b2n p.gReady + 2 * b2n p.selftestFail + b2n p.profile.isSome)
  else if a = 0x0C then BitVec.ofNat 8 (p.saves / 256)
  else if a = 0x0D then BitVec.ofNat 8 p.saves
  else if a = 0x44 then BitVec.ofNat 8 p.cap.state
  else if a = 0x45 then BitVec.ofNat 8 (p.cap.preValid / 256)
  else if a = 0x46 then BitVec.ofNat 8 p.cap.preValid
  else if a = 0x49 then BitVec.ofNat 8 ((p.sms.zip [1, 2, 4, 8]).foldl (fun r e => r + if e.1.signal then e.2 else 0) 0)
  else if 0x4A ≤ a ∧ a ≤ 0x4D then BitVec.ofNat 8 (p.sms[a - 0x4A]?.getD ⟨0, 0, 0, false⟩).state
  else if a < 0x80 then BitVec.ofNat 8 (p.byte a)
  else
    let bank := p.byte 0x7F
    if bank < 4 then BitVec.ofNat 8 ((p.instr bank ((a - 0x80) / 4)).toNat / 256 ^ (3 - a % 4))
    else if p.cap.state = 3 ∧ 0x10 ≤ bank ∧ bank < 0x40 then
      let j := (bank - 0x10) * 128 + (a - 0x80)
      let e := p.cap.entries[j / 6]?.getD (0, 0, 0)
      let v := if j % 6 < 2 then e.1 else if j % 6 < 4 then e.2.1 else e.2.2
      BitVec.ofNat 8 (wrapInt 16 v / (if j % 2 = 0 then 256 else 1))
    else 0

/-! ### The checks of a WRITE (R333, R334, R343, R346) -/

def podAccepted : Nat := 0
def podRange : Nat := 1
def podConflict : Nat := 2
def podReadOnly : Nat := 3
def podBusy : Nat := 4

/-- Is an instruction word defined, for this kind of pod (R344, R346)? -/
def smWordOk (m6 : Bool) (w : Word) : Bool :=
  let cond := bitsOf w 23 20
  let sel := bitsOf w 19 16
  decide (bitsOf w 26 24 ≤ 6) && decide (cond ≤ 8) && (cond != 7 || m6)
    && (if cond = 1 then decide (sel ≤ 5)
        else if cond = 2 ∨ cond = 3 ∨ cond = 5 ∨ cond = 6 ∨ cond = 7 then decide (sel ≤ 3) else true)

/-- One byte of a WRITE on the state that the bytes before it left: its failure, if any, and the state it leaves. `last` says
that the byte ends its field or the WRITE. -/
def Pod.writeByte (p : Pod) (a v : Nat) (last : Bool) : Nat × Pod :=
  let p' := p.setByte a v
  if a = 0x0A then (if v < 32 then 0 else podRange, p)
  else if a = 0x10 then (if v / 16 ≤ 4 ∧ v % 16 ≤ 6 then 0 else podRange, p')
  else if a = 0x11 then
    if p.m6 then (if v / 16 ≤ 3 ∧ v % 16 ≤ 5 then 0 else podRange, p') else (podConflict, p)
  else if a = 0x7F then (if v < 4 ∨ (0x10 ≤ v ∧ v < 0x40) then 0 else podRange, p')
  else match podFlds.find? fun f => decide (f.addr ≤ a) && decide (a < f.addr + f.len) with
    | some f =>
      if a + 1 < f.addr + f.len ∧ last = false then (0, p')
      else
        let raw := if f.len = 2 then p'.half f.addr else v
        let x : Int := if f.lo < 0 then signedOf 16 raw else (raw : Int)
        (if f.lo ≤ x ∧ x ≤ f.hi then 0 else podRange, p')
    | none => (podReadOnly, p)

/-- The bytes of a WRITE below the window, in rising order: the first failure, and the state left. -/
def Pod.writeBytes : Pod → Nat → List Byte → Nat × Pod
  | p, _, [] => (0, p)
  | p, a, b :: bs =>
    let (c, p') := p.writeByte a b.toNat bs.isEmpty
    if c ≠ 0 then (c, p) else p'.writeBytes (a + 1) bs

/-- Whole words from bytes, most significant first. -/
def wordsOf : List Byte → List Word
  | a :: b :: c :: d :: r => (a ++ b ++ c ++ d : BitVec 32) :: wordsOf r
  | _ => []

/-- A WRITE into the window (R346). -/
def Pod.writeWindow (p : Pod) (a : Nat) (bs : List Byte) : Nat × Pod :=
  let bank := p.byte 0x7F
  if 0x10 ≤ bank then (podReadOnly, p)
  else if a % 4 ≠ 0 ∨ bs.length % 4 ≠ 0 then (podRange, p)
  else if p.byte 0x48 / 2 ^ bank % 2 = 1 then (podConflict, p)
  else
    let ws := wordsOf bs
    if ws.all (smWordOk p.m6) then
      let put (m : Sparse Word) (e : Word × Nat) : Sparse Word := sset (fun _ => 0) m (32 * bank + (a - 0x80) / 4 + e.2) e.1
      (0, { p with prog := (ws.zip (List.range ws.length)).foldl put p.prog })
    else (podRange, p)

/-- Is any threshold of an enabled recogniser, or ABOVE or BELOW argument of an enabled machine, above full scale; or GAP_MAX_MS
not above GAP_MIN_MS (R334, R343)? -/
def Pod.conflicts (p : Pod) : Bool :=
  let en := p.byte 0x13
  let exceeds (i a : Nat) : Bool := en / 2 ^ i % 2 == 1 && decide (p.fs < p.half a)
  exceeds 0 0x21 || exceeds 2 0x2D || exceeds 3 0x30 || exceeds 5 0x3E
    || (List.range 4).any (fun m => p.byte 0x48 / 2 ^ m % 2 == 1 && (List.range 32).any fun st =>
        let w := p.instr m st
        (bitsOf w 23 20 == 2 || bitsOf w 23 20 == 3) && decide (p.fs < bitsOf w 15 0))
    || decide (p.half 0x2A ≤ p.byte 0x28)

/-- What a WRITE comes to: its STATUS, and the pod's registers and programs if it is accepted. A write that runs past the window's
start is checked in two parts. -/
def Pod.tryWrite (p : Pod) (a : Nat) (bs : List Byte) : Nat × Pod :=
  if p.saving then (podBusy, p)
  else
    let lo := bs.take (0x80 - a)
    let hi := bs.drop (0x80 - a)
    let (c, q) := if a < 0x80 then p.writeBytes a lo else (0, p)
    if c ≠ 0 then (c, p)
    else
      let (c, q) := if hi.isEmpty then (0, q) else if 0x80 ≤ a then q.writeWindow a bs else q.writeWindow 0x80 hi
      if c ≠ 0 then (c, p) else if q.conflicts then (podConflict, p) else (0, q)

/-! ### What an applied WRITE does beside its bytes (R335, R337, R341, R345, R348) -/

/-- Discard what waits in a stream queue; it counts in the next LOST. -/
def PodQueue.flush (q : PodQueue α) : PodQueue α := { q with waiting := [], lost := q.lost + q.waiting.length }

/-- The recogniser that a parameter's address belongs to. -/
def recOf (a : Nat) : Option Nat :=
  if 0x20 ≤ a ∧ a < 0x28 then some 0 else if 0x28 ≤ a ∧ a < 0x2C then some 1 else if 0x2C ≤ a ∧ a < 0x30 then some 2
  else if 0x30 ≤ a ∧ a < 0x34 then some 3 else if 0x34 ≤ a ∧ a < 0x3E then some 4 else if 0x3E ≤ a ∧ a < 0x40 then some 5 else none

/-- Return a recogniser to its initial state (R341). -/
def Pod.initRec (p : Pod) (i : Nat) : Pod := { p with recs := p.recs.set i Recog.reset }

/-- Return the capture to IDLE (R348). -/
def Pod.capIdle (p : Pod) : Pod := { p with cap := PodCap.reset }

/-- The bytes that the profile holds: rate fields, STREAM_EN and BANK are not among them (R335). -/
def profileRegs (m : Sparse Byte) : Sparse Byte :=
  (m.filter fun e => e.1 != 0x12 && e.1 != 0x7F).filterMap fun e =>
    let v := if e.1 = 0x10 ∨ e.1 = 0x11 then e.2 &&& 0xF0 else e.2
    if v = podReset e.1 then none else some (e.1, v)

/-- CTRL.SAVE begins (R335). -/
def Pod.save (p : Pod) : Pod := { p with saving := true }

/-- CTRL.DEFAULTS: every profile field at its factory value; rate fields, STREAM_EN and BANK stay. -/
def Pod.defaults (p : Pod) : Pod :=
  let q : Pod := { p with regs := [], prog := [], recs := List.replicate 6 Recog.reset }
  let q := (q.setByte 0x12 (p.byte 0x12)).setByte 0x7F (p.byte 0x7F)
  let q := q.setByte 0x10 (0x20 + p.byte 0x10 % 8)
  let q := if p.m6 then q.setByte 0x11 (0x10 + p.byte 0x11 % 8) else q
  if p.rangeA = q.rangeA then q else { q with qA := q.qA.flush }

/-- CTRL.CAP_ARM, in IDLE (R348). -/
def Pod.arm (p : Pod) : Pod := if p.cap.state = 0 then { p with cap := { PodCap.reset with state := 1 } } else p

/-- CTRL.TILT_REF: g_est into REF (R343). -/
def Pod.tiltRef (p : Pod) : Pod :=
  let put (p : Pod) (a : Nat) (v : Int) : Pod :=
    (p.setByte a (wrapInt 16 v / 256)).setByte (a + 1) (wrapInt 16 v % 256)
  (put (put (put p 0x38 p.gEst.1) 0x3A p.gEst.2.1) 0x3C p.gEst.2.2).initRec 4

/-- A CTRL byte. -/
def Pod.ctrl (p : Pod) (v : Nat) : Pod :=
  let p := if v / 2 % 2 = 1 then p.defaults else p
  let p := if v / 8 % 2 = 1 then p.capIdle else p
  let p := if v / 4 % 2 = 1 then p.arm else p
  let p := if v / 16 % 2 = 1 then p.tiltRef else p
  if v % 2 = 1 then p.save else p

/-- Apply a checked WRITE whole (R333). -/
def Pod.apply (p : Pod) (a : Nat) (bs : List Byte) : Pod :=
  let q := (p.tryWrite a bs).2
  let q := if p.rangeA = q.rangeA then q
    else { q with qA := q.qA.flush, cap := if q.cap.state = 1 ∨ q.cap.state = 2 then PodCap.reset else q.cap }
  let q := if p.rangeG = q.rangeG then q else { q with qG := q.qG.flush }
  let q := (List.range bs.length).foldl (fun q i =>
    let q := match recOf (a + i) with | some r => q.initRec r | none => q
    if a + i = 0x13 then (List.range 6).foldl Pod.initRec q else q) q
  let sms := (q.sms.zip (List.range 4)).map fun e =>
    if p.byte 0x48 / 2 ^ e.2 % 2 = 0 ∧ q.byte 0x48 / 2 ^ e.2 % 2 = 1 then PodSm.reset else e.1
  let q := { q with sms := sms }
  if a ≤ 0x0A ∧ 0x0A < a + bs.length then q.ctrl (bs[0x0A - a]?.getD 0).toNat else q

/-! ### Queues -/

/-- Entries a queue holds (R347). -/
def podQueueMax : Nat := 64

/-- Put an entry into a queue, or discard it and count it in LOST (R317, R351). -/
def PodQueue.put (q : PodQueue α) (x : α) : PodQueue α :=
  if q.waiting.length + q.sent.length < podQueueMax then { q with waiting := q.waiting ++ [x] } else { q with lost := q.lost + 1 }

/-- Answer a POLL or EVENT with a TOGGLE (R317): what is sent and its LOST. -/
def PodQueue.answer (q : PodQueue α) (toggle : Bool) (mx : Nat) : PodQueue α :=
  if q.toggle = some toggle then q
  else { waiting := q.waiting.drop mx, lost := 0, sent := q.waiting.take mx, sentLost := min q.lost 127, toggle := some toggle }

/-- Discard records more than 30,000 ticks old (R317). -/
def PodQueue.age (q : PodQueue α) (at' : α → BitVec 16) (tick : BitVec 16) : PodQueue α :=
  let keep := q.waiting.filter fun r => decide ((tick - at' r).toNat ≤ 30000)
  { q with waiting := keep, lost := q.lost + (q.waiting.length - keep.length) }

/-- Queue an event record (R351). -/
def Pod.event (p : Pod) (tick : BitVec 16) (kind info : Nat) (arg : Nat) : Pod :=
  { p with qE := p.qE.put ⟨tick, kind, info, BitVec.ofNat 32 arg⟩ }

/-! ### Frames of the line (R302 to R304, R317, R333, R338, R350, R351) -/

/-- The CRC-8 of a frame (R304). -/
def crc8 (bs : List Byte) : Byte := BitVec.ofNat 8 (crcBytes 8 0x31 0xFF bs)

/-- The command of a frame as the lane writes it after START: ADDRESS and OP, arguments, CRC-8 (R302). -/
def duncCmd (addr op : Nat) (args : List Byte) : List Byte :=
  let b := BitVec.ofNat 8 (addr * 8 + op) :: args
  b ++ [crc8 b]

/-- Bytes with some bits flipped. -/
def flipBytes (bs noise : List Byte) : List Byte := (bs.zip (List.range bs.length)).map fun e => e.1 ^^^ noise[e.2]?.getD 0

/-- A command that a pod has received: ADDRESS, OP and arguments. -/
structure PodCmd where
  addr : Nat
  op : Nat
  args : List Byte
  deriving DecidableEq, Repr

/-- Bytes between the command byte and the CRC-8 that an OP has (Table: Commands). -/
def argCount (op : Nat) (rest : List Byte) : Option Nat :=
  match op with
  | 0 => some 1
  | 1 => some 2
  | 2 => some (2 + (rest[1]?.getD 0).toNat)
  | 3 => some 1
  | 7 => some 1
  | _ => some 0

/-- What a pod takes from received bytes: a command whose CRC-8 checks (R302). One whose received OP asks for another length than was
sent is no command (log 121). -/
def parseCmd (bs : List Byte) : Option PodCmd :=
  match bs with
  | [] => none
  | b :: rest =>
    let op := b.toNat % 8
    if argCount op rest = some (rest.length - 1) ∧ rest ≠ [] ∧ rest.getLast? = some (crc8 (b :: rest.dropLast)) then
      some ⟨b.toNat / 8, op, rest.dropLast⟩
    else none

/-- The 8 bytes of a sample record (R338) and of an event record (R350). -/
def PodRec.bytes (r : PodRec) : List Byte := beBytes 8 (r.tick ++ r.x ++ r.y ++ r.z : BitVec 64).toNat
def PodEvt.bytes (r : PodEvt) : List Byte := beBytes 2 r.tick.toNat ++ [BitVec.ofNat 8 r.kind, BitVec.ofNat 8 r.info] ++ beBytes 4 r.arg.toNat

/-- The record that 8 bytes spell. -/
def recOfBytes (bs : List Byte) : PodRec :=
  let v := beNat bs
  ⟨BitVec.ofNat 16 (v / 2 ^ 48), BitVec.ofNat 16 (v / 2 ^ 32), BitVec.ofNat 16 (v / 2 ^ 16), BitVec.ofNat 16 v⟩
def evtOfBytes (bs : List Byte) : PodEvt :=
  let v := beNat bs
  ⟨BitVec.ofNat 16 (v / 2 ^ 48), v / 2 ^ 40 % 256, v / 2 ^ 32 % 256, BitVec.ofNat 32 v⟩

/-- The event queue holds a record: the attention slot reads 0, and every POLL reply carries ATTN (R351). -/
def Pod.attn (p : Pod) : Bool := !(p.qE.waiting.isEmpty && p.qE.sent.isEmpty)

/-- An addressed pod on a command that names it alone: the pod after it, and its reply after the ACK slot, without its CRC-8. `none`: no
answer (R303, R333). A reply of no bytes is the ACK alone. -/
def Pod.answer (p : Pod) (c : PodCmd) : Pod × Option (List Byte) :=
  let a (i : Nat) : Nat := (c.args[i]?.getD 0).toNat
  match c.op with
  | 0 =>
    let t := a 0 / 128 == 1
    let g := a 0 / 16 % 2 == 1
    let mx := a 0 % 16
    if mx = 0 ∨ 8 < mx ∨ (g = true ∧ p.m6 = false) then (p, none)
    else
      let p := if g then { p with qG := p.qG.answer t mx } else { p with qA := p.qA.answer t mx }
      let q := if g then p.qG else p.qA
      (p, some ([BitVec.ofNat 8 q.sent.length, BitVec.ofNat 8 (128 * b2n p.attn + q.sentLost)] ++ q.sent.flatMap PodRec.bytes))
  | 1 =>
    if a 1 = 0 ∨ 32 < a 1 ∨ 256 < a 0 + a 1 then (p, none)
    else (p, some ((List.range (a 1)).map fun i => p.readByte (a 0 + i)))
  | 2 =>
    if a 1 = 0 ∨ 32 < a 1 ∨ 256 < a 0 + a 1 then (p, none)
    else
      let bs := c.args.drop 2
      let st := (p.tryWrite (a 0) bs).1
      (if st = 0 then { p with write := some (a 0, bs) } else p, some [BitVec.ofNat 8 st])
  | 3 =>
    let t := a 0 / 128 == 1
    let mx := a 0 % 8
    if mx = 0 ∨ 4 < mx then (p, none)
    else
      let p := { p with qE := p.qE.answer t mx }
      (p, some ([BitVec.ofNat 8 p.qE.sent.length, BitVec.ofNat 8 (128 * b2n (!p.qE.waiting.isEmpty) + p.qE.sentLost)]
        ++ p.qE.sent.flatMap PodEvt.bytes))
  | 7 =>
    if a 0 = 2 then ({ p with addr := none, answered := false }, some [])
    else if a 0 = 3 then (p, some ((List.range 8).map p.readByte))
    else (p, none)
  | _ => (p, none)

/-! ### Recognisers (R341, R342) -/

/-- Samples that last at least so many milliseconds: 6.4 samples a millisecond, rounded up. -/
def msSamples (ms : Nat) : Nat := (32 * ms + 4) / 5
/-- Pod ticks of so many samples: 15.625 a sample, saturated to 16 bits (log 25). -/
def podTicks (k : Nat) : Nat := min (k * 125 / 8) 0xFFFF

/-- A squared input in (2^-16 counts)² against a threshold in mg times num / den. -/
def sqAbove (sq fs thr num den : Nat) : Bool := decide ((thr * 32768 * 65536 * num) ^ 2 < sq * (fs * den) ^ 2)
def sqBelow (sq fs thr num den : Nat) : Bool := decide (sq * (fs * den) ^ 2 < (thr * 32768 * 65536 * num) ^ 2)

/-- The square of a recogniser's AXIS input and its sign, from the high-passed vector. -/
def axisSq (axis : Nat) (h : Int × Int × Int) : Nat × Bool :=
  match axis with
  | 0 => ((h.1 * h.1).toNat, decide (h.1 < 0))
  | 1 => ((h.2.1 * h.2.1).toNat, decide (h.2.1 < 0))
  | 2 => ((h.2.2 * h.2.2).toNat, decide (h.2.2 < 0))
  | _ => ((h.1 * h.1 + h.2.1 * h.2.1 + h.2.2 * h.2.2).toNat, false)

/-- A magnitude in 2^-16 counts as a count that fits 16 bits, with its sign. -/
def peakCount (sq : Nat) (neg : Bool) : Int :=
  let c : Int := ((min (isqrt sq / 65536) 0xFFFF : Nat) : Int)
  if neg then -c else c

/-- An emission: KIND, INFO, ARG. -/
abbrev Emit := Nat × Nat × Nat

/-- The input of a threshold recogniser on one sample: above THR, below THR / 2, its value, whether the sample clipped. -/
structure RecIn where
  above : Bool
  below : Bool
  value : Int
  clip : Bool
  deriving DecidableEq, Repr

/-- The input of an AXIS recogniser. -/
def recIn (fs thr axis : Nat) (h : Int × Int × Int) (clip : Bool) : RecIn :=
  let (sq, neg) := axisSq axis h
  ⟨sqAbove sq fs thr 1 1, sqBelow sq fs thr 1 2, peakCount sq neg, clip⟩

/-- A new peak, if this sample is higher; ages advance. -/
def Recog.track (r : Recog) (i : RecIn) : Recog :=
  if r.peak.natAbs < i.value.natAbs then { r with peak := i.value, peakAge := 0, clip := r.clip || i.clip }
  else { r with peakAge := r.peakAge + 1, clip := r.clip || i.clip }

/-- INFO of CLICK, DOUBLE_CLICK and STROKE. -/
def clickInfo (r : Recog) (range axis : Nat) : Nat := 128 * b2n (decide (r.peak < 0)) + 16 * range + 8 * b2n r.clip + axis

/-- Start an excursion. -/
def Recog.start (r : Recog) (ph : Nat) (i : RecIn) : Recog :=
  { r with phase := ph, count := 1, age := 0, peak := i.value, peakAge := 0, clip := i.clip }

/-- CLICK: 0 waits for quiet, 1 armed, 2 above, 3 candidate. True: a click is detected on this sample. -/
def Recog.click (r : Recog) (i : RecIn) (maxMs quietMs : Nat) : Bool × Recog :=
  match r.phase with
  | 0 =>
    let c := if i.below then r.count + 1 else 0
    (false, if msSamples quietMs ≤ c then { r with phase := 1, count := 0 } else { r with count := c })
  | 1 => (false, if i.above then r.start 2 i else r)
  | 2 =>
    let r := { r.track i with age := r.age + 1 }
    if i.below then (false, if r.age ≤ msSamples maxMs then { r with phase := 3, count := 1 } else { r with phase := 0, count := 1 })
    else (false, if msSamples maxMs < r.age then { r with phase := 0, count := 0 } else r)
  | _ =>
    let r := { r with peakAge := r.peakAge + 1 }
    if i.above then (false, { r with phase := 0, count := 0 })
    else
      let c := if i.below then r.count + 1 else 0
      if msSamples quietMs ≤ c then (true, { r with phase := 1, count := 0 }) else (false, { r with count := c })

/-- STROKE: 0 waits, 1 above for less than MIN_MS, 2 long enough. -/
def Recog.stroke (r : Recog) (i : RecIn) (minMs : Nat) : Bool × Recog :=
  match r.phase with
  | 0 => (false, if i.above then r.start 1 i else r)
  | 1 =>
    let r := { r.track i with age := r.age + 1 }
    if !i.above then (false, { r with phase := 0, count := 0 })
    else (false, if msSamples minMs ≤ r.count + 1 then { r with phase := 2 } else { r with count := r.count + 1 })
  | _ =>
    let r := { r.track i with age := r.age + 1 }
    if i.below then (true, { r with phase := 0, count := 0 }) else (false, r)

/-- FALL: 0 not falling, 1 below THR, 2 emitted, with `peakAge` counting the samples at or above THR. 1 FALL, 2 FALL_END. -/
def Recog.fall (r : Recog) (below : Bool) (minMs : Nat) : Nat × Recog :=
  match r.phase with
  | 0 => if below then (if msSamples minMs ≤ 1 then (1, { r with phase := 2, count := 1, age := 0, peakAge := 0 })
      else (0, { r with phase := 1, count := 1, age := 0 })) else (0, r)
  | 1 =>
    if !below then (0, { r with phase := 0, count := 0 })
    else if msSamples minMs ≤ r.count + 1 then (1, { r with phase := 2, age := r.age + 1, peakAge := 0 })
    else (0, { r with count := r.count + 1, age := r.age + 1 })
  | _ =>
    let r := { r with age := r.age + 1 }
    if below then (0, { r with peakAge := 0 })
    else if 4 ≤ r.peakAge + 1 then (2, { r with phase := 0, count := 0, peakAge := 0 }) else (0, { r with peakAge := r.peakAge + 1 })

/-- TILT: phase 1 between entry and exit. 1 entry, 2 exit. `above` and `below` say that the angle is above DEG, and below DEG − 2°. -/
def Recog.tilt (r : Recog) (held above below : Bool) (holdMs : Nat) : Nat × Recog :=
  if held then (0, r)
  else
    let on := if r.phase = 0 then above else below
    let c := if on then r.count + 1 else 0
    if on && decide (msSamples holdMs ≤ c) then (1 + r.phase, { r with phase := 1 - r.phase, count := 0 }) else (0, { r with count := c })

/-- Cosine and sine of `k` tenths of a degree in units of 2^-60. -/
def turnTenths : Nat → Int × Int
  | 0 => (2 ^ 60, 0)
  | k + 1 =>
    let (c, s) := turnTenths k
    ((c * 1152919748607422983 - s * 2012226605644488) / 2 ^ 60, (s * 1152919748607422983 + c * 2012226605644488) / 2 ^ 60)

/-- Cosine of 0 to 180 degrees in tenths, in units of 2^-60. -/
def cosTenths (k : Nat) : Int := if k = 900 then 0 else if k < 900 then (turnTenths k).1 else -(turnTenths (1800 - k)).1

/-- Dot product of two vectors. -/
def dot3 (a b : Int × Int × Int) : Int := a.1 * b.1 + a.2.1 * b.2.1 + a.2.2 * b.2.2

/-- Is the angle between two vectors above `k` tenths of a degree; with `eq`, or equal to it? The cosine of the angle is compared by
its sign and its square. -/
def angleOver (a b : Int × Int × Int) (k : Nat) (eq : Bool) : Bool :=
  let c := cosTenths k
  let d := dot3 a b * 2 ^ 60
  let n := dot3 a a * dot3 b b * c * c
  if d < 0 ∧ 0 ≤ c then true
  else if 0 ≤ d ∧ c < 0 then false
  else if 0 ≤ d then decide (d * d < n) || (eq && d * d == n)
  else decide (n < d * d) || (eq && d * d == n)

/-- The angle between two vectors in tenths of a degree, rounded down (log 24). -/
def angleTenths (a b : Int × Int × Int) : Nat :=
  [1024, 512, 256, 128, 64, 32, 16, 8, 4, 2, 1].foldl (fun k i => if k + i ≤ 1800 ∧ angleOver a b (k + i) true = true then k + i else k) 0

/-- SHOCK: 1 from the rise above THR until |a| has stayed below THR for 1 ms; `age` counts samples above. -/
def Recog.shock (r : Recog) (i : RecIn) (below : Bool) : Bool × Recog :=
  if r.phase = 0 then (false, if i.above then { r.start 1 i with age := 1, count := 0 } else r)
  else
    let r := r.track i
    if below then (if msSamples 1 ≤ r.count + 1 then (true, { r with phase := 0, count := 0 }) else (false, { r with count := r.count + 1 }))
    else (false, { r with count := 0, age := r.age + 1 })

/-- Drop height g t² / 2 in mm of a fall of so many ticks, g = 9.80665 m/s² (log 25). -/
def dropMm (ticks : Nat) : Nat := min (4903325 * ticks * ticks / 10000000000000) 0xFFFF

/-- What one sample gives the recognisers. -/
structure PodIn where
  raw : Int × Int × Int
  mg : Int × Int × Int
  hp : Int × Int × Int
  magSq : Nat
  clip : Bool
  deriving DecidableEq, Repr

/-- Unsigned 16-bit form of a signed count. -/
def cnt16 (i : Int) : Nat := wrapInt 16 i

/-- Recogniser i on one sample: what it emits (before muting), and its new state. `click` is the state of CLICK after this sample, if
it detected one. -/
def Pod.recStep (p : Pod) (i : Nat) (r : Recog) (x : PodIn) (click : Option Recog) : List Emit × Recog :=
  let fs := p.fs
  let rg := p.rangeA
  match i with
  | 0 =>
    let ax := p.byte 0x20
    let (d, r) := r.click (recIn fs (p.half 0x21) ax x.hp x.clip) (p.byte 0x23) (p.byte 0x24)
    (if d then [(1, clickInfo r rg ax, cnt16 r.peak * 65536 + podTicks r.peakAge)] else [], r)
  | 1 =>
    let r := { r with age := r.age + 1 }
    match click with
    | none => ([], r)
    | some c =>
      let gap := r.age - c.peakAge
      if r.phase = 1 ∧ msSamples (p.byte 0x28) ≤ gap ∧ gap ≤ msSamples (p.half 0x2A) then
        ([(2, clickInfo c rg (p.byte 0x20), podTicks gap * 65536 + podTicks c.peakAge)], { r with phase := 0 })
      else ([], { r with phase := 1, age := c.peakAge })
  | 2 =>
    let ax := p.byte 0x2C
    let (d, r) := r.stroke (recIn fs (p.half 0x2D) ax x.hp x.clip) (p.byte 0x2F)
    (if d then [(3, clickInfo r rg ax, cnt16 r.peak * 65536 + min (r.age * 5 / 32) 0xFFFF)] else [], r)
  | 3 =>
    let (e, r) := r.fall (sqBelow (x.magSq * 65536 ^ 2) fs (p.half 0x30) 1 1) (p.half 0x32)
    (if e = 1 then [(4, 16 * rg, podTicks r.age * 65536)]
     else if e = 2 then [(5, 16 * rg, podTicks (r.age - 3) * 65536 + dropMm (podTicks (r.age - 3)))] else [], r)
  | 4 =>
    let g := p.gEst
    let ref : Int × Int × Int := (signedOf 16 (p.half 0x38), signedOf 16 (p.half 0x3A), signedOf 16 (p.half 0x3C))
    let low := decide (dot3 g g < 250000)
    let null := dot3 ref ref == 0
    let deg := p.byte 0x34
    let above := if null then decide (10 * deg < Config.podAngleNull) else angleOver g ref (10 * deg) false
    let below := if null then decide (Config.podAngleNull < 10 * (deg - 2)) else !angleOver g ref (10 * (deg - 2)) true
    let a := if null then Config.podAngleNull else angleTenths g ref
    let (e, r) := r.tilt low above below (p.half 0x35)
    (if e = 0 then [] else [(6, 2 - e, min a 0xFFFF * 65536)], r)
  | _ =>
    let sq := x.magSq * 65536 ^ 2
    let (d, r) := r.shock ⟨sqAbove sq fs (p.half 0x3E) 1 1, false, peakCount sq false, x.clip⟩ (sqBelow sq fs (p.half 0x3E) 1 1)
    (if d then [(7, 16 * rg + 8 * b2n r.clip, cnt16 r.peak * 65536 + podTicks r.age)] else [], r)

/-- Run the enabled recognisers 0 to 5: emissions with the recogniser's number, in index order. -/
def Pod.runRecs (p : Pod) (x : PodIn) : List (Nat × Emit) × List Recog :=
  let en := p.byte 0x13
  let r := (p.recs.zip (List.range 6)).foldl (fun (a : List (Nat × Emit) × List Recog × Option Recog) e =>
    if en / 2 ^ e.2 % 2 = 0 then (a.1, a.2.1 ++ [e.1], a.2.2)
    else
      let (es, r) := p.recStep e.2 e.1 x a.2.2
      let out := if r.mute = 0 then es.map fun y => (e.2, y) else []
      let click := if e.2 = 0 ∧ es ≠ [] then some r else a.2.2
      (a.1 ++ out, a.2.1 ++ [{ r with mute := r.mute - 1 }], click)) ([], [], none)
  (r.1, r.2.1)

/-! ### Machines (R344, R345) -/

/-- Component SEL of a vector, or its magnitude, above a limit given in the vector's unit. -/
def vecAbove (v : Int × Int × Int) (sel fs arg : Nat) (signed : Bool) : Bool :=
  let lim : Int := ((arg * 32768 : Nat) : Int)
  let c (i : Int) : Bool := decide (lim < (if signed then i else (i.natAbs : Int)) * (fs : Int))
  match sel with
  | 0 => c v.1 | 1 => c v.2.1 | 2 => c v.2.2
  | _ => decide ((arg * 32768) ^ 2 < (v.1 * v.1 + v.2.1 * v.2.1 + v.2.2 * v.2.2).toNat * fs ^ 2)

def vecBelow (v : Int × Int × Int) (sel fs arg : Nat) : Bool :=
  let lim : Int := ((arg * 32768 : Nat) : Int)
  match sel with
  | 0 => decide (v.1 * (fs : Int) < lim) | 1 => decide (v.2.1 * (fs : Int) < lim) | 2 => decide (v.2.2 * (fs : Int) < lim)
  | _ => decide ((v.1 * v.1 + v.2.1 * v.2.1 + v.2.2 * v.2.2).toNat * fs ^ 2 < (arg * 32768) ^ 2)

/-- Does the condition of machine m's instruction hold on this sample? -/
def Pod.cond (p : Pod) (w : Word) (m : PodSm) (x : PodIn) (emitted : List (Nat × Emit)) : Bool :=
  let sel := bitsOf w 19 16
  let arg := bitsOf w 15 0
  let sig := (p.sms[sel]?.getD PodSm.reset).signal
  match bitsOf w 23 20 with
  | 0 => true
  | 1 => emitted.any fun e => e.1 == sel
  | 2 => vecAbove x.raw sel p.fs arg true
  | 3 => vecBelow x.raw sel p.fs arg
  | 4 => decide (msSamples arg ≤ m.inState)
  | 5 => sig
  | 6 => !sig
  | 7 => vecAbove p.gyro sel p.fsG arg false
  | 8 => (p.recs[4]?.getD Recog.reset).phase == 1
  | _ => false

/-- Machine i on one sample: whether it triggers the capture. -/
def Pod.smStep (p : Pod) (i : Nat) (x : PodIn) (emitted : List (Nat × Emit)) (tick : BitVec 16) : Bool × Pod :=
  if p.byte 0x48 / 2 ^ i % 2 = 0 then (false, p)
  else
    let m := p.sms[i]?.getD PodSm.reset
    let w := p.instr i m.state
    let away := if m.state = 0 then 0 else m.away + 1
    if p.cond w m x emitted then
      let act := bitsOf w 26 24
      let next := bitsOf w 31 27
      let sig := if act = 4 ∨ act = 6 then true else if act = 5 then false else m.signal
      let p' := { p with sms := p.sms.set i ⟨next, 1, if m.state = 0 then 0 else away, sig⟩ }
      let p' := if act = 1 ∨ act = 3 ∨ act = 6 then p'.event tick (0x10 + i) m.state (away * 125 / 8) else p'
      (act == 2 || act == 3, p')
    else (false, { p with sms := p.sms.set i { m with inState := m.inState + 1, away := away } })

/-! ### Capture (R348) -/

/-- The mean of the last 2^div samples (log 25). -/
def meanOf (hist : List (Int × Int × Int)) (div : Nat) : Int × Int × Int :=
  let xs := hist.take (2 ^ div)
  let k : Int := ((max xs.length 1 : Nat) : Int)
  ((xs.foldl (fun a e => a + e.1) 0) / k, (xs.foldl (fun a e => a + e.2.1) 0) / k, (xs.foldl (fun a e => a + e.2.2) 0) / k)

/-- FILLING ends with 1,024 entries: FROZEN, CAPTURE_DONE. -/
def Pod.capFill (p : Pod) (tick : BitVec 16) : Pod :=
  if p.cap.state = 2 ∧ 1024 ≤ p.cap.entries.length then
    { p with cap := { p.cap with state := 3 } }.event tick 0x20 p.cap.trigger (p.cap.preValid * 65536 + podTicks p.cap.since)
  else p

/-- The capture on one sample, with the trigger of the sample if there is one. -/
def Pod.capStep (p : Pod) (trig : Option Nat) (tick : BitVec 16) : Pod :=
  let div := p.byte 0x43
  let store := decide (2 ^ div ≤ p.cap.divCount + 1)
  let e := meanOf p.hist div
  match p.cap.state, trig with
  | 1, some k =>
    let pre := min (p.half 0x40) p.cap.entries.length
    Pod.capFill { p with cap := ⟨2, p.cap.entries.drop (p.cap.entries.length - pre) ++ [e], 0, pre, k, 0⟩ } tick
  | 1, none =>
    if store then
      let es := p.cap.entries ++ [e]
      { p with cap := { p.cap with entries := es.drop (es.length - 1024), divCount := 0 } }
    else { p with cap := { p.cap with divCount := p.cap.divCount + 1 } }
  | 2, t =>
    let c := { p.cap with since := p.cap.since + 1 }
    let c := if store then { c with entries := c.entries ++ [e], divCount := 0 } else { c with divCount := c.divCount + 1 }
    let p := match t with | some k => p.event tick 0x23 k 0 | none => p
    Pod.capFill { p with cap := c } tick
  | 3, some k => p.event tick 0x23 k 0
  | _, _ => p

/-! ### One internal sample (R341) -/

/-- Raw counts to mg. -/
def toMg (fs : Nat) (c : Int) : Int := c * (fs : Int) / 32768

/-- The mean of the high-passed vector's axis, m + (x − m) / 64, kept in 2^-16 counts (log 24). -/
def hpMean (x m : Int) : Int := m + roundRatio (x * 65536 - m) 64

/-- One internal sample of a powered pod: recognisers, machines, capture. -/
def Pod.sample (p : Pod) (tick : BitVec 16) (x y z : BitVec 16) (gyro : Option (BitVec 16 × BitVec 16 × BitVec 16))
    (recA recG : Option PodRec) : Pod :=
  let raw : Int × Int × Int := (x.toInt, y.toInt, z.toInt)
  let edge (i : Int) : Bool := i == -32768 || i == 32767
  let hpm : Int × Int × Int := (hpMean raw.1 p.hp.1, hpMean raw.2.1 p.hp.2.1, hpMean raw.2.2 p.hp.2.2)
  let mg : Int × Int × Int := (toMg p.fs raw.1, toMg p.fs raw.2.1, toMg p.fs raw.2.2)
  let g : Int × Int × Int := (Config.podLowpass mg.1 p.gEst.1, Config.podLowpass mg.2.1 p.gEst.2.1, Config.podLowpass mg.2.2 p.gEst.2.2)
  let p := { p with hp := hpm, gEst := g, hist := (raw :: p.hist).take 8, qA := p.qA.age PodRec.tick tick, qG := p.qG.age PodRec.tick tick }
  let p := { p with qE := p.qE.age PodEvt.tick tick }
  let p := match gyro with
    | some v => if p.gReady then { p with gyro := (v.1.toInt, v.2.1.toInt, v.2.2.toInt) } else p
    | none => p
  let p := match recA with | some r => if p.byte 0x12 % 2 = 1 then { p with qA := p.qA.put r } else p | none => p
  let p := match recG with | some r => if p.byte 0x12 / 2 % 2 = 1 ∧ p.gReady = true then { p with qG := p.qG.put r } else p | none => p
  let i : PodIn := ⟨raw, mg, (raw.1 * 65536 - hpm.1, raw.2.1 * 65536 - hpm.2.1, raw.2.2 * 65536 - hpm.2.2),
    (raw.1 * raw.1 + raw.2.1 * raw.2.1 + raw.2.2 * raw.2.2).toNat, edge raw.1 || edge raw.2.1 || edge raw.2.2⟩
  let (es, recs) := p.runRecs i
  let p := { p with recs := recs }
  let p := es.foldl (fun p e => if p.byte 0x14 / 2 ^ e.1 % 2 = 1 then p.event tick e.2.1 e.2.2.1 e.2.2.2 else p) p
  let trigR := (es.find? fun e => p.byte 0x42 / 2 ^ e.1 % 2 == 1).map fun e => e.2.1
  let (trigM, p) := (List.range 4).foldl (fun (a : Option Nat × Pod) m =>
    let (t, q) := a.2.smStep m i es tick
    (if t && a.1.isNone then some (0x10 + m) else a.1, q)) (none, p)
  p.capStep (match trigR with | some k => some k | none => trigM) tick

def execPodInternalSample (n : LaneId) (p : Fin 24) (tick x y z : BitVec 16) (gyro : Option (BitVec 16 × BitVec 16 × BitVec 16))
    (recA recG : Option PodRec) (s : State) : Out :=
  fin (if s.fitted n && (s.pod n p).powered then s.upPod n p fun q => q.sample tick x y z gyro recA recG else s)

/-! ### Power, profile, and the controls (R332, R335, R343, R345, R348) -/

/-- A pod powers up at place p: what its memory keeps is kept if it is the same pod; the stored profile loads, or the factory
values. Its gyroscope is ready at once if DP is within range (DESIGN CHOICE: R332 gives a time only for DP returning). -/
def Pod.powerUp (p : Pod) (id : BitVec 64) (fw : Byte) (fail dp : Bool) (now : Nat) : Pod :=
  let old : Pod := if p.id = id then p else { Pod.reset with id := id }
  let q : Pod := { Pod.reset with id := id, powered := true, lastRoll := now, fw := fw, selftestFail := fail, profile := old.profile, saves := old.saves }
  let q := match old.profile with
    | some (r, g) => { q with regs := r, prog := g }
    | none => q
  { q with gReady := q.m6 && dp }

/-- DP is on: the lane READY and its converter not tripped (R298). -/
def State.dpOn (s : State) (n : LaneId) : Bool := s.phase n == phReady && !s.on LANE.ISO_TRIPPED n

/-- DP is within range: on, and not in current limit. That DP in limit is out of range is DEDUCED from R298 and R332. -/
def State.dpWithin (s : State) (n : LaneId) : Bool := s.dpOn n && !s.on DUNC.STAT_DP_FAULT n

/-- The line is powered: its far side is, and its converter has not tripped (R44, R327). -/
def State.linePower (s : State) (n : LaneId) : Bool := s.farUp n && !s.on LANE.ISO_TRIPPED n

def execPodPowerUp (n : LaneId) (p : Fin 24) (id : BitVec 64) (fw : Byte) (fail : Bool) (s : State) : Out :=
  fin (if s.linePower n then s.upPod n p fun q => q.powerUp id fw fail (s.dpWithin n) s.clock else s)

/-- Do something to a powered pod. -/
def State.onPod (s : State) (n : LaneId) (p : Fin 24) (f : Pod → Pod) : State :=
  if s.fitted n && (s.pod n p).powered then s.upPod n p f else s

def execPodWriteApply (n : LaneId) (p : Fin 24) (s : State) : Out :=
  fin (s.onPod n p fun q => match q.write with | some (a, bs) => { q.apply a bs with write := none } | none => q)

def execSave (n : LaneId) (p : Fin 24) (s : State) : Out := fin (s.onPod n p fun q => if q.saving then q else q.save)

/-- The store completes whole: the profile is the one of this moment, since every write in between was BUSY. -/
def execSaveComplete (n : LaneId) (p : Fin 24) (s : State) : Out :=
  fin (s.onPod n p fun q => if q.saving then
    { q with saving := false, profile := some (profileRegs q.regs, q.prog), saves := min (q.saves + 1) 0xFFFF } else q)

def execDefaults (n : LaneId) (p : Fin 24) (s : State) : Out := fin (s.onPod n p fun q => if q.saving then q else q.defaults)
def execCapArm (n : LaneId) (p : Fin 24) (s : State) : Out := fin (s.onPod n p fun q => if q.saving then q else q.arm)
def execCapRelease (n : LaneId) (p : Fin 24) (s : State) : Out := fin (s.onPod n p fun q => if q.saving then q else q.capIdle)
def execTiltRef (n : LaneId) (p : Fin 24) (s : State) : Out := fin (s.onPod n p fun q => if q.saving then q else q.tiltRef)

def execGyroLost (n : LaneId) (p : Fin 24) (tick : BitVec 16) (s : State) : Out :=
  fin (s.onPod n p fun q => if q.m6 && q.gReady && !s.dpWithin n then { q with gReady := false }.event tick 0x21 0 0 else q)

def execGyroReady (n : LaneId) (p : Fin 24) (tick : BitVec 16) (s : State) : Out :=
  fin (s.onPod n p fun q => if q.m6 && !q.gReady && s.dpWithin n then { q with gReady := true }.event tick 0x22 0 0 else q)

/-- SM_TIMEOUT of machine m (R345). -/
def Pod.smTimeout (p : Pod) (m : Nat) : Pod :=
  let t := p.half (0x50 + 2 * m)
  let x := p.sms[m]?.getD PodSm.reset
  if p.byte 0x48 / 2 ^ m % 2 = 1 ∧ t ≠ 0 ∧ x.state ≠ 0 ∧ 32 * t < 5 * x.away then { p with sms := p.sms.set m PodSm.reset } else p

def execSmTimeout (n : LaneId) (p : Fin 24) (m : Fin 4) (s : State) : Out := fin (s.onPod n p fun q => q.smTimeout m)

end Sys2Proof.Machine
end

