-- ==== Sys2Proof/Machine/Duncol.lean ====
section
/-! DEFINITION. The Duncol line (spec/13_duncol_line.md R296 to R329): census, search and addresses, streams, requests, retries and
deadlines, pod time, and the lane's own set-up of a pod (R336, R337). -/

namespace Sys2Proof.Machine

/-! ### Addresses and pods -/

def State.la (s : State) (n : LaneId) (k : Fin 24) : LineAddr := (s.line n).addrs[k]
def State.upLa (s : State) (n : LaneId) (k : Fin 24) (f : LineAddr → LineAddr) : State :=
  s.upLine n fun l => { l with addrs := l.addrs.set k (f l.addrs[k]) }

def allAddrs : List (Fin 24) := List.finRange 24

/-- The powered pod that holds short address k. -/
def State.podAt (s : State) (n : LaneId) (k : Fin 24) : Option (Fin 24) :=
  allAddrs.find? fun p => (s.pod n p).powered && (s.pod n p).addr == some k.val

/-- BIND_CTL.STATE: 0 empty, 1 remembered, 2 present (R310). -/
def State.bind (s : State) (n : LaneId) (k : Nat) : Nat := s.g DUNC.BIND_CTL_STATE n k
/-- The identity of entry k. -/
def State.bindId (s : State) (n : LaneId) (k : Nat) : Nat := s.g DUNC.BIND_ID_HI n k * 2 ^ 32 + s.g DUNC.BIND_ID_LO n k

/-- Put an identity into entry k, in force and in the near-side image. -/
def State.setBindId (s : State) (n : LaneId) (k : Nat) (id : Nat) : State :=
  (s.putBoth DUNC.BIND_ID_HI n k (id / 2 ^ 32)).putBoth DUNC.BIND_ID_LO n k (id % 2 ^ 32)

/-- Change entry k's STATE; PRESENT and PG_STAT follow. -/
def State.setBind (s : State) (n : LaneId) (k st : Nat) : State :=
  let s := s.p DUNC.BIND_CTL_STATE n k st
  let m := (List.range 24).foldl (fun a i => a + if s.bind n i = 2 then 2 ^ i else 0) 0
  (s.put DUNC.PRESENT n m).setPgStat (.lane n .dunc) ((List.range 24).countP fun i => s.bind n i == 2)

/-! ### Running -/

/-- Ticks of the 200 MHz clock in a microsecond. -/
def usTicks : Nat := 200

/-- Frames are issued: RUN is 1, no line fault, the line powered (R44). -/
def State.lineUp (s : State) (n : LaneId) : Bool :=
  s.linePower n && s.run (.lane n .dunc) && !s.on DUNC.STAT_LINE_FAULT n

/-- Other frames may be issued: the line has started, and neither frame of a census is due (R306, R315, R316). -/
def State.lineFree (s : State) (n : LaneId) : Bool :=
  s.lineUp n && !(s.line n).startDue && !(s.line n).bcastDue && !(s.line n).censusDue && !(s.line n).ticksDue

/-- Slot length in µs. -/
def tauUs (speed : Nat) : Nat := if speed = 1 then 1 else 16

/-- STAT.ACTIVE and PG_STAT.STOPPED. -/
def State.lineStat (s : State) (n : LaneId) : State :=
  (s.put DUNC.STAT_ACTIVE n (b2n (s.lineUp n))).setStopped (.lane n .dunc) (!s.run (.lane n .dunc))

/-- A frame has been on the line: FRAMES, and newly powered pods have seen one more (R312). -/
def State.frameSeen (s : State) (n : LaneId) : State :=
  (s.bump DUNC.FRAMES n).upLine n fun l =>
    { l with pods := l.pods.map fun p => if p.powered && !p.joined then { p with frames := min (p.frames + 1) 2 } else p }

/-- The lane owes address k some frames of its own from now on (R336, R337). -/
def State.owe (s : State) (n : LaneId) (k : Fin 24) (fs : List OwnFrame) : State :=
  s.upLa n k fun a => { a with own := a.own ++ fs, ownDue := if a.own.isEmpty then s.clock else a.ownDue }

/-- The request is a WRITE that covers A_CFG or G_CFG (R337). -/
def State.reqRanges (s : State) (n : LaneId) : Bool :=
  s.g DUNC.REQ_OP n == 2 && decide (s.g DUNC.REQ_REG n ≤ 0x11) && decide (0x10 < s.g DUNC.REQ_REG n + s.g DUNC.REQ_COUNT n)

/-- The request ends: DONE with a code (R320). A WRITE of the ranges that did not end OK has the lane read them again (R337). -/
def State.reqDone (s : State) (n : LaneId) (code len : Nat) : State :=
  let s := (((s.put DUNC.REQ_STAT_STATE n 2).put DUNC.REQ_STAT_CODE n code).put DUNC.REQ_STAT_LEN n len).farDunc n 3
  let k := s.g DUNC.REQ_ADDR n
  if h : k < 24 then (if code ≠ 0 ∧ s.reqRanges n = true ∧ s.bind n k = 2 then s.owe n ⟨k, h⟩ [.readCfg] else s) else s

/-- A request is busy. -/
def State.reqBusy (s : State) (n : LaneId) : Bool := s.g DUNC.REQ_STAT_STATE n == 1

/-- The pod of address k leaves: remembered, streams stop, POD_DEPART; a request to it ends, and the M chain loses it (R272, R313). -/
def State.depart (s : State) (n : LaneId) (k : Fin 24) : State :=
  let s := ((s.setBind n k 1).bump DUNC.DEPARTURES n).farDunc n 1
  let s := s.upLa n k fun _ => LineAddr.reset
  let s := s.put DUNC.COARSE n (s.g DUNC.COARSE n &&& (0xFFFFFF - 2 ^ k.val))
  let s := if s.reqBusy n && s.g DUNC.REQ_ADDR n == k.val then s.reqDone n 5 0 else s
  if s.g CHAIN.M_SRC_ADDR n = k.val ∧ s.on CHAIN.STAT_RUNNING n 3 = true then
    (s.upChain n 3 fun x => { x with lost := true, podIn := [] }).farChain n 5
  else s

/-- Every present pod departs. -/
def State.departAll (s : State) (n : LaneId) : State :=
  allAddrs.foldl (fun s (k : Fin 24) => if s.bind n k = 2 then s.depart n k else s) s

/-- DL is stuck low: no further frames, LINE_FAULT, every present pod departs (R327). -/
def State.lineStuck (s : State) (n : LaneId) : State :=
  let s := ((s.departAll n).put DUNC.STAT_LINE_FAULT n 1).farDunc n 6
  (s.upLine n fun l => { l with faultAt := s.clock }).lineStat n

/-- Set-up of the pod at address k (R336). -/
def State.setupOf (s : State) (n : LaneId) (k : Fin 24) : List OwnFrame :=
  [.readCfg] ++ (if s.on DUNC.STREAM_EN_A n k then [.writeA] else [])
    ++ (if s.on DUNC.STREAM_EN_G n k && s.bindId n k / 2 ^ 56 == 0x36 then [.writeG] else []) ++ [.writeStream]

/-! ### Frames (R301 to R304, R321) -/

/-- Bit `i` of bytes, first bit first. -/
def bitOf (bs : List Byte) (i : Nat) : Bool := (bs[i / 8]?.getD 0).getLsbD (7 - i % 8)

/-- Count a frame on the line; `again` says that it repeats a failed attempt. One that DL stuck low has ended is no complete frame. -/
def State.attempt (s : State) (n : LaneId) (again : Bool) (e : Wire) : State :=
  let s := if e.stuck then s.bump DUNC.FRAMES n else s.frameSeen n
  if again then s.bump DUNC.RETRIES n else s

/-- What the lane has from one attempt of a frame that one pod answers. -/
inductive Heard where
  | stuck | noAck | bad (crc : Bool) | good (bs : List Byte)
  deriving DecidableEq, Repr

/-- Does a received command name pod p: its short address, or every pod without one, or every pod (R302)? -/
def Pod.named (p : Pod) (addr : Nat) : Bool :=
  p.powered && (addr == 0x1F || (addr == 0x1E && p.addr.isNone) || (decide (addr < 24) && p.addr == some addr))

/-- The pods act on a command as they received it: every pod that ADDRESS names, and a reply with its CRC-8 from each that answers. -/
def State.podsAct (s : State) (n : LaneId) (c : Option PodCmd) : State × List (List Byte) :=
  match c with
  | none => (s, [])
  | some c =>
    if 24 ≤ c.addr then (s, [])
    else
      allAddrs.foldl (fun (a : State × List (List Byte)) (p : Fin 24) =>
        if (s.pod n p).named c.addr then
          match (s.pod n p).answer c with
          | (q, some bs) => (a.1.upPod n p fun _ => q, a.2 ++ [if bs.isEmpty then [] else bs ++ [crc8 bs]])
          | (_, none) => a
        else a) (s, [])

/-- Byte `i` of the reply as the lane reads it: the wired AND of those who answer, where no one drives DL ones (R296, R299). -/
def replyByte (rs : List (List Byte)) (e : Wire) (i : Nat) : Byte :=
  rs.foldl (fun a r => a &&& r[i]?.getD 0xFF) 0xFF ^^^ e.reply[i]?.getD 0

/-- One attempt of a frame to address k: what the pods make of it, and what the lane hears. `len` gives the bytes of the reply before its
CRC-8 from the first of them; `none`: LEN exceeds MAX. A reply that fails counts in CRC_ERRS, one whose LEN is too high in no counter (log
121). -/
def State.ask (s : State) (n : LaneId) (k op : Nat) (args : List Byte) (again : Bool) (len : Nat → Option Nat) (e : Wire) : Heard × State :=
  let s := s.attempt n again e
  if e.stuck then (.stuck, s.lineStuck n)
  else
    let (s, rs) := s.podsAct n (parseCmd (flipBytes (duncCmd k op args) e.cmd))
    if rs.isEmpty != e.ack then (.noAck, s.bump DUNC.NO_ACKS n)
    else
      match len (replyByte rs e 0).toNat with
      | none => (.bad false, s)
      | some 0 => (.good [], s)
      | some m =>
        let bs := (List.range m).map (replyByte rs e)
        if crc8 bs = replyByte rs e m then (.good bs, s) else (.bad true, s.bump DUNC.CRC_ERRS n)

/-- The pods that a broadcast reaches, if its CRC-8 checks as they receive it (R302). -/
def heardAll (op : Nat) (addr : Nat) (args : List Byte) (e : Wire) : Bool :=
  parseCmd (flipBytes (duncCmd addr op args) e.cmd) == some ⟨addr, op, args⟩

/-- Has a frame with so many failed attempts had its last repetition (R321)? -/
def State.spent (s : State) (n : LaneId) (tries : Nat) : Bool := decide (s.g DUNC.CFG_RETRY_LIMIT n < tries)

/-! ### Start, census, ticks (R306 to R308, R311 to R315, R323) -/

/-- A start of the line: every present entry becomes remembered, and a broadcast UNASSIGN precedes the first census. -/
def State.lineStart (s : State) (n : LaneId) : State :=
  let s := allAddrs.foldl (fun s (k : Fin 24) => if s.bind n k = 2 then s.setBind n k 1 else s) s
  let s := (s.put DUNC.COARSE n 0).upLine n fun l =>
    { l with startDue := false, bcastDue := true, censusDue := false, ticksDue := false, attnDue := none, censusAt := s.laneTime n,
             attnAt := s.clock, newcomer := false, passTries := 0, unassign := [], addrs := Vector.replicate 24 LineAddr.reset }
  s.lineStat n

def execLineStart (n : LaneId) (s : State) : Out := fin (if s.lineUp n && (s.line n).startDue then s.lineStart n else s)

/-- Nanoseconds between censuses (R306). -/
def censusNs : Nat := 250000000

/-- A whole multiple of 250 ms of lane time has come since the last. Time that has stepped back starts the count anew (log 120). -/
def execCensusDue (n : LaneId) (s : State) : Out :=
  fin (if s.lineUp n && !(s.line n).startDue then
    let t := s.laneTime n
    let due := decide ((s.line n).censusAt / censusNs < t / censusNs)
    if due || decide (t < (s.line n).censusAt) then
      s.upLine n fun l => { l with censusDue := l.censusDue || due, censusAt := t } else s
  else s)

/-- The participant with the lowest identity bits [63:12]. -/
def State.lowest (s : State) (n : LaneId) : Option (Fin 24) :=
  allAddrs.foldl (fun b p =>
    let q := s.pod n p
    if q.powered && q.joined && q.addr.isNone && q.answered then
      match b with
      | none => some p
      | some o => if q.id.toNat / 4096 < (s.pod n o).id.toNat / 4096 then some p else b
    else b) none

/-- The address that R310 gives an identity, of which bits [63:12] are known when it is chosen (R305, R309). -/
def State.addrFor (s : State) (n : LaneId) (id : Nat) : Option (Fin 24) :=
  match allAddrs.find? fun (k : Fin 24) => s.bind n k != 0 && s.bindId n k / 4096 == id / 4096 && (s.bind n k == 1 || !(s.la n k).seen) with
  | some k => some k
  | none =>
    match allAddrs.find? fun (k : Fin 24) => s.bind n k == 0 && !s.on DUNC.BIND_CTL_PIN n k with
    | some k => some k
    | none => allAddrs.find? fun (k : Fin 24) => s.bind n k == 1 && !s.on DUNC.BIND_CTL_PIN n k

/-- Can an address be given under R310 (R311): an entry that is not PINNED is free, or the lowest newcomer's own entry is? -/
def State.addrFree (s : State) (n : LaneId) : Bool :=
  ((List.range 24).any fun k => s.bind n k != 2 && !s.on DUNC.BIND_CTL_PIN n k)
    || (match s.lowest n with | some p => (s.addrFor n (s.pod n p).id.toNat).isSome | none => false)

/-- The presence, newcomer and attention slots of a ROLLCALL as the wire has them: true reads 0. -/
def State.slots (s : State) (n : LaneId) : Nat :=
  let ps := (s.line n).pods.toList
  let pres := (List.range 24).foldl (fun a k => a + if ps.any (fun p => p.powered && p.addr == some k) then 2 ^ k else 0) 0
  let att := (List.range 24).foldl (fun a k => a +
    if ps.any (fun p => p.powered && p.addr == some k && p.attn) then 2 ^ (25 + k) else 0) 0
  let new := if ps.any (fun p => p.powered && p.joined && p.addr.isNone) then 2 ^ 24 else 0
  pres + new + att

/-- An EVENT frame to address k falls due (R319). Its deadline counts from the last good reply, or from here if that was earlier (log 120).
-/
def State.evtDue (s : State) (n : LaneId) (k : Fin 24) : State :=
  s.upLa n k fun a => if a.due[2].isSome then a else { a with due := a.due.set 2 (some s.clock), goodAt := a.goodAt.set 2 s.clock }

/-- One address at a census: presence, departure at the third miss, a ghost, its attention slot. -/
def State.censusAddr (s : State) (n : LaneId) (k : Fin 24) (seen att : Bool) : State :=
  if s.bind n k = 2 then
    if seen then
      let s := s.upLa n k fun a => { a with missed := 0, seen := true }
      if att then s.evtDue n k else s
    else
      let s := s.upLa n k fun a => { a with missed := a.missed + 1, seen := false }
      if 3 ≤ (s.la n k).missed then s.depart n k else s
  else if seen then s.upLine n fun l => { l with unassign := l.unassign ++ [k.val] } else s

/-- A ROLLCALL. -/
def State.rollcall (s : State) (n : LaneId) (e : Wire) : State :=
  let ok := heardAll 4 0x1F [] e
  let said := if ok then s.slots n else 0
  let low (i : Nat) : Bool := (said / 2 ^ i % 2 == 1) != bitOf e.reply i
  let s := ((s.put DUNC.STAT_CENSUS n ((s.g DUNC.STAT_CENSUS n + 1) % 65536)).farDunc n 7).frameSeen n
  let defers := s.on DUNC.STAT_SEARCH_DUE n && !(s.line n).passed
  let s := if defers then s.bump DUNC.SEARCH_DEFERS n else s
  let new := low 24
  let t := s.laneTime n
  let roll := (List.range 24).foldl (fun a k => a + if low k then 2 ^ k else 0) 0
  let s := s.upLine n fun l =>
    { l with censusDue := false, ticksDue := true, edge := t, roll := roll, newcomer := new, passed := false, passTries := 0, unassign := [],
             unTries := 0,
             pods := l.pods.map fun p => if p.powered && ok then
               { p with lastRoll := s.clock, answered := p.answered || (p.joined && p.addr.isNone) } else p }
  let s := allAddrs.foldl (fun s (k : Fin 24) => s.censusAddr n k (low k) (low (25 + k))) s
  let due := new || !(s.line n).unassign.isEmpty
  let s := if due && !s.on DUNC.STAT_SEARCH_DUE n then s.upLine n fun l => { l with searchAt := s.clock } else s
  let s := s.put DUNC.STAT_SEARCH_DUE n (b2n due)
  let s := if due then s
    else ((s.put DUNC.SEARCH_OVERDUE_MS n 0).upLine n fun l => { l with noticed := false, searchFree := false, searchForced := false }).bgFollow n
  let full := new && !s.addrFree n
  let s := s.put DUNC.STAT_FULL n (b2n full)
  let told := (s.line n).fullRun
  let s := s.upLine n fun l => { l with fullRun := full }
  if full && !told then s.farDunc n 2 else s

/-- A frame that DL stuck low ends (R327). -/
def State.cutFrame (s : State) (n : LaneId) (e : Wire) : State := (s.attempt n false e).lineStuck n

def execRollcall (n : LaneId) (e : Wire) (s : State) : Out :=
  fin (if s.lineUp n && (s.line n).censusDue && !(s.line n).startDue && !(s.line n).bcastDue then
    (if e.stuck then s.cutFrame n e else s.rollcall n e) else s)

/-- The tick period behind an address, as nanoseconds over 256ths of a tick: the two most distant measured latches of the last
second, or the nominal 10 µs (R325). -/
def LineAddr.rate (a : LineAddr) : Nat × Int :=
  match a.latches.head?, a.latches.getLast? with
  | some (e1, t1), some (e0, t0) => if e0 < e1 ∧ t0 < t1 then (e1 - e0, t1 - t0) else (10000, 256)
  | _, _ => (10000, 256)

/-- R326: the stamps of the address are within ±20 µs. -/
def LineAddr.fine (a : LineAddr) : Bool := decide (2 ≤ a.latches.length) && decide (a.predicted ≤ 1)

/-- A latch of census edge `e`: measured ticks in 256ths, or predicted from the last (R325; log 23). -/
def LineAddr.latchAt (a : LineAddr) (e : Nat) (raw : Option Nat) : LineAddr :=
  match raw, a.latch with
  | some r, some (_, t0) =>
    let t := t0 + (((r : Int) - t0) % 16777216)
    { a with latches := ((e, t) :: a.latches).filter fun x => decide (e ≤ x.1 + 1000000000), latch := some (e, t), predicted := 0 }
  | some r, none => { a with latches := [(e, (r : Int))], latch := some (e, (r : Int)), predicted := 0 }
  | none, some (e0, t0) =>
    let (ns, tk) := a.rate
    { a with latch := some (e, t0 + ((e - e0 : Nat) : Int) * tk / (max ns 1 : Nat)), predicted := a.predicted + 1 }
  | none, none => a

/-- PODRATE: r_p against 10,000 ns in ppb (R325). -/
def LineAddr.ppb (a : LineAddr) : Int :=
  let (ns, tk) := a.rate
  roundRatio (((ns : Int) * 256 - 10000 * tk) * 100000) tk

/-- The TICKS reply as it is on the wire: each pod whose presence slot read 0 takes the turn that the slots before its own give it, four
bytes with a CRC-8 (R308). `turns` says what the pods that take their turn have latched, by pod number. -/
def State.ticksReply (s : State) (n : LaneId) (turns : List (Nat × BitVec 16 × BitVec 8)) : List (List Byte) :=
  let roll := (s.line n).roll
  turns.filterMap fun t =>
    if h : t.1 < 24 then
      match (s.pod n ⟨t.1, h⟩).powered, (s.pod n ⟨t.1, h⟩).addr with
      | true, some k =>
        if roll / 2 ^ k % 2 = 1 then
          let bs := beBytes 2 t.2.1.toNat ++ [t.2.2]
          some (List.replicate (4 * ((List.range k).countP fun i => roll / 2 ^ i % 2 == 1)) 0xFF ++ bs ++ [crc8 bs])
        else none
      | _, _ => none
    else none

/-- The TICKS frame: a turn whose CRC-8 checks gives the latch of its address; without one the latch is predicted (R308, R325). -/
def State.ticksFrame (s : State) (n : LaneId) (turns : List (Nat × BitVec 16 × BitVec 8)) (e : Wire) : State :=
  let edge := (s.line n).edge
  let roll := (s.line n).roll
  let rs := if heardAll 7 0x1F [1] e then s.ticksReply n turns else []
  let s := (s.frameSeen n).upLine n fun l => { l with ticksDue := false }
  allAddrs.foldl (fun s (k : Fin 24) =>
    if s.bind n k = 2 then
      let i := 4 * ((List.range k.val).countP fun i => roll / 2 ^ i % 2 == 1)
      let bs := (List.range 3).map fun j => replyByte rs e (i + j)
      let good := roll / 2 ^ k.val % 2 == 1 && crc8 bs == replyByte rs e (i + 3)
      let s := s.upLa n k fun a => a.latchAt edge (if good then some (beNat bs) else none)
      let s := s.p DUNC.PODRATE n k (wrapInt 32 (s.la n k).ppb)
      let m := s.g DUNC.COARSE n
      s.put DUNC.COARSE n (if (s.la n k).fine then m &&& (0xFFFFFF - 2 ^ k.val) else m ||| 2 ^ k.val)
    else s) s

def execTicks (n : LaneId) (turns : List (Nat × BitVec 16 × BitVec 8)) (e : Wire) (s : State) : Out :=
  fin (if s.lineUp n && (s.line n).ticksDue && !(s.line n).censusDue then
    (if e.stuck then s.cutFrame n e else s.ticksFrame n turns e) else s)

/-! ### Which frame is next (R316, R321, R327) -/

/-- Stream numbers: 0 accelerometer, 1 gyroscope, 2 events. -/
def streamIx (g : Bool) : Fin 3 := if g then 1 else 0

/-- The set of a stream is enabled at a present pod that has it. -/
def State.streamLive (s : State) (n : LaneId) (k : Fin 24) (g : Bool) : Bool :=
  s.bind n k == 2 && (if g then s.on DUNC.STREAM_EN_G n k && s.bindId n k / 2 ^ 56 == 0x36 else s.on DUNC.STREAM_EN_A n k)

/-- A foreground frame of the line, a census apart. -/
inductive LineFrame where
  | poll (k : Nat) (g : Bool)
  | attn
  | event (k : Nat)
  | request
  | own (k : Nat)
  deriving DecidableEq, Repr

/-- The order of frames due at one time; the lane's own frames come after a request (R316). -/
def LineFrame.rank : LineFrame → Nat
  | .poll _ _ => 0
  | .attn => 1
  | .event _ => 2
  | .request => 3
  | .own _ => 4

/-- Due frames with what orders them: 0 for a failed attempt to be repeated, then since when the frame is due, then its rank. Polls, ATTN and
EVENT frames stop in the far-side safe state; an address is not polled before its own frames are done (R336, R337). -/
def State.dueFrames (s : State) (n : LaneId) : List ((Nat × Nat × Nat) × LineFrame) :=
  let l := s.line n
  let e (tries since : Nat) (f : LineFrame) : List ((Nat × Nat × Nat) × LineFrame) := [((if tries = 0 then 1 else 0, since, f.rank), f)]
  let at_ (d : Option Nat) (tries : Nat) (f : LineFrame) : List ((Nat × Nat × Nat) × LineFrame) :=
    match d with | some t => e tries t f | none => []
  let talk := !(s.lane n).link.farSafe
  (if s.reqBusy n then e l.reqTries l.reqAt .request else [])
    ++ (if talk then at_ l.attnDue 0 .attn else [])
    ++ allAddrs.flatMap fun (k : Fin 24) =>
      let a := l.addrs[k]
      if s.bind n k = 2 then
        (if a.own.isEmpty then
          (if talk && s.streamLive n k false then at_ a.due[0] a.tries[0] (.poll k.val false) else [])
            ++ (if talk && s.streamLive n k true then at_ a.due[1] a.tries[1] (.poll k.val true) else [])
        else e a.ownTries a.ownDue (.own k.val))
          ++ (if talk then at_ a.due[2] a.tries[2] (.event k.val) else [])
      else []

/-- Is one place in the order before another? -/
def keyLt (a b : Nat × Nat × Nat) : Bool :=
  decide (a.1 < b.1) || (a.1 == b.1 && (decide (a.2.1 < b.2.1) || (a.2.1 == b.2.1 && decide (a.2.2 < b.2.2))))

/-- The foreground frame that the lane starts next: a failed attempt first, then the earliest due, ties in the order of R316 and then by rising
address. -/
def State.nextFrame (s : State) (n : LaneId) : Option LineFrame :=
  ((s.dueFrames n).foldl (fun (b : Option ((Nat × Nat × Nat) × LineFrame)) f =>
    match b with
    | none => some f
    | some c => if keyLt f.1 c.1 then some f else b) none).map Prod.snd

/-- The lane sends frame f now: nothing stands before it, a due UNASSIGN of a ghost included (R314, R316). -/
def State.sends (s : State) (n : LaneId) (f : LineFrame) : Bool :=
  s.lineFree n && (s.line n).unassign.isEmpty && s.nextFrame n == some f

/-- A failed attempt of stream i at address k: repeated, or given up until it is due again. -/
def State.streamFail (s : State) (n : LaneId) (k : Fin 24) (i : Fin 3) : State :=
  let t := (s.la n k).tries[i] + 1
  s.upLa n k fun a =>
    if s.spent n t then { a with tries := a.tries.set i 0, due := a.due.set i none } else { a with tries := a.tries.set i t }

/-- A good reply of stream i: the toggle inverts, LOST shows as GAP. -/
def State.streamGood (s : State) (n : LaneId) (k : Fin 24) (i : Fin 3) (lost : Nat) (again : Bool) : State :=
  s.upLa n k fun a =>
    { a with tries := a.tries.set i 0, due := a.due.set i (if again then some s.clock else none), toggle := a.toggle.set i (!a.toggle[i]),
             goodAt := a.goodAt.set i s.clock, gap := if lost = 0 then a.gap else a.gap.set i true }

/-! ### Streams (R316, R317, R325, R338, R339) -/

/-- The stamp of a tick at address k: free while there has been no latch at all (log 4). -/
def State.podStamp (s : State) (n : LaneId) (k : Fin 24) (tick : BitVec 16) : Word × State :=
  let a := s.la n k
  match a.latch with
  | none => s.fresh
  | some (e, t) =>
    let (ns, tk) := a.rate
    let d : Int := signedOf 16 (wrapInt 16 ((tick.toNat : Int) - t / 256))
    (BitVec.ofInt 32 ((e : Int) + roundRatio ((d * 256 + 128 - t % 256) * (ns : Int)) tk), s)

/-- MAX of a POLL (R316). -/
def pollMax (rate us : Nat) : Nat := min 8 ((rate * us + 999999) / 1000000 + 1)

/-- Line flags of a stream's next slug: TIME_COARSE, GAP, BACKGROUND_PREEMPTED; the last two show once (R328). -/
def State.lineFlags (s : State) (n : LaneId) (k : Fin 24) (i : Fin 3) : Nat × State :=
  let a := s.la n k
  (b2n (!a.fine) + 2 * b2n a.gap[i] + 4 * b2n a.pre[i], s.upLa n k fun a => { a with gap := a.gap.set i false, pre := a.pre.set i false })

/-- One accepted sample record: the slug, if the stream's GAL is 1, and the M chain's input (R254, R316, R339). -/
def State.takeRec (s : State) (n : LaneId) (k : Fin 24) (g : Bool) (r : PodRec) : State :=
  let (st, s) := s.podStamp n k r.tick
  let (f, s) := s.lineFlags n k (streamIx g)
  let edge (v : BitVec 16) : Bool := v == 0x8000 || v == 0x7FFF
  let f := f + 8 * b2n (edge r.x || edge r.y || edge r.z)
  let rate := if g then s.g DUNC.STREAM_RATE_G n k else s.g DUNC.STREAM_RATE_A n k
  let range := if g then (s.la n k).rangeG else (s.la n k).rangeA
  let gal := if g then s.on DUNC.STREAM_GAL_G n k else s.on DUNC.STREAM_GAL_A n k
  let s := if gal then
    s.slug n (0x10 + k.val) f st (r.x ++ r.y : BitVec 32)
      (BitVec.ofNat 32 (r.z.toNat * 65536 + (128 * b2n g + 16 * range + rate) * 256)) else s
  if s.g CHAIN.M_SRC_ADDR n = k.val ∧ s.on CHAIN.M_SRC_SET n = g ∧ s.on CHAIN.STAT_RUNNING n 3 = true then
    s.mTake n ⟨st, r.x.toInt, r.y.toInt, r.z.toInt, f⟩
  else s

/-- The first byte of a POLL or EVENT reply gives its length, two bytes and 8 for each record; more than MAX records fail (R303, R321). -/
def recordLen (mx len : Nat) : Option Nat := if mx < len then none else some (2 + 8 * len)

/-- The records of a reply. -/
def chunks8 : Nat → List Byte → List (List Byte)
  | 0, _ => []
  | k + 1, bs => bs.take 8 :: chunks8 k (bs.drop 8)

/-- One POLL attempt. -/
def State.pollFrame (s : State) (n : LaneId) (k : Fin 24) (g : Bool) (e : Wire) : State :=
  let i := streamIx g
  let a := s.la n k
  let rate := rateHz (if g then s.g DUNC.STREAM_RATE_G n k else s.g DUNC.STREAM_RATE_A n k)
  let mx := pollMax rate (s.g DUNC.STREAM_POLL_US n k)
  match s.ask n k 0 [BitVec.ofNat 8 (128 * b2n a.toggle[i] + 16 * b2n g + mx)] (a.tries[i] != 0) (recordLen mx) e with
  | (.stuck, s) => s
  | (.good bs, s) =>
    let flags := (bs[1]?.getD 0).toNat
    let s := (s.streamGood n k i (flags % 128) false).nextSeq n (0x10 + k.val) (flags % 128)
    let s := if 128 ≤ flags then s.evtDue n k else s
    (chunks8 (bs[0]?.getD 0).toNat (bs.drop 2)).foldl (fun s r => s.takeRec n k g (recOfBytes r)) s
  | (_, s) => s.streamFail n k i

def execPoll (n : LaneId) (k : Fin 24) (g : Bool) (e : Wire) (s : State) : Out :=
  fin (if s.sends n (.poll k.val g) then s.pollFrame n k g e else s)

/-- A POLL falls due at every whole multiple of POLL_US after the pod's arrival (R316). -/
def execPollDue (n : LaneId) (k : Fin 24) (g : Bool) (s : State) : Out :=
  let i : Fin 2 := if g then 1 else 0
  let a := s.la n k
  let p := usTicks * max (s.g DUNC.STREAM_POLL_US n k) 1
  fin (if s.lineUp n && s.streamLive n k g && decide ((a.polledAt[i] - a.arrived) / p < (s.clock - a.arrived) / p) then
    s.upLa n k fun a =>
      { a with polledAt := a.polledAt.set i s.clock,
               due := a.due.set (streamIx g) (some (a.due[streamIx g].getD (a.arrived + (s.clock - a.arrived) / p * p))) }
  else s)

/-! ### Events (R319, R350 to R352) -/

/-- One event record becomes a slug. -/
def State.takeEvt (s : State) (n : LaneId) (k : Fin 24) (r : PodEvt) : State :=
  let (st, s) := s.podStamp n k r.tick
  let (f, s) := s.lineFlags n k 2
  let clip := if (1 ≤ r.kind ∧ r.kind ≤ 3) ∨ r.kind = 7 then r.info / 8 % 2 else 0
  s.slug n 0x33 (f + 8 * clip) st (BitVec.ofNat 32 (k.val * 2 ^ 24 + r.kind * 65536 + r.info * 256)) r.arg

def State.eventFrame (s : State) (n : LaneId) (k : Fin 24) (e : Wire) : State :=
  let a := s.la n k
  match s.ask n k 3 [BitVec.ofNat 8 (128 * b2n a.toggle[2] + 4)] (a.tries[2] != 0) (recordLen 4) e with
  | (.stuck, s) => s
  | (.good bs, s) =>
    let flags := (bs[1]?.getD 0).toNat
    let s := (s.streamGood n k 2 (flags % 128) (decide (128 ≤ flags))).nextSeq n 0x33 (flags % 128)
    (chunks8 (bs[0]?.getD 0).toNat (bs.drop 2)).foldl (fun s r => s.takeEvt n k (evtOfBytes r)) s
  | (_, s) => s.streamFail n k 2

def execEvent (n : LaneId) (k : Fin 24) (e : Wire) (s : State) : Out :=
  fin (if s.sends n (.event k.val) then s.eventFrame n k e else s)

/-- ATTN_US has passed since the last ATTN frame fell due (R319). -/
def execAttnDue (n : LaneId) (s : State) : Out :=
  let p := usTicks * max (s.g DUNC.CFG_ATTN_US n) 1
  fin (if s.lineUp n && decide ((s.line n).attnAt + p ≤ s.clock) then
    s.upLine n fun l => { l with attnDue := some (l.attnDue.getD (l.attnAt + p)), attnAt := l.attnAt + (s.clock - l.attnAt) / p * p } else s)

/-- An ATTN frame: the 24 attention slots. -/
def State.attnFrame (s : State) (n : LaneId) (e : Wire) : State :=
  let said := if heardAll 5 0x1F [] e then s.slots n / 2 ^ 25 else 0
  let s := (s.frameSeen n).upLine n fun l => { l with attnDue := none }
  allAddrs.foldl (fun s (k : Fin 24) =>
    if ((said / 2 ^ k.val % 2 == 1) != bitOf e.reply k.val) && s.bind n k == 2 then s.evtDue n k else s) s

def execAttn (n : LaneId) (e : Wire) (s : State) : Out :=
  fin (if s.sends n .attn then (if e.stuck then s.cutFrame n e else s.attnFrame n e) else s)

/-! ### The lane's own frames and requests (R320, R321, R333, R336, R337) -/

/-- The lane gives up a set-up: UNASSIGN to the address (R336). -/
def State.setupFails (s : State) (n : LaneId) (k : Fin 24) : State :=
  (s.upLa n k fun a => { a with own := [], ownTries := 0, ownFrom := none }).upLine n fun l => { l with unassign := l.unassign ++ [k.val] }

/-- An attempt of an own frame failed. -/
def State.ownFail (s : State) (n : LaneId) (k : Fin 24) : State :=
  let t := (s.la n k).ownTries + 1
  if s.spent n t then s.setupFails n k else s.upLa n k fun a => { a with ownTries := t }

/-- An own frame is done. -/
def State.ownDone (s : State) (n : LaneId) (k : Fin 24) : State :=
  s.upLa n k fun a => { a with own := a.own.drop 1, ownTries := 0, ownFrom := if a.own.length ≤ 1 then none else a.ownFrom }

/-- The first of a run of own frames starts the 20 ms of R336. -/
def State.ownStart (s : State) (n : LaneId) (k : Fin 24) : State := s.upLa n k fun a => { a with ownFrom := some (a.ownFrom.getD s.clock) }

/-- Bytes of an own WRITE: register and data. -/
def State.ownWrite (s : State) (n : LaneId) (k : Fin 24) (f : OwnFrame) : Nat × List Byte :=
  match f with
  | .writeA => (0x10, [BitVec.ofNat 8 (16 * (s.la n k).rangeA + s.g DUNC.STREAM_RATE_A n k)])
  | .writeG => (0x11, [BitVec.ofNat 8 (16 * (s.la n k).rangeG + s.g DUNC.STREAM_RATE_G n k)])
  | _ => (0x12, [BitVec.ofNat 8 (b2n (s.streamLive n k false) + 2 * b2n (s.streamLive n k true))])

/-- Put reply bytes into RESP, first byte in [31:24] of word 0. -/
def State.setResp (s : State) (n : LaneId) (bs : List Byte) : State :=
  (List.range 8).foldl (fun s i =>
    let b (j : Nat) : Nat := (bs[4 * i + j]?.getD 0).toNat
    s.p DUNC.RESP n i (b 0 * 2 ^ 24 + b 1 * 2 ^ 16 + b 2 * 2 ^ 8 + b 3)) s

/-- The REQ_DATA bytes. -/
def State.reqBytes (s : State) (n : LaneId) : List Byte :=
  (List.range (s.g DUNC.REQ_COUNT n)).map fun i => BitVec.ofNat 8 (s.g DUNC.REQ_DATA n (i / 4) / 256 ^ (3 - i % 4))

/-- A failed attempt of the request; `acked` says the pod answered it. Of attempts that failed in different ways the outcome is CRC (log 121). -/
def State.reqFail (s : State) (n : LaneId) (acked : Bool) : State :=
  let t := (s.line n).reqTries + 1
  let acked := (s.line n).reqAcked || acked
  let s := (s.upLine n fun l => { l with reqTries := t, reqAcked := acked }).put DUNC.REQ_STAT_ATTEMPTS n (min t 255)
  if s.spent n t then s.reqDone n (if acked then 2 else 1) 0 else s

/-- A good attempt of the request. -/
def State.reqGood (s : State) (n : LaneId) (code : Nat) (bs : List Byte) : State :=
  ((s.put DUNC.REQ_STAT_ATTEMPTS n (min ((s.line n).reqTries + 1) 255)).setResp n bs).reqDone n code bs.length

/-- The lane takes note of a range that a request has written (R337). -/
def State.noteRange (s : State) (n : LaneId) (k : Fin 24) (reg : Nat) (bs : List Byte) : State :=
  s.upLa n k fun a =>
    { a with rangeA := if reg ≤ 0x10 ∧ 0x10 < reg + bs.length then (bs[0x10 - reg]?.getD 0).toNat / 16 % 8 else a.rangeA,
             rangeG := if reg ≤ 0x11 ∧ 0x11 < reg + bs.length then (bs[0x11 - reg]?.getD 0).toNat / 16 % 4 else a.rangeG }

/-- The request is for a READ, WRITE or IDENTIFY of address k. -/
def State.reqIs (s : State) (n : LaneId) (op : Nat) (k : Nat) : Bool := s.reqBusy n && s.g DUNC.REQ_OP n == op && s.g DUNC.REQ_ADDR n == k

/-- A READ frame: the lane's own reading of A_CFG and G_CFG, or the request's. -/
def State.readFrame (s : State) (n : LaneId) (k : Fin 24) (own : Bool) (e : Wire) : State :=
  let s := if own then s.ownStart n k else s
  let reg := if own then 0x10 else s.g DUNC.REQ_REG n
  let cnt := if own then 2 else s.g DUNC.REQ_COUNT n
  match s.ask n k 1 [BitVec.ofNat 8 reg, BitVec.ofNat 8 cnt] (if own then (s.la n k).ownTries != 0 else (s.line n).reqTries != 0)
      (fun _ => some cnt) e with
  | (.stuck, s) => s
  | (.good bs, s) => if own then (s.ownDone n k).noteRange n k 0x10 bs else s.reqGood n 0 bs
  | (h, s) => if own then s.ownFail n k else s.reqFail n (h != .noAck)

def execPodRead (n : LaneId) (k : Fin 24) (own : Bool) (e : Wire) (s : State) : Out :=
  fin (if s.sends n (if own then .own k.val else .request) && (if own then (s.la n k).own.head? == some .readCfg else s.reqIs n 1 k) then
    s.readFrame n k own e else s)

/-- A WRITE frame: the pod checks it, answers its STATUS, and applies it later (R333). -/
def State.writeFrame (s : State) (n : LaneId) (k : Fin 24) (own : Bool) (e : Wire) : State :=
  let s := if own then s.ownStart n k else s
  let (reg, bs) := if own then s.ownWrite n k ((s.la n k).own.head?.getD .writeStream) else (s.g DUNC.REQ_REG n, s.reqBytes n)
  match s.ask n k 2 (BitVec.ofNat 8 reg :: BitVec.ofNat 8 bs.length :: bs) (if own then (s.la n k).ownTries != 0 else (s.line n).reqTries != 0)
      (fun _ => some 1) e with
  | (.stuck, s) => s
  | (.good r, s) =>
    let st := (r[0]?.getD 0).toNat
    if own then (if st = 0 then s.ownDone n k else s.ownFail n k)
    else if st = 0 then (s.reqGood n 0 []).noteRange n k reg bs
    else s.reqGood n 3 [0, 0, 0, BitVec.ofNat 8 st]
  | (h, s) => if own then s.ownFail n k else s.reqFail n (h != .noAck)

def execPodWrite (n : LaneId) (k : Fin 24) (own : Bool) (e : Wire) (s : State) : Out :=
  fin (if s.sends n (if own then .own k.val else .request)
      && (if own then (match (s.la n k).own.head? with | none => false | some f => f != .readCfg) else s.reqIs n 2 k) then
    s.writeFrame n k own e else s)

/-- IDENTIFY of the request's address. -/
def State.identifyFrame (s : State) (n : LaneId) (k : Nat) (e : Wire) : State :=
  match s.ask n k 7 [3] ((s.line n).reqTries != 0) (fun _ => some 8) e with
  | (.stuck, s) => s
  | (.good bs, s) => s.reqGood n 0 bs
  | (h, s) => s.reqFail n (h != .noAck)

def execIdentify (n : LaneId) (e : Wire) (s : State) : Out :=
  let k := s.g DUNC.REQ_ADDR n
  fin (if s.sends n .request && s.reqIs n 3 k then s.identifyFrame n k e else s)

/-! ### Search and assignment (R309 to R314, R323, R324) -/

/-- A found pod of identity `id` has address k: an arrival, or the return of R314. -/
def State.assign (s : State) (n : LaneId) (id : Nat) (k : Fin 24) : State :=
  let back := s.bind n k == 2
  let s := if back then
      s.upLa n k fun a => { a with missed := 0, gap := Vector.replicate 3 true, own := [], ownTries := 0, ownFrom := none }
    else
      let s := (((s.setBindId n k id).setBind n k 2).bump DUNC.ARRIVALS n).farDunc n 0
      s.upLa n k fun _ =>
        { LineAddr.reset with arrived := s.clock, polledAt := Vector.replicate 2 s.clock, goodAt := Vector.replicate 3 s.clock }
  s.owe n k (s.setupOf n k)

/-- Two-bit digit `j` of an identity (R309). -/
def digit (id j : Nat) : Nat := id / 2 ^ (2 * j + 12) % 4

/-- What the pods of a pass and the lane make of the digit rounds: the digits the lane has written, as one number, and the pods still taking
part. Digit slot `i` of round 25 − j is bit 4 (25 − j) + i of the reply; the lane's two bits follow the 16 of the command. `none`: a round
without a slot that read 0. -/
def rounds (e : Wire) : Nat → List (Fin 24 × Nat) → Nat → Option (Nat × List (Fin 24 × Nat))
  | 0, ps, acc => some (acc, ps)
  | j + 1, ps, acc =>
    let r := 25 - j
    match (List.range 4).find? fun i => (ps.any fun p => digit p.2 j == i) != bitOf e.reply (4 * r + i) with
    | none => none
    | some d =>
      let heard := 2 * b2n ((d / 2 == 1) != bitOf e.cmd (16 + 2 * r)) + b2n ((d % 2 == 1) != bitOf e.cmd (17 + 2 * r))
      rounds e j (ps.filter fun p => digit p.2 j == heard) (acc * 4 + d)

/-- The pods that take part in a pass, with their identities (R309). -/
def State.seekers (s : State) (n : LaneId) : List (Fin 24 × Nat) :=
  (allAddrs.filter fun p => (s.pod n p).powered && (s.pod n p).addr.isNone && (s.pod n p).answered).map fun p => (p, (s.pod n p).id.toNat)

/-- The pass failed; it is repeated under R321. -/
def State.passFails (s : State) (n : LaneId) : State := s.upLine n fun l => { l with passTries := l.passTries + 1 }

/-- A pass (Table: Search pass). The pods that remain adopt the address as they heard it on a CONFIRM that they heard as 0; the lane's entry
follows on an ACK that it reads as 0. A read-back that fails counts in CRC_ERRS and a missing ACK in NO_ACKS (log 121). -/
def State.searchPass (s : State) (n : LaneId) (e : Wire) : State :=
  let again := (s.line n).passTries != 0
  let s := (s.attempt n again e).upLine n fun l => { l with passed := true }
  let s := if (s.line n).searchForced then
    allAddrs.foldl (fun s (k : Fin 24) => if s.bind n k = 2 then s.upLa n k fun a => { a with pre := Vector.replicate 3 true } else s) s else s
  let ps := if heardAll 6 0x1E [] { e with cmd := e.cmd.take 2 } then s.seekers n else []
  match rounds e 26 ps 0 with
  | none => s.passFails n
  | some (hi, ps) =>
    match s.addrFor n (hi * 4096) with
    | none => s.passFails n
    | some k =>
      let crc := (List.range 12).foldl (fun a i => a * 2 + b2n ((ps.all fun p => p.2 / 2 ^ (11 - i) % 2 == 1) != bitOf e.reply (104 + i))) 0
      let id := hi * 4096 + crc
      let confirm := idValid (BitVec.ofNat 64 id)
      let addr := (List.range 8).foldl (fun a i => a * 2 + b2n ((k.val / 2 ^ (7 - i) % 2 == 1) != bitOf e.cmd (68 + i))) 0
      let taken := confirm != bitOf e.cmd 76
      let s := if taken && decide (addr < 24) then
        ps.foldl (fun s p => s.upPod n p.1 fun q => { q with addr := some addr, answered := false }) s else s
      let acked := (taken && decide (addr < 24) && !ps.isEmpty) != e.ack
      if !confirm then (s.bump DUNC.CRC_ERRS n).passFails n
      else if acked then (s.upLine n fun l => { l with passTries := 0 }).assign n id k
      else (s.bump DUNC.NO_ACKS n).passFails n

/-- Ticks until time `t` next is a whole multiple of `p`, at most `p`. -/
def untilNext (t p : Nat) : Nat := p - t % p

/-- A foreground frame falls due within so many ticks: the census, ATTN, a POLL, or one that is due already (R323). -/
def State.foregroundIn (s : State) (n : LaneId) (d : Nat) : Bool :=
  let talk := !(s.lane n).link.farSafe
  let us (i : Nat) : Nat := usTicks * max i 1
  (s.nextFrame n).isSome || decide (untilNext (s.laneTime n) censusNs < 5 * d)
    || (talk && decide ((s.line n).attnAt + us (s.g DUNC.CFG_ATTN_US n) < s.clock + d))
    || (talk && allAddrs.any fun (k : Fin 24) => (s.streamLive n k false || s.streamLive n k true)
        && decide (untilNext (s.clock - (s.la n k).arrived) (us (s.g DUNC.STREAM_POLL_US n k)) < d))

/-- A pass runs: a search is due for a newcomer, an address is free, the passes of this census have not used up their repetitions, and no
foreground frame falls due within its 197 slots unless the search is granted or forced. -/
def State.mayPass (s : State) (n : LaneId) : Bool :=
  s.lineFree n && s.on DUNC.STAT_SEARCH_DUE n && (s.line n).newcomer && (s.line n).unassign.isEmpty && s.addrFree n && !s.spent n (s.line n).passTries
    && ((s.line n).searchFree || (s.line n).searchForced || !s.foregroundIn n (197 * tauUs (s.g DUNC.CFG_SPEED n) * usTicks))

def execSearch (n : LaneId) (e : Wire) (s : State) : Out :=
  fin (if s.mayPass n then (if e.stuck then s.cutFrame n e else s.searchPass n e) else s)

/-- Every pod that hears a broadcast UNASSIGN gives up its short address (R312, R315). -/
def State.unassignAll (s : State) (n : LaneId) (e : Wire) : State :=
  let ok := heardAll 7 0x1F [2] e
  (s.frameSeen n).upLine n fun l =>
    { l with bcastDue := false, pods := l.pods.map fun p => if p.powered && ok then { p with addr := none, answered := false } else p }

/-- EXT UNASSIGN to one address, repeated under R321. -/
def State.unassignOne (s : State) (n : LaneId) (k : Fin 24) (e : Wire) : State :=
  let done (s : State) : State := s.upLine n fun l => { l with unassign := l.unassign.filter (· != k.val), unTries := 0 }
  match s.ask n k 7 [2] ((s.line n).unTries != 0) (fun _ => some 0) e with
  | (.stuck, s) => s
  | (.good _, s) => done s
  | (_, s) =>
    let t := (s.line n).unTries + 1
    if s.spent n t then done s else s.upLine n fun l => { l with unTries := t }

/-- EXT UNASSIGN: every pod at a start of the line, or the pod at the address whose turn it is. -/
def execUnassign (n : LaneId) (k : Option (Fin 24)) (e : Wire) (s : State) : Out :=
  fin (match k with
    | none => if s.lineUp n && (s.line n).bcastDue then (if e.stuck then s.cutFrame n e else s.unassignAll n e) else s
    | some k => if s.lineFree n && (s.line n).unassign.head? == some k.val then s.unassignOne n k e else s)

/-- The search has been due for so many milliseconds. -/
def State.searchDueFor (s : State) (n : LaneId) (ms : Nat) : Bool :=
  s.lineUp n && s.on DUNC.STAT_SEARCH_DUE n && decide ((s.line n).searchAt + ms * msTicks ≤ s.clock)

def execSearchNotice (n : LaneId) (s : State) : Out :=
  fin (if s.searchDueFor n 1000 && !(s.line n).noticed then
    ((s.upLine n fun l => { l with noticed := true }).bgFollow n).farDunc n 5 else s)

def execSearchForced (n : LaneId) (s : State) : Out :=
  fin (if s.searchDueFor n 2000 && !(s.line n).searchForced then
    (s.upLine n fun l => { l with searchForced := true }).bump DUNC.SEARCH_PREEMPTS n else s)

/-- One second passes for a due search: SEARCH_OVERDUE_MS is brought up to date (log 17). -/
def State.searchSecond (s : State) (n : LaneId) : State :=
  if s.on DUNC.STAT_SEARCH_DUE n then s.put DUNC.SEARCH_OVERDUE_MS n (min 0xFFFF ((s.clock - (s.line n).searchAt) / msTicks)) else s

/-! ### Deadlines (R321) -/

/-- The deadline of a job has passed, and there is something for it to end: 64 / RATE or 20 ms from the stream's last good reply, TIMEOUT_US from
GO, the next census edge, 20 ms from the first frame of a set-up. The far-side safe state stops no deadline (R504). -/
def State.deadlineDue (s : State) (n : LaneId) (job : LineJob) : Bool :=
  let past (t0 us : Nat) : Bool := decide (t0 + us * usTicks ≤ s.clock)
  match job with
  | .poll k g =>
    let rate := rateHz (if g then s.g DUNC.STREAM_RATE_G n k else s.g DUNC.STREAM_RATE_A n k)
    s.streamLive n k g && (s.la n k).due[streamIx g].isSome
      && decide (64 * 1000000 * usTicks ≤ (s.clock - (s.la n k).goodAt[streamIx g]) * rate)
  | .event k => s.bind n k == 2 && (s.la n k).due[2].isSome && past (s.la n k).goodAt[2] 20000
  | .request => s.reqBusy n && past (s.line n).reqAt (s.g DUNC.REQ_TIMEOUT_US n)
  | .search => s.on DUNC.STAT_SEARCH_DUE n && (s.line n).passTries != 0 && (s.line n).censusDue
  | .setup k => !(s.la n k).own.isEmpty && (match (s.la n k).ownFrom with | some t => past t 20000 | none => false)

/-- An upper deadline passes; `lateGood` says an attempt ended good at that very boundary. The stream's next deadline counts from here (log
120). -/
def State.deadline (s : State) (n : LaneId) (job : LineJob) (lateGood : Bool) : State :=
  let late (s : State) : State := if lateGood then s.bump DUNC.LATE_DISCARD n else s
  let aborted (s : State) : State := late (s.bump DUNC.LOWER_ABORTED n)
  let stream (s : State) (k : Fin 24) (i : Fin 3) : State :=
    (aborted (s.upLa n k fun a =>
      { a with tries := a.tries.set i 0, due := a.due.set i none, gap := a.gap.set i true, goodAt := a.goodAt.set i s.clock })).farDunc n 4
  match job with
  | .poll k g => stream s k (streamIx g)
  | .event k => stream s k 2
  | .request => (aborted s).reqDone n 4 0
  | .search => aborted (s.upLine n fun l => { l with passTries := 0 })
  | .setup k => (late s).setupFails n k

def execDuncolDeadline (n : LaneId) (job : LineJob) (lateGood : Bool) (s : State) : Out :=
  fin (if s.lineUp n && s.deadlineDue n job then s.deadline n job lateGood else s)

/-! ### Line faults and supplies (R298, R312, R327) -/

/-- DL has been high for 10 ms, and so for as long since the line stuck. -/
def execLineFaultRecovery (n : LaneId) (s : State) : Out :=
  fin (if s.farUp n && s.on DUNC.STAT_LINE_FAULT n && decide ((s.line n).faultAt + 10000 * usTicks ≤ s.clock) then
    ((s.put DUNC.STAT_LINE_FAULT n 0).upLine n fun l => { l with startDue := true }).lineStat n else s)

def execDpFault (n : LaneId) (s : State) : Out :=
  fin (if s.farUp n && !s.on DUNC.STAT_DP_FAULT n then (s.put DUNC.STAT_DP_FAULT n 1).farDunc n 6 else s)

def execDpFaultEnd (n : LaneId) (s : State) : Out :=
  fin (if s.farUp n then s.put DUNC.STAT_DP_FAULT n 0 else s)

def execPodJoin (n : LaneId) (p : Fin 24) (s : State) : Out :=
  fin (s.onPod n p fun q => if q.joined || q.frames < 2 then q else { q with joined := true, answered := false })

/-- A pod that has seen no correct ROLLCALL for 2 s, counted from its power-up if it has seen none. -/
def execPodAddressTimeout (n : LaneId) (p : Fin 24) (s : State) : Out :=
  fin (s.onPod n p fun q =>
    if q.addr.isSome && decide (q.lastRoll + 2000000 * usTicks ≤ s.clock) then { q with addr := none, answered := false } else q)

/-- The line's supply goes: every pod loses its power, with it its queues, capture and address (R312, R335, R348). -/
def State.lineDark (s : State) (n : LaneId) : State :=
  s.upLine n fun l =>
    { l with pods := l.pods.map fun p => { Pod.reset with id := p.id, fw := p.fw, profile := p.profile, saves := p.saves } }

/-- A converter trip: every present pod departs; the line restarts after REARM (R327). -/
def State.lineTrip (s : State) (n : LaneId) : State :=
  State.lineStat (if s.run (.lane n .dunc) then ((s.departAll n).lineDark n).upLine n fun l => { l with startDue := true } else s.lineDark n) n

/-! ### Register writes (R13, R310, R318, R320, R322) -/

/-- The line load L in millionths of a slot per second, in the near-side image (R318; log 26). -/
def State.load6 (s : State) (n : LaneId) : Nat :=
  let one (en rate us : Nat) : Nat := if en = 1 then 52000000000000 / max us 1 + 64000000 * rateHz rate else 0
  3452000000 + 43000000000000 / max (s.gi DUNC.CFG_ATTN_US n) 1
    + ((List.range 24).map fun k =>
        let us := s.gi DUNC.STREAM_POLL_US n k
        one (s.gi DUNC.STREAM_EN_A n k) (s.gi DUNC.STREAM_RATE_A n k) us + one (s.gi DUNC.STREAM_EN_G n k) (s.gi DUNC.STREAM_RATE_G n k) us).foldl (· + ·) 0

/-- Is L above its limit? -/
def State.overLoad (s : State) (n : LaneId) : Bool :=
  decide ((if s.gi DUNC.CFG_SPEED n = 1 then 850000000000 else 53125000000) < s.load6 n)

/-- R322 for the streams of address k, in the near-side image. -/
def State.streamBudgetBad (s : State) (n : LaneId) (k : Nat) : Bool :=
  let tries := s.gi DUNC.CFG_RETRY_LIMIT n + 1
  let tau := tauUs (s.gi DUNC.CFG_SPEED n)
  let us := s.gi DUNC.STREAM_POLL_US n k
  let bad (rate : Nat) : Bool := decide (9 * 64000000 < (52 + 64 * pollMax rate us) * tau * tries * 10 * rate)
  (s.gi DUNC.STREAM_EN_A n k == 1 && bad (rateHz (s.gi DUNC.STREAM_RATE_A n k)))
    || (s.gi DUNC.STREAM_EN_G n k == 1 && bad (rateHz (s.gi DUNC.STREAM_RATE_G n k)))

/-- R322 for EVENT frames, whose deadline is 20 ms. -/
def State.eventBudgetBad (s : State) (n : LaneId) : Bool :=
  decide (18000 < (52 + 64 * 4) * tauUs (s.gi DUNC.CFG_SPEED n) * (s.gi DUNC.CFG_RETRY_LIMIT n + 1))

/-- R320: the checks of GO, on the request as the press would leave it. -/
def reqGoChk (old : State) (n : LaneId) (s : State) : Option Nat :=
  let a := s.gi DUNC.REQ_ADDR n
  let tmo := s.gi DUNC.REQ_TIMEOUT_US n
  let c := s.gi DUNC.REQ_COUNT n
  if old.reqBusy n || decide (23 < a) || s.gi DUNC.REQ_OP n == 0 || decide (tmo < 1000) || decide (1000000 < tmo) || c == 0 || decide (32 < c)
  then some errRange
  else if old.bind n a ≠ 2 then some errAbsent
  else if 9 * tmo < 10 * ((52 + 8 * c) * tauUs (s.gi DUNC.CFG_SPEED n) * (s.gi DUNC.CFG_RETRY_LIMIT n + 1)) then some errBudget
  else none

/-- The checks of one DUNC word, on the state that the press would leave. -/
def duncChk (old : State) (n : LaneId) (off : Nat) (v : Word) (s : State) : Option Nat :=
  let raises := decide (old.load6 n < s.load6 n) && s.overLoad n
  let up := decide (old.committed64 n < s.committed64 n) && s.overRate n
  if off = 0x11 then
    if bitsOf v 31 16 < 100 ∨ raises = true then some errRange
    else if s.eventBudgetBad n || (List.range 24).any (s.streamBudgetBad n) then some errBudget else none
  else if off = 0x28 then
    if bitAt v 31 then reqGoChk old n s
    else if 23 < bitsOf v 20 16 ∨ bitsOf v 9 8 = 0 then some errRange else none
  else if off = 0x29 then
    if bitsOf v 31 12 < 1000 ∨ 1000000 < bitsOf v 31 12 ∨ bitsOf v 5 0 = 0 ∨ 32 < bitsOf v 5 0 then some errRange else none
  else if 0x40 ≤ off ∧ off ≤ 0x57 then
    let us := bitsOf v 15 0
    if bitsOf v 22 20 = 7 ∨ 5 < bitsOf v 26 24 ∨ us < 100 ∨ 7000000 < rateHz (bitsOf v 22 20) * us ∨ 7000000 < rateHz (bitsOf v 26 24) * us
      ∨ raises = true ∨ up = true then some errRange
    else if s.streamBudgetBad n (off - 0x40) then some errBudget else none
  else if 0x70 ≤ off ∧ off ≤ 0x9F then
    let k := (off - 0x70) / 2
    let id := s.gi DUNC.BIND_ID_HI n k * 2 ^ 32 + s.gi DUNC.BIND_ID_LO n k
    if old.bind n k = 2 ∨ idValid (BitVec.ofNat 64 id) = false then some errRange else none
  else none

/-- The words of a STREAM word's address are written to its pod (R313, R336). -/
def State.restream (s : State) (n : LaneId) (k : Fin 24) : State :=
  if s.bind n k = 2 then
    s.owe n k ((s.setupOf n k).drop 1)
  else s

/-- GO takes effect: BUSY. -/
def State.reqStart (s : State) (n : LaneId) : State :=
  let s := ((s.put DUNC.REQ_STAT_STATE n 1).put DUNC.REQ_STAT_CODE n 0).put DUNC.REQ_STAT_ATTEMPTS n 0
  (s.put DUNC.REQ_STAT_LEN n 0).upLine n fun l => { l with reqAt := s.clock, reqTries := 0, reqAcked := false }

/-- The effect of an accepted DUNC word. -/
def duncEff (n : LaneId) (off : Nat) (v proof : Word) (s : State) : State :=
  let p := Page.lane n .dunc
  if off = 2 then
    if bitAt v 30 then s
    else
      let was := s.run p
      let s := s.setRun p (bitAt v 0)
      State.lineStat (if bitAt v 0 && !was then s.upLine n fun l => { l with startDue := true } else s) n
  else if off = 0x10 then
    let s := if bitAt v 1 then
      (List.range 24).foldl (fun s k => if s.bind n k = 1 ∧ s.on DUNC.BIND_CTL_PIN n k = false then (s.setBindId n k 0).setBind n k 0 else s) s else s
    if bitAt v 0 && s.on DUNC.STAT_SEARCH_DUE n then s.upLine n fun l => { l with searchFree := true } else s
  else if off = 0x11 then
    let s := storeEff p off v proof s
    s.put DUNC.LOAD n (s.load6 n / 1000000)
  else if off = 0x28 then
    let s := storeEff p off v proof s
    if bitAt v 31 then s.reqStart n else s
  else if h : 0x40 ≤ off ∧ off - 0x40 < 24 then
    let s := storeEff p off v proof s
    (s.put DUNC.LOAD n (s.load6 n / 1000000)).restream n ⟨off - 0x40, h.2⟩
  else if 0x70 ≤ off ∧ off ≤ 0x9F then
    let s := storeEff p off v proof s
    let k := (off - 0x70) / 2
    s.setBind n k (if s.bindId n k = 0 then 0 else 1)
  else storeEff p off v proof s

/-- One writer's write of one DUNC word. -/
def duncPress (w : Writer) (n : LaneId) (off : Nat) (v proof : Word) (s : State) : State :=
  pressOne w (.lane n .dunc) off v proof (duncChk s n off v) (duncEff n off v proof) s

def execReqGo (w : Writer) (n : LaneId) (v : Word) (s : State) : Out := fin (duncPress w n 0x28 (v ||| 0x80000000) 0 s)
def execSearchGrant (w : Writer) (n : LaneId) (s : State) : Out := fin (duncPress w n 0x10 1 0 s)
def execForget (w : Writer) (n : LaneId) (s : State) : Out := fin (duncPress w n 0x10 2 0 s)
def execStreamWrite (w : Writer) (n : LaneId) (k : Fin 24) (v : Word) (s : State) : Out := fin (duncPress w n (0x40 + k.val) v 0 s)

end Sys2Proof.Machine
end

