-- ==== Sys2Proof/Machine/Tmr.lean ====
section
/-! DEFINITION. The lane timers, capture, the cue matrix, the watch timer and the DIO pins (spec/15_timers_and_can.md R354 to R368). -/

namespace Sys2Proof.Machine

def State.tmr (s : State) (n : LaneId) (t : Fin 4) : Tmr := (s.lane n).tmrs[t]
def State.upTmr (s : State) (n : LaneId) (t : Fin 4) (f : Tmr → Tmr) : State :=
  s.upLane n fun l => { l with tmrs := l.tmrs.set t (f l.tmrs[t]) }

def allTmrs : List (Fin 4) := [0, 1, 2, 3]

/-- Lane clock periods of 40.96 MHz in the ticks that have passed: 128 for every 625 (R354). -/
def State.laneClk (s : State) : Nat := s.clock * 128 / 625

/-- ROUTE of a timer (R361). -/
def routeFld (t : Nat) : Fld := match t with | 0 => TMR.ROUTE_TA | 1 => TMR.ROUTE_TB | 2 => TMR.ROUTE_TC | _ => TMR.ROUTE_TD

def State.tRuns (s : State) (n : LaneId) (t : Fin 4) : Bool := s.g TMR.STAT_RUNNING n / 2 ^ t.val % 2 == 1
def State.tFrozen (s : State) (n : LaneId) (t : Fin 4) : Bool := s.g TMR.STAT_FROZEN n / 2 ^ t.val % 2 == 1
def State.setRuns (s : State) (n : LaneId) (t : Fin 4) (b : Bool) : State :=
  let m := s.g TMR.STAT_RUNNING n
  s.put TMR.STAT_RUNNING n (if b then m ||| 2 ^ t.val else m &&& (15 - 2 ^ t.val))

/-- OUT with CTL.OUT_POL (R356). -/
def State.tOut (s : State) (n : LaneId) (t : Fin 4) : Bool := (s.tmr n t).out != s.on TMR.CTL_OUT_POL n t

/-- The level of a followed source (R361): a timer's OUT, or a pin. -/
def State.cueLevel (s : State) (n : LaneId) (code : Nat) : Bool :=
  if h : 1 ≤ code ∧ code ≤ 4 then s.tOut n ⟨code - 1, by omega⟩
  else if 8 ≤ code ∧ code < 16 then bitAt (s.wd (TMR.DIO_IN.addr n 0)) (code - 8)
  else if 16 ≤ code ∧ code < 24 then bitAt (s.wd (TMR.DIO_IN.addr n 0)) (code - 16)
  else false

/-- The timer counts lane clocks now (R354, R355, R361, R363). -/
def State.tFree (s : State) (n : LaneId) (t : Fin 4) : Bool :=
  let mode := s.g TMR.CTL_MODE n t
  let act := s.g TMR.CTL_CUE_ACT n t
  s.tRuns n t && !s.tFrozen n t && mode != 0 && mode != 6 && act != 4 && (act != 3 || s.cueLevel n (s.g (routeFld t) n))

/-- The highest count of the timer's mode. -/
def State.tMax (s : State) (n : LaneId) (t : Fin 4) : Nat :=
  let mode := s.g TMR.CTL_MODE n t
  if mode = 2 ∨ mode = 3 ∨ mode = 4 then (s.tmr n t).top else 0xFFFFFFFF

/-- The count on lane clock k; the reload or wrap is a step of its own. -/
def State.tCountAt (s : State) (n : LaneId) (t : Fin 4) (k : Nat) : Nat :=
  let x := s.tmr n t
  if s.tFree n t then max x.base (min (s.tMax n t) (x.base + (k - x.at_) / (s.g TMR.PRESC n t + 1))) else x.base

/-- COUNT at this moment. -/
def State.tCount (s : State) (n : LaneId) (t : Fin 4) : Nat := s.tCountAt n t s.laneClk

/-- Fix the counts of all timers as they are on lane clock k, before something changes how they count; a timer that counts keeps its part of
a tick, and one whose reload is due what has passed of it. -/
def State.tHoldAt (s : State) (n : LaneId) (k : Nat) : State :=
  allTmrs.foldl (fun s (t : Fin 4) =>
    let c := s.tCountAt n t k
    let p := s.g TMR.PRESC n t + 1
    let counting := s.tFree n t
    s.upTmr n t fun x => { x with base := c, at_ := if counting then x.at_ + (c - x.base) * p else max x.at_ k }) s

/-- Fix the counts of all timers as they are now. -/
def State.tHold (s : State) (n : LaneId) : State := s.tHoldAt n s.laneClk

/-- The ticks since the start, not wrapped, `back` lane clocks ago (R358). -/
def State.tTotal (s : State) (n : LaneId) (t : Fin 4) (back : Nat) : Nat :=
  let x := s.tmr n t
  let p := s.g TMR.PRESC n t + 1
  x.wraps * 2 ^ 32 + if s.tFree n t then (s.laneClk + x.base * p - back - x.at_) / p else x.base

/-- OUT after the count changed to `c` by a load or a reload (Table: Timer modes). -/
def outAt (mode c cmp : Nat) (old : Bool) : Bool :=
  if mode = 3 ∨ mode = 4 then decide (c < cmp) else if mode = 0 ∨ mode = 5 then true else old

/-- A timer event goes to the TMR page. -/
def State.tEvent (s : State) (n : LaneId) (t : Fin 4) : State := s.farTmr n t.val

/-- A cue of timer t on lane clock k, if CUE_ON selects the occurrence (R355): it reaches its followers one lane clock later (R361). -/
def State.cue (s : State) (n : LaneId) (t : Fin 4) (what k : Nat) : State :=
  if s.g TMR.CTL_CUE_ON n t = what then s.upLane n fun l => { l with cues := l.cues ++ [(t.val + 1, k + 1)] } else s

/-- A start on lane clock k: the counter is 0, TOP and CMP act, a capture begins anew (R354, R356, R359). What may change OUT first fixes
the counts of the timers that follow its level, which see the change one lane clock later (R361). -/
def State.tStart (s : State) (n : LaneId) (t : Fin 4) (k : Nat) : State :=
  let mode := s.g TMR.CTL_MODE n t
  if mode = 0 then s
  else
    let top := s.g TMR.TOP n t
    let cmp := s.g TMR.CMP n t
    let s := ((s.tHoldAt n (k + 1)).upTmr n t fun x =>
      { x with base := 0, at_ := k, sub := 0, top := top, cmp := cmp, out := outAt mode 0 cmp x.out, hit := false, wraps := 0, lead := none,
               trail := none, periods := 0, gap := true }).setRuns n t true
    s.cue n t 2 k

/-- A stop: the count is held. -/
def State.tStop (s : State) (n : LaneId) (t : Fin 4) : State := (s.tHold n).setRuns n t false

/-- The reload or wrap of a timer on lane clock k (R355, R356, R385). -/
def State.tWrap (s : State) (n : LaneId) (t : Fin 4) (k : Nat) : State :=
  let mode := s.g TMR.CTL_MODE n t
  let top := s.g TMR.TOP n t
  let cmp := s.g TMR.CMP n t
  let s := s.tHoldAt n (k + 1)
  let s := if mode = 4 then
      ((s.upTmr n t fun x => { x with base := x.top, at_ := k, top := top, cmp := cmp, out := true }).setRuns n t false).tEvent n t
    else
      let s := s.upTmr n t fun x =>
        { x with base := 0, at_ := k, top := top, cmp := cmp, out := outAt mode 0 cmp x.out, hit := false, wraps := x.wraps + 1 }
      if s.on TMR.CTL_IRQ_TOP n t then s.tEvent n t else s
  s.cue n t 0 k

/-- The compare match of a timer on lane clock k (R355, R385). -/
def State.tHit (s : State) (n : LaneId) (t : Fin 4) (k : Nat) : State :=
  let mode := s.g TMR.CTL_MODE n t
  let s := (s.tHoldAt n (k + 1)).upTmr n t fun x => { x with hit := true, out := if mode = 3 ∨ mode = 4 then false else if mode = 5 then true else !x.out }
  let s := if s.on TMR.CTL_IRQ_CMP n t then s.tEvent n t else s
  s.cue n t 1 k

/-- One counted event of a STEP follower or of COUNT mode on lane clock k: PRESC + 1 of them make one count, which may wrap and may match. -/
def State.tStep (s : State) (n : LaneId) (t : Fin 4) (k : Nat) : State :=
  let x := s.tmr n t
  if x.sub < s.g TMR.PRESC n t then s.upTmr n t fun x => { x with sub := x.sub + 1 }
  else
    let s := s.upTmr n t fun x => { x with sub := 0 }
    let s := if s.tMax n t ≤ x.base then s.tWrap n t k else s.upTmr n t fun x => { x with base := x.base + 1 }
    if s.tRuns n t && s.g TMR.CTL_MODE n t != 0 && !(s.tmr n t).hit && (s.tmr n t).base == (s.tmr n t).cmp then s.tHit n t k else s

/-- A followed event reaches timer t on lane clock k (R361). -/
def State.tFollow (s : State) (n : LaneId) (t : Fin 4) (k : Nat) : State :=
  if s.tFrozen n t then s
  else match s.g TMR.CTL_CUE_ACT n t with
    | 1 =>
      if s.g TMR.CTL_MODE n t = 4 then s.tStart n t k
      else
        let mode := s.g TMR.CTL_MODE n t
        (s.tHoldAt n (k + 1)).upTmr n t fun x => { x with base := 0, at_ := k, sub := 0, hit := false, out := outAt mode 0 x.cmp x.out }
    | 2 => s.tStart n t k
    | 4 => if s.tRuns n t then s.tStep n t k else s
    | _ => s

/-- The first waiting cue reaches every timer that follows it, on its lane clock. -/
def State.cueHop (s : State) (n : LaneId) : State :=
  match (s.lane n).cues with
  | [] => s
  | c :: r =>
    let s := s.upLane n fun l => { l with cues := r }
    allTmrs.foldl (fun s (t : Fin 4) => if s.g (routeFld t) n = c.1 then s.tFollow n t c.2 else s) s

/-- The cues that an occurrence set going, hop by hop, each counted from its own lane clock; a loop that still runs after eight hops
goes on with the lane's next timer step (log 27). -/
def State.cueRun (s : State) (n : LaneId) : State := (List.range 8).foldl (fun s _ => s.cueHop n) s

/-! ### Rows of the timers -/

/-- STOP and START strobes: the stops first (R354; log 28). -/
def State.tStrobe (s : State) (n : LaneId) (start stop : Nat) : State :=
  let s := allTmrs.foldl (fun s (t : Fin 4) => if stop / 2 ^ t.val % 2 = 1 then s.tStop n t else s) s
  (allTmrs.foldl (fun s (t : Fin 4) => if start / 2 ^ t.val % 2 = 1 then s.tStart n t s.laneClk else s) (s.tHold n)).cueRun n

/-- The lane clock on which a timer that counts lane clocks reaches count `c`. -/
def State.tInstant (s : State) (n : LaneId) (t : Fin 4) (c : Nat) : Nat :=
  let x := s.tmr n t
  x.at_ + (c - x.base) * (s.g TMR.PRESC n t + 1)

/-- The count of a timer that counts lane clocks has come to CMP, and the match is still to be made; a CMP above TOP never matches. -/
def State.hitDue (s : State) (n : LaneId) (t : Fin 4) : Bool :=
  let x := s.tmr n t
  s.tFree n t && !x.hit && decide (x.cmp ≤ s.tMax n t) && decide (s.tInstant n t x.cmp ≤ s.laneClk)

/-- The compare match that is due, at its lane clock. -/
def State.tMatch (s : State) (n : LaneId) (t : Fin 4) : State :=
  if s.hitDue n t then (s.tHit n t (s.tInstant n t (s.tmr n t).cmp)).cueRun n else s

/-- A reload or wrap that is due, at its lane clock; a match of the same period comes before it. -/
def State.tReload (s : State) (n : LaneId) (t : Fin 4) : State :=
  if s.tFree n t && decide (s.tInstant n t (s.tMax n t + 1) ≤ s.laneClk) then
    let s := s.tMatch n t
    (s.tWrap n t (s.tInstant n t (s.tMax n t + 1))).cueRun n
  else s

def execTimerReload (n : LaneId) (t : Fin 4) (s : State) : Out := fin (if s.farUp n then s.tReload n t else s)

def execCompareMatch (n : LaneId) (t : Fin 4) (s : State) : Out := fin (if s.farUp n then s.tMatch n t else s)

/-- The timer captures: mode CAPTURE, running, not frozen. -/
def State.captures (s : State) (n : LaneId) (t : Fin 4) : Bool := s.tRuns n t && !s.tFrozen n t && s.g TMR.CTL_MODE n t == 5

/-- A completed period of `w` and `p` that began at stamp `st` and ended at `now` (R358, R359). A slug follows the previous one by less
than 100 µs if their edges' stamps do, and by less than half a turn of the stamp. -/
def State.period (s : State) (n : LaneId) (t : Fin 4) (w p : Nat) (ovr : Bool) (st now : Word) : State :=
  let s := ((s.p TMR.CAP_WIDTH n t w).p TMR.CAP_PERIOD n t p).bump TMR.CAPTURES n
  let s := s.upTmr n t fun x => { x with periods := x.periods + 1 }
  let x := s.tmr n t
  if x.periods < s.g TMR.CAP_DIV n t then s
  else
    let s := s.upTmr n t fun x => { x with periods := 0 }
    let soon : Bool := match x.lastSlug with | some l => decide ((now - l.1).toNat < 100000) && decide (5 * (s.clock - l.2) < 2 ^ 31) | none => false
    if soon then (s.bump TMR.CAP_SKIPPED n).upTmr n t fun x => { x with skipped := true }
    else
      let f := 64 * t.val + 4 * b2n x.gap + 2 * b2n x.skipped + b2n ovr
      (s.upTmr n t fun x => { x with lastSlug := some (now, s.clock), gap := false, skipped := false }).slug n 0x31 f st
        (BitVec.ofNat 32 w) (BitVec.ofNat 32 p)

/-- A filtered leading edge; `cnt` is the ticks since the start, not wrapped, and `stamp` the edge's. -/
def State.capLead (s : State) (n : LaneId) (t : Fin 4) (cnt : Nat) (stamp : Word) : State :=
  let x := s.tmr n t
  let s := match x.lead with
    | none => s
    | some (c0, st) =>
      if c0 + 2 ^ 32 ≤ cnt then s.period n t 0xFFFFFFFF 0xFFFFFFFF true st stamp
      else s.period n t (wrapInt 32 ((x.trail.getD c0 : Int) - c0)) (wrapInt 32 ((cnt : Int) - c0)) false st stamp
  let s := s.upTmr n t fun x => { x with lead := some (cnt, stamp), trail := none }
  (s.cue n t 3 s.laneClk).cueRun n

/-- The lane clocks between the first sample of an edge on the timer's pin and the sample that makes it count (R360). -/
def State.capBack (s : State) (n : LaneId) (t : Fin 4) : Nat :=
  let p := s.g TMR.CTL_IN n t
  bitsOf (s.wd (TMR.DIO_FILT.addr n 0)) (4 * p + 3) (4 * p)

/-- The stamp of an edge: lane time at its first sample (log 122). -/
def State.capStamp (s : State) (n : LaneId) (t : Fin 4) : Word := BitVec.ofNat 32 (s.laneTime n - s.capBack n t * 3125 / 128)

/-- The filtered level of the timer's pin is the one that a leading edge leads to. -/
def State.capHigh (s : State) (n : LaneId) (t : Fin 4) : Bool :=
  (s.g TMR.DIO_IN n / 2 ^ s.g TMR.CTL_IN n t % 2 == 1) != s.on TMR.CTL_IN_POL n t

def execCaptureLeadingEdge (n : LaneId) (t : Fin 4) (s : State) : Out :=
  fin (if s.farUp n && s.captures n t && s.capHigh n t then s.capLead n t (s.tTotal n t (s.capBack n t)) (s.capStamp n t) else s)

def execCaptureTrailingEdge (n : LaneId) (t : Fin 4) (s : State) : Out :=
  fin (if s.farUp n && s.captures n t && !s.capHigh n t && (s.tmr n t).lead.isSome && (s.tmr n t).trail.isNone then
    s.upTmr n t fun x => { x with trail := some (s.tTotal n t (s.capBack n t)) } else s)

/-! ### DIO pins (R365 to R368) -/

/-- The level that pin p's source asks for: true releases (R357, R366). -/
def State.dioSource (s : State) (n : LaneId) (p : Nat) : Bool :=
  let src := bitsOf (s.wd (TMR.DIO_OUT_SRC.addr n 0)) (4 * p + 3) (4 * p)
  if h : 1 ≤ src ∧ src ≤ 4 then s.tOut n ⟨src - 1, by omega⟩ else bitAt (s.wd (TMR.DIO_OUT.addr n 0)) p

/-- Pin p's output switch drives low: its source asks for it, it is not released by a fault, and the far side is neither safe nor
tripped nor unpowered (R366, R368). -/
def State.dioDrives (s : State) (n : LaneId) (p : Nat) : Bool :=
  s.farUp n && !(s.lane n).link.farSafe && !s.on LANE.ISO_TRIPPED n && !s.dioSource n p
    && !bitAt (s.wd (TMR.DIO_FAULT.addr n 0)) (16 + p)

/-- A filtered edge: DIO.IN, EDGE_SEEN, COUNT mode, followers (R355, R361, R367). -/
def State.dioEdge (s : State) (n : LaneId) (p : Nat) (rising : Bool) : State :=
  let s := s.tHoldAt n (s.laneClk + 1)
  let m := s.g TMR.DIO_IN n
  let s := s.put TMR.DIO_IN n (if rising then m ||| 2 ^ p else m &&& (255 - 2 ^ p))
  let en := if rising then TMR.DIO_EDGE_EN_RISE else TMR.DIO_EDGE_EN_FALL
  let seen := if rising then TMR.DIO_EDGE_SEEN_RISE else TMR.DIO_EDGE_SEEN_FALL
  let s := if s.g en n / 2 ^ p % 2 = 1 then (s.setW1c seen n 0 (2 ^ p)).farTmr n 4 else s
  let s := allTmrs.foldl (fun s (t : Fin 4) =>
    if s.g TMR.CTL_MODE n t = 6 ∧ s.g TMR.CTL_IN n t = p ∧ s.on TMR.CTL_IN_POL n t = !rising ∧ s.tRuns n t = true ∧ s.tFrozen n t = false
    then s.tStep n t s.laneClk else s) s
  (s.upLane n fun l => { l with cues := l.cues ++ [((if rising then 8 else 16) + p, s.laneClk + 1)] }).cueRun n

/-- DIO.IN of pin p. -/
def State.dioHigh (s : State) (n : LaneId) (p : Nat) : Bool := s.g TMR.DIO_IN n / 2 ^ p % 2 == 1

/-- A level that the pin has already is no edge. -/
def execDioEdge (n : LaneId) (p : Fin 8) (rising : Bool) (s : State) : Out :=
  fin (if s.farUp n && s.dioHigh n p != rising then s.dioEdge n p rising else s)

/-- A current above 150 mA for 10 µs in a pin that is driven low. -/
def execDioOvercurrent (n : LaneId) (p : Fin 8) (s : State) : Out :=
  fin (if s.dioDrives n p then
    ((s.setW1c TMR.DIO_FAULT n 0 (2 ^ p.val)).bump TMR.DIO_FAULTS n).farTmr n 5 else s)

/-! ### Freeze on halt (R363) -/

/-- The timers that the compositor's halts freeze. -/
def State.freezers (s : State) (n : LaneId) : Nat :=
  allTmrs.foldl (fun a (t : Fin 4) => a + if s.on TMR.CTL_FREEZE_ON_HALT n t then 2 ^ t.val else 0) 0

def execTimerFreeze (n : LaneId) (s : State) : Out :=
  fin (if s.farUp n && (s.eng n).run == .halted && s.freezers n != 0 && s.g TMR.STAT_FROZEN n == 0 then
    ((s.tHold n).put TMR.STAT_FROZEN n (s.freezers n)).farTmr n 6 else s)

def execTimerUnfreeze (n : LaneId) (s : State) : Out :=
  fin (if s.farUp n && (s.eng n).run != .halted && s.g TMR.STAT_FROZEN n != 0 then
    let s := s.tHold n
    let s := allTmrs.foldl (fun s (t : Fin 4) =>
      if s.tFrozen n t then s.upTmr n t fun x => { x with lead := none, trail := none, gap := true } else s) s
    (s.put TMR.STAT_FROZEN n 0).farTmr n 6
  else s)

/-! ### The watch timer (R364) and lane resets -/

/-- WATCH: lane clock periods since the lane start. -/
def State.watch (s : State) (n : LaneId) : Nat := (s.laneClk - (s.lane n).watchFrom) % 2 ^ 64

/-- A lane start: the watch timer counts from 0, the timers are as after reset. -/
def State.tmrReset (s : State) (n : LaneId) : State :=
  let k := s.laneClk
  s.upLane n fun l => { l with tmrs := Vector.replicate 4 Tmr.reset, cues := [], watchFrom := k }

/-- The far-side safe state ends a capture's continuity: the next slug carries GAP (R359). -/
def State.tmrSafe (s : State) (n : LaneId) : State := allTmrs.foldl (fun s (t : Fin 4) => s.upTmr n t fun x => { x with gap := true }) s

/-! ### Register writes (R356, R361, R365, R366) -/

/-- A ROUTE field of timer t that is no source it may follow. -/
def routeBad (t c : Nat) : Bool := !(c == 0 || (decide (1 ≤ c) && decide (c ≤ 4) && c != t + 1) || (decide (8 ≤ c) && decide (c ≤ 23)))

/-- A change that a running timer refuses. -/
def tmrStopped (old new : State) (n : LaneId) (off : Nat) : Bool :=
  let p := Page.lane n .tmr
  let runs (t : Nat) : Bool := old.g TMR.STAT_RUNNING n / 2 ^ t % 2 == 1
  if 0x20 ≤ off ∧ (off % 8 = 0 ∨ off % 8 = 1) then old.imageWd p off != new.imageWd p off && runs ((off - 0x20) / 8)
  else if off = 0x1F then (List.range 4).any fun t => runs t && old.gi (routeFld t) n != new.gi (routeFld t) n
  else false

/-- The checks of one TMR word, on the state that the press would leave. -/
def tmrChk (old : State) (n : LaneId) (off : Nat) (v : Word) (s : State) : Option Nat :=
  let t := (off - 0x20) / 8
  let counts := let m := s.gi TMR.CTL_MODE n t; m == 2 || m == 3 || m == 4
  let bad : Bool :=
    if off = 0x18 ∨ off = 0x19 then (List.range 4).any fun i => let b := bitsOf v (8 * i + 7) (8 * i); decide (b < 2) || decide (150 < b)
    else if off = 0x1B then (List.range 8).any fun i => decide (4 < bitsOf v (4 * i + 3) (4 * i))
    else if off = 0x1F then (List.range 4).any fun i => routeBad i (bitsOf v (8 * i + 4) (8 * i))
    else if 0x20 ≤ off ∧ off % 8 = 0 then decide (4 < bitsOf v 6 4) || bitsOf v 2 0 == 7 || (counts && s.gi TMR.TOP n t == 0)
    else if 0x20 ≤ off ∧ off % 8 = 2 then v == 0 && counts
    else if 0x20 ≤ off ∧ off % 8 = 7 then bitsOf v 15 0 == 0
    else false
  if tmrStopped old s n off then some errStopped else if bad then some errRange else none

/-- The effect of an accepted TMR word. -/
def tmrEff (n : LaneId) (off : Nat) (v proof : Word) (s : State) : State :=
  let p := Page.lane n .tmr
  if off = 0x10 then s.tStrobe n (bitsOf v 3 0) (bitsOf v 11 8)
  else if 0x20 ≤ off ∧ off % 8 = 0 ∨ off = 0x1F then
    let s := storeEff p off v proof (s.tHold n)
    if off = 0x1F then s
    else
      let t : Fin 4 := ⟨(off - 0x20) / 8 % 4, Nat.mod_lt _ (by decide)⟩
      let mode := s.g TMR.CTL_MODE n t
      if mode = 4 then s else s.upTmr n t fun x => { x with out := outAt mode x.base x.cmp x.out }
  else storeEff p off v proof s

/-- One writer's write of one TMR word. -/
def tmrPress (w : Writer) (n : LaneId) (off : Nat) (v proof : Word) (s : State) : State :=
  pressOne w (.lane n .tmr) off v proof (tmrChk s n off v) (tmrEff n off v proof) s

def execTimerStart (w : Writer) (n : LaneId) (m : BitVec 4) (s : State) : Out := fin (tmrPress w n 0x10 (m.zeroExtend 32) 0 s)
def execTimerStop (w : Writer) (n : LaneId) (m : BitVec 4) (s : State) : Out := fin (tmrPress w n 0x10 (m.zeroExtend 32 <<< 8) 0 s)
def execDioFaultClear (w : Writer) (n : LaneId) (v proof : Word) (s : State) : Out := fin (tmrPress w n 0x15 v proof s)

/-! ### Launches (R205) -/

def execDioSet (n : LaneId) (s : State) : Out :=
  fin (if s.farUp n then s.launchNext n.val 5 (fun x s =>
    let m := bitsOf x.arg 7 0
    (none, s.put TMR.DIO_OUT n ((s.g TMR.DIO_OUT n &&& (255 - m)) ||| (bitsOf x.arg 15 8 &&& m)))) else s)

def execTmrCtl (n : LaneId) (s : State) : Out :=
  fin (if s.farUp n then s.launchNext n.val 9 (fun x s => (none, s.tStrobe n (bitsOf x.arg 3 0) (bitsOf x.arg 7 4))) else s)

end Sys2Proof.Machine
end

