-- ==== Sys2Proof/Machine/Can.lean ====
section
/-! DEFINITION. The CAN FD port (spec/15_timers_and_can.md R369 to R385). Fault confinement and worst-case stuffing are taken from ISO
11898-1:2015, which the spec names (log 29). -/

namespace Sys2Proof.Machine

def State.canSt (s : State) (n : LaneId) : CanSt := (s.lane n).can
def State.upCan (s : State) (n : LaneId) (f : CanSt → CanSt) : State := s.upLane n fun l => { l with can := f l.can }

/-! ### Transmit buffers -/

/-- Word i of buffer b: 0 HDR0, 1 HDR1, 2 to 17 DATA, 18 STATUS, 19 SOF_RT, 20 WORST_NS. -/
def State.txb (s : State) (n : LaneId) (b i : Nat) : Word := s.wd (canAddr n.val b i)
def State.setTxb (s : State) (n : LaneId) (b i : Nat) (v : Word) : State := s.setWd (canAddr n.val b i) v
/-- The same in the near-side image. -/
def State.txbNear (s : State) (n : LaneId) (b i : Nat) : Word := sget resetWord s.image (canAddr n.val b i)

/-- Outcomes (Table: Transmit outcomes). -/
def txEmpty : Nat := 0
def txPending : Nat := 1
def txQueued : Nat := 2
def txSent : Nat := 3
def txExhausted : Nat := 4
def txAborted : Nat := 5
def txCancelled : Nat := 6
def txBusOff : Nat := 7

def State.txOutcome (s : State) (n : LaneId) (b : Nat) : Nat := bitsOf (s.txb n b 18) 7 0
def State.setOutcome (s : State) (n : LaneId) (b o : Nat) : State := s.setTxb n b 18 (withBits (s.txb n b 18) 7 0 o)
def State.txAttempts (s : State) (n : LaneId) (b : Nat) : Nat := bitsOf (s.txb n b 18) 15 8

/-- An entry into DONE (R378). -/
def State.txDone (s : State) (n : LaneId) (b o : Nat) : State :=
  let s := s.setOutcome n b o
  (s.setW1c CAN.TXB_DONE n 0 (2 ^ b)).farCan n 0

/-- QUEUED_q follow the queues. -/
def State.canQueues (s : State) (n : LaneId) : State :=
  let q (i : Fin 4) : Nat := (s.canSt n).queues[i].length
  (((s.put CAN.QUEUED_0 n (q 0)).put CAN.QUEUED_1 n (q 1)).put CAN.QUEUED_2 n (q 2)).put CAN.QUEUED_3 n (q 3)

/-! ### Frame lengths (R376; log 29) -/

/-- Data bytes of a DLC code. -/
def dlcBytes (fd : Bool) (dlc : Nat) : Nat :=
  if dlc ≤ 8 then dlc else if !fd then 8
  else match dlc with | 9 => 12 | 10 => 16 | 11 => 20 | 12 => 24 | 13 => 32 | 14 => 48 | _ => 64

/-- The largest number of bits of a frame up to the end of its EOF: in the nominal phase, and in the data phase. -/
def worstBits (hdr0 hdr1 : Word) : Nat × Nat :=
  let ide := bitAt hdr0 31
  let fd := bitAt hdr0 30
  let brs := bitAt hdr0 29
  let bytes := if bitAt hdr1 27 then 0 else dlcBytes fd (bitsOf hdr1 31 28)
  if !fd then
    let g := (if ide then 54 else 34) + 8 * bytes
    (g + 10 + (g - 1) / 4, 0)
  else
    let arb := if ide then 36 else 17
    let dat := 5 + 8 * bytes
    let arbStuff := (arb - 1) / 4
    let datStuff := (arb + dat - 1) / 4 - arbStuff
    let crc := if bytes ≤ 16 then 21 + 6 else 25 + 7
    let d := dat + datStuff + crc + 1
    if brs then (arb + arbStuff + 9, d) else (arb + arbStuff + 9 + d, 0)

/-- Quanta of one bit of a phase: nominal, data. -/
def quantaA (w : Word) : Nat := bitsOf w 31 24 * (1 + bitsOf w 23 16 + bitsOf w 15 8)
def quantaD (w : Word) : Nat := bitsOf w 23 20 * (1 + bitsOf w 19 12 + bitsOf w 11 6)

/-- T_att in nanoseconds: a quantum is 12.5 ns, and 23 nominal bits cover an error frame and intermission. -/
def worstNs (arb dat hdr0 hdr1 : Word) : Nat :=
  let (a, d) := worstBits hdr0 hdr1
  (((a + 23) * quantaA arb + d * quantaD dat) * 25 + 1) / 2

/-- A buffer becomes PENDING now, with T_att as the timing in force gives it, which governs it from here on (R501). -/
def State.txPend (s : State) (n : LaneId) (b : Nat) : State :=
  let c := s.clock
  let at' (off : Nat) : Word := s.wd ((Page.lane n .can).at_ off)
  let t := worstNs (at' 0x13) (at' 0x14) (s.txb n b 0) (s.txb n b 1)
  ((s.setOutcome n b txPending).setTxb n b 20 (BitVec.ofNat 32 t)).upCan n fun x => { x with since := sset (fun _ => 0) x.since b c }

/-- R377: with a deadline, T_att × (RETRY + 1) ≤ 0.9 × DEADLINE_US. -/
def budgetOk (t : Nat) (hdr1 : Word) : Bool :=
  bitsOf hdr1 19 0 == 0 || decide (t * (bitsOf hdr1 23 20 + 1) * 10 ≤ 9 * 1000 * bitsOf hdr1 19 0)

/-- R372, check 2: the header. -/
def txHeaderOk (fdEn : Bool) (hdr0 hdr1 : Word) : Bool :=
  let fd := bitAt hdr0 30
  let d := bitsOf hdr1 19 0
  !(fd && !fdEn) && !(bitAt hdr0 29 && !fd) && !(bitAt hdr1 27 && fd) && !(decide (8 < bitsOf hdr1 31 28) && !fd)
    && decide (bitsOf hdr1 26 24 ≤ 4) && !(decide (1 ≤ d) && decide (d ≤ 99)) && decide (d ≤ 1000000)

/-! ### Requests and cancels (R372, R374, R379) -/

/-- An item that carries a TXB_REQ of buffer b of lane n. -/
def Item.requests (n : LaneId) (b : Nat) : Item → Bool
  | .write _ _ x _ _ => x.page == .lane n .can && x.off == 0x18 && bitAt x.v b
  | _ => false

/-- A request of buffer b is on its way to the far side. -/
def State.txComing (s : State) (n : LaneId) (b : Nat) : Bool := (s.downItems n).any (Item.requests n b)

/-- Buffer b waits: PENDING or QUEUED on the far side, or a request of it on its way there. -/
def State.txWaits (s : State) (n : LaneId) (b : Nat) : Bool :=
  s.txOutcome n b == txPending || s.txOutcome n b == txQueued || s.txComing n b

/-- The buffers that queue q of lane n holds or will hold once the requests on their way arrive. -/
def State.queueFill (s : State) (n : LaneId) (q : Nat) : Nat :=
  ((s.canSt n).queues[q]?.getD []).length
    + ((List.range 32).filter fun b => s.txComing n b && bitsOf (s.txbNear n b 1) 26 24 == q + 1).length

/-- The checks of one bit of TXB_REQ, in order; headers and timing as the press would leave them. `ahead` holds the buffers that lower
bits of the word request: those that join the same queue count in it. -/
def txbReqOne (old : State) (n : LaneId) (s : State) (ahead : List Nat) (b : Nat) : Option Nat :=
  let h0 := s.txbNear n b 0
  let h1 := s.txbNear n b 1
  let q := bitsOf h1 26 24
  let t := worstNs (s.imageWd (.lane n .can) 0x13) (s.imageWd (.lane n .can) 0x14) h0 h1
  if old.txWaits n b then some errRange
  else if !txHeaderOk (s.gi CAN.MODE_FD_EN n != 0) h0 h1 then some errRange
  else if q ≠ 0 ∧ 8 ≤ old.queueFill n (q - 1) + (ahead.filter fun a => bitsOf (s.txbNear n a 1) 26 24 == q).length then some errRange
  else if !budgetOk t h1 then some errBudget else none

/-- The buffers that a mask names. -/
def maskBufs (v : Word) : List Nat := (List.range 32).filter fun b => bitAt v b

/-- TXB_REQ takes effect. -/
def State.txbReq (s : State) (n : LaneId) (v : Word) : State :=
  State.canQueues ((maskBufs v).foldl (fun s b =>
    let h1 := s.txb n b 1
    let t := worstNs (s.wd ((Page.lane n .can).at_ 0x13)) (s.wd ((Page.lane n .can).at_ 0x14)) (s.txb n b 0) h1
    let s := ((s.setTxb n b 18 0).setTxb n b 19 0).setTxb n b 20 (BitVec.ofNat 32 t)
    let q := bitsOf h1 26 24
    if q = 0 then s.txPend n b
    else (s.setOutcome n b txQueued).upCan n fun x =>
      { x with queues := x.queues.setIfInBounds (q - 1) ((x.queues[q - 1]?.getD []) ++ [b]) }) s) n

/-- TXB_CANCEL takes effect. -/
def State.txbCancel (s : State) (n : LaneId) (v : Word) : State :=
  State.canQueues ((maskBufs v).foldl (fun s b =>
    if s.txOutcome n b = txQueued then
      (s.upCan n fun x => { x with queues := x.queues.map fun q => q.filter (· != b) }).txDone n b txCancelled
    else if s.txOutcome n b = txPending then
      (if (s.canSt n).attempt = some b then s.upCan n fun x => { x with cancel := true } else s.txDone n b txCancelled)
    else s) s) n

/-- CAN_LAUNCH: the head of a queue becomes PENDING, or ABSENT (R221). -/
def State.canLaunch (s : State) (n : LaneId) (q : Nat) : Option Nat × State :=
  match (s.canSt n).queues[q]?.getD [] with
  | [] => (some errAbsent, s)
  | b :: r => (none, ((s.upCan n fun x => { x with queues := x.queues.setIfInBounds q r }).txPend n b).canQueues n)

def execCanLaunch (n : LaneId) (s : State) : Out :=
  fin (if s.farUp n then s.launchNext n.val 7 (fun x s => s.canLaunch n (bitsOf x.arg 1 0)) else s)

/-! ### States (R371, R383, R384) -/

def canOff : Nat := 0
def canIntegrating : Nat := 1
def canActive : Nat := 2
def canPassive : Nat := 3
def canBusOff : Nat := 4
def canRecovering : Nat := 5

def State.canState (s : State) (n : LaneId) : Nat := s.g CAN.STAT_STATE n

/-- PG_STAT copies STATE, and STOPPED reads 1 once RUN is 0 and no attempt is in progress. -/
def State.setCan (s : State) (n : LaneId) (st : Nat) : State :=
  let s := (s.put CAN.STAT_STATE n st).setPgStat (.lane n .can) st
  s.setStopped (.lane n .can) (!s.run (.lane n .can) && (s.canSt n).attempt.isNone)

/-- The controller takes part in traffic. -/
def State.canOn (s : State) (n : LaneId) : Bool := s.canState n == canActive || s.canState n == canPassive

/-- STATE follows the error counters (R383; log 29). -/
def State.confine (s : State) (n : LaneId) : State :=
  let tec := s.g CAN.STAT_TEC n
  let rec' := s.g CAN.STAT_REC n
  if !s.canOn n then s
  else if 128 ≤ tec ∨ 128 ≤ rec' then (if s.canState n = canPassive then s else (s.setCan n canPassive).farCan n 3)
  else s.setCan n canActive

/-- The attempt is over; a stopped page goes off the bus. -/
def State.attemptOver (s : State) (n : LaneId) : State :=
  let s := s.upCan n fun x => { x with attempt := none, cancel := false }
  if s.run (.lane n .can) then s else s.setCan n (if s.canState n = canBusOff ∨ s.canState n = canRecovering then s.canState n else canOff)

/-- Entry into BUS_OFF. -/
def State.busOff (s : State) (n : LaneId) : State :=
  let s := (((s.setCan n canBusOff).bump CAN.BUS_OFFS n).farCan n 4).upCan n fun x => { x with offAt := s.clock }
  match (s.canSt n).attempt with
  | some b => (s.txDone n b txBusOff).attemptOver n
  | none => s

/-- What the last error was. -/
def State.lec (s : State) (n : LaneId) (code : Nat) (dataPhase : Bool) : State :=
  ((s.put CAN.LEC_CODE n code).put CAN.LEC_DATA_PHASE n (b2n dataPhase)).bump CAN.ERRORS n

/-! ### Arbitration and attempts (R373, R375, R376) -/

/-- The arbitration field as a number: the lower wins. -/
def arbKey (hdr0 hdr1 : Word) : Nat :=
  let rtr := b2n (bitAt hdr1 27)
  if bitAt hdr0 31 then bitsOf hdr0 28 18 * 2 ^ 21 + 2 ^ 20 + 2 ^ 19 + bitsOf hdr0 17 0 * 2 + rtr
  else bitsOf hdr0 28 18 * 2 ^ 21 + rtr * 2 ^ 20

/-- A PENDING buffer's deadline in nanoseconds of the system clock, none without one. -/
def State.txDeadline (s : State) (n : LaneId) (b : Nat) : Option Nat :=
  let d := bitsOf (s.txb n b 1) 19 0
  if d = 0 then none else some (5 * sget (fun _ => 0) (s.canSt n).since b + 1000 * d)

/-- May an attempt of buffer b start now (R376)? -/
def State.txFits (s : State) (n : LaneId) (b : Nat) : Bool :=
  match s.txDeadline n b with
  | none => true
  | some d => decide (5 * s.clock + (s.txb n b 20).toNat ≤ d)

/-- The PENDING buffer that wins arbitration. -/
def State.txWinner (s : State) (n : LaneId) : Option Nat :=
  (List.range 32).foldl (fun w b =>
    if s.txOutcome n b = txPending ∧ s.txFits n b = true then
      match w with
      | none => some b
      | some a => if arbKey (s.txb n b 0) (s.txb n b 1) < arbKey (s.txb n a 0) (s.txb n a 1) then some b else w
    else w) none

/-- The port may send: on the bus, not LISTEN_ONLY, not leaving it, no attempt in progress. -/
def State.canSends (s : State) (n : LaneId) : Bool :=
  s.farUp n && s.canOn n && s.run (.lane n .can) && s.g CAN.MODE_OP n != 1 && (s.canSt n).attempt.isNone

def execCanAttemptStart (n : LaneId) (s : State) : Out :=
  fin (if s.canSends n then
    match s.txWinner n with
    | none => s
    | some b =>
      let k := min (s.txAttempts n b + 1) 255
      let t : Word := BitVec.ofNat 32 (s.laneTime n)
      (s.setTxb n b 18 (withBits (s.txb n b 18) 15 8 k)).upCan n fun x => { x with attempt := some b, cancel := false, sof := t }
  else s)

/-! ### Receiving (R380 to R382) -/

/-- Frames the FIFO holds. -/
def canFifoMax : Nat := 64

/-- Four bytes of a frame, the first in [31:24]; past the length 0. -/
def canWord (data : List Byte) (i : Nat) : Word :=
  let b (j : Nat) : Nat := (data[4 * i + j]?.getD 0).toNat
  BitVec.ofNat 32 (b 0 * 2 ^ 24 + b 1 * 2 ^ 16 + b 2 * 2 ^ 8 + b 3)

/-- Header and data slugs of a frame, back to back (Table: CAN slugs). -/
def State.canSlugs (s : State) (n : LaneId) (f : CanRx) (echo ovf : Bool) : State :=
  let h := f.hdr0
  let fl := 64 * b2n echo + 32 * b2n ovf + 16 * b2n (bitAt f.hdr1 27) + 8 * b2n (bitAt f.hdr1 26) + 4 * b2n (bitAt h 29)
    + 2 * b2n (bitAt h 30) + b2n (bitAt h 31)
  let s := s.slug n 0x32 fl f.stamp (h &&& 0x1FFFFFFF) (BitVec.ofNat 32 (f.data.length * 2 ^ 24 + bitsOf f.hdr1 21 16 * 65536))
  (List.range ((f.data.length + 7) / 8)).foldl (fun s i =>
    s.slug n 0x32 (0x80 + i) f.stamp (canWord f.data (2 * i)) (canWord f.data (2 * i + 1))) s

/-- Store an accepted frame where RX_DEST says (R381). -/
def State.canStore (s : State) (n : LaneId) (f : CanRx) (echo : Bool) : State :=
  let dest := s.g CAN.MODE_RX_DEST n
  let s := s.bump CAN.RX_FRAMES n
  let ovf := (s.canSt n).overflow
  let full := decide (canFifoMax ≤ (s.canSt n).fifo.length)
  let g := { f with hdr1 := f.hdr1 ||| (if ovf then 0x02000000 else 0) }
  let s := if dest = 1 then s
    else if full then ((s.bump CAN.RX_OVERFLOWS n).upCan n fun x => { x with overflow := true }).farCan n 2
    else
      let s := s.upCan n fun x => { x with fifo := x.fifo ++ [g], overflow := false }
      s.put CAN.STAT_RX_COUNT n (s.canSt n).fifo.length
  let s := if dest = 0 then s
    else (if dest = 1 then s.upCan n fun x => { x with overflow := false } else s).canSlugs n f echo ovf
  if dest = 0 ∧ full = true then s else s.farCan n 1

/-- The first filter that matches: its number and whether it rejects (R380). -/
def State.canFilter (s : State) (n : LaneId) (hdr0 : Word) : Option (Nat × Bool) :=
  ((List.range 32).find? fun f =>
    let ide := bitAt hdr0 31
    let cmp : Nat := if ide then 0x1FFFFFFF else 0x1FFC0000
    s.on CAN.FILT_EN n f && s.on CAN.FILT_IDE n f == ide
      && (bitsOf hdr0 28 0 ^^^ s.g CAN.FILT_ID n f) &&& s.g CAN.FILT_MASK n f &&& cmp == 0).map fun f => (f, s.on CAN.FILT_REJECT n f)

/-- REC after a frame received without error: one less, or from above 127 some value from 119 to 127 (log 29). -/
def State.recDown (s : State) (n : LaneId) : State :=
  let r := s.g CAN.STAT_REC n
  if 128 ≤ r then
    let (v, s) := s.fresh
    s.put CAN.STAT_REC n (119 + v.toNat % 9)
  else s.put CAN.STAT_REC n (r - 1)

/-- A frame received without error. -/
def State.canRx (s : State) (n : LaneId) (hdr0 : Word) (dlc : Nat) (rtr esi : Bool) (data : List Byte) (stamp : Word) : State :=
  let s := s.recDown n
  let s := s.confine n
  let mk (f : Nat) : CanRx :=
    ⟨hdr0, BitVec.ofNat 32 (dlc * 2 ^ 28 + b2n rtr * 2 ^ 27 + b2n esi * 2 ^ 26 + f * 65536), stamp, data.take 64⟩
  match s.canFilter n hdr0 with
  | some (_, true) => s.bump CAN.FILTER_REJECTS n
  | some (f, false) => s.canStore n (mk f) false
  | none => if s.on CAN.MODE_NOMATCH n then s.canStore n (mk 0x3F) false else s

/-- The frame is one the controller takes: on the bus, and an FD frame only with FD_EN (R369). -/
def execCanFrameRx (n : LaneId) (hdr0 : Word) (dlc : BitVec 4) (rtr esi : Bool) (data : List Byte) (stamp : Word) (s : State) : Out :=
  fin (if s.farUp n && s.canOn n && s.g CAN.MODE_OP n != 2 && (!bitAt hdr0 30 || s.on CAN.MODE_FD_EN n) then
    s.canRx n hdr0 dlc.toNat rtr esi data stamp else s)

/-- A sent frame comes back as an echo (R371, R380). -/
def State.canEcho (s : State) (n : LaneId) (b : Nat) (sof : Word) : State :=
  if s.on CAN.MODE_TX_ECHO n || s.g CAN.MODE_OP n == 2 then
    let h0 := s.txb n b 0
    let h1 := s.txb n b 1
    let len := if bitAt h1 27 then 0 else dlcBytes (bitAt h0 30) (bitsOf h1 31 28)
    let data : List Byte := (List.range len).map fun i => BitVec.ofNat 8 ((s.txb n b (2 + i / 4)).toNat / 256 ^ (3 - i % 4))
    s.canStore n ⟨h0, (h1 &&& 0xF8000000) ||| 0x013F0000, sof, data⟩ true
  else s

/-! ### The end of an attempt (R375, R378, R379, R383) -/

/-- A failed attempt without bus-off: another attempt, or an outcome. -/
def State.txFailed (s : State) (n : LaneId) (b : Nat) : State :=
  if (s.canSt n).cancel then (s.txDone n b txCancelled).attemptOver n
  else if bitsOf (s.txb n b 1) 23 20 < s.txAttempts n b then (s.txDone n b txExhausted).attemptOver n
  else (s.bump CAN.RETRANSMISSIONS n).attemptOver n

/-- The attempt in progress ends. -/
def State.attemptEnd (s : State) (n : LaneId) (ok : Bool) (code : Nat) (dataPhase : Bool) : State :=
  match (s.canSt n).attempt with
  | none => s
  | some b =>
    let sof := (s.canSt n).sof
    if ok then
      let s := (s.put CAN.STAT_TEC n (s.g CAN.STAT_TEC n - 1)).confine n
      let s := ((s.setTxb n b 19 sof).bump CAN.TX_FRAMES n).txDone n b txSent
      (s.attemptOver n).canEcho n b sof
    else
      let s := s.lec n code dataPhase
      let quiet := s.canState n = canPassive ∧ code = 3
      let tec := if quiet then s.g CAN.STAT_TEC n else s.g CAN.STAT_TEC n + 8
      if 256 ≤ tec then (s.put CAN.STAT_TEC n 255).busOff n
      else ((s.put CAN.STAT_TEC n tec).confine n).txFailed n b

def execCanAttemptEnd (n : LaneId) (ok : Bool) (lec : BitVec 3) (dataPhase : Bool) (s : State) : Out :=
  fin (if s.farUp n then s.attemptEnd n ok lec.toNat dataPhase else s)

def execCanDeadline (n : LaneId) (b : Fin 32) (s : State) : Out :=
  fin (if s.farUp n && s.txOutcome n b == txPending && !s.txFits n b && (s.canSt n).attempt != some b.val then
    ((s.txDone n b txAborted).bump CAN.LOWER_ABORTED n).farCan n 6 else s)

/-- An error while receiving, or an FD frame seen with FD_EN = 0: an error frame; REC grows by 1, or by 8 where ISO 11898-1 asks for
it (`step8`; log 29). In internal loopback the controller does not watch the bus (R371). -/
def execCanBusError (n : LaneId) (lec : BitVec 3) (dataPhase step8 : Bool) (s : State) : Out :=
  fin (if s.farUp n && s.canOn n && s.g CAN.MODE_OP n != 2 then
    let s := s.lec n lec.toNat dataPhase
    (s.put CAN.STAT_REC n (min (s.g CAN.STAT_REC n + if step8 then 8 else 1) 255)).confine n
  else s)

def execCanIntegration (n : LaneId) (s : State) : Out :=
  fin (if s.farRuns n && s.canState n == canIntegrating && s.run (.lane n .can) then (s.setCan n canActive).confine n else s)

def execBusoffDelayExpiry (n : LaneId) (s : State) : Out :=
  fin (if s.farUp n && s.canState n == canBusOff && s.on CAN.MODE_BUSOFF_AUTO n
      && decide ((s.canSt n).offAt + s.g CAN.BUSOFF_DELAY_MS n * msTicks ≤ s.clock) then s.setCan n canRecovering else s)

def execRecoveryComplete (n : LaneId) (s : State) : Out :=
  fin (if s.farRuns n && s.canState n == canRecovering then
    let s := (s.put CAN.STAT_TEC n 0).put CAN.STAT_REC n 0
    (s.setCan n (if s.run (.lane n .can) then canActive else canOff)).farCan n 5
  else s)

/-- The far-side safe state or a converter trip: the controller leaves the bus at once, an attempt counts as failed (R384). -/
def State.canSafe (s : State) (n : LaneId) : State :=
  let s := match (s.canSt n).attempt with | some b => s.txFailed n b | none => s
  if s.canState n = canBusOff ∨ s.canState n = canRecovering then s else s.setCan n canOff

/-- The safe state ends: the controller rejoins if RUN is 1. -/
def State.canRejoin (s : State) (n : LaneId) : State :=
  if s.farRuns n && s.run (.lane n .can) && s.canState n == canOff then s.setCan n canIntegrating else s

/-! ### Register writes -/

/-- R370: an ARB_TIMING or DATA_TIMING word that is out of range, with the other as the press would leave it. -/
def timingBad (arb dat : Word) (ofArb : Bool) : Bool :=
  let qa := quantaA arb
  let qd := quantaD dat
  let own := if ofArb then
      bitsOf arb 31 24 == 0 || bitsOf arb 23 16 == 0 || bitsOf arb 15 8 == 0 || bitsOf arb 7 0 == 0
        || decide (qa < 80) || decide (640 < qa) || decide (bitsOf arb 23 16 < 2) || decide (bitsOf arb 15 8 < bitsOf arb 7 0)
    else
      bitsOf dat 23 20 == 0 || bitsOf dat 19 12 == 0 || bitsOf dat 11 6 == 0 || bitsOf dat 5 0 == 0
        || decide (qd < 16) || decide (bitsOf dat 11 6 < bitsOf dat 5 0)
        || decide (1 + bitsOf dat 19 12 + bitsOf dat 11 6 < bitsOf dat 30 24)
  own || decide (qa < qd)

/-- A buffer that waits would fail R377 under the timing of the press. -/
def timingBudgetBad (old : State) (n : LaneId) (arb dat : Word) : Bool :=
  (List.range 32).any fun b =>
    old.txWaits n b && !budgetOk (worstNs arb dat (old.txbNear n b 0) (old.txbNear n b 1)) (old.txbNear n b 1)

/-- The checks of one CAN word, on the state that the press would leave. -/
def canChk (old : State) (n : LaneId) (off : Nat) (v : Word) (s : State) : Option Nat :=
  let p := Page.lane n .can
  if off = 0x10 then (if bitAt v 0 && old.canState n != canBusOff then some errRange else none)
  else if off = 0x11 then (if bitsOf v 6 0 = 0 ∨ old.g CAN.STAT_RX_COUNT n < bitsOf v 6 0 then some errRange else none)
  else if off = 0x12 then (if bitsOf v 10 9 = 3 ∨ bitsOf v 1 0 = 3 then some errRange else none)
  else if off = 0x13 ∨ off = 0x14 then
    let arb := s.imageWd p 0x13
    let dat := s.imageWd p 0x14
    if timingBad arb dat (off == 0x13) then some errRange else if timingBudgetBad old n arb dat then some errBudget else none
  else if off = 0x18 then
    (maskBufs v).foldl (fun c b => match c with | some x => some x | none => txbReqOne old n s ((maskBufs v).filter (· < b)) b) none
  else if 0x80 ≤ off ∧ off ≤ 0x91 then
    let b := s.gi CAN.TXB_SEL n
    if old.txWaits n b then some errRange else none
  else none

/-- Release the k oldest FIFO entries. -/
def State.rxRelease (s : State) (n : LaneId) (k : Nat) : State :=
  let s := s.upCan n fun x => { x with fifo := x.fifo.drop k }
  s.put CAN.STAT_RX_COUNT n (s.canSt n).fifo.length

/-- RUN of the page (R371). -/
def State.canRunSet (s : State) (n : LaneId) (on : Bool) : State :=
  let was := s.run (.lane n .can)
  let s := s.setRun (.lane n .can) on
  if on = was then s
  else if on then (if s.canState n = canOff ∧ s.farRuns n = true then s.setCan n canIntegrating else s.setCan n (s.canState n))
  else if (s.canSt n).attempt.isSome ∨ s.canState n = canBusOff ∨ s.canState n = canRecovering then s.setCan n (s.canState n)
  else s.setCan n canOff

/-- The effect of an accepted CAN word. -/
def canEff (n : LaneId) (off : Nat) (v proof : Word) (s : State) : State :=
  let p := Page.lane n .can
  if off = 2 then (if bitAt v 30 then s else s.canRunSet n (bitAt v 0))
  else if off = 0x10 then (if bitAt v 0 && s.canState n == canBusOff then s.setCan n canRecovering else s)
  else if off = 0x11 then s.rxRelease n (bitsOf v 6 0)
  else if off = 0x18 then s.txbReq n v
  else if off = 0x19 then s.txbCancel n v
  else if 0x80 ≤ off ∧ off ≤ 0x91 then
    let b := s.g CAN.TXB_SEL n
    let s := storeEff p off v proof s
    if s.txOutcome n b = txPending ∨ s.txOutcome n b = txQueued then s else s.setOutcome n b txEmpty
  else storeEff p off v proof s

/-- A refused request leaves WORST_NS of its buffers computed all the same (R372); `old` is the state before the press. -/
def canWorst (n : LaneId) (v : Word) (old s : State) : State :=
  let p := Page.lane n .can
  (maskBufs v).foldl (fun s b =>
    if old.txWaits n b then s
    else s.setTxb n b 20 (BitVec.ofNat 32 (worstNs (old.wd (p.at_ 0x13)) (old.wd (p.at_ 0x14)) (old.txb n b 0) (old.txb n b 1)))) s

/-- One writer's write of one CAN word. -/
def canPress (w : Writer) (n : LaneId) (off : Nat) (v proof : Word) (s : State) : State :=
  let p := Page.lane n .can
  let s' := pressOne w p off v proof (canChk s n off v) (canEff n off v proof) s
  if off = 0x18 ∧ s.writable w p off = true ∧ (s.judge w p off v (canChk s n off v (s.staged p off v))).isSome = true then canWorst n v s s'
  else s'

def execCanRun (w : Writer) (n : LaneId) (v : Word) (s : State) : Out := fin (canPress w n 2 v 0 s)
def execTxbReq (w : Writer) (n : LaneId) (v : Word) (s : State) : Out := fin (canPress w n 0x18 v 0 s)
def execTxbCancel (w : Writer) (n : LaneId) (v : Word) (s : State) : Out := fin (canPress w n 0x19 v 0 s)
def execRxRelease (w : Writer) (n : LaneId) (v : Word) (s : State) : Out := fin (canPress w n 0x11 v 0 s)
def execRecover (w : Writer) (n : LaneId) (s : State) : Out := fin (canPress w n 0x10 1 0 s)

/-- A lane reset: every buffer EMPTY, the queues and the FIFO empty (R384). -/
def State.canReset (s : State) (n : LaneId) : State :=
  let s := (List.range 32).foldl (fun s b => s.setOutcome n b txEmpty) s
  ((s.upLane n fun l => { l with can := CanSt.reset }).put CAN.STAT_RX_COUNT n 0).canQueues n

end Sys2Proof.Machine
end

