-- ==== Sys2Proof/Machine/Net.lean ====
section
/-! DEFINITION. Frames of the Ethernet port J4 (spec/08_registration.md R196, R197; spec/09_impositions.md R222): what is accepted, the
form of a frame that is sent, and the transmitter. -/

namespace Sys2Proof.Machine

/-- VIO_LEVEL of a voltage in millivolts: 0 neither window, 1 the 1.8 V window, 2 the 3.3 V window (R29). -/
def vioLevel (mv : Nat) : Nat := if 1650 ≤ mv ∧ mv ≤ 1950 then 1 else if 3000 ≤ mv ∧ mv ≤ 3600 then 2 else 0

/-- Frames reach Chase: the module is awake and the link up. -/
def State.hears (s : State) : Bool := s.awake && s.on NET.UP 0

/-- A frame of no kept type (R197). -/
def State.dropFrame (s : State) : State := ((s.bump NET.RX_FRAMES 0).bump NET.RX_DROPPED 0).raise .net 2

/-- The port accepts a frame of 64 to 1,522 bytes that is untagged, or tagged with the VID of NET.VLAN while TAGGED is 1 (R196). -/
def State.accepts (s : State) (h : EthHead) : Bool :=
  decide (64 ≤ h.len) && decide (h.len ≤ 1522)
    && (match h.tag with
        | none => true
        | some t => s.on NET.TAGGED 0 && t.toNat % 4096 == s.g NET.VID 0)

/-- Take a received frame, or drop it. -/
def State.takeFrame (s : State) (h : EthHead) (f : State → State) : State :=
  if !s.hears then s else if s.accepts h then f s else s.dropFrame

/-! ### Sending -/

/-- A frame from the destination address to the FCS: tagged as NET.VLAN says, and padded to 64 bytes without the tag. -/
def State.ethFrame (s : State) (dest etype : Nat) (body : List Byte) : List Byte :=
  let tag := if s.on NET.TAGGED 0 then beBytes 2 0x8100 ++ beBytes 2 (s.g NET.PCP 0 * 8192 + s.g NET.VID 0) else []
  let f := beBytes 6 dest ++ beBytes 6 Config.mac.toNat ++ tag ++ beBytes 2 etype ++ body ++ List.replicate (46 - body.length) 0
  f ++ (beBytes 4 (crc32 f)).reverse

/-- Ticks of the system clock that a frame holds the transmitter: preamble, delimiter and gap are 20 bytes, and a byte takes 80 ns. -/
def frameTicks (len : Nat) : Nat := (len + 20) * 16

/-- A frame starts on the wire. -/
def State.frameOut (s : State) (at_ : Nat) (f : List Byte) (rest : List (Bool × List Byte)) : State :=
  { s.bump NET.TX_FRAMES 0 with ru := { s.ru with net := ⟨at_ + frameTicks f.length, rest, f⟩ } }

/-- Start the waiting frames whose time has come. -/
def netLoop : Nat → State → State
  | 0, s => s
  | k + 1, s =>
    match s.ru.net.queue with
    | [] => s
    | e :: rest => if s.ru.net.freeAt ≤ s.clock then netLoop k (s.frameOut s.ru.net.freeAt e.2 rest) else s

def State.netRun (s : State) : State := netLoop s.ru.net.queue.length s

/-- Send a frame while the link is up: at once, or behind those that wait, but a trigger frame ahead of every frame that is none (R222). -/
def State.netSend (s : State) (trig : Bool) (dest etype : Nat) (body : List Byte) : State :=
  if !s.on NET.UP 0 then s
  else
    let s := s.netRun
    let f := s.ethFrame dest etype body
    let n := s.ru.net
    if n.queue.isEmpty && decide (n.freeAt ≤ s.clock) then s.frameOut s.clock f []
    else
      let q := if trig then n.queue.filter (·.1) ++ (true, f) :: n.queue.filter (fun e => !e.1) else n.queue ++ [(false, f)]
      { s with ru := { s.ru with net := { n with queue := q } } }

end Sys2Proof.Machine
end

