-- ==== Sys2Proof/Machine/Imp.lean ====
section
/-! DEFINITION. The commands of impositions and of the SYNC page (spec/09_impositions.md R203 to R224, R538): posts, cancels, the
feeder, launches of module slots, marks and rings, skips, launch reports, SYNC_IN, PPS_OUT, reaction rules. -/

namespace Sys2Proof.Machine

/-! ### Posting (R206, R207) -/

/-- The four words of post slot p. -/
def State.slotWord (s : State) (p w : Nat) : Word := s.wd (IMP.SLOT.addr 0 (4 * p + w))

/-- The post of slot p by writer `h`: an outcome code, or the impression on its sheet. `whole` says that the press wrote all four
words (R206). -/
def State.postSlot (s : State) (h p : Nat) (whole : Bool) : Option Nat × State :=
  let t := (s.slotWord p 0).toNat * 2 ^ 32 + (s.slotWord p 1).toNat
  let w2 := s.slotWord p 2
  let arg := s.slotWord p 3
  let c := if whole then s.postChk h t w2 arg else some errRange
  match c with
  | some c => (some c, s)
  | none => (none, s.putImpression h t w2 arg)

/-- Note in a session's POST_OK which slots of a posting press were accepted. -/
def State.notePost (s : State) (w : Writer) (ok : Word) : State :=
  match w with
  | .host k => s.upSess k fun x => { x with postOk := ok }
  | _ => s

/-- A press that writes the four words of one slot. A refused post refuses its word 2, which keeps its value (R120, R206). -/
def State.impPost (s : State) (w : Writer) (p : Nat) (ws : List Word) : State :=
  if !s.writable w .imp (0x80 + 4 * p) then s
  else
    let was := s.slotWord p 2
    let s := (ws.zip (List.range 4)).foldl (fun s e => storeEff .imp (0x80 + 4 * p + e.2) e.1 0 s) s
    let s := s.pressedOn .imp true
    if impAction (s.slotWord p 2) = 0 then s
    else match s.postSlot w.holder p true with
      | (some c, s) => ((s.recordErr w .imp (0x82 + 4 * p) c false).setWd (IMP.SLOT.addr 0 (4 * p + 2)) was).notePost w 0
      | (none, s) => s.notePost w (bitMask p p)

def execImpPost (k : SessId) (p : Fin 32) (w0 w1 w2 w3 : Word) (s : State) : Out :=
  fin (s.impPost (.host k) p.val [w0, w1, w2, w3])

/-! ### The words of the IMP page with rules of their own (R208, R212, R220, R224) -/

/-- May the writer write rule r as it would stand: the rights its template needs (R220)? -/
def State.ruleRights (s : State) (w : Writer) (r : Nat) : Bool :=
  s.impRights w.holder (s.wd (IMP.RULE_TEMPLATE.addr 0 r)) (s.wd (IMP.RULE_TEMPLATE_ARG.addr 0 r))

/-- The ranges of rule r as it would stand. -/
def State.ruleOk (s : State) (r : Nat) : Bool :=
  let d := s.g IMP.RULE_DELAY_US 0 r
  let src := s.g IMP.RULE_SOURCE 0 r
  src != 3 && decide (d ≤ 1000000) && (src == 2 || decide (300 ≤ d))

/-- The checks of one IMP word, on the state that the press would leave. -/
def impChk (w : Writer) (off : Nat) (v : Word) (s : State) : Option Nat :=
  if off = 0x11 then (if bitAt v 0 && s.run .imp then some errStopped else none)
  else if off = 0x12 then (if 16 < bitsOf v 20 16 then some errRange else none)
  else if 0x20 ≤ off ∧ off < 0x30 then
    (if !s.ruleRights w ((off - 0x20) / 4) then some errRights else if s.ruleOk ((off - 0x20) / 4) then none else some errRange)
  else if 0x40 ≤ off ∧ off ≤ 0x50 then (if 256 < bitsOf v 8 0 then some errRange else none)
  else none

/-- CANCEL with DO = 1. -/
def impCancelEff (v : Word) (s : State) : State :=
  if !bitAt v 31 then s
  else
    let (gone, late, s) := s.cancelTag (bitsOf v 20 16) (bitsOf v 11 0)
    (s.put IMP.RES_CANCELLED 0 gone).put IMP.RES_TOO_LATE 0 late

/-- The effect of an accepted IMP word, the posts apart. -/
def impEff (w : Writer) (off : Nat) (v proof : Word) (s : State) : State :=
  if off = 2 then (storeEff .imp 2 v proof s).impStopped
  else if off = 0x11 then (if bitAt v 0 then s.unarmAll else s)
  else if off = 0x12 then impCancelEff v s
  else if 0x20 ≤ off ∧ off < 0x30 then
    let s := storeEff .imp off v proof s
    let o : Option SessId := match w with | .host k => some k | _ => none
    { s with imp := { s.imp with ruleOwner := s.imp.ruleOwner.setIfInBounds ((off - 0x20) / 4) o } }
  else storeEff .imp off v proof s

/-- One writer's write of one IMP word. -/
def impPress (w : Writer) (off : Nat) (v proof : Word) (s : State) : State :=
  pressOne w .imp off v proof (impChk w off v) (impEff w off v proof) s

def execImpDisarm (w : Writer) (s : State) : Out := fin (impPress w 0x11 1 0 s)
def execImpCancel (w : Writer) (v : Word) (s : State) : Out := fin (impPress w 0x12 v 0 s)
def execImpRun (w : Writer) (v : Word) (s : State) : Out := fin (impPress w 2 v 0 s)

/-! ### The feeder (R209) -/

def execFeederArm (sh m : Nat) (s : State) : Out := fin (s.feed sh m)

/-! ### Launches with no block of their own (R205, R219, R222) -/

/-- The engine-mark slug's source (Table: Action codes). -/
def markSource : Nat := 0x3E

/-- The slug carries the instant of the launch in lane time. -/
def execMark (n : LaneId) (s : State) : Out :=
  fin (if s.farUp n then
    s.launchNext n.val 0xA (fun x s =>
      (none, s.slug n markSource 0 (BitVec.ofNat 32 (s.launchAt n x)) (BitVec.ofNat 32 (impTag x.w2)) x.arg)) else s)

/-- A RING launches in its lane's slots from a lane sheet and in the module slots from the module sheet (R209). -/
def execImpRing (m : Nat) (s : State) : Out :=
  fin (if h : m < 16 then
      (if s.farUp ⟨m, h⟩ then s.launchNext m 0xB (fun x s => (none, s.ring (bitsOf x.arg 9 0))) else s)
    else if m = moduleSlots then s.launchNext m 0xB (fun x s => (none, s.ring (bitsOf x.arg 9 0))) else s)

/-- SYNC_OUT takes a level; a pulse is noted with the clock at which it ends. -/
def State.syncOut (s : State) (level : Nat) (pulse : Option Nat) : State :=
  State.put { s with imp := { s.imp with pulse := pulse } } SYNC.OUT_LEVEL 0 level

/-- Ticks of the system clock in 100 ns, the unit of a pulse's width. -/
def pulseTicks : Nat := 20

def execSyncOut (s : State) : Out :=
  fin (s.launchNext moduleSlots 0x20 (fun x s =>
    (none, s.syncOut (b2n (bitsOf x.arg 1 0 != 0)) (if bitsOf x.arg 1 0 = 2 then some (s.clock + bitsOf x.arg 31 16 * pulseTicks) else none))))

def execSyncOutPulseEnd (s : State) : Out :=
  fin (match s.imp.pulse with
    | some t => if t ≤ s.clock then s.syncOut 0 none else s
    | none => s)

/-- The 46 bytes of a trigger frame from VERSION to the padding (Table: Trigger frame). -/
def TrigFrame.body (f : TrigFrame) : List Byte :=
  [1, 1] ++ beBytes 2 f.group ++ beBytes 2 f.tag ++ beBytes 8 f.launch ++ beBytes 8 f.issued ++ List.replicate 24 0

/-- The destination of trigger frames and their Ethertype. -/
def trigDest : Nat := 0x0300C07E0001
def trigType : Nat := 0x88B5

def execEthLaunch (s : State) : Out :=
  fin (s.launchNext moduleSlots 0x21 (fun x s =>
    let f : TrigFrame := ⟨bitsOf x.arg 15 0, impTag x.w2, (x.time + bitsOf x.arg 31 16 * 1000000) % 2 ^ 64, x.time⟩
    (none, State.netSend { s with imp := { s.imp with trigSent := if s.on NET.UP 0 then some f else s.imp.trigSent } }
      true trigDest trigType f.body)))

/-! ### Skips and reports (R212, R538) -/

/-- The first impression of a sheet that group m has still to launch and that `ok` admits. -/
def State.firstTodo (s : State) (sh m : Nat) (ok : Impression → Bool) : Option Impression :=
  (s.onSheet sh).foldl (fun b x => if x.todo.contains m && ok x then
    (match b with | none => some x | some y => if impBefore x y then some x else b) else b) none

/-- Group m skips an impression: reported by the far side where a slot held it, counted at once where Chase decides (R538). -/
def State.skipOne (s : State) (m : Nat) (x : Impression) (kind : LaunchKind) : State :=
  if x.slots.contains m then s.slotDone m x kind
  else (s.setImpression { x with todo := x.todo.filter (· != m) }).countLaunch ⟨x.sheet, x.w2, x.arg, kind, []⟩

/-- An arming is on its way to group m's slot: neither Chase nor the slot judges the impression meanwhile. -/
def inTransit (m : Nat) (x : Impression) : Bool := x.armed.contains m && !x.slots.contains m

/-- An impression later than LATE_TOL that is handled as SKIP. -/
def execImpressionSkip (sh m : Nat) (s : State) : Out :=
  fin (match s.firstTodo sh m (fun x => s.impSkips x && !inTransit m x && decide ((s.lateTol : Int) < s.lateness m x)) with
    | none => s
    | some x => s.skipOne m x .skipped)

/-- An impression that has not launched 2.000 s after its TIME. -/
def execImpressionExpired (sh m : Nat) (s : State) : Out :=
  fin (match s.firstTodo sh m (fun x => !inTransit m x && decide (2 * (second : Int) ≤ s.lateness m x)) with
    | none => s
    | some x => s.skipOne m x .expired)

/-- Chase enters in the near-side image what a launch set on a mirrored page, and the page counts it (R205). -/
def State.imageLaunch (s : State) (n : LaneId) (r : LaunchRep) : State :=
  let im (s : State) (f : Fld) (v : Nat) : State :=
    let a := f.addr n.val 0
    { s with image := sset resetWord s.image a (withBits (sget resetWord s.image a) f.hi f.lo v) }
  let act := impAction r.w2
  let m := bitsOf r.arg 3 0
  if act = 1 then
    let v (i : Nat) : Nat := r.vals[i]?.getD 0
    let s := im (im (im (im (im s SMU.LEVEL (v 0)) SMU.LIMIT (v 1)) SMU.IRANGE (v 2)) SMU.DWELL_MS (v 3)) SMU.RATE (v 4)
    s.launchCounted (.lane n .smu)
  else if act = 2 then
    let a := (Page.lane n .smu).at_ 2
    let s := { s with image := sset resetWord s.image a (withBits (sget resetWord s.image a) 0 0 0) }
    s.launchCounted (.lane n .smu)
  else if act = 3 then (im s CHAIN.WIN (s.gi CHAIN.WIN n ||| m)).launchCounted (.lane n .chain)
  else if act = 4 then (im s CHAIN.WIN (s.gi CHAIN.WIN n &&& (15 - m))).launchCounted (.lane n .chain)
  else if act = 5 then
    let m := bitsOf r.arg 7 0
    (im s TMR.DIO_OUT ((s.gi TMR.DIO_OUT n &&& (255 - m)) ||| (bitsOf r.arg 15 8 &&& m))).launchCounted (.lane n .tmr)
  else s

def execLaunchReport (n : LaneId) (s : State) : Out :=
  fin (match (s.lane n).reports with
    | [] => s
    | r :: rest =>
      if !s.live n then s
      else
        let s := s.upLane n fun l => { l with reports := rest }
        let s := match r.kind with
          | .onTime => s.imageLaunch n r
          | .late _ => s.imageLaunch n r
          | _ => s
        s.countLaunch r)

/-! ### Reaction rules (R220, R223) -/

/-- Rule r posts its template with a TIME. -/
def State.rulePost (s : State) (r time : Nat) : State :=
  let h := match s.imp.ruleOwner[r]?.getD none with | some k => k.val | none => 0x20
  let w2 := s.wd (IMP.RULE_TEMPLATE.addr 0 r)
  let arg := s.wd (IMP.RULE_TEMPLATE_ARG.addr 0 r)
  match s.postChk h time w2 arg with
  | some c => ((s.bump IMP.REFUSED 0).impException 3 (impSheet w2) c (impTag w2)).raise .imp 2
  | none => (s.putImpression h time w2 arg).raise .imp 6

/-- The rules that an event of source `src` with GROUP `g` sets off, in order; `t` is the captured or launch time. -/
def State.fireRules (s : State) (src g t : Nat) : State :=
  (List.range 4).foldl (fun s r =>
    if s.on IMP.RULE_EN 0 r && s.g IMP.RULE_SOURCE 0 r == src && (src != 2 || s.g IMP.RULE_GROUP 0 r == g) then
      s.rulePost r (t + s.g IMP.RULE_DELAY_US 0 r * 1000) else s) s

/-- A frame to the trigger destination: `body` follows the addresses and any tag, from the Ethertype on. One whose Ethertype, VERSION or KIND
is another is dropped (R223). -/
def execTriggerFrameRx (h : EthHead) (body : List Byte) (s : State) : Out :=
  let part (a k : Nat) : Nat := beNat ((body.drop a).take k)
  fin (s.takeFrame h fun s =>
    if part 0 4 = trigType * 65536 + 0x0101 then
      let t := part 8 8
      let s := ((s.bump NET.RX_FRAMES 0).put IMP.TRIG_GROUP 0 (part 4 2)).put IMP.TRIG_TAG 0 (part 6 2)
      let s := (s.put IMP.TRIG_LAUNCH_HI 0 (t / 2 ^ 32)).put IMP.TRIG_LAUNCH_LO 0 (t % 2 ^ 32)
      ((s.bump IMP.TRIG_RX 0).raise .imp 7).fireRules 2 (part 4 2) t
    else s.dropFrame)

/-! ### SYNC_IN (R216, R217) -/

/-- What the SYNC page shows of the FIFO. -/
def State.syncShow (s : State) : State :=
  let q := s.imp.syncFifo
  let h := q.headD (false, 0)
  let s := (s.put SYNC.IN_STAT_COUNT 0 q.length).put SYNC.IN_STAT_HEAD_RISING 0 (b2n h.1)
  (s.put SYNC.IN_HEAD_HI 0 (h.2 / 2 ^ 32)).put SYNC.IN_HEAD_LO 0 (h.2 % 2 ^ 32)

/-- Entries of the SYNC_IN FIFO. -/
def syncMax : Nat := 16

/-- An edge of the SYNC_IN pin, which is without function while VIO is in neither window (R29). -/
def execSyncInEdge (rising : Bool) (s : State) : Out :=
  let sel := s.g SYNC.IN_CFG 0
  let t := s.rt64
  let near := match s.imp.lastEdge with | some u => decide (t < u + 100) | none => false
  fin (if !s.awake || vioLevel s.pwr.vio == 0 || !(if rising then sel == 1 || sel == 3 else sel == 2 || sel == 3) then s
    else if near || decide (syncMax ≤ s.imp.syncFifo.length) then (s.bump SYNC.IN_DROPS 0).raise .sync 1
    else
      let s := State.syncShow { s with imp := { s.imp with syncFifo := s.imp.syncFifo ++ [(rising, t)], lastEdge := some t } }
      (s.raise .sync 0).fireRules (if rising then 0 else 1) 0 t)

/-- PPS_OUT is held low (R218). -/
def State.ppsHeld (s : State) : Bool :=
  !s.on SYNC.PPS_EN 0 || (s.on SYNC.PPS_REQ_LOCK 0 && s.g REG.STATE 0 != 2 && s.g REG.STATE 0 != 4)

/-- PPS_OUT goes low where it is held low. -/
def State.ppsSettle (s : State) : State := { s with imp := { s.imp with ppsHigh := s.imp.ppsHigh && !s.ppsHeld } }

/-- The checks of one SYNC word. -/
def syncChk (off : Nat) (v : Word) (s : State) : Option Nat :=
  if off = 0x14 then (if s.g SYNC.IN_STAT_COUNT 0 < bitsOf v 4 0 then some errRange else none)
  else if off = 0x17 then (if bitsOf v 8 0 = 0 ∨ 500 < bitsOf v 8 0 then some errRange else none)
  else none

/-- The effect of an accepted SYNC word. -/
def syncEff (off : Nat) (v proof : Word) (s : State) : State :=
  if off = 0x14 then State.syncShow { s with imp := { s.imp with syncFifo := s.imp.syncFifo.drop (bitsOf v 4 0) } }
  else if off = 0x17 then (storeEff .sync off v proof s).ppsSettle
  else storeEff .sync off v proof s

def execInRelease (w : Writer) (v : Word) (s : State) : Out :=
  fin (pressOne w .sync 0x14 v 0 (syncChk 0x14 v) (syncEff 0x14 v 0) s)

/-- PPS_OUT has been high for WIDTH_MS. -/
def execPpsPulseEnd (s : State) : Out :=
  fin (if s.imp.ppsHigh && decide (s.imp.ppsAt + s.g SYNC.PPS_WIDTH_MS 0 * msTicks ≤ s.clock) then
    { s with imp := { s.imp with ppsHigh := false } } else s)

/-- What a J1 output with this level is driven to: `none` is high impedance, with VIO in neither window and in DORMANT and OFF; a module reset
drives it low (R29, R37). -/
def State.j1Out (s : State) (level : Bool) : Option Bool :=
  if vioLevel s.pwr.vio = 0 then none
  else match s.pwr.mode with
    | .off | .dormant => none
    | .inReset => some false
    | _ => some level

def State.syncOutPin (s : State) : Option Bool := s.j1Out (s.on SYNC.OUT_LEVEL 0)
def State.ppsOutPin (s : State) : Option Bool := s.j1Out s.imp.ppsHigh

end Sys2Proof.Machine
end

