-- ==== Sys2Proof/Machine/Reg.lean ====
section
/-! DEFINITION. Registration (spec/08_registration.md R178 to R199): the counter and its extension, RT_INC, steps, the two PTP domains,
the servo and the switch, UTC, and the Ethernet port. -/

namespace Sys2Proof.Machine

/-! ### Time passing (R178, R180) -/

/-- Ticks of the system clock until the registration counter has gained `d` units of 2^-24 ns. -/
def State.ticksFor (s : State) (d : Nat) : Nat :=
  let inc := s.g REG.RT_INC 0
  if inc = 0 then 0 else (d + inc - 1) / inc

/-- The counter now, in units of 2^-24 ns. -/
def State.rtFine (s : State) : Nat := s.rt64 * 2 ^ 24 + s.ru.frac

/-- Let the counter run to the first tick at which 64-bit RT is `t` or more. -/
def State.runTo (s : State) (t : Nat) : State := s.ticks (s.ticksFor (t * 2 ^ 24 - s.rtFine))

/-- What time alone brings: waiting frames start on J4, and an ultrasonic pair ends (R222, R279). -/
def State.settleTime (s : State) : State :=
  s.netRun.forLanes allLanes fun n s => if s.fitted n then s.usPass n else s

def execRtHiIncrement (s : State) : Out :=
  fin (if s.on REG.WRAP_PENDING 0 then
    ((s.put REG.RT_HI 0 ((s.g REG.RT_HI 0 + 1) % 2 ^ 32)).put REG.WRAP_PENDING 0 0).raise .reg 0 else s)

/-- What a whole second brings (R190, R201, R218, R440; log 17). -/
def State.secondPassed (s : State) : State :=
  let s := s.raise .reg 6
  let s := s.forLanes allLanes fun n s =>
    let s := if s.on LANE.STATE_LOCKED n && !(s.lane n).gal.linkLostFolio then s.folio n 0 else s
    if s.fitted n then ((s.azSecond n).zcSecond n).searchSecond n else s
  let s := if s.g REG.STATE 0 = 3 then s.bump REG.HOLD_S 0 else s
  let pps := !s.ppsHeld && decide (s.ru.ppsFrom ≤ s.rt64)
  { s with
    imp := { s.imp with ppsHigh := s.imp.ppsHigh || pps, ppsAt := if pps then s.clock else s.imp.ppsAt }, ptpA := { s.ptpA with msgs := 0 }, ptpB := { s.ptpB with msgs := 0 } }

/-- The counter runs to the next whole second. -/
def State.oneSecond (s : State) : State := (s.runTo ((s.rt64 / second + 1) * second)).secondPassed

def passSeconds : Nat → State → State
  | 0, s => s
  | k + 1, s => passSeconds k s.oneSecond

/-- The counter runs to `t`, and each whole second on the way brings what it brings. -/
def State.passTo (s : State) (t : Nat) : State := ((passSeconds (t / second - s.rt64 / second) s).runTo t).settleTime

/-- One tick of the system clock (R178), with the whole second that it may complete (R201). -/
def State.oneTick (s : State) : State :=
  let t := s.ticks 1
  (if s.rt64 / second < t.rt64 / second then t.secondPassed else t).settleTime

def execRtSecond (s : State) : Out := fin (if s.awake then s.oneSecond.settleTime else s)

/-- The tick at which RT_LO passes through zero; Chase has served the wrap before it. -/
def execRtWrap (s : State) : Out :=
  fin (if s.awake && !s.on REG.WRAP_PENDING 0 then s.passTo ((s.rt64 / 2 ^ 32 + 1) * 2 ^ 32) else s)

/-! ### RT_INC (R178, R179, R191) -/

def incNominal : Nat := 0x05000000
def incMin : Nat := 0x04FEB852
def incMax : Nat := 0x050147AE

/-- An item that goes to every locked lane under R8. -/
def State.toLanes (s : State) (it : Item) : State :=
  s.forLanes allLanes fun n s => if (s.lane n).link.locked then s.sendDown n it else s

/-- Ticks in 60 s. -/
def minuteTicks : Nat := 12000000000

/-- RT_INC changes: FREQ_PPB follows, the change is noted for the mean of R191, and every lane is told (R198). -/
def State.setInc (s : State) (v : Nat) : State :=
  let s := { s with ru := { s.ru with incs := (s.clock, BitVec.ofNat 32 v)
      :: (if s.ru.incs.isEmpty then [(0, s.wd (REG.RT_INC.addr 0 0))] else s.ru.incs) } }
  let s := s.put REG.RT_INC 0 v
  let s := s.put REG.FREQ_PPB 0 (wrapInt 32 ((((v : Int) - (incNominal : Int)) * 1000000000) / (incNominal : Int)))
  s.toLanes (.rate (BitVec.ofNat 32 v))

/-- The mean of RT_INC over the last 60 s, weighted by time; the spec states no rounding of it (log 30). -/
def State.incMean (s : State) : Nat :=
  let lo := s.clock - minuteTicks
  let (sum, _) := s.ru.incs.foldl (fun (a : Nat × Nat) e =>
    let f := max e.1 lo
    (a.1 + (a.2 - f) * e.2.toNat, min a.2 f)) (0, s.clock)
  let w := s.clock - max lo ((s.ru.incs.getLast?.map (·.1)).getD s.clock)
  if w = 0 then s.g REG.RT_INC 0 else sum / w

/-! ### The state of RT (R190, R192) -/

/-- Domain A (false) or B (true). -/
def State.dom (s : State) (b : Bool) : PtpDom := if b then s.ptpB else s.ptpA
def State.upDom (s : State) (b : Bool) (f : PtpDom → PtpDom) : State :=
  if b then { s with ptpB := f s.ptpB } else { s with ptpA := f s.ptpA }

def domFree : Nat := 0
def domAcquire : Nat := 1
def domLocked : Nat := 2
def domHoldover : Nat := 3

/-- The selected domain. -/
def State.sel (s : State) : Bool := s.on REG.SOURCE 0

/-- What REG.RT_STAT.STATE shows. -/
def State.rtState (s : State) : Nat :=
  if s.g REG.MODE 0 = 1 then 0 else if s.g REG.MODE 0 = 2 then 5
  else if s.ru.switching then 4 else s.g PTP.STATE 0 (b2n s.sel)

/-- RT_STAT follows, and STATE_CHANGE is raised if STATE changes. -/
def State.rtShow (s : State) : State :=
  let x := s.rtState
  let old := s.g REG.STATE 0
  let s := s.put REG.ARB 0 (if s.g REG.MODE 0 = 0 then s.g PTP.ARB 0 (b2n s.sel) else 0)
  let s := if x = 3 then s else s.put REG.HOLD_S 0 0
  let s := (s.put REG.STATE 0 x).ppsSettle
  if x = old then s else s.raise .reg 1

def State.setDomState (s : State) (b : Bool) (x : Nat) : State := (s.p PTP.STATE 0 (b2n b) x).rtShow

/-- DOMAIN_OFFSET, once both offsets are known. -/
def State.domainOffset (s : State) : Option Int :=
  match (s.dom (!s.sel)).off, (s.dom s.sel).off with
  | some o, some m => some (o - m)
  | _, _ => none

/-- DOMAIN_OFFSET saturates. -/
def State.showOffsets (s : State) : State :=
  match s.domainOffset with
  | some d => s.put REG.DOMAIN_OFFSET 0 (wrapInt 32 (if d < -2147483647 then -2147483647 else if d > 2147483647 then 2147483647 else d))
  | none => s

/-! ### Steps (R184, R185) -/

/-- Is any impression armed? -/
def State.anyArmed (s : State) : Bool := s.imp.sheets.any fun x => !x.armed.isEmpty

/-- While impressions stay armed under STEP_IDLE a decided step is held, and STEP_HELD is raised once. -/
def State.holdStep (s : State) : State :=
  if s.g REG.STEP_POLICY 0 = 0 && s.anyArmed && !s.on REG.STEP_HELD 0 then (s.put REG.STEP_HELD 0 1).raise .reg 3 else s

/-- A step is decided; under STEP_IDLE it is held while impressions stay armed, under NEVER it is not taken. -/
def State.decideStep (s : State) (r : StepReq) : State :=
  if s.g REG.STEP_POLICY 0 = 2 then s
  else State.holdStep { s with ru := { s.ru with decided := some r } }

/-- A step that is not announced yet is dropped, and STEP_HELD clears; it stays for an announced step, which is still to be taken. -/
def State.dropStep (s : State) : State :=
  let s := { s with ru := { s.ru with decided := none } }
  if s.ru.announced.isSome then s else s.put REG.STEP_HELD 0 0

/-- The least warning of a step, in nanoseconds. -/
def stepAhead : Nat := 100000

/-- The time that a step loads at its instant. -/
def StepReq.newTime (r : StepReq) (t : Nat) : Nat :=
  match r.absolute with
  | some v => v
  | none => ((t : Int) + r.delta).toNat % 2 ^ 64

/-- Chase announces a decided step to every locked lane. -/
def State.announce (s : State) (ahead : Nat) : State :=
  match s.ru.decided with
  | none => s
  | some r =>
    if s.ru.announced.isSome then s
    else if s.g REG.STEP_POLICY 0 == 0 && s.anyArmed then s.holdStep
    else
      let t := s.rt64 + max ahead stepAhead
      let v := r.newTime t
      let s := { s with ru := { s.ru with decided := none, announced := some (r, t) } }
      s.toLanes (.step ((v : Int) - (t : Int)) t)

def execStepAnnounce (ahead : Nat) (s : State) : Out := fin (s.announce ahead)

/-- What RT has measured against itself moves with a step of `d`. -/
def PtpDom.stepped (p : PtpDom) (d : Int) : PtpDom :=
  { p with sync := p.sync.map fun x => (x.1, x.2.1 + d, x.2.2), ms := p.ms.map (· + d), t3 := p.t3.map (· + d), off := p.off.map (· - d) }

/-- The offset a domain shows, signed; beyond 32 bits the spec states no value (log 4). -/
def State.showOffset (s : State) (b : Bool) : State :=
  match (s.dom b).off with
  | none => s
  | some o =>
    if -2147483648 ≤ o ∧ o ≤ 2147483647 then s.p PTP.OFFSET 0 (b2n b) (wrapInt 32 o)
    else (s.fresh.2).p PTP.OFFSET 0 (b2n b) s.fresh.1.toNat

/-- 1 ms: an offset that needs a step. -/
def stepNs : Int := 1000000

def absInt (i : Int) : Int := if i < 0 then -i else i

/-- The selected domain leaves FREE once the step that its offset needed has brought the offset below 1 ms (R190). -/
def State.leaveFree (s : State) : State :=
  match (s.dom s.sel).off with
  | some o => if s.g REG.MODE 0 = 0 ∧ s.g PTP.STATE 0 (b2n s.sel) = domFree ∧ absInt o < stepNs then s.setDomState s.sel domAcquire else s
  | none => s

/-- RT takes its new value, in one tick. -/
def State.stepNow (s : State) (r : StepReq) : State :=
  let old := s.rt64
  let v := r.newTime old
  let d : Int := (v : Int) - (old : Int)
  let s := (((s.put REG.RT_LO 0 (v % 2 ^ 32)).put REG.RT_HI 0 (v / 2 ^ 32)).put REG.WRAP_PENDING 0 0).put REG.SET 0 1
  let x := wrapInt 64 d
  let s := (s.put REG.LAST_STEP_HI 0 (x / 2 ^ 32)).put REG.LAST_STEP_LO 0 (x % 2 ^ 32)
  let s := { s with
    ru := { s.ru with frac := 0, announced := none, ppsFrom := v + 1000000, captures := s.ru.captures.map fun (c : Bool × Nat) => (c.1, ((c.2 : Int) + d).toNat) },
    ptpA := s.ptpA.stepped d, ptpB := s.ptpB.stepped d,
    imp := { s.imp with ppsHigh := false, lastEdge := s.imp.lastEdge.map fun t => ((t : Int) + d).toNat } }
  let s := s.forLanes allLanes fun n s => s.upLane n fun l => { l with timeOff := l.timeOff - d }
  let s := ((s.showOffset false).showOffset true).showOffsets
  let s := ((s.put REG.STEP_HELD 0 0).bump REG.STEPS 0).raise .reg 2
  let s := s.impAtStep d
  let s := if r.isSwitch then s.raise .reg 4 else s
  s.leaveFree

def execStepInstant (s : State) : Out :=
  fin (match s.ru.announced with
    | some (r, t) => if s.awake then (s.passTo t).stepNow r else s
    | none => s)

/-- A lane's own time reaches the instant: it loads the new time, its chains restart on the new grid, and its slug stream carries a
STEP folio (R184, R215, R440). -/
def State.laneStep (s : State) (n : LaneId) : State :=
  match (s.lane n).stepAt with
  | none => s
  | some (d, t) =>
    let v := ((t : Int) + d).toNat
    let s := s.upLane n fun l => { l with stepAt := none, timeOff := l.timeOff + d }
    let s := s.pushSlug n (folioMark 6 0 (BitVec.ofNat 32 (v % 2 ^ 32)) (BitVec.ofNat 32 (v / 2 ^ 32)))
    (s.chainsDue n).coarseRestart n

def execLaneStepApply (n : LaneId) (s : State) : Out :=
  fin (match (s.lane n).stepAt with
    | some (_, t) => if s.farUp n && decide (t ≤ s.laneTime n) then s.laneStep n else s
    | none => s)

/-! ### The switch (R192, R193) -/

/-- The limit of R191 at a frequency estimate: 50 ppm. -/
def slewLimit (base : Nat) : Nat := base * 50 / 1000000

/-- An RT_INC inside the limits of R179. -/
def incClamp (i : Int) : Nat := if i < (incMin : Int) then incMin else if i > (incMax : Int) then incMax else i.toNat

/-- REG.UTC takes the values of the selected domain's last Announce (R195). -/
def State.takeUtc (s : State) : State :=
  let b := b2n s.sel
  if s.g REG.MODE 0 = 0 && (s.dom s.sel).told then
    let old := s.wd (REG.UTC_VALID.addr 0 0)
    let s := ((s.put REG.UTC_VALID 0 (s.g PTP.UTC_VALID 0 b)).put REG.UTC_LEAP61 0 (s.g PTP.UTC_LEAP61 0 b)).put REG.UTC_LEAP59 0 (s.g PTP.UTC_LEAP59 0 b)
    let s := (s.put REG.UTC_OFFSET_S 0 (s.g PTP.UTC_OFFSET 0 b)).put REG.UTC_FROM_PTP 0 1
    if (old ^^^ s.wd (REG.UTC_VALID.addr 0 0)) &&& ~~~(bitMask 28 28) ≠ 0 then s.raise .reg 5 else s
  else s

/-- The slew of a switch is over with `rem` left: the state becomes the new domain's, and SWITCH_DONE is raised. -/
def State.switchDone (s : State) (rem : Int) : State :=
  let s := (s.put REG.SLEW_REMAIN 0 (wrapInt 32 rem)).setInc s.ru.baseInc.toNat
  (State.rtShow { s with ru := { s.ru with switching := false } }).raise .reg 4

/-- What the slew of a switch has still to remove: the offset last measured, less what the rate of RT has removed since. -/
def State.slewLeft (s : State) : Int :=
  let gained := ((s.g REG.RT_INC 0 : Int) - (s.ru.baseInc.toNat : Int)) * ((s.clock - s.ru.slewFrom.1 : Nat) : Int) / 2 ^ 24
  s.ru.slewFrom.2 - gained

/-- RT slews toward the selected domain at the limit, or has come within ±LOCK_NS of it. -/
def State.slewSwitch (s : State) : State :=
  let rem := (s.dom s.sel).off.getD 0
  let lim : Int := (slewLimit s.ru.baseInc.toNat : Nat)
  if absInt rem ≤ (s.g REG.LOCK_NS 0 : Int) then s.switchDone rem
  else
    let s := State.put { s with ru := { s.ru with slewFrom := (s.clock, rem) } } REG.SLEW_REMAIN 0 (wrapInt 32 rem)
    s.setInc (incClamp ((s.ru.baseInc.toNat : Int) + if rem < 0 then -lim else lim))

/-- The selected domain becomes `b`: seamlessly below 1 ms, by a step otherwise (R193); a switch that needs a step is not
performed under NEVER (R185). In FREE and HOST only the choice changes. -/
def State.startSwitch (s : State) (b : Bool) : State :=
  let d := (s.domainOffset).getD 0
  let big := decide (stepNs ≤ absInt d)
  if s.g REG.MODE 0 ≠ 0 then ((s.put REG.SOURCE 0 (b2n b)).put REG.SELECT 0 (b2n b)).showOffsets.rtShow
  else if big && s.g REG.STEP_POLICY 0 == 2 then s.put REG.SELECT 0 (b2n s.sel)
  else
    let s := ((s.put REG.SOURCE 0 (b2n b)).put REG.SELECT 0 (b2n b)).showOffsets
    let s := s.takeUtc
    if big then (State.decideStep { s with ru := { s.ru with switching := false } } ⟨(s.dom b).off.getD d, none, true⟩).rtShow
    else State.slewSwitch (State.rtShow { s with ru := { s.ru with switching := true } })

/-- FAILOVER: Chase starts a switch when the other domain is LOCKED and the selected one is in HOLDOVER, or in FREE as `free`
allows (R192). -/
def State.failover (s : State) (free : Bool) : State :=
  let st := s.g PTP.STATE 0 (b2n s.sel)
  if s.on REG.SWITCH_POLICY 0 && s.g REG.MODE 0 == 0 && s.g PTP.STATE 0 (b2n (!s.sel)) == domLocked
      && (st == domHoldover || (free && st == domFree)) then s.startSwitch (!s.sel) else s

/-- SLEW_REMAIN has fallen within ±LOCK_NS. -/
def execSwitchComplete (s : State) : Out :=
  let left := s.slewLeft
  fin (if s.ru.switching && (decide (absInt left ≤ (s.g REG.LOCK_NS 0 : Int)) || decide (left < 0) != decide (s.ru.slewFrom.2 < 0)) then
    s.switchDone left else s)

/-! ### Writes of the REG page -/

/-- The checks of one REG word, on the state that the press would leave. -/
def regChk (old : State) (off : Nat) (v : Word) (s : State) : Option Nat :=
  let bad : Bool :=
    if off = 0x13 then decide (v.toNat < incMin) || decide (incMax < v.toNat)
    else if off = 0x14 then
      let sw := s.g REG.SELECT 0 != old.g REG.SELECT 0
      s.g REG.STEP_POLICY 0 == 3 || s.g REG.MODE 0 == 3
        || (sw && (old.g PTP.STATE 0 (s.g REG.SELECT 0) != domLocked || old.g REG.STATE 0 == 4))
    else if off = 0x15 then decide (86400 < bitsOf v 16 0)
    else if off = 0x16 then decide (bitsOf v 15 0 < 20) || decide (10000 < bitsOf v 15 0) || decide (bitsOf v 31 16 < 200)
      || decide (bitsOf v 31 16 ≤ bitsOf v 15 0)
    else if off = 0x20 then bitAt v 0 && s.g REG.STEP_POLICY 0 == 2
    else false
  if bad then some errRange else none

/-- MODE changes (R194, R195): leaving PTP ends a slew and drops a step not announced, and RT_INC holds the estimate. -/
def State.modeChanged (s : State) (old : Nat) : State :=
  let s := if old = 0 then
      let s := { s with ru := { s.ru with switching := false } }
      ((s.dropStep).put REG.SLEW_REMAIN 0 0).setInc s.ru.baseInc.toNat
    else { s with ru := { s.ru with baseInc := s.wd (REG.RT_INC.addr 0 0) } }
  (s.put REG.UTC_FROM_PTP 0 0).rtShow

/-- The effect of the word REG.CFG. -/
def regCfgEff (v : Word) (s : State) : State :=
  let mode := s.g REG.MODE 0
  let sel := s.g REG.SELECT 0
  let s := storeEff .reg 0x14 v 0 s
  let s := if s.g REG.STEP_POLICY 0 = 2 then s.dropStep else s
  let s := if s.g REG.SELECT 0 = sel then s else s.startSwitch (s.on REG.SELECT 0)
  if s.g REG.MODE 0 = mode then s else s.modeChanged mode

/-- The effect of an accepted REG word. -/
def regEff (off : Nat) (v proof : Word) (s : State) : State :=
  if off = 0x13 then State.setInc { s with ru := { s.ru with baseInc := v } } v.toNat
  else if off = 0x14 then regCfgEff v s
  else if off = 0x20 then
    (if bitAt v 0 then s.decideStep ⟨0, some (s.g REG.STEP_HI 0 * 2 ^ 32 + s.g REG.STEP_LO 0), false⟩ else s)
  else if off = 0x21 then
    let old := s.wd (REG.UTC_VALID.addr 0 0)
    let s := storeEff .reg off v proof s
    if old = s.wd (REG.UTC_VALID.addr 0 0) then s else s.raise .reg 5
  else storeEff .reg off v proof s

/-- One writer's write of one REG word. -/
def regPress (w : Writer) (off : Nat) (v proof : Word) (s : State) : State :=
  pressOne w .reg off v proof (regChk s off v) (regEff off v proof) s

def execRtIncWrite (w : Writer) (v : Word) (s : State) : Out := fin (regPress w 0x13 v 0 s)
def execStepGo (w : Writer) (s : State) : Out := fin (regPress w 0x20 1 0 s)
def execSelectWrite (w : Writer) (v : Word) (s : State) : Out := fin (regPress w 0x14 v 0 s)
def execModeWrite (w : Writer) (v : Word) (s : State) : Out := fin (regPress w 0x14 v 0 s)
def execUtcWrite (w : Writer) (v : Word) (s : State) : Out := fin (regPress w 0x21 v 0 s)

/-! ### Writes of the PTP and NET pages -/

def ptpChk (off : Nat) (v : Word) (_ : State) : Option Nat :=
  if off = 0x10 ∨ off = 0x20 then
    (if bitsOf v 29 28 = 3 ∨ bitsOf v 27 24 < 2 ∨ 10 < bitsOf v 27 24 ∨ 127 < bitsOf v 23 16 then some errRange else none)
  else none

/-- A domain that is no longer tracked is FREE without parent or measurement. -/
def ptpEff (off : Nat) (v proof : Word) (s : State) : State :=
  let s := storeEff .ptp off v proof s
  let b := decide (0x20 ≤ off)
  if (off = 0x10 ∨ off = 0x20) ∧ bitAt v 31 = false then
    State.setDomState ((s.upDom b fun _ => PtpDom.reset).p PTP.FOREIGN 0 (b2n b) 0) b domFree
  else s

def netChk (off : Nat) (v : Word) (_ : State) : Option Nat :=
  if off = 0x14 then (if bitsOf v 11 0 = 0 ∨ 4094 < bitsOf v 11 0 then some errRange else none) else none

/-! ### PTP messages (R186 to R190) -/

/-- The domain a message belongs to. -/
def State.msgDomain (s : State) (m : PtpMsg) : Option Bool :=
  let hit (i : Nat) : Bool := s.on PTP.EN 0 i && s.g PTP.DOMAIN 0 i == m.domain
    && s.g PTP.MAJOR_SDO 0 i * 256 + s.g PTP.MINOR_SDO 0 i == m.sdo
  if hit 0 then some false else if hit 1 then some true else none

/-- Messages handled in one second at most. -/
def msgMax : Nat := 512

/-- R187's conditions for a message of domain b. -/
def State.msgDropped (s : State) (b : Bool) (m : PtpMsg) : Bool :=
  let t := s.g PTP.TRANSPORT 0 (b2n b)
  m.version != 2 || m.malformed || (if m.udp then t == 0 || !s.on NET.IPV4 0 else t == 1)
    || m.kind == 2 || m.kind == 3 || m.kind == 0xA || m.kind == 0xC || m.kind == 0xD
    || ((m.kind == 0 || m.kind == 8) && (decide (m.logInt < -7) || decide (1 < m.logInt)))
    || decide (msgMax ≤ (s.dom b).msgs)

/-- Take a message of domain `b`, or drop it. -/
def State.takeMsg (s : State) (m : PtpMsg) (f : Bool → State → State) : State :=
  s.takeFrame m.head fun s =>
    match s.msgDomain m with
    | none => s.dropFrame
    | some b =>
      let s := s.bump NET.RX_FRAMES 0
      if s.msgDropped b m then (s.bump PTP.DROPPED 0 (b2n b)).raise .ptp 4
      else f b (s.upDom b fun p => { p with msgs := p.msgs + 1 })

def execPtpMessageDrop (m : PtpMsg) (s : State) : Out := fin (s.takeMsg m fun _ s => s)

/-- Captures that Chase's ring holds. -/
def captureMax : Nat := 16

/-- A delimiter enters the capture interrupt: a receive capture (`req` none), or that of domain b's Delay_Req (R189). -/
def execPtpTimestampCapture (req : Option Bool) (s : State) : Out :=
  fin (if !s.hears then s
    else
      let s := { s with ru := { s.ru with captures := ((req.isNone, s.rt64) :: s.ru.captures).take captureMax } }
      match req with
      | some b => if (s.dom b).req.isSome then
          s.upDom b fun p => { p with t3 := some ((s.rt64 : Int) - signedOf 16 (s.g NET.TX_CORR 0)) } else s
      | none => s)

/-- The receive time-stamp of a message. -/
def State.rxStamp (s : State) (m : PtpMsg) : Option Int :=
  ((s.ru.captures.filter (·.1))[m.cap]?).map fun c => (c.2 : Int) - (s.g NET.RX_CORR 0 : Int)

/-- Is the message from the domain's parent? -/
def State.fromParent (s : State) (b : Bool) (m : PtpMsg) : Bool :=
  match (s.dom b).parent with | some f => f.clock == m.clockId && f.port == m.port | none => false

/-- The servo of the selected domain acts on an offset below 1 ms (R191); a larger one slews at the limit meanwhile (R185). -/
def State.servo (s : State) (o : Int) : State :=
  let base := incClamp (Config.servoFreq s.freeCtr s.ru.baseInc o : Nat)
  let lim := slewLimit base
  let mag := if stepNs ≤ absInt o then lim else min (Config.servoSlew s.freeCtr o) lim
  let s := { s with freeCtr := s.freeCtr + 1, ru := { s.ru with baseInc := BitVec.ofNat 32 base } }
  s.setInc (incClamp ((base : Int) + if o < 0 then -(mag : Int) else (mag : Int)))

/-- A step that the servo needs, or needs no longer (R185). -/
def State.servoStep (s : State) (o : Int) : State :=
  if stepNs ≤ absInt o then
    (if s.ru.announced.isNone then s.decideStep ⟨o, none, (match s.ru.decided with | some r => r.isSwitch | none => false)⟩ else s)
  else match s.ru.decided with
    | some r => if r.absolute.isNone && !r.isSwitch then s.dropStep else s
    | none => s

/-- Domain b's state after an offset (Table: Domain states). -/
def State.domRun (s : State) (b : Bool) (o : Int) : State :=
  let st := s.g PTP.STATE 0 (b2n b)
  let good := decide (absInt o ≤ (s.g REG.LOCK_NS 0 : Int))
  let bad := decide ((s.g REG.UNLOCK_NS 0 : Int) < absInt o)
  let p := s.dom b
  let s := s.upDom b fun p => { p with goodRun := if good then p.goodRun + 1 else 0, badRun := if bad then p.badRun + 1 else 0 }
  if st = domFree ∧ s.g REG.MODE 0 = 0 ∧ b = s.sel ∧ stepNs ≤ absInt o then s
  else if st = domFree ∨ st = domHoldover then
    State.setDomState (s.upDom b fun p => { p with goodRun := b2n good, badRun := 0 }) b domAcquire
  else if st = domAcquire then
    if good && decide (16 ≤ p.goodRun + 1) then ((s.upDom b fun p => { p with badRun := 0 }).setDomState b domLocked).failover true else s
  else if bad && decide (4 ≤ p.badRun + 1) then (s.upDom b fun p => { p with goodRun := 0 }).setDomState b domAcquire else s

/-- An offset of domain b is measured. -/
def State.offsetTaken (s : State) (b : Bool) (o : Int) : State :=
  let s := (s.upDom b fun p => { p with off := some o, offAt := s.clock }).bump PTP.SYNC_RX 0 (b2n b)
  let s := ((s.showOffset b).showOffsets).domRun b o
  if s.g REG.MODE 0 = 0 && b == s.sel then
    if s.ru.switching then s.slewSwitch
    else
      let s := s.servoStep o
      let st := s.g PTP.STATE 0 (b2n b)
      if st = domAcquire ∨ st = domLocked then s.servo o else s
  else s

/-- Half of a sum, to the nearest, ties up (log 21). -/
def halfUp (i : Int) : Int := (i + 1) / 2

/-- t2 - t1 less correction is known: the offset follows once a path delay is (text before R190). -/
def State.msTaken (s : State) (b : Bool) (x : Int) : State :=
  let s := s.upDom b fun p => { p with ms := some x }
  match (s.dom b).delay with
  | some d => s.offsetTaken b (d + signedOf 16 (s.g PTP.ASYM 0 (b2n b)) - x)
  | none => s

def execPtpSyncRx (m : PtpMsg) (s : State) : Out :=
  fin (s.takeMsg { m with kind := 0 } fun b s =>
    if !s.fromParent b m then s
    else match s.rxStamp m with
    | none => s
    | some t2 =>
      let s := (s.p PTP.ONE_STEP 0 (b2n b) (b2n (!m.twoStep))).p PTP.LOG_SYNC 0 (b2n b) (wrapInt 8 m.logInt)
      if m.twoStep then s.upDom b fun p => { p with sync := some (m.seq, t2, m.corr) }
      else s.msTaken b (t2 - m.origin - m.corr))

def execPtpFollowUpRx (m : PtpMsg) (s : State) : Out :=
  fin (s.takeMsg { m with kind := 8 } fun b s =>
    if !s.fromParent b m then s
    else match (s.dom b).sync with
    | some (q, t2, c) =>
      if q = m.seq then (s.upDom b fun p => { p with sync := none }).msTaken b (t2 - m.origin - m.corr - c) else s
    | none => s)

def execPtpDelayRespRx (m : PtpMsg) (s : State) : Out :=
  fin (s.takeMsg { m with kind := 9 } fun b s =>
    match (s.dom b).req, (s.dom b).t3, (s.dom b).ms with
    | some q, some t3, some x =>
      if q = m.seq ∧ s.fromParent b m = true then
        let d := halfUp (x + (m.origin - m.corr - t3))
        let s := s.upDom b fun p => { p with req := none, t3 := none, delay := some d, reqLog := m.logInt }
        (s.p PTP.PATH_DELAY 0 (b2n b) (wrapInt 32 d)).bump PTP.DRESP_RX 0 (b2n b)
      else s
    | _, _, _ => s)

/-- A Delay_Req message, as IEEE 1588-2019 lays it out (log 123). -/
def State.delayReqMsg (s : State) (b : Bool) (seq : Nat) : List Byte :=
  let i := b2n b
  let mac := beBytes 6 Config.mac.toNat
  beBytes 2 (s.g PTP.MAJOR_SDO 0 i * 4096 + 0x112) ++ beBytes 2 44 ++ beBytes 2 (s.g PTP.DOMAIN 0 i * 256 + s.g PTP.MINOR_SDO 0 i)
    ++ List.replicate 14 0 ++ mac.take 3 ++ [0xFF, 0xFE] ++ mac.drop 3 ++ beBytes 2 1 ++ beBytes 2 seq ++ [1, 0x7F] ++ List.replicate 10 0

/-- The checksum of IPv4 and ICMP over bytes of an even number (log 123). -/
def inetSum : List Byte → Nat
  | a :: b :: r => a.toNat * 256 + b.toNat + inetSum r
  | [a] => a.toNat * 256
  | [] => 0
def inetCheck (bs : List Byte) : List Byte :=
  let x := inetSum bs
  let x := x % 65536 + x / 65536
  beBytes 2 (65535 - (x % 65536 + x / 65536))

/-- An IPv4 packet from the module's address (log 123). -/
def State.ipPacket (s : State) (ttl proto dest : Nat) (body : List Byte) : List Byte :=
  let a := [0x45, 0] ++ beBytes 2 (20 + body.length) ++ [0, 0, 0, 0, BitVec.ofNat 8 ttl, BitVec.ofNat 8 proto]
  let z := beBytes 4 (s.g NET.IPV4 0) ++ beBytes 4 dest
  a ++ inetCheck (a ++ z) ++ z ++ body

/-- Ticks of an interval given as a logarithm to base 2 of seconds. -/
def logTicks (l : Int) : Nat := if 0 ≤ l then 200000000 * 2 ^ l.toNat else 200000000 / 2 ^ (-l).toNat

/-- A Delay_Req may go out: a parent is selected, the random interval since the last has passed, and 1/128 s whatever the master states
(R188). -/
def State.mayRequest (s : State) (b : Bool) : Bool :=
  s.hears && s.on PTP.EN 0 (b2n b) && (s.dom b).parent.isSome && decide ((s.dom b).reqDue ≤ s.clock)
    && (match (s.dom b).reqAt with | some t => decide (t + 1562500 ≤ s.clock) | none => true)

/-- A Delay_Req goes out on the domain's transports; UDP is off while NET.IPV4 is 0. The next is due after a random time of at most twice
the interval (log 123). -/
def execDelayReqSend (b : Bool) (seq : BitVec 16) (s : State) : Out :=
  let t := s.g PTP.TRANSPORT 0 (b2n b)
  let udp := t != 0 && s.on NET.IPV4 0
  fin (if s.mayRequest b && (t != 1 || udp) then
    let m := s.delayReqMsg b seq.toNat
    let s := if t = 1 then s else s.netSend false 0x011B19000000 0x88F7 m
    let s := if udp then s.netSend false 0x01005E000181 0x0800 (s.ipPacket 1 17 0xE0000181 (beBytes 2 319 ++ beBytes 2 319 ++ beBytes 2 52 ++ [0, 0] ++ m))
      else s
    let (r, s) := s.fresh
    s.upDom b fun p =>
      { p with req := some seq.toNat, t3 := none, reqAt := some s.clock, reqDue := s.clock + r.toNat * (2 * logTicks p.reqLog) / 2 ^ 32 }
  else s)

/-! ### The best master (R186, R190, R195) -/

/-- Foreign masters that a domain keeps. -/
def foreignMax : Nat := 4

/-- The first of two number lists in the order of their first difference. -/
def lexLt : List Nat → List Nat → Bool
  | a :: as, b :: bs => decide (a < b) || (a == b && lexLt as bs)
  | _, _ => false

/-- The default data set comparison of IEEE 1588-2019: by the grandmasters' attributes, and for one grandmaster by the way to it (R186; log
100). -/
def Foreign.better (f g : Foreign) : Bool :=
  let key (x : Foreign) : List Nat :=
    if f.set.gmId = g.set.gmId then [x.set.steps, x.clock, x.port]
    else [x.set.prio1, x.set.cls, x.set.accuracy, x.set.variance, x.set.prio2, x.set.gmId]
  lexLt (key f) (key g)

/-- The best of the known masters. -/
def bestMaster (l : List Foreign) : Option Foreign :=
  l.foldl (fun b f => match b with | none => some f | some g => if f.better g then some f else some g) none

/-- The worst of them. -/
def worstMaster (l : List Foreign) : Option Foreign :=
  l.foldl (fun b f => match b with | none => some f | some g => if g.better f then some f else some g) none

/-- Enter a master in the list; a full list gives up its worst for a better one. -/
def enterMaster (l : List Foreign) (f : Foreign) : List Foreign :=
  let l := l.filter fun g => !(g.clock == f.clock && g.port == f.port)
  if l.length < foreignMax then l ++ [f]
  else match worstMaster l with
    | some w => if f.better w then l.filter (fun g => !(g.clock == w.clock && g.port == w.port)) ++ [f] else l
    | none => [f]

/-- What the registers show of a new Announce from the parent. -/
def State.showAnnounce (s : State) (b : Bool) (m : PtpMsg) : State :=
  let i := b2n b
  let fl (k : Nat) : Nat := m.flags / 2 ^ k % 2
  let s := ((s.p PTP.GM_HI 0 i (m.set.gmId / 2 ^ 32)).p PTP.GM_LO 0 i (m.set.gmId % 2 ^ 32)).p PTP.STEPS_REMOVED 0 i m.set.steps
  let s := ((s.p PTP.PARENT_PORT 0 i m.port).p PTP.UTC_VALID 0 i (fl 2)).p PTP.UTC_LEAP61 0 i (fl 0)
  let s := ((s.p PTP.UTC_LEAP59 0 i (fl 1)).p PTP.PTP_TS 0 i (fl 3)).p PTP.UTC_OFFSET 0 i (wrapInt 16 m.utc)
  (s.p PTP.ARB 0 i (1 - fl 3)).rtShow

/-- The masters known to domain b, with the best as its parent; a parent that changes has its Announce intervals counted from here. -/
def State.takeMasters (s : State) (b : Bool) (l : List Foreign) : State :=
  let best := bestMaster l
  let same := (best.map fun f => (f.clock, f.port)) == ((s.dom b).parent.map fun f => (f.clock, f.port))
  s.upDom b fun p => { p with foreign := l, parent := best, annAt := if same then p.annAt else s.clock }

def execPtpAnnounceRx (m : PtpMsg) (s : State) : Out :=
  fin (s.takeMsg { m with kind := 0xB } fun b s =>
    let i := b2n b
    let l := enterMaster (s.dom b).foreign ⟨m.clockId, m.port, m.set⟩
    let s := (s.takeMasters b l).p PTP.FOREIGN 0 i l.length
    if !s.fromParent b m then s
    else
      let gm := s.g PTP.GM_HI 0 i * 2 ^ 32 + s.g PTP.GM_LO 0 i
      let newGm := gm != m.set.gmId % 2 ^ 64
      let newPort := s.g PTP.PARENT_PORT 0 i != m.port
      let s := (s.upDom b fun p => { p with told := true, annAt := s.clock, annLog := m.logInt }).showAnnounce b m
      let s := if newGm || newPort then s.raise .ptp i else s
      let s := if newGm && s.g PTP.STATE 0 i == domLocked then
        (s.upDom b fun p => { p with goodRun := 0 }).setDomState b domAcquire else s
      if b == s.sel then s.takeUtc else s)

/-! ### Holdover (R190, R191) -/

/-- Domain b enters HOLDOVER from ACQUIRE or LOCKED. -/
def State.holdover (s : State) (b : Bool) : State :=
  let st := s.g PTP.STATE 0 (b2n b)
  if st = domAcquire ∨ st = domLocked then
    let s := s.upDom b fun p => { p with goodRun := 0, badRun := 0, sync := none, holdAt := s.clock }
    let s := if s.g REG.MODE 0 = 0 && b == s.sel then
        let v := s.incMean
        (State.setInc { s with ru := { s.ru with switching := false, baseInc := BitVec.ofNat 32 v } } v).put REG.SLEW_REMAIN 0 0
      else s
    let s := (s.setDomState b domHoldover).raise .ptp (2 + b2n b)
    let s := s.failover false
    if s.g REG.HOLDOVER_S 0 = 0 && s.g PTP.STATE 0 (b2n b) == domHoldover then s.setDomState b domFree else s
  else s

/-- No Announce from the parent for ANN_TIMEOUT announce intervals. -/
def execAnnounceTimeout (b : Bool) (s : State) : Out :=
  let p := s.dom b
  fin (match p.parent with
    | none => s
    | some f =>
      if p.annAt + s.g PTP.ANN_TIMEOUT 0 (b2n b) * logTicks p.annLog ≤ s.clock then
        let l := p.foreign.filter (· != f)
        let s := ((s.takeMasters b l).upDom b fun p => { p with told := false }).p PTP.FOREIGN 0 (b2n b) l.length
        s.holdover b
      else s)

/-- No usable offset for 16 Sync intervals. -/
def execSyncOffsetTimeout (b : Bool) (s : State) : Out :=
  fin (if (s.dom b).offAt + 16 * logTicks (signedOf 8 (s.g PTP.LOG_SYNC 0 (b2n b))) ≤ s.clock then s.holdover b else s)

/-- HOLDOVER_S seconds in HOLDOVER. -/
def execHoldoverExpiry (b : Bool) (s : State) : Out :=
  fin (if s.g PTP.STATE 0 (b2n b) = domHoldover ∧ (s.dom b).holdAt + s.g REG.HOLDOVER_S 0 * 200000000 ≤ s.clock then s.setDomState b domFree else s)

/-! ### The Ethernet port (R196, R197) -/

/-- The partner's signal comes or goes; with it whether it negotiates and whether it offers 100BASE-TX full duplex. The link is up only with a
partner that does both. -/
def execEthLinkChange (signal aneg full100 mdix : Bool) (s : State) : Out :=
  fin (if !s.awake then s
    else
      let was := s.on NET.UP 0
      let up := signal && aneg && full100
      let s := ((s.put NET.UP 0 (b2n up)).put NET.ANEG_DONE 0 (b2n (signal && aneg))).put NET.MDIX 0 (b2n mdix)
      if was == up then s else s.raise .net (if up then 0 else 1))

/-- IPv4 is on and the address is the module's. -/
def State.isMine (s : State) (ip : Word) : Bool := s.on NET.IPV4 0 && s.wd (NET.IPV4.addr 0 0) == ip

/-- An ARP request from `sip` for address `ip`. -/
def execArpRx (h : EthHead) (sip ip : Word) (s : State) : Out :=
  fin (s.takeFrame h fun s =>
    if s.isMine ip then
      (s.bump NET.RX_FRAMES 0).netSend false h.src.toNat 0x0806 ([0, 1, 8, 0, 6, 4, 0, 2] ++ beBytes 6 Config.mac.toNat ++ beBytes 4 ip.toNat
        ++ beBytes 6 h.src.toNat ++ beBytes 4 sip.toNat)
    else s.dropFrame)

/-- An ICMP echo request from `sip` to address `ip`, with its identifier and sequence. -/
def execIcmpEcho (h : EthHead) (sip ip ident : Word) (payload : List Byte) (fragment : Bool) (s : State) : Out :=
  fin (s.takeFrame h fun s =>
    if s.isMine ip && !fragment then
      let s := { s.bump NET.RX_FRAMES 0 with ru := { s.ru with echo := payload.take 64 } }
      let b := beBytes 4 ident.toNat ++ payload.take 64
      s.netSend false h.src.toNat 0x0800 (s.ipPacket 64 1 sip.toNat ([0, 0] ++ inetCheck ([0, 0] ++ b) ++ b))
    else s.dropFrame)

def execEthFrameDrop (fcsOk : Bool) (s : State) : Out :=
  fin (if !s.hears then s else if fcsOk then s.dropFrame else s.bump NET.FCS_ERRS 0)

/-! ### Time in the lanes (R199) -/

def execLaneErrUpdate (n : LaneId) (err : BitVec 16) (s : State) : Out :=
  fin (if s.live n && !(s.lane n).link.stale then (s.p REG.LANE_ERR 0 n.val err.toNat).p REG.LANE_ERR_VALID 0 n.val 1 else s)

end Sys2Proof.Machine
end

