-- ==== Sys2Proof/Machine/Galley.lean ====
section
/-! DEFINITION. The galley and the DMA channels D0 and D1 (spec/17_traps_memory_dma.md R434 to R443). -/

namespace Sys2Proof.Machine

def State.gal (s : State) (n : LaneId) : Gal := (s.lane n).gal

/-- What the LANE page shows of the galley. -/
def State.galShow (s : State) (n : LaneId) : State :=
  let g := s.gal n
  let s := (s.put LANE.GAL_WCOUNT_HI n (g.wcount / 2 ^ 32)).put LANE.GAL_WCOUNT_LO n (g.wcount % 2 ^ 32)
  let s := (s.put LANE.GAL_RCOUNT_HI n (g.rcount / 2 ^ 32)).put LANE.GAL_RCOUNT_LO n (g.rcount % 2 ^ 32)
  let unrel := g.wcount - g.rcount
  let s := (s.put LANE.GAL_STAT_UNREL n unrel).put LANE.GAL_STAT_D0_FAULTED n (b2n g.d0Faulted)
  (s.put LANE.GAL_STAT_D0_PAUSED n (b2n g.d0Paused)).put LANE.GAL_STAT_FULL n (b2n (decide (s.g LANE.GAL_SIZE n ≤ unrel) && s.on LANE.GAL_SIZE n))

/-- A folio marker, by its SOURCE. -/
def Slug.isFolio (x : Slug) : Bool := bitsOf x.w0 31 24 == 0x3F

/-- Slugs that wait in D0's buffer at most. -/
def d0Max : Nat := 256

/-- A slug is discarded (R436, R438, R443). -/
def State.galDiscard (s : State) (n : LaneId) : State :=
  (s.bump LANE.GAL_DISCARDS n).upGal n fun g => { g with sinceFolio := min (g.sinceFolio + 1) 0xFFFF }

/-- A slug arrives on the near side (R436, R438). -/
def State.galArrive (s : State) (n : LaneId) (x : Slug) : State :=
  if !s.on LANE.GAL_STAT_RUNNING n then (if x.isFolio then s else s.galDiscard n)
  else if x.isFolio || decide (((s.gal n).buf.filter fun y => !y.isFolio).length < d0Max) then
    s.upGal n fun g => { g with buf := g.buf ++ [x] }
  else s.galDiscard n

/-! ### D0 (R436, R437, R443) -/

/-- A fault of a DMA channel: trap cause 0x0A becomes pending, after another channel's and in place of an earlier
one of its own; DMA_FAULT is raised and counted (R435, R437; log 127). -/
def State.dmaFault (s : State) (n : LaneId) (va : Nat) (f : XFault) (write user : Bool) (channel : Nat) : State :=
  let t : AsyncTrap := ⟨BitVec.ofNat 32 va, mkTinfo f write user false channel⟩
  let s := s.upEng n fun e => { e with dma := e.dma.filter (fun x => bitsOf x.tinfo 9 8 != channel) ++ [t] }
  (s.bump LANE.DMA_FAULTS n).raiseLane n 12

def State.d0Fault (s : State) (n : LaneId) (va : Nat) (f : XFault) : State :=
  (s.upGal n fun g => { g with d0Faulted := true }).dmaFault n va f true true 0

/-- The first loss since the galley was last below full raises GAL_LOSS (R443). -/
def State.galLoss (s : State) (n : LaneId) : State :=
  if (s.gal n).lossNoted then s else (s.upGal n fun g => { g with lossNoted := true }).raiseLane n 10

/-- A folio as it is written: sequence and discarded slugs filled in (R440). -/
def Slug.complete (x : Slug) (seq disc : Nat) : Slug :=
  if x.isFolio then { x with w0 := withBits x.w0 15 0 seq, w3 := withBits x.w3 15 0 disc } else x

/-- The slug is in lane store: WCOUNT advances, and the events of the fill level, which does not rise where the galley was full and the
oldest slug made room (R436, R443). -/
def State.galWritten (s : State) (n : LaneId) (x : Slug) (wasFull : Bool := false) : State :=
  let reason := bitsOf x.w3 31 24
  let s := s.upGal n fun g => if x.isFolio then
      { g with wcount := g.wcount + 1, folioSeq := (g.folioSeq + 1) % 65536, sinceFolio := 0,
               linkLostFolio := g.linkLostFolio && reason != 3 }
    else { g with wcount := g.wcount + 1 }
  let unrel := (s.gal n).wcount - (s.gal n).rcount
  let s := if s.on LANE.GAL_WATER n && unrel == s.g LANE.GAL_WATER n && !wasFull then s.raiseLane n 8 else s
  if unrel = s.g LANE.GAL_SIZE n ∧ wasFull = false then s.raiseLane n 9 else s

/-- Write one slug into the next slot; the answer says whether it was written. -/
def State.galPut (s : State) (n : LaneId) (x : Slug) : Bool × State :=
  let size := s.g LANE.GAL_SIZE n
  let off := 16 * ((s.gal n).wcount % size)
  let va := (s.g LANE.GAL_VBASE n * 4096 + off) % 2 ^ 32
  let slot := s.g LANE.GAL_PBASE n * 4096 + off
  match s.translate n va ⟨.store, true, true, false⟩ with
  | (.error f, s) => (false, s.d0Fault n va f)
  | (.ok pa, s) =>
    if pa ≠ slot then (false, s.d0Fault n va ⟨fkMismatch, 0⟩)
    else
      let x := x.complete (s.gal n).folioSeq (s.gal n).sinceFolio
      let full := decide (size ≤ (s.gal n).wcount - (s.gal n).rcount)
      let s := if full then
          ((s.upGal n fun g => { g with rcount := g.rcount + 1 }).bump LANE.GAL_OVERWRITTEN n).galLoss n else s
      let bs := leBytes 4 x.w0.toNat ++ leBytes 4 x.w1.toNat ++ leBytes 4 x.w2.toNat ++ leBytes 4 x.w3.toNat
      (true, (s.putMem n pa bs).galWritten n x full)

/-- D0 writes what is next: a RESUME folio that is owed, or the first waiting slug; a full STOP_WHEN_FULL galley discards it (R436,
R440, R443). -/
def State.d0Write (s : State) (n : LaneId) : State :=
  let g := s.gal n
  match g.buf with
  | [] => s
  | x :: rest =>
    if !s.on LANE.GAL_STAT_RUNNING n || g.d0Faulted || g.d0Paused || s.g LANE.GAL_SIZE n == 0 then s
    else if s.on LANE.GAL_CTL_MODE n && decide (s.g LANE.GAL_SIZE n ≤ g.wcount - g.rcount) then
      (((s.upGal n fun g => { g with buf := rest, resumeFolio := true }).galDiscard n).galLoss n).galShow n
    else if g.resumeFolio then
      let (ok, s) := s.galPut n (folioMark 5 0 s.rtLo (BitVec.ofNat 32 (s.rt64 / 2 ^ 32)))
      State.galShow (if ok then s.upGal n fun g => { g with resumeFolio := false } else s) n
    else
      let (ok, s) := s.galPut n x
      State.galShow (if ok then s.upGal n fun g => { g with buf := rest } else s) n

def execD0SlugWrite (n : LaneId) (s : State) : Out := fin (s.d0Write n)

/-- D0_CTL.RESUME: the same slug again, after its RESUME folio (R437, R440). -/
def State.d0Resume (s : State) (n : LaneId) : State :=
  if (s.gal n).d0Faulted || (s.gal n).d0Paused then
    ((s.upGal n fun g => { g with d0Faulted := false, d0Paused := false, resumeFolio := true }).d0Write n).d0Write n |>.galShow n
  else s

/-! ### D1 (R434, R435) -/

/-- The engine has halted fatally: D1 stops at the end of its burst (R427). -/
def State.fatalHalt (s : State) (n : LaneId) : Bool :=
  (s.eng n).run == .halted && decide (2 ≤ (s.eng n).haltCode)

/-- A fault of D1. -/
def State.d1Fault (s : State) (n : LaneId) (va : Nat) (f : XFault) (write user : Bool) : State :=
  let s := ((s.put LANE.D1_STAT_FAULTED n 1).put LANE.D1_STAT_KIND n f.kind).put LANE.D1_STAT_WRITE n (b2n write)
  (s.put LANE.D1_FAULT_VA n va).dmaFault n va f write user 1

/-- The virtual address of the descriptor at HEAD. -/
def State.d1Desc (s : State) (n : LaneId) : Nat := (s.g LANE.D1_RING n * 16 + 16 * s.g LANE.D1_HEAD n) % 2 ^ 32

/-- How D1 reaches its ring: as the monitor, which owns it (log 32). -/
def ringAccess (w : Way) : Access := ⟨w, false, true, false⟩

/-- A word of the copy has reserved bits set (R434). -/
def d1Reserved (w2 w3 : Word) : Bool := bitsOf w2 31 24 != 0 || bitAt w3 28 || bitsOf w3 23 16 != 0

/-- D1 takes the descriptor at HEAD, or idles where its V is 0. -/
def State.d1Start (s : State) (n : LaneId) : State :=
  if !s.on LANE.D1_CTL_RUN n || s.on LANE.D1_STAT_BUSY n || s.on LANE.D1_STAT_FAULTED n || (s.gal n).d1Idle || s.fatalHalt n then s
  else
    let va := s.d1Desc n
    match s.translate n va (ringAccess .load) with
    | (.error f, s) => s.d1Fault n va f false false
    | (.ok pa, s) =>
      if s.eccHit n pa 16 then s.d1Fault n va ⟨fkEcc, 0⟩ false false
      else
        let w2 := s.memWord n (pa + 8)
        let w3 := s.memWord n (pa + 12)
        if !bitAt w3 31 then s.upGal n fun g => { g with d1Idle := true }
        else
          let bad := d1Reserved w2 w3 || bitsOf w2 23 0 == 0
          let len := if bad then 0 else bitsOf w2 23 0
          let s := s.upGal n fun g => { g with d1Left := len, d1Word3 := w3, d1End := if bad then 2 else 0 }
          let s := (s.put LANE.D1_CUR_SRC n (s.memWord n pa).toNat).put LANE.D1_CUR_DST n (s.memWord n (pa + 4)).toNat
          ((s.put LANE.D1_CUR_LEN n len).put LANE.D1_STAT_TAG n (bitsOf w3 15 0)).put LANE.D1_STAT_BUSY n 1

def execD1DescriptorStart (n : LaneId) (s : State) : Out := fin (s.d1Start n)

/-- Bytes of the next burst: at most 64, within a page on either side, and short enough that the burst reads nothing that it writes
(R405, R435). -/
def burstLen (src dst left : Nat) : Nat :=
  let l := min (min 64 left) (min (4096 - src % 4096) (4096 - dst % 4096))
  if src < dst then min l (dst - src) else l

/-- One burst, or a fault that leaves it undone. -/
def State.d1Burst (s : State) (n : LaneId) : State :=
  let g := s.gal n
  if !s.on LANE.D1_CTL_RUN n || !s.on LANE.D1_STAT_BUSY n || s.on LANE.D1_STAT_FAULTED n || g.d1Left == 0 || s.fatalHalt n then s
  else
    let user := !bitAt g.d1Word3 29
    let src := s.g LANE.D1_CUR_SRC n
    let dst := s.g LANE.D1_CUR_DST n
    let k := burstLen src dst g.d1Left
    match s.translate n src ⟨.load, user, true, false⟩ with
    | (.error f, s) => s.d1Fault n src f false user
    | (.ok ps, s) =>
      match s.translate n dst ⟨.store, user, true, false⟩ with
      | (.error f, s) => s.d1Fault n dst f true user
      | (.ok pd, s) =>
        if s.eccHit n ps k then s.d1Fault n src ⟨fkEcc, 0⟩ false user
        else
          let s := s.putMem n pd (Memory.bytes (s.lane n).mem ps k)
          let s := s.upGal n fun g => { g with d1Left := g.d1Left - k }
          ((s.put LANE.D1_CUR_SRC n ((src + k) % 2 ^ 32)).put LANE.D1_CUR_DST n ((dst + k) % 2 ^ 32)).put LANE.D1_CUR_LEN n (g.d1Left - k)

def execD1Burst (n : LaneId) (s : State) : Out := fin (s.d1Burst n)

/-- The descriptor ends: word 3 is written back with V clear and STATUS set, HEAD advances, D1_DONE (R434). -/
def State.d1Finish (s : State) (n : LaneId) : State :=
  let g := s.gal n
  if !s.on LANE.D1_STAT_BUSY n || s.on LANE.D1_STAT_FAULTED n || g.d1Left != 0 || s.fatalHalt n then s
  else
    let va := (s.d1Desc n + 12) % 2 ^ 32
    match s.translate n va (ringAccess .store) with
    | (.error f, s) => s.d1Fault n va f true false
    | (.ok pa, s) =>
      let s := s.putWord n pa (withBits (withBits g.d1Word3 31 31 0) 27 24 g.d1End)
      let s := (s.put LANE.D1_HEAD n ((s.g LANE.D1_HEAD n + 1) % max 1 (s.g LANE.D1_CTL_RING_LEN n))).put LANE.D1_STAT_BUSY n 0
      if bitAt g.d1Word3 30 then s.raiseLane n 11 else s

def execD1DescriptorEnd (n : LaneId) (s : State) : Out := fin (s.d1Finish n)

/-- D1 stops: RUN clear, nothing written back (R435). -/
def State.d1Stop (s : State) (n : LaneId) : State :=
  let s := ((s.put LANE.D1_CTL_RUN n 0).put LANE.D1_STAT_BUSY n 0).put LANE.D1_STAT_FAULTED n 0
  s.upGal n fun g => { g with d1Left := 0, d1Idle := false }

/-- The effect of D1_CTL. -/
def d1CtlEff (n : LaneId) (v : Word) (s : State) : State :=
  let was := s.on LANE.D1_CTL_RUN n
  let s := storeEff (.lane n .lane) 0x35 v 0 s
  let s := if !was && bitAt v 31 then s.upGal n fun g => { g with d1Idle := false } else s
  let s := if bitAt v 18 then
      ((s.put LANE.D1_STAT_FAULTED n 0).upGal n fun g => { g with d1Left := 0, d1End := 1 }).d1Finish n
    else if bitAt v 17 then s.put LANE.D1_STAT_FAULTED n 0 else s
  if bitAt v 16 then s.upGal n fun g => { g with d1Idle := false } else s

/-! ### The words of the LANE page (R434 to R445) -/

/-- GAL_SIZE and the bases fit (R438). -/
def State.galFits (s : State) (n : LaneId) : Bool :=
  let z := s.g LANE.GAL_SIZE n
  z % 256 == 0 && decide (256 ≤ z) && decide (z ≤ 3145728) && decide (s.g LANE.GAL_PBASE n * 4096 + 16 * z ≤ storeSize)

/-- The checks of the galley and DMA words; `old` is the state before the press. -/
def galChk (old : State) (n : LaneId) (off : Nat) (v : Word) (s : State) : Option Nat :=
  let run := old.on LANE.GAL_CTL_RUN n
  let bad : Bool :=
    if off = 0x20 then
      (run && s.g LANE.GAL_CTL_MODE n != old.g LANE.GAL_CTL_MODE n) || (!run && bitAt v 0 && !s.galFits n)
    else if 0x21 ≤ off ∧ off ≤ 0x23 then run && s.wd ((Page.lane n .lane).at_ off) != old.wd ((Page.lane n .lane).at_ off)
    else if off = 0x35 then
      decide (bitsOf v 8 0 = 0) || decide (256 < bitsOf v 8 0)
        || (old.on LANE.D1_CTL_RUN n && s.g LANE.D1_CTL_RING_LEN n != old.g LANE.D1_CTL_RING_LEN n)
        || ((bitAt v 18 || bitAt v 17) && !old.on LANE.D1_STAT_FAULTED n)
    else false
  if bad then some errRange else none

/-- The effect of GAL_CTL (R438). -/
def galCtlEff (n : LaneId) (v : Word) (s : State) : State :=
  let was := s.on LANE.GAL_CTL_RUN n
  let s := (storeEff (.lane n .lane) 0x20 v 0 s).put LANE.GAL_STAT_RUNNING n (b2n (bitAt v 0))
  if !was && bitAt v 0 then
    ((s.upGal n fun g => { g with rcount := g.wcount, buf := [], resumeFolio := false, lossNoted := false }).folio n 1).galShow n
  else if was && !bitAt v 0 then
    State.galShow (((s.gal n).buf.filter fun x => !x.isFolio).foldl (fun s _ => s.galDiscard n) (s.upGal n fun g => { g with buf := [] })) n
  else s.galShow n

/-- A release (R442). -/
def State.galRelease (s : State) (n : LaneId) (x : Word) : State :=
  let g := s.gal n
  let upTo : Int := (g.wcount : Int) - (((g.wcount : Int) - (x.toNat : Int)) % (2 ^ 32 : Nat))
  if (g.rcount : Int) < upTo then
    (s.upGal n fun g => { g with rcount := upTo.toNat, lossNoted := g.lossNoted && decide (s.g LANE.GAL_SIZE n ≤ g.wcount - upTo.toNat) }).galShow n
  else s

/-- The effect of an accepted galley or DMA word. -/
def galEff (n : LaneId) (off : Nat) (v proof : Word) (s : State) : State :=
  if off = 0x20 then galCtlEff n v s
  else if off = 0x29 then s.galRelease n v
  else if off = 0x2F then (if bitAt v 0 then s.d0Resume n else s)
  else if off = 0x35 then d1CtlEff n v s
  else if off = 0x1C then (storeEff (.lane n .lane) off v proof s).put LANE.HUNT_LOCK_US n 0
  else (storeEff (.lane n .lane) off v proof s).galShow n

/-- One writer's write of one galley or DMA word. -/
def galPress (w : Writer) (n : LaneId) (off : Nat) (v : Word) (s : State) : State :=
  pressOne w (.lane n .lane) off v 0 (galChk s n off v) (galEff n off v 0) s

def execGalRun (w : Writer) (n : LaneId) (v : Word) (s : State) : Out := fin (galPress w n 0x20 v s)
def execGalRelease (w : Writer) (n : LaneId) (v : Word) (s : State) : Out := fin (galPress w n 0x29 v s)
def execD0Resume (w : Writer) (n : LaneId) (s : State) : Out := fin (galPress w n 0x2F 1 s)

/-- D1_CTL with one strobe, RUN and RING_LEN as they are. -/
def State.d1Strobe (s : State) (n : LaneId) (bit : Nat) : Word :=
  (s.wd (LANE.D1_CTL_RUN.addr n.val 0) &&& 0x800001FF) ||| bitMask bit bit

def execD1Kick (w : Writer) (n : LaneId) (s : State) : Out := fin (galPress w n 0x35 (s.d1Strobe n 16) s)
def execD1Resume (w : Writer) (n : LaneId) (s : State) : Out := fin (galPress w n 0x35 (s.d1Strobe n 17) s)
def execD1Abort (w : Writer) (n : LaneId) (s : State) : Out := fin (galPress w n 0x35 (s.d1Strobe n 18) s)

end Sys2Proof.Machine
end

