-- ==== Sys2Proof/Machine/Mirror.lean ====
section
/-! DEFINITION. What a far side reports of its mirrored words (R2, R10, R127, R130): words that a block keeps in another form are computed
here; `State.freeze` keeps what a stale page goes on showing, and `State.shown` is what a reader on the near side is shown. -/

namespace Sys2Proof.Machine

/-- CHAIN words (R256, R258, R262): SEQ of the next output, MINSHIFT of the configuration in force, the coefficient window. -/
def State.farChainWord (s : State) (n : LaneId) (off : Nat) : Word :=
  let p := Page.lane n .chain
  if 0x17 ≤ off ∧ off ≤ 0x23 ∧ (off - 0x17) % 4 = 0 then
    withBits (s.wd (p.at_ off)) 31 16 (s.seqOf n ((off - 0x17) / 4 + 1))
  else if 0x2C ≤ off ∧ off ≤ 0x2F then
    let c := off - 0x2C
    BitVec.ofNat 32 (if c < 3 then (chainMin (fun f i => s.g f n i) c false).1
      else (minShifts 3 (s.g CHAIN.SHIFT n 3) (pathStages 3 (s.g CHAIN.TAP_M n) false 0 false)).1)
  else s.wd (winAddr p off (s.selFar p))

/-- TMR words: WATCH (R364) and COUNT (R362). -/
def State.farTmrWord (s : State) (n : LaneId) (off : Nat) : Word :=
  if off = 0x12 then BitVec.ofNat 32 (s.watch n / 2 ^ 32)
  else if off = 0x13 then BitVec.ofNat 32 (s.watch n)
  else if 0x24 ≤ off ∧ off ≤ 0x3C ∧ (off - 0x24) % 8 = 0 then
    BitVec.ofNat 32 (s.tCount n ⟨(off - 0x24) / 8 % 4, Nat.mod_lt _ (by decide)⟩)
  else s.wd ((Page.lane n .tmr).at_ off)

/-- CAN words: TXB_REQ (R372), the transmit window, the oldest entry of the receive FIFO (R381). -/
def State.farCanWord (s : State) (n : LaneId) (off : Nat) : Word :=
  let p := Page.lane n .can
  if off = 0x18 then
    (List.range 32).foldl (fun a b => if s.txOutcome n b = txPending ∨ s.txOutcome n b = txQueued then a ||| bitMask b b else a) 0
  else if 0xA0 ≤ off ∧ off ≤ 0xB2 then
    match (s.canSt n).fifo with
    | [] => 0
    | f :: _ => if off = 0xA0 then f.hdr0 else if off = 0xA1 then f.hdr1 else if off = 0xA2 then f.stamp else canWord f.data (off - 0xA3)
  else s.wd (winAddr p off (s.selFar p))

/-- What the far side of lane n reports of a mirrored word. -/
def State.farWord (s : State) (p : Page) (off : Nat) : Word :=
  match p with
  | .lane n .chain => s.farChainWord n off
  | .lane n .tmr => s.farTmrWord n off
  | .lane n .can => s.farCanWord n off
  | _ => s.wd (p.at_ off)

/-- The mirrored words of a lane that are not simply words of the register file. -/
def farComputed (n : LaneId) : List (Page × Nat) :=
  ([0x17, 0x1B, 0x1F, 0x23, 0x2C, 0x2D, 0x2E, 0x2F] ++ (List.range 64).map (· + 0x80)).map (fun o => (Page.lane n .chain, o))
    ++ [0x12, 0x13, 0x24, 0x2C, 0x34, 0x3C].map (fun o => (Page.lane n .tmr, o))
    ++ ([0x18] ++ (List.range 21).map (· + 0x80) ++ (List.range 19).map (· + 0xA0)).map (fun o => (Page.lane n .can, o))

end Sys2Proof.Machine

namespace Sys2Proof

/-- Does the near side show this word of a page from the far side's reports: the mirrored fields, and PG_STAT of their pages (R116)? -/
def Page.showsFar (p : Page) (off : Nat) : Bool :=
  p.mirrorAt off || (off == 3 && match p with | .lane _ .lane => false | q => q.mirrored)

end Sys2Proof

namespace Sys2Proof.Machine

/-- What the mirrored pages of lane n show goes on showing what they show now (R10), and so do its far-side temperature and its bit of
THERM.STAT.LANES_HOT (R536). -/
def State.freeze (s : State) (n : LaneId) : State :=
  let far := THERM.FAR.addr 0 n.val
  let hot := THERM.STAT_LANES_HOT.addr 0 0
  let mine : Nat → Bool := fun a => match Page.ofNum (a / 256) with
    | some p => p.lane? == some n && p.showsFar (a % 256)
    | none => false
  let f := sset resetWord s.frozen far (s.wd far)
  let f := sset resetWord f hot (withBits (sget resetWord f hot) n.val n.val (bitsOf (s.wd hot) n.val n.val))
  let f := (s.frozen ++ s.regs).foldl (fun f e => if mine e.1 then sset resetWord f e.1 (s.wd e.1) else f) f
  let f := (farComputed n).foldl (fun f e => sset resetWord f (e.1.at_ e.2) (s.farWord e.1 e.2)) f
  { s with frozen := f }

/-- What a reader on the near side is shown of a word of a lane page: what it showed when the lane went stale (R10), or the value in
force. -/
def State.shown (s : State) (p : Page) (off : Nat) : Word :=
  match p.lane? with
  | some n =>
    if p.showsFar off then (if (s.lane n).link.stale then sget resetWord s.frozen (p.at_ off) else s.farWord p off) else s.wd (p.at_ off)
  | none => s.wd (p.at_ off)

end Sys2Proof.Machine
end

