-- ==== Sys2Proof/Machine/Ilk.lean ====
section
/-! DEFINITION. The hardware HV interlock, the far-side safe state, converter trips, and far-side power (spec/01_lanes_and_plane.md
R9, R12; spec/02_connectors_supplies_isolation.md R44, R49 to R53; spec/23_characteristics.md R534 to R536). -/

namespace Sys2Proof.Machine

/-! ### The hardware HV-off of a lane (R50, R53) -/

/-- Everything that HV needs holds: both loops closed, the permit channel alive, the far side powered, neither tripped nor safe. -/
def State.hvAllowed (s : State) (n : LaneId) : Bool :=
  s.on LANE.ILK_CLOSED n && (s.lane n).permitAlive && (s.lane n).link.farPowered && !s.on LANE.ISO_TRIPPED n && !(s.lane n).link.farSafe

/-- Lane n has reached HV-off in this same 10 µs sample. -/
def State.offNow (s : State) (n : LaneId) : Bool :=
  match (s.lane n).hwAt with
  | some t => t / sampleTicks == s.clock / sampleTicks
  | none => false

/-- HW_OFF follows; an HV-off is recorded with its cause and ends a cycle with it. Of the causes of one 10 µs sample the lowest is
recorded (R53); cause 0 is none. -/
def State.hwEval (s : State) (n : LaneId) (cause : Nat) : State :=
  let was := s.on LANE.ILK_HW_OFF n
  let off := !s.hvAllowed n
  let s := s.put LANE.ILK_HW_OFF n (b2n off)
  if off && !was then
    ((s.put LANE.ILK_LAST_CAUSE n cause).upLane n fun l => { l with hwAt := some s.clock }).endCycle n cause
  else if off && s.offNow n && cause != 0 && decide (cause < s.g LANE.ILK_LAST_CAUSE n) then
    (s.put LANE.ILK_LAST_CAUSE n cause).endCycle n cause
  else s

/-! ### The far-side safe state (R9, Table: Lane pin states) -/

/-- Chains stop streaming. -/
def State.chainsStop (s : State) (n : LaneId) : State :=
  State.chainStat (allChains.foldl (fun s (c : Fin 4) =>
    ((s.p CHAIN.STAT_RUNNING n c 0).p CHAIN.STAT_SETTLING n c 0).upChain n c fun x => { x with due := none }) s) n

/-- FAR_SAFE, in the link and in LANE.STATE. -/
def State.setFarSafe (s : State) (n : LaneId) (b : Bool) : State :=
  (s.upLink n fun l => { l with farSafe := b }).put LANE.STATE_FAR_SAFE n (b2n b)

/-- The far side enters its safe state: HV off with `cause`, chains, ultrasonic unit, DIO and CAN FD leave off. -/
def State.enterSafe (s : State) (n : LaneId) (cause : Nat) : State :=
  let s := (s.setFarSafe n true).hwEval n cause
  ((((s.smuSafe n).chainsStop n).usSafe n).tmrSafe n).canSafe n

/-- It leaves the safe state, unless its converter has tripped: blocks follow their configuration again. -/
def State.leaveSafe (s : State) (n : LaneId) : State :=
  if s.on LANE.ISO_TRIPPED n || !(s.lane n).link.farSafe then s
  else
    let s := (s.setFarSafe n false).hwEval n 0
    (((s.smuBack n).chainFollow n).usRestart n).canRejoin n

/-- What restarts once a replay has been acknowledged: a far side that went safe leaves that state; on one that never did the ultrasonic
unit restarts (R294), as the chains do on their next edge (R270). -/
def State.resume (s : State) (n : LaneId) : State :=
  if (s.lane n).link.farSafe then s.leaveSafe n else if s.on LANE.ISO_TRIPPED n then s else s.usRestart n

/-! ### Far-side power (R12, R44, R534) -/

/-- A lane's far side gets power: HUNT or, with its link locked, SELFTEST; timers and the watch timer start from 0, auto-zero and the
electronic zero are due (R76, R364, R507); the timer of R9 starts. -/
def State.powerUp (s : State) (n : LaneId) : State :=
  let s := (s.upLink n fun l => { l with farPowered := true, goodAt := s.clock }).upLane n fun l => { l with permitAlive := s.on MOD.PERMIT_PERMITTED 0 }
  let s := (s.tmrReset n).setWd (LANE.SELFTEST_DONE.addr n 0) 0
  let s := ((s.put SMU.STAT_AZ_DUE n 1).put SMU.AZ_OVERDUE_S n 0).put USND.ZC_OVERDUE_S n 0
  let s := (s.upLine n fun l => { l with startDue := s.run (.lane n .dunc) }).lineStat n
  s.setPhase n (if (s.lane n).link.locked then phSelftest else phHunt)

/-- The clear in an item. -/
def Item.clears : Item → Option FarWrite
  | .write _ _ x _ _ => if farClears x.page x.off x.v then some x else none
  | .clear _ x => some x
  | _ => none

/-- The far side keeps what waits for an acknowledgement, and sends it again after the relock, slugs among it (R11, R15). -/
def Side.again (x : Side) : Side := { x with queue := x.unacked.map (fun e => (e.id, e.item)) ++ x.queue, unacked := [], rx := { x.rx with ackRun := 0 } }

/-- The near side drops what it has not got across: the replay brings it again. -/
def Side.dropped (x : Side) : Side := { x with queue := [], unacked := [], rx := { x.rx with ackRun := 0 } }

/-- The clears of lane n that have not been carried out: beside the image, on their way and not taken, held by the far side (log 113). -/
def Link.unclear (l : Link) : List Item :=
  let on := l.near.unacked.filterMap (fun e => if l.far.taken.contains e.id then none else some e.item)
  (l.kept ++ on ++ l.near.queue.map (·.2) ++ l.farHold).filter fun i => i.clears.isSome

/-- Everything on its way down is given up: the near side drops what it has not got across, which the replay brings again, and keeps
the clears among it (log 113). -/
def Link.giveUp (l : Link) : Link :=
  { l with near := l.near.dropped, kept := l.unclear, farHold := [], replayDue := false, pressSeq := 0, applySeq := 0,
           down := l.down.map fun f => { f with items := [] } }

/-- A lane's far side loses power, its interlock monitor apart (R12): mirrors go stale, armed impressions return, blocks stop. A cycle
goes into DISCHARGE, and into OFF only when the coarse path runs again and shows the output below 30 V (R246; log 119). What the far side
has not got across stays in its queue (log 113). `cause` is the HV-off's, for which the code list has none when QUIET or DORMANT takes the
power: the model records 5, permit channel silent (DESIGN CHOICE, log 124). -/
def State.powerDown (s : State) (n : LaneId) (cause : Nat) : State :=
  let s := if (s.lane n).link.stale then s else (s.freeze n).setStale n true
  let s := s.upLink n fun l => { l.giveUp with farPowered := false, far := l.far.again }
  let s := ((s.enterSafe n cause).lineDark n).lineStat n
  (s.unarm n.val).setPhase n phOff

/-! ### Interlocks (R49 to R53) -/

/-- What an input of a pair reads from its voltage in millivolts: closed, or open. A loop input keeps its last reading between 2 V and 8 V;
for a permit input between 5 V and 15 V the spec states none (R49; log 124). -/
def pairReads (p : IlkPair) (mv : Int) (last : Bool) : Bool :=
  match p with
  | .loop _ => if 8000 < mv then false else if mv < 2000 then true else last
  | .permit => if mv < 5000 then false else if 15000 ≤ mv then true else Config.permitBand mv last

/-- Does an open reading of this many microseconds count as an opening? From 1.0 ms to 1.5 ms either outcome may occur (R49). -/
def State.openCounts (s : State) (us : Nat) : Bool × State :=
  if us ≤ 1000 then (false, s) else if 1500 ≤ us then (true, s) else ((s.fresh).1.getLsbD 0, (s.fresh).2)

/-- The pair of channels, whose state the model keeps. -/
def State.ilk (s : State) (p : IlkPair) : Ilk := match p with | .loop n => (s.lane n).ilk | .permit => s.pwr.permits

def State.setIlk (s : State) (p : IlkPair) (x : Ilk) : State :=
  match p with
  | .loop n => (s.upLane n fun l => { l with ilk := x }).put LANE.ILK_A n (b2n x.a) |>.put LANE.ILK_B n (b2n x.b)
  | .permit => ((State.put { s with pwr := { s.pwr with permits := x } } MOD.PERMIT_A 0 (b2n x.a)).put MOD.PERMIT_B 0 (b2n x.b))

/-- The pair counts as closed: a counted closing and no discrepancy (R51, R52). -/
def State.pairEval (s : State) (p : IlkPair) (cause : Nat) : State :=
  match p with
  | .loop n => (s.put LANE.ILK_CLOSED n (b2n ((s.ilk p).counted && !s.on LANE.ILK_DISCREPANCY n))).hwEval n cause
  | .permit =>
    let was := s.on MOD.PERMIT_PERMITTED 0
    let now := (s.ilk p).counted && !s.on MOD.PERMIT_DISCREPANCY 0
    let s := s.put MOD.PERMIT_PERMITTED 0 (b2n now)
    let s := if was && !now then s.raiseMod 2 else s
    if was = now then s
    else s.forLanes allLanes fun n s =>
      if s.fitted n then (s.upLane n fun l => { l with permitAlive := now && l.link.farPowered }).hwEval n cause else s

/-- Is the pair monitored now? The loops in every state but DORMANT and OFF (text after Table: Lane pin states); the permit inputs by the
near side, which a module reset holds. -/
def State.monitored (s : State) (p : IlkPair) : Bool :=
  match p with
  | .loop n => (s.awake || s.pwr.mode == .inReset) && s.fitted n
  | .permit => s.awake

/-- The two inputs of a pair stand at voltages that they are read at. -/
def State.readPair (s : State) (pair : IlkPair) (mvA mvB : Int) : Ilk :=
  let x := s.ilk pair
  { x with readA := pairReads pair mvA x.readA, readB := pairReads pair mvB x.readB }

/-- An opening of channel A, of B or of both has been declared; a module reset holds counters and events (R50). -/
def State.opening (s : State) (pair : IlkPair) (oa ob : Bool) : State :=
  let x := s.ilk pair
  let x := { x with a := x.a && !oa, b := x.b && !ob, counted := false, bothClosed := false }
  let s := s.setIlk pair { x with bothOpened := x.bothOpened || (!x.a && !x.b) }
  match pair with
  | .loop n =>
    let s := if s.awake then (s.bump LANE.ILK_OPENS n).farRaise n .lane 3 else s
    s.pairEval pair (if oa then 1 else 2)
  | .permit => (s.bump MOD.PERMIT_OPENS_COUNT 0).pairEval pair 4

/-- The inputs of a pair have stood at these voltages for `us` microseconds, and an input that reads open and was closed may open (R49, R50). -/
def execInterlockOpening (pair : IlkPair) (mvA mvB : Int) (us : Nat) (s : State) : Out :=
  let x := s.readPair pair mvA mvB
  let oa := x.a && !x.readA
  let ob := x.b && !x.readB
  fin (if s.monitored pair then
    let s := s.setIlk pair x
    if oa || ob then (if (s.openCounts us).1 then (s.openCounts us).2.opening pair oa ob else (s.openCounts us).2) else s
  else s)

/-- A far side detects its permit channel silent (R50). No event of the spec says when a channel found silent counts as alive again while
PERMITTED stays 1: here with the next rise of PERMITTED or at the far side's next power-up (DESIGN CHOICE, log 124). -/
def execPermitChannelSilent (n : LaneId) (s : State) : Out :=
  fin (if s.farUp n then (s.upLane n fun l => { l with permitAlive := false }).hwEval n 5 else s)

/-- The inputs of a pair have stood at these voltages for `us` microseconds: their channels disagree, and for more than 50 ms (R51). -/
def execChannelDiscrepancy (pair : IlkPair) (mvA mvB : Int) (us : Nat) (s : State) : Out :=
  let x := s.readPair pair mvA mvB
  fin (if s.monitored pair && x.readA != x.readB && decide (50000 < us) then
    let s := s.setIlk pair { x with a := x.readA, b := x.readB, counted := false, bothOpened := false, bothClosed := false }
    match pair with
    | .loop n =>
      let s := if s.on LANE.ILK_DISCREPANCY n || !s.awake then s else (s.setW1c LANE.ILK_DISCREPANCY n 0 1).farRaise n .lane 7
      s.pairEval pair 3
    | .permit =>
      let s := s.strike (MOD.PERMIT_DISCREPANCY.addr 0 0) (bitMask 3 3)
      let s := if s.on MOD.PERMIT_DISCREPANCY 0 then s else (s.put MOD.PERMIT_DISCREPANCY 0 1).raiseMod 3
      s.pairEval pair 4
  else s)

/-- The inputs of a pair have stood at these voltages for `us` microseconds: a channel that reads closed is closed at once (log 124), and the
closing counts once both have been closed for 20 ms (R52). -/
def execChannelClosing (pair : IlkPair) (mvA mvB : Int) (us : Nat) (s : State) : Out :=
  let x := s.readPair pair mvA mvB
  fin (if s.monitored pair then
    let x := { x with a := x.a || x.readA, b := x.b || x.readB }
    if x.readA && x.readB && decide (20000 ≤ us) then
      (s.setIlk pair { x with counted := true, bothClosed := x.bothOpened }).pairEval pair 0
    else s.setIlk pair x
  else s)

/-- A write of 1 to DISCREPANCY clears it once both channels have been open together and closed again (R51). -/
def State.discrepancyClear (s : State) (pair : IlkPair) : State :=
  if (s.ilk pair).bothClosed then
    match pair with
    | .loop n => (s.put LANE.ILK_DISCREPANCY n 0).pairEval pair 0
    | .permit => (s.put MOD.PERMIT_DISCREPANCY 0 0).pairEval pair 0
  else s

/-! ### The isolated converter (R44, R536) -/

/-- The converter trips: power rails cut, the far side safe, ISO_TRIP. -/
def State.converterTrip (s : State) (n : LaneId) : State :=
  let s := ((s.put LANE.ISO_TRIPPED n 1).bump LANE.ISO_TRIPS n).farRaise n .lane 4
  ((s.enterSafe n 6).lineTrip n).logIt 0x036 n.val 0x20

def execConverterTrip (n : LaneId) (s : State) : Out :=
  fin (if s.farUp n && !s.on LANE.ISO_TRIPPED n then s.converterTrip n else s)

/-- The effect of REARM: the rails return, unless the far side is still hot, and its self-test runs again. -/
def State.rearm (s : State) (n : LaneId) : State :=
  if s.on LANE.ISO_TRIPPED n && s.g THERM.STAT_LANES_HOT 0 / 2 ^ n.val % 2 == 0 then
    (((s.put LANE.ISO_TRIPPED n 0).setWd (LANE.SELFTEST_DONE.addr n 0) 0).lineStat n).setPhase n phSelftest |>.unarm n.val
  else s

/-- The effect of an accepted mirrored word of the LANE page (offsets 0x16 to 0x19). -/
def laneFarEff (n : LaneId) (off : Nat) (v proof : Word) (s : State) : State :=
  if off = 0x16 then (if bitAt v 4 && bitAt proof 4 then s.discrepancyClear (.loop n) else s)
  else if off = 0x17 then (if bitAt v 0 then s.rearm n else s)
  else storeEff (.lane n .lane) off v proof s

/-- DISCREPANCY is a W1C bit: a sender that names what it saw clears it. `proof` says that the bit was set when it read it. -/
def execDiscrepancyClear (w : Writer) (pair : IlkPair) (proof : Bool) (s : State) : Out :=
  match pair with
  | .loop n =>
    let pf : Word := if proof then 0x10 else 0
    fin (pressOne w (.lane n .lane) 0x16 0x10 pf (fun _ => none) (laneFarEff n 0x16 0x10 pf) s)
  | .permit =>
    fin (pressOne w .mod 0x15 0x8 0 (fun _ => none) (fun s => if proof then s.discrepancyClear .permit else s) s)

def execRearm (w : Writer) (n : LaneId) (s : State) : Out :=
  fin (pressOne w (.lane n .lane) 0x17 1 0 (fun _ => none) (laneFarEff n 0x17 1 0) s)

end Sys2Proof.Machine
end

