-- ==== Sys2Proof/Machine/Link.lean ====
section
/-! DEFINITION. The gutter link frame by frame: sending, receiving, acknowledging, resending, lock and its loss, the replay
(spec/01_lanes_and_plane.md R6 to R16, R24; spec/03_reset_and_bring_up.md R69 to R75; R505). -/

namespace Sys2Proof.Machine

/-! ### What a write does on a far side -/

/-- Words of one press act in this order: those that choose a window or reset others first, RUN after the values it starts
with, strobes last. -/
def applyRank (p : Page) (off : Nat) : Nat :=
  match p with
  | .lane _ .smu => if off = 0x14 then 0 else if off = 2 then 2 else if off = 0x10 then 3 else 1
  | .lane _ .chain => if off = 0x25 then 0 else if off = 2 then 2 else if off = 0x24 then 3 else 1
  | .lane _ .can => if off = 0x1B then 0 else if off = 2 then 2 else if off = 0x10 ∨ off = 0x18 ∨ off = 0x19 then 3 else 1
  | .lane _ .usnd => if off = 2 then 2 else if off = 0x10 then 3 else 1
  | .lane _ .tmr => if off = 0x10 then 3 else 1
  | .lane _ .dunc => if off = 2 then 2 else if off = 0x10 ∨ off = 0x28 then 3 else 1
  | _ => if off = 2 then 2 else 1

/-- One word takes effect on the far side of lane n; `kept` are the SMU words that the same press writes (R227). -/
def farEffect (w : Writer) (n : LaneId) (k : LaneKind) (off : Nat) (v proof : Word) (kept : List Nat) (s : State) : State :=
  match k with
  | .lane => laneFarEff n off v proof s
  | .smu => smuEff w.holder n off v proof kept s
  | .chain => chainEff n off v proof s
  | .usnd => usndEff n off v proof s
  | .tmr => tmrEff n off v proof s
  | .dunc => duncEff n off v proof s
  | .can => canEff n off v proof s
  | .eng => s


/-! ### The bits of a frame (R6) -/

/-- The sync word. -/
def syncWord : Nat := 0x5B7C93A6

/-- Bits of the additive scrambler x²³ + x¹⁸ + 1, first bit most significant: its register of 23 stages starts at all ones, and its last
stage is the output (log 112). -/
def scrambleBits : Nat → Nat → Nat → Nat
  | 0, _, acc => acc
  | k + 1, r, acc => scrambleBits k ((r * 2 + (r / 2 ^ 22 + r / 2 ^ 17) % 2) % 2 ^ 23) (acc * 2 + r / 2 ^ 22)

/-- What the payload of every frame is added to. -/
def scramble : Nat := scrambleBits 928 (2 ^ 23 - 1) 0

/-- The CRC of a frame: header and unscrambled payload, byte by byte in the order of sending. -/
def frameCrc (header payload : Nat) : Nat := crc32 (beBytes 120 (header * 2 ^ 928 + payload))

/-- The 1,024 bits of a frame, the first sent most significant. -/
def frameBits (header payload : Nat) : Nat :=
  ((syncWord * 2 ^ 32 + header) * 2 ^ 928 + (payload ^^^ scramble)) * 2 ^ 32 + frameCrc header payload

/-- The fields of a received frame. -/
def frameHeader (w : Nat) : Nat := w / 2 ^ 960 % 2 ^ 32
def framePayload (w : Nat) : Nat := (w / 2 ^ 32 % 2 ^ 928) ^^^ scramble

/-- KIND of a header. -/
def FrameKind.code : FrameKind → Nat
  | .data => 1
  | .telemetry => 2
  | .idle => 3

/-- Is a received frame good (R7)? -/
def frameOk (w : Nat) : Bool :=
  w / 2 ^ 992 % 2 ^ 32 == syncWord && decide (1 ≤ frameHeader w / 16 % 16) && decide (frameHeader w / 16 % 16 ≤ 3)
    && w % 2 ^ 32 == frameCrc (frameHeader w) (framePayload w)

/-- Does an item travel in the control slot? -/
def Item.control : Item → Bool
  | .event _ _ => true
  | .rate _ => true
  | .step _ _ => true
  | .applied _ _ => true
  | .report _ => true
  | _ => false

/-- A writer as a number. -/
def Writer.key : Writer → Nat
  | .host k => k.val
  | .user n => 0x10 + n.val
  | .monitor n => 0x30 + n.val
  | .chase => 0x20

/-- What became of an impression, as numbers. -/
def LaunchKind.key : LaunchKind → List Nat
  | .onTime => [0]
  | .late ns => [1, ns]
  | .refused c => [2, c]
  | .skipped => [3]
  | .expired => [4]

/-- An integer as a natural number. -/
def intKey (i : Int) : Nat := if 0 ≤ i then 2 * i.toNat else 2 * (-i).toNat + 1

/-- A write as numbers. -/
def FarWrite.key (x : FarWrite) : List Nat := [Writer.key x.w, x.page.num, x.off, x.v.toNat, x.proof.toNat, x.since]

/-- What an item says, as numbers for `Config.gutterItem`. -/
def Item.key : Item → List Nat
  | .write press pressed x idx last => [1, press, pressed, idx, b2n last] ++ x.key
  | .conf idx a v last => [2, idx, a, v.toNat, b2n last]
  | .clear idx x => [3, idx] ++ x.key
  | .arm id => [4, id]
  | .rate v => [5, v.toNat]
  | .step d t => [6, intKey d, t]
  | .event p b => [7, p.num, b]
  | .applied p q => [8, p.num, q]
  | .report r => [9, r.sheet, r.w2.toNat, r.arg.toNat] ++ r.kind.key ++ r.vals
  | .slug x => [10, x.w0.toNat, x.w1.toNat, x.w2.toNat, x.w3.toNat]

/-- The 16 bytes of an item: a slug is its four words, any other item is spelt in a way that the spec leaves open. -/
def Item.slot (id : Nat) : Item → Nat
  | .slug x => ((x.w0.toNat * 2 ^ 32 + x.w1.toNat) * 2 ^ 32 + x.w2.toNat) * 2 ^ 32 + x.w3.toNat
  | it => (Config.gutterItem (id :: it.key)).toNat

/-- The six entries of a frame, the first most significant; an empty one is open too. -/
def slotsOf : Nat → List Nat → Nat
  | 0, _ => 0
  | k + 1, [] => (Config.gutterItem []).toNat * 2 ^ (128 * k) + slotsOf k []
  | k + 1, x :: r => x * 2 ^ (128 * k) + slotsOf k r

/-- Entries of a frame. -/
def entriesMax : Nat := 6

/-- The header of a frame (Table: Gutter frame header). -/
def Frame.header (f : Frame) : Nat :=
  f.num % 2 ^ 12 * 2 ^ 20 + (match f.ack with | some a => a % 2 ^ 12 | none => Config.noAck.toNat) * 2 ^ 8 + f.kind.code * 2 ^ 4
    + b2n f.safe * 8 + b2n f.replay * 4

/-- The payload of a frame: time or status word, control slot, six entries. -/
def Frame.payload (f : Frame) : Nat :=
  let ctl := match f.items.find? fun e => e.2.control with | some e => e.2.slot e.1 | none => (Config.gutterItem []).toNat
  let entries := if f.kind = .telemetry then (List.range entriesMax).map fun i => (Config.gutterItem (i :: f.readings)).toNat
    else (f.items.filter fun e => !e.2.control).map fun e => e.2.slot e.1
  (f.time.toNat * 2 ^ 128 + ctl) * 2 ^ 768 + slotsOf entriesMax entries

/-- The bits that a side puts on the line for a frame. -/
def Frame.wire (f : Frame) : Nat := frameBits f.header f.payload

/-! ### The replay (R11, R131) -/

/-- Mirrored kinds of page. -/
def farKinds : List LaneKind := [.lane, .smu, .chain, .usnd, .tmr, .dunc, .can]

/-- The model's own addresses behind a lane's windows: FIR coefficients and CAN transmit buffers. -/
def laneWindow (n : LaneId) (a : Nat) : Bool :=
  (decide (coefAddr n.val 0 0 0 ≤ a) && decide (a < coefAddr n.val 0 0 0 + 512)) || (decide (canAddr n.val 0 0 ≤ a) && decide (a < canAddr n.val 0 0 + 1024))

/-- The mirrored word of lane n at an address, outside its windows. -/
def confPlace (n : LaneId) (a : Nat) : Option (LaneKind × Nat) :=
  match Page.ofNum (a / 256) with
  | some (.lane m k) => if m = n ∧ a < coefBase ∧ (Page.lane n k).mirrorAt (a % 256) = true ∧ storeMask (.lane n k) (a % 256) ≠ 0
      ∧ winAddr (.lane n k) (a % 256) 0 = a then some (k, a % 256) else none
  | _ => none

/-- One word of the configuration reaches the far side; a word already in force changes nothing (R73). -/
def State.confWord (s : State) (n : LaneId) (k : LaneKind) (off : Nat) (v : Word) : State :=
  let p := Page.lane n k
  if (v ^^^ s.wd (p.at_ off)) &&& storeMask p off &&& ~~~(accMask p off .ctr) = 0 then s
  else farEffect .chase n k off v 0 cfgResets s

/-- The configuration of lane n as the near-side image has it, word by word; words that read their Reset column on both sides take no
entry (log 113). -/
def State.laneConf (s : State) (n : LaneId) : List (Nat × Word) :=
  let keys := ((s.regs ++ s.image).map (·.1)).filter fun a => laneWindow n a || (confPlace n a).isSome
  keys.eraseDups.map fun a => (a, sget resetWord s.image a)

/-- The far side takes a configuration: windows, then words in the order of `applyRank`. -/
def State.applyConf (s : State) (n : LaneId) (ws : List (Nat × Word)) : State :=
  let wins := ws.filter fun e => laneWindow n e.1
  let s := wins.foldl (fun s e => s.setWd e.1 e.2) s
  let s := if wins.isEmpty then s else s.regrow n
  let mine := ws.filterMap fun e => (confPlace n e.1).map fun x => (x.1, x.2, e.2)
  [0, 1, 2, 3].foldl (fun s r => (mine.filter fun e => applyRank (.lane n e.1) e.2.1 == r).foldl (fun s e => s.confWord n e.1 e.2.1 e.2.2) s) s

/-- What a write that waited beside the image does once the configuration is in force: it clears what it names, and stores nothing
(R129). -/
def State.applyClear (s : State) (n : LaneId) (x : FarWrite) : State :=
  match x.page with
  | .lane _ k =>
    let clr := accMask x.page x.off .w1c ||| accMask x.page x.off .ctr
    farEffect x.w n k x.off ((s.wd (x.page.at_ x.off) &&& storeMask x.page x.off) ||| (x.v &&& clr)) (s.proofNow n x) cfgResets s
  | _ => s

/-- Carry out the clears of a list of items, in order. -/
def State.applyClears (s : State) (n : LaneId) (is_ : List Item) : State :=
  (is_.filterMap Item.clears).foldl (fun s x => s.applyClear n x) s

/-- The far side takes the whole image and the clears beside it at once (R77, R81). -/
def State.applyImage (s : State) (n : LaneId) : State :=
  let kept := (s.lane n).link.kept
  ((s.applyConf n (s.laneConf n)).applyClears n kept).upLink n fun l => { l with kept := [], waits := [] }

/-- APPLIED of a page: everything pressed before the first write whose apply has not been reported (R128). -/
def State.appliedTo (s : State) (n : LaneId) (p : Page) : State :=
  match (s.lane n).link.waits.find? fun e => e.1 == p with
  | none => s.allApplied p
  | some e => s.setHw p 0xD (withBits (s.hw p 0xD) 15 0 ((e.2 + 65535) % 65536))

/-- APPLIED returns to PRESSED on every page of the lane, but for writes that are still on their way (R131). -/
def State.laneApplied (s : State) (n : LaneId) : State := farKinds.foldl (fun s k => s.appliedTo n (.lane n k)) s

/-- Does an item belong to a replay? -/
def Item.isReplay : Item → Bool
  | .conf .. => true
  | .clear .. => true
  | _ => false

/-- The replay goes ahead of every other downstream item: the configuration, the clears beside it, and at the end the PG_CTL word of the
SMU page with the mark of the last entry (log 113). -/
def State.queueReplay (s : State) (n : LaneId) : State :=
  let ctl := (Page.lane n .smu).at_ 2
  let conf := (s.laneConf n).filter fun e => e.1 != ctl
  let its := ((conf.zip (List.range conf.length)).map fun e => Item.conf e.2 e.1.1 e.1.2 false)
  let clears := (s.lane n).link.kept.filterMap Item.clears
  let its := its ++ (clears.zip (List.range clears.length)).map fun e => Item.clear (conf.length + e.2) e.1
  let its := its ++ [.conf its.length ctl (sget resetWord s.image ctl) true]
  s.upLink n fun l =>
    let q := (its.zip (List.range its.length)).map fun e => (l.near.nextId + e.2, e.1)
    { l with replayDue := true, kept := [], waits := [], near := { l.near with queue := q ++ l.near.queue, nextId := l.near.nextId + its.length } }

/-! ### The far side applies a press (R24, R128) -/

/-- The press number of a held write. -/
def Item.press? : Item → Option Nat
  | .write pr _ _ _ _ => some pr
  | _ => none

/-- The place of an entry in its press or replay, and whether it carries the mark. -/
def Item.place : Item → Option (Nat × Bool)
  | .write _ _ _ i l => some (i, l)
  | .conf i _ _ l => some (i, l)
  | .clear i _ => some (i, false)
  | _ => none

/-- The page and PRESSED value of a write. -/
def Item.page? : Item → Option (Page × Nat)
  | .write _ q x _ _ => some (x.page, q)
  | _ => none

/-- The marked entry has arrived, and every one before it. -/
def wholeList (is_ : List Item) : Bool :=
  let ps := is_.filterMap Item.place
  match ps.find? (·.2) with
  | none => false
  | some e => (List.range e.1).all fun i => ps.any fun x => x.1 == i

/-- The write that an item carries. -/
def Item.put? : Item → Option FarWrite
  | .write _ _ x _ _ => some x
  | _ => none

/-- One held write takes effect; `kept` are the SMU words of its press (R227). -/
def State.applyWrite (s : State) (n : LaneId) (kept : List Nat) (x : FarWrite) : State :=
  match x.page with
  | .lane _ k => farEffect x.w n k x.off x.v (s.proofNow n x) kept s
  | _ => s

/-- The writes of one press take effect together, in the order of `applyRank`. -/
def State.applyPress (s : State) (n : LaneId) (xs : List FarWrite) : State :=
  let offs := (xs.filter fun x => x.page == .lane n .smu).map (·.off)
  [0, 1, 2, 3].foldl (fun s r => (xs.filter fun x => applyRank x.page x.off == r).foldl (fun s x => s.applyWrite n offs x) s) s

/-- The far side reports an apply, page by page. -/
def State.reportApply (s : State) (n : LaneId) (mine : List Item) : State :=
  (mine.filterMap Item.page?).eraseDups.foldl (fun s e => s.sendUp n (.applied e.1 e.2)) s

/-- At a frame boundary every press that has arrived whole is applied, in press order; a replay goes first. -/
def State.farApply : Nat → LaneId → State → State
  | 0, _, s => s
  | k + 1, n, s =>
    let hold := (s.lane n).link.farHold
    let rep := hold.filter Item.isReplay
    if !rep.isEmpty then
      if wholeList rep then
        let s := s.upLink n fun l => { l with farHold := hold.filter fun i => !i.isReplay }
        State.farApply k n ((s.applyConf n (rep.filterMap fun i => match i with | .conf _ a v _ => some (a, v) | _ => none)).applyClears n rep)
      else s
    else
      let seq := (s.lane n).link.applySeq
      let mine := hold.filter fun i => i.press? == some seq
      if wholeList mine && s.farTakes n then
        let s := s.upLink n fun l => { l with farHold := hold.filter (fun i => i.press? != some seq), applySeq := seq + 1 }
        State.farApply k n ((s.applyPress n (mine.filterMap Item.put?)).reportApply n mine)
      else s

/-- Everything that is whole on the far side. -/
def State.farApplyAll (s : State) (n : LaneId) : State := State.farApply ((s.lane n).link.farHold.length + 1) n s

/-- The apply boundary: the far side is powered and reads its entries, and is READY or SAFE (R24). -/
def execFarSideApply (n : LaneId) (s : State) : Out := fin (if s.farTakes n then s.farApplyAll n else s)

/-! ### What arrives -/

/-- A far side's report of an apply: APPLIED follows (R128). -/
def State.takeApplied (s : State) (n : LaneId) (p : Page) (q : Nat) : State :=
  (s.upLink n fun l => { l with waits := l.waits.filter fun e => !(e == (p, q)) }).appliedTo n p

/-- An upstream control item acts on arrival. -/
def State.takeControl (s : State) (n : LaneId) (it : Item) : State :=
  match it with
  | .event p b => s.raise p b
  | .applied p q => s.takeApplied n p q
  | .report r => s.upLane n fun l => { l with reports := l.reports ++ [r] }
  | _ => s

/-- Far-side items arriving on the near side: control items are held while a replay is under way (R11). -/
def State.takeUp (s : State) (n : LaneId) (it : Item) : State :=
  match it with
  | .slug x => s.galArrive n x
  | it => if (s.lane n).link.replayDue then s.upLink n fun l => { l with held := l.held ++ [it] } else s.takeControl n it

/-- Near-side items arriving on the far side: entries of a press or a replay wait until it is whole (R24). -/
def State.takeDown (s : State) (n : LaneId) (it : Item) : State :=
  match it with
  | .rate v => s.upLink n fun l => { l with rate := v }
  | .step d t => s.upLane n fun l => { l with stepAt := some (d, t) }
  | .arm id => s.slotArmed n.val id
  | it => if it.place.isSome then s.upLink n fun l => { l with farHold := l.farHold ++ [it] } else s

/-- The replay is acknowledged: it is in force, items held since the relock act in their order, then STALE clears, LANE_RESYNC is raised
and counted; streaming restarts (R11, R270, R294, R384). -/
def State.replayDone (s : State) (n : LaneId) : State :=
  let s := if s.farTakes n then s.farApplyAll n else s
  let held := (s.lane n).link.held
  let s := (s.upLink n fun l => { l with held := [], replayDue := false }).laneApplied n
  let s := held.foldl (fun s it => s.takeControl n it) s
  let s := (((s.setStale n false).raiseLane n 1).bump LANE.STATE_RESYNC_COUNT n).chainsDue n
  if s.phase n = phReady then s.resume n else s

/-! ### Lock and its loss (R10, R71, R72, R198, R213, R505) -/

/-- The link loses lock. -/
def State.linkLost (s : State) (n : LaneId) : State :=
  if !(s.lane n).link.locked then s
  else
    let s := if (s.lane n).link.stale then s else s.freeze n
    let s := s.upLane n fun l =>
      { l with
        stepAt := none,
        link := { l.link.giveUp with far := l.link.far.again, locked := false, up := l.link.up.map (fun f => { f with items := [] }),
                                     huntFrom := s.clock } }
    let s := ((s.put LANE.STATE_LOCKED n 0).put LANE.STATE_DISCIPLINED n 0).setStale n true
    let s := (s.folio n 4).upGal n fun g => { g with linkLostFolio := true }
    let s := (s.raiseLane n 5).unarm n.val
    if s.phase n = phSelftest then s.setPhase n phHunt else s

/-- The link locks: lane time is loaded, a lane that hunted starts its self-test, another is replayed, and the galley notes the
restart after the slugs that the far side holds (R11, R76, R198, R440). -/
def State.linkUp (s : State) (n : LaneId) : State :=
  let l := (s.lane n).link
  let s := (s.put LANE.HUNT_LOCK_US n (min ((s.clock - l.huntFrom) / 200) 0xFFFF)).put LANE.STATE_LOCKED n 1
  let s := s.upLane n fun l => { l with timeOff := 0, link := { l.link with locked := true, rate := s.wd (REG.RT_INC.addr 0 0) } }
  if s.phase n = phHunt then s.setPhase n phSelftest
  else if !l.farPowered then s
  else
    let s := s.upLane n fun l => { l with marks := l.marks ++ [(l.fifo.length, folioMark 3 0 s.rtLo (BitVec.ofNat 32 (s.rt64 / 2 ^ 32)))] }
    if (s.phase n = phReady ∨ s.phase n = phSafe) then s.queueReplay n else s

/-! ### Sending (R6, R8, R16, R72) -/

/-- Take from `todo` what a frame has room for: `e` entries and `c` control slots; the rest stays in order. -/
def fillFrame (f : α → Item) : List α → Nat → Nat → List α × List α
  | [], _, _ => ([], [])
  | x :: r, e, c =>
    if (f x).control then
      if 0 < c then let (a, b) := fillFrame f r e (c - 1); (x :: a, b) else let (a, b) := fillFrame f r e c; (a, x :: b)
    else if 0 < e then let (a, b) := fillFrame f r (e - 1) c; (x :: a, b) else let (a, b) := fillFrame f r 0 c; (a, x :: b)

/-- Items that go again, then new ones, into a frame of FRAME value `num` with room for `e` entries. -/
def Side.load (x : Side) (num e : Nat) : Side × List (Nat × Item) :=
  let old := x.unacked.map fun u => { u with age := u.age + 1 }
  let (again, _) := fillFrame Sent.item (old.filter (·.due)) e 1
  let ids := again.map (·.id)
  let ctl := (again.filter fun u => u.item.control).length
  let (new, rest) := fillFrame (fun (q : Nat × Item) => q.2) x.queue (e - (again.length - ctl)) (1 - ctl)
  let old := old.map fun u => if ids.contains u.id then { u with frame := num, age := 0, due := false } else u
  ({ x with queue := rest, unacked := old ++ new.map fun q => ⟨q.1, q.2, 1, num, 0, false⟩ },
   again.map (fun u => (u.id, u.item)) ++ new)

/-- The near side's frame: until the last entry of a replay has gone, no other entry goes (R11). -/
def Side.loadDown (x : Side) (num : Nat) : Side × List (Nat × Item) :=
  let (rep, rest) := x.queue.partition fun e => e.2.isReplay
  if rep.isEmpty then x.load num entriesMax
  else
    let (y, items) := Side.load { x with queue := rep ++ rest.filter fun (e : Nat × Item) => e.2.control } num entriesMax
    ({ y with queue := y.queue ++ rest.filter fun (e : Nat × Item) => !e.2.control }, items)

/-- A TELEMETRY frame has fallen due: this frame is the 64th after the last (R16). -/
def Link.telemetryDue (l : Link) : Bool := l.telemDue || decide (63 ≤ l.telemAge)

/-- Does a due TELEMETRY frame go out now (R16)? -/
def State.telemetryNow (s : State) (n : LaneId) : Bool :=
  let l := (s.lane n).link
  l.telemetryDue && (decide ((s.lane n).fifo.length ≤ entriesMax) || decide (1023 ≤ l.telemAge))

/-- The next `k` slugs of the far side: its FIFO, with the folios of restarts in their places. -/
def takeSlugs : Nat → List (Nat × Slug) → List Slug → List Slug × List (Nat × Slug) × List Slug
  | 0, marks, fifo => ([], marks, fifo)
  | k + 1, (0, g) :: marks, fifo => let (a, m, f) := takeSlugs k marks fifo; (g :: a, m, f)
  | _ + 1, marks, [] => ([], marks, [])
  | k + 1, marks, x :: fifo => let (a, m, f) := takeSlugs k (marks.map fun e => (e.1 - 1, e.2)) fifo; (x :: a, m, f)

/-- Move slugs from the FIFO into the far side's queue, as many as a frame may take. -/
def State.slugsOut (s : State) (n : LaneId) (k : Nat) : State :=
  let (out, marks, fifo) := takeSlugs k (s.lane n).marks (s.lane n).fifo
  out.foldl (fun s x => s.sendUp n (.slug x)) (s.upLane n fun l => { l with fifo := fifo, marks := marks })

/-- Do the two sides of lane n send frames at all? -/
def State.linkRuns (s : State) (n : LaneId) : Bool := s.awake && s.fitted n && s.phase n != phReset

/-- Frames that the model remembers as on their way, one direction. -/
def flightMax : Nat := 16

/-- The near side sends one frame. -/
def State.sendDownFrame (s : State) (n : LaneId) : State :=
  let l := (s.lane n).link
  let open_ := l.locked && l.farPowered && l.near.rx.locked
  let (near, items) := if open_ then l.near.loadDown l.near.frame else (l.near, [])
  let f : Frame := ⟨l.near.frame, l.near.rx.lastGood, if items.isEmpty then .idle else .data, false, items.any fun e => e.2.isReplay, items, [], s.rtLo⟩
  s.upLink n fun l => { l with near := { near with frame := (near.frame + 1) % 4096, sent := near.sent + 1 },
                               down := (l.down ++ [f]).drop (l.down.length + 1 - flightMax) }

/-- The status word of lane n: its interlock loops, HV state and supply state (R6). -/
def State.laneStatus (s : State) (n : LaneId) : Word :=
  Config.laneStatus [(s.wd (LANE.ILK_A.addr n 0)).toNat, s.g SMU.STAT_STATE n, b2n (s.lane n).link.farPowered, s.g LANE.ISO_TRIPPED n]

/-- What a TELEMETRY frame reports: far-side temperature, supply and self-test (R6). -/
def State.telemReadings (s : State) (n : LaneId) : List Nat :=
  [s.g THERM.FAR 0 n.val, s.g LANE.ISO_TRIPPED n, (s.wd (LANE.SELFTEST_DONE.addr n 0)).toNat]

/-- The far side sends one frame. -/
def State.sendUpFrame (s : State) (n : LaneId) : State :=
  let l := (s.lane n).link
  let open_ := l.locked && l.farPowered && l.far.rx.locked
  let telem := open_ && s.telemetryNow n
  let s := if open_ && l.telemetryDue && !telem then s.bump LANE.TELEM_DEFER n else s
  let due := (l.far.unacked.filter fun u => u.due && !u.item.control).length
  let s := if open_ && !telem then s.slugsOut n (entriesMax - due - (l.far.queue.filter fun e => !e.2.control).length) else s
  let l := (s.lane n).link
  let (far, items) := if open_ then l.far.load l.far.frame (if telem then 0 else entriesMax) else (l.far, [])
  let kind : FrameKind := if telem then .telemetry else if items.isEmpty && !(open_ && l.telemetryDue) then .idle else .data
  let f : Frame := ⟨l.far.frame, l.far.rx.lastGood, kind, l.farSafe, false, items, if telem then s.telemReadings n else [], s.laneStatus n⟩
  s.upLink n fun l => { l with far := { far with frame := (far.frame + 1) % 4096, sent := far.sent + 1 },
                               up := (l.up ++ [f]).drop (l.up.length + 1 - flightMax),
                               telemAge := if telem then 0 else l.telemAge + 1, telemDue := l.telemetryDue && !telem }

/-- One side of lane n's link sends a frame: the far side (`up`), or the near side, whose time word is RT. -/
def execGutterFrameSend (n : LaneId) (up : Bool) (s : State) : Out :=
  fin (if s.linkRuns n then (if up then s.sendUpFrame n else s.sendDownFrame n) else s)

/-- 64 frames after the last TELEMETRY frame one falls due, and stays due until it is sent (R16). -/
def execTelemetryDue (n : LaneId) (s : State) : Out :=
  fin (if 63 ≤ (s.lane n).link.telemAge then s.upLink n fun l => { l with telemDue := true } else s)

/-! ### Receiving (R7, R69 to R73) -/

/-- What a receiver finds in its bits: a good frame, a bad frame at the locked position, a candidate dropped (`fresh`: its bad frame has
not been counted before), lock lost. -/
inductive RxEvent where
  | good (w : Nat)
  | bad
  | drop (fresh : Bool)
  | lost
  deriving DecidableEq, Repr

/-- Bits of a receiver from bit `at_` on, `k` of them. -/
def Rx.take (x : Rx) (at_ k : Nat) : Nat := x.bits / 2 ^ (x.len - at_ - k) % 2 ^ k

/-- Go on from bit `at_`. -/
def Rx.skip (x : Rx) (at_ : Nat) : Rx :=
  { x with bits := x.bits % 2 ^ (x.len - at_), len := x.len - at_, proved := 0, badRun := 0, judged := x.judged - at_ }

/-- A receiver goes back to hunting; the search starts at the first bit after the sync word of the last good frame (R71). -/
def Rx.hunt (x : Rx) : Rx :=
  if x.locked then { x with locked := false, proved := 0, badRun := 0, judged := 992 + 1024 * x.badRun } else x

/-- What the bits received so far come to: in lock, frame after frame at the locked position (R71); in the hunt, the sync word compared
at every bit position, and a candidate proved by three good frames 1,024 bits apart (R69, R70). The first argument bounds the number
of findings. -/
def Rx.scan : Nat → Rx → List RxEvent × Rx
  | 0, x => ([], x)
  | k + 1, x =>
    let note := fun (e : RxEvent) (r : List RxEvent × Rx) => (e :: r.1, r.2)
    if x.locked then
      let at_ := 992 + 1024 * x.badRun
      if x.len < at_ + 1024 then ([], x)
      else
        let w := x.take at_ 1024
        if frameOk w then note (.good w) (Rx.scan k (x.skip (at_ + 32)))
        else if x.badRun = 3 then note .bad (note .lost (Rx.scan k { x with locked := false, badRun := 0, proved := 0, judged := at_ + 1024 }))
        else note .bad (Rx.scan k { x with badRun := x.badRun + 1 })
    else if x.len < 32 then ([], x)
    else if x.take 0 32 ≠ syncWord then Rx.scan k (x.skip 1)
    else if x.len < 1024 * (x.proved + 1) then ([], x)
    else
      let w := x.take (1024 * x.proved) 1024
      if !frameOk w then note (.drop (decide (x.judged < 1024 * (x.proved + 1)))) (Rx.scan k (x.skip 1))
      else if x.proved = 2 then note (.good w) (Rx.scan k { x.skip 2080 with locked := true })
      else note (.good w) (Rx.scan k { x with proved := x.proved + 1 })

/-- 1,024 bits more have arrived. -/
def Rx.feed (x : Rx) (w : Nat) : List RxEvent × Rx :=
  Rx.scan (4 * (x.len + 1024) + 8) { x with bits := x.bits * 2 ^ 1024 + w, len := x.len + 1024 }

/-- A frame that is not good breaks the run of ACKs (R72). -/
def Rx.noRun (x : Rx) : Rx := { x with ackRun := 0 }

/-- Does an ACK name a frame that the side sent within the previous four (R72)? -/
def Side.acked (x : Side) (a : Nat) : Bool :=
  let back := (x.frame + 4095 - a) % 4096
  decide (back < 4) && decide (back < x.sent)

/-- The side of lane n that receives upstream (`up`: the near side) or downstream frames. -/
def State.side (s : State) (n : LaneId) (up : Bool) : Side := if up then (s.lane n).link.near else (s.lane n).link.far
def State.setSide (s : State) (n : LaneId) (up : Bool) (x : Side) : State :=
  s.upLink n fun l => if up then { l with near := x } else { l with far := x }

/-- The items of a frame that have not arrived before. -/
def State.takeItems (s : State) (n : LaneId) (up : Bool) (items : List (Nat × Item)) : State :=
  items.foldl (fun s e =>
    let x := s.side n up
    if x.taken.contains e.1 then s
    else
      let s := s.setSide n up { x with taken := (e.1 :: x.taken).take 256 }
      if up then s.takeUp n e.2 else s.takeDown n e.2) s

/-- An acknowledgement frees what the named frame carried; with the last entry of a replay the relock is complete (R11). -/
def State.takeAck (s : State) (n : LaneId) (up : Bool) (a : Nat) : State :=
  let x := s.side n up
  let x := { x with unacked := x.unacked.filter fun u => !(u.frame == a && !u.due) }
  let s := s.setSide n up x
  if up && (s.lane n).link.replayDue && !(x.unacked.any fun u => u.item.isReplay) && !(x.queue.any fun e => e.2.isReplay)
  then s.replayDone n else s

/-- The link is locked once both receivers are and each has seen three ACKs in a row (R72). -/
def State.lockCheck (s : State) (n : LaneId) : State :=
  let l := (s.lane n).link
  if !l.locked && l.near.rx.locked && l.far.rx.locked && decide (3 ≤ l.near.rx.ackRun) && decide (3 ≤ l.far.rx.ackRun) then s.linkUp n
  else s

/-- A good frame: its FRAME and ACK, the timer of R9 (R73), and in a locked link its contents. -/
def State.goodFrame (s : State) (n : LaneId) (up : Bool) (w : Nat) : State :=
  let x := s.side n up
  let a := frameHeader w / 2 ^ 8 % 2 ^ 12
  let named := x.acked a
  let s := s.setSide n up { x with rx := { x.rx with lastGood := some (frameHeader w / 2 ^ 20), ackRun := if named then x.rx.ackRun + 1 else 0 } }
  let s := if up then s else s.upLink n fun l => { l with goodAt := s.clock }
  if (s.lane n).link.locked then
    let sent := if up then (s.lane n).link.up else (s.lane n).link.down
    let s := match sent.find? fun f => f.wire == w with
      | some f => s.takeItems n up f.items
      | none => s
    if named then s.takeAck n up a else s
  else s

/-- One finding of a receiver. -/
def State.rxEvent (s : State) (n : LaneId) (up : Bool) (e : RxEvent) : State :=
  let quiet := fun (s : State) => s.setSide n up { s.side n up with rx := (s.side n up).rx.noRun }
  match e with
  | .good w => s.goodFrame n up w
  | .bad => quiet (s.bump LANE.BAD_FRAMES n)
  | .drop fresh => quiet ((if fresh then s.bump LANE.BAD_FRAMES n else s).bump LANE.HUNT_CANDIDATES n)
  | .lost => s.linkLost n

/-- A receiver takes 1,024 bits from the line. -/
def State.receive (s : State) (n : LaneId) (up : Bool) (w : Nat) : State :=
  let x := s.side n up
  let (es, rx) := x.rx.feed w
  let s := es.foldl (fun s e => s.rxEvent n up e) (s.setSide n up { x with rx := rx })
  s.lockCheck n

/-- The next 1,024 bits of the line reach a receiver of lane n: of the near side (`up`), or of the far side. -/
def execGutterFrameReceive (n : LaneId) (up : Bool) (bits : BitVec 1024) (s : State) : Out :=
  fin (if s.linkRuns n then s.receive n up bits.toNat else s)

/-! ### Resending (R8) -/

/-- Frames that a side has sent after the one that carried an item, before the item goes again with the next. -/
def resendAfter : Nat := 2

/-- Sendings of one item at most. -/
def sendsMax : Nat := 4

/-- The item of a side that has waited longest for its acknowledgement, if it has waited long enough. -/
def Side.overdue (x : Side) : Option Sent := x.unacked.find? fun u => !u.due && decide (resendAfter ≤ u.age)

/-- Both receivers hunt again. -/
def State.bothHunt (s : State) (n : LaneId) : State :=
  s.upLink n fun l => { l with near := { l.near with rx := l.near.rx.hunt }, far := { l.far with rx := l.far.rx.hunt } }

/-- An item goes again, or at its 4th sending the link has lost lock. -/
def State.resend (s : State) (n : LaneId) (up : Bool) : State :=
  let x := s.side n (!up)
  match x.overdue with
  | none => s
  | some u =>
    if sendsMax ≤ u.sends then (s.linkLost n).bothHunt n
    else (s.bump LANE.RESENDS n).setSide n (!up)
      { x with unacked := x.unacked.map fun v => if v.id = u.id then { v with due := true, sends := v.sends + 1 } else v }

/-- The counts of R8 are suspended while the side's own receiver hunts (R72). -/
def execItemResend (n : LaneId) (up : Bool) (s : State) : Out :=
  fin (if (s.lane n).link.locked && (s.side n (!up)).rx.locked then s.resend n up else s)

/-! ### The far side goes safe (R9) -/

/-- 100 µs in ticks of the system clock. -/
def safeTicks : Nat := 20000

/-- 100 µs without a good frame: its receiver has lost lock, and the far side goes safe. -/
def execFarSideSafe (n : LaneId) (s : State) : Out :=
  fin (if s.farUp n && !(s.lane n).link.farSafe && decide ((s.lane n).link.goodAt + safeTicks ≤ s.clock) then
    ((s.linkLost n).enterSafe n 5).upLink n fun l => { l with far := { l.far with rx := l.far.rx.hunt } }
  else s)

/-- Lane time meets R22 (R198). -/
def execLaneDisciplined (n : LaneId) (s : State) : Out :=
  fin (if s.on LANE.STATE_LOCKED n then s.put LANE.STATE_DISCIPLINED n 1 else s)

end Sys2Proof.Machine
end

