-- ==== Sys2Proof/Machine/Cal.lean ====
section
/-! DEFINITION. The calendar and the calibration records (spec/18_chase_services.md R463 to R471; spec/10_source_measure.md R249, R250):
Gregorian dates, the source, leap seconds, the alarm, expiry, due dates, and the CAL page. -/

namespace Sys2Proof.Machine

/-! ### Dates (R464, R465) -/

def leapYear (y : Nat) : Bool := y % 4 == 0 && (y % 100 != 0 || y % 400 == 0)

def daysIn (y m : Nat) : Nat :=
  if m = 2 then (if leapYear y then 29 else 28) else if m = 4 ∨ m = 6 ∨ m = 9 ∨ m = 11 then 30 else 31

/-- Days from 2000-01-01 to the first day of year y. -/
def yearStart (y : Nat) : Nat :=
  let k := y - 2000
  365 * k + (k + 3) / 4 - (k + 99) / 100 + (k + 399) / 400

/-- Days of the year before month m. -/
def monthStart (y m : Nat) : Nat := (List.range (m - 1)).foldl (fun d i => d + daysIn y (i + 1)) 0

def dateYear (w : Word) : Nat := bitsOf w 31 16
def dateMonth (w : Word) : Nat := bitsOf w 15 8
def dateDay (w : Word) : Nat := bitsOf w 7 0
def timeHour (w : Word) : Nat := bitsOf w 20 16
def timeMin (w : Word) : Nat := bitsOf w 13 8
def timeSec (w : Word) : Nat := bitsOf w 5 0

def mkDate (y m d : Nat) : Word := BitVec.ofNat 32 (y * 65536 + m * 256 + d)
def mkTime (h m s : Nat) : Word := BitVec.ofNat 32 (h * 65536 + m * 256 + s)

/-- Is a date possible (R465)? -/
def dateOk (w : Word) : Bool :=
  decide (2000 ≤ dateYear w) && decide (dateYear w ≤ 2399) && decide (1 ≤ dateMonth w) && decide (dateMonth w ≤ 12)
    && decide (1 ≤ dateDay w) && decide (dateDay w ≤ daysIn (dateYear w) (dateMonth w))

/-- Is a time possible (R465)? -/
def timeOk (w : Word) : Bool := decide (timeHour w ≤ 23) && decide (timeMin w ≤ 59) && decide (timeSec w ≤ 59)

/-- Seconds since 2000-01-01 00:00:00. -/
def secOf (d t : Word) : Nat :=
  (yearStart (dateYear d) + monthStart (dateYear d) (dateMonth d) + dateDay d - 1) * 86400 + timeHour t * 3600 + timeMin t * 60 + timeSec t

/-- 2399-12-31 23:59:59, the last second the calendar covers (R464). -/
def lastSec : Nat := yearStart 2400 * 86400 - 1

/-- The date of a second. -/
def dateOf (x : Nat) : Word :=
  let day := x / 86400
  let y := 2000 + ((List.range 400).filter fun k => decide (yearStart (2001 + k) ≤ day)).length
  let r := day - yearStart y
  let m := 1 + ((List.range 12).filter fun k => decide (monthStart y (k + 2) ≤ r)).length
  mkDate y m (r - monthStart y m + 1)

/-- The time of day of a second. -/
def timeOf (x : Nat) : Word := mkTime (x % 86400 / 3600) (x % 3600 / 60) (x % 60)

/-- A date plus a number of months (R470). -/
def addMonths (d : Word) (k : Nat) : Word :=
  let q := dateYear d * 12 + (dateMonth d - 1) + k
  let y := q / 12
  let m := q % 12 + 1
  mkDate y m (min (dateDay d) (daysIn y m))

/-! ### Dates of a calibration record (Table: Calibration record; R470) -/

def recDate (r : List Byte) : Word := recWord r 8
def recInterval (r : List Byte) : Nat := recNat r 5 1
def recDue (r : List Byte) : Word := addMonths (recDate r) (recInterval r)

/-- The first second of the day after the due date (R470). -/
def recExpiry (r : List Byte) : Nat := secOf (recDue r) 0 + 86400

/-! ### Now (R463, R464) -/

def State.upChase (s : State) (f : Chase → Chase) : State := { s with chase := f s.chase }

def srcNone : Nat := 0
def srcPtp : Nat := 1
def srcIsland : Nat := 2

/-- Seconds from the PTP epoch to 2000-01-01 00:00:00 UTC. -/
def epoch2000 : Int := 946684800

/-- UTC from RT, in seconds since 2000, with a leap second inserted or left out under the OFFSET_S still in force (R463, R466). -/
def State.utcNow (s : State) : Int :=
  ((s.rt64 / second : Nat) : Int) - signedOf 16 (s.g REG.UTC_OFFSET_S 0) - epoch2000
    - (if s.chase.leap.2 = s.g REG.UTC_OFFSET_S 0 then s.chase.leap.1 else 0)

/-- What CAL.STAT.SRC should read (R463). -/
def State.calSource (s : State) : Nat :=
  let st := s.g REG.STATE 0
  if s.chaseUp && (st == 2 || st == 4) && !s.on REG.ARB 0 && s.on REG.UTC_VALID 0
      && decide (0 ≤ s.utcNow) && decide (s.utcNow ≤ (lastSec : Int)) then srcPtp
  else if s.chase.islandSet then srcIsland else srcNone

/-- The calendar's second, unless it is not set. -/
def State.calNow (s : State) : Option Nat := if s.chase.islandSet then some s.chase.islandSec else none

/-- DATE, TIME and STAT follow; in an inserted leap second TIME reads 23:59:60 (R464, R466, R467). -/
def State.calShow (s : State) (src : Nat) (leap : Bool) : State :=
  let s := s.put CAL.STAT_SRC 0 src
  let s := (s.put CAL.STAT_SET 0 (b2n s.chase.islandSet)).put CAL.STAT_LEAP 0 (b2n leap)
  let s := s.put CAL.STAT_RANGE_END 0 (b2n (s.chase.islandSet && s.chase.islandSec == lastSec))
  if src = srcNone then (s.put CAL.DATE 0 0).put CAL.TIME 0 0
  else (s.put CAL.DATE 0 (dateOf s.chase.islandSec).toNat).put CAL.TIME 0
    (if leap then (mkTime 23 59 60).toNat else (timeOf s.chase.islandSec).toNat)

/-- A change of SRC: an entry with the calendar before and after, and CAL_SOURCE (R463; log 38). -/
def State.calSourceTold (s : State) (oldSrc : Nat) (oldDate oldTime : Word) : State :=
  let src := s.g CAL.STAT_SRC 0
  if src = oldSrc || !s.chaseUp then s
  else
    (s.logWith 0x043 noLane 0x20 [oldDate, oldTime, s.wd (CAL.DATE.addr 0 0), s.wd (CAL.TIME.addr 0 0), BitVec.ofNat 32 oldSrc,
      BitVec.ofNat 32 src, 0]).raise .cal 3

/-! ### The alarm (R468) -/

/-- The calendar enters a second: the armed alarm fires once. In DORMANT it goes to the night watch. -/
def State.alarmAt (s : State) : State :=
  let d := s.wd (CAL.ALARM_DATE.addr 0 0)
  let t := s.wd (CAL.ALARM_TIME.addr 0 0)
  if s.chase.alarmArmed && s.on CAL.ALARM_TIME_EN 0 && dateOk d && timeOk t && s.calNow == some (secOf d t) then
    let s := s.upChase fun c => { c with alarmArmed := false }
    if s.pwr.mode = .dormant then s.upChase fun c => { c with alarmHit := true } else s.raise .cal 0
  else s

/-! ### Expiry (R249, R250, R471) -/

/-- Is lane n's calibration expired or absent? -/
def State.calDead (s : State) (n : LaneId) : Bool :=
  match s.calNow, s.calRec n with
  | some t, some r => decide (recExpiry r ≤ t)
  | _, _ => true

/-- One lane's evaluation: STAT.EXPIRED, and once the lane is READY its CAL_EXPIRED (R249, R471; log 39). -/
def State.calLane (s : State) (n : LaneId) : State :=
  if !s.fitted n then s
  else
    let dead := s.calDead n
    let old := s.g CAL.STAT_EXPIRED 0
    let s := s.put CAL.STAT_EXPIRED 0 (if dead then old ||| 2 ^ n.val else old &&& (0xFFFF - 2 ^ n.val))
    if s.phase n != phReady || dead == s.on SMU.STAT_CAL_EXPIRED n then s
    else
      let s := s.put SMU.STAT_CAL_EXPIRED n (b2n dead)
      if dead then (s.raise (.lane n .smu) 11).raise .cal 1 else s.logIt 0x025 n.val 0x20

/-- CAL_DUE_SOON, once per record (R471). -/
def State.calDueSoon (s : State) (n : LaneId) : State :=
  match s.calNow, s.calRec n with
  | some t, some r =>
    if s.fitted n && !s.chase.dueTold.getLsbD n.val && decide (t < recExpiry r) && decide (recExpiry r - t < s.g CAL.WARN_DAYS 0 * 86400) then
      State.raise (s.upChase fun c => { c with dueTold := c.dueTold ||| BitVec.twoPow 16 n.val }) .cal 2
    else s
  | _, _ => s

/-- Chase's evaluation of expiry (R471). -/
def State.calEvaluate (s : State) : State :=
  if s.chaseUp then s.forLanes allLanes fun n s => (s.calLane n).calDueSoon n else s

/-! ### Each second (R463 to R468, R471) -/

/-- Is this second the last but `k` of a UTC month? -/
def monthEnds (x k : Nat) : Bool := x % 86400 == 86399 - k && dateDay (dateOf (x + k + 1)) == 1

/-- Does the next second read 23:59:60 (R466)? -/
def State.leapDue (s : State) (src : Nat) : Bool :=
  src == srcPtp && s.g CAL.STAT_SRC 0 == srcPtp && s.on REG.UTC_LEAP61 0 && !s.on CAL.STAT_LEAP 0 && monthEnds s.chase.islandSec 0

/-- A second passes on the calendar. -/
def State.calSecond (s : State) : State :=
  let oldSrc := s.g CAL.STAT_SRC 0
  let oldD := s.wd (CAL.DATE.addr 0 0)
  let oldT := s.wd (CAL.TIME.addr 0 0)
  let src := s.calSource
  let off := s.g REG.UTC_OFFSET_S 0
  if s.leapDue src then
    (s.upChase fun c => { c with leap := (1, off) }).calShow src true
  else
    let s := if src == srcPtp && oldSrc == srcPtp && s.on REG.UTC_LEAP59 0 && monthEnds s.chase.islandSec 1
      then s.upChase fun c => { c with leap := (-1, off) } else s
    let s := if src = srcPtp then s.upChase fun c => { c with islandSet := true, islandSec := s.utcNow.toNat }
      else s.upChase fun c => { c with islandSec := min (c.islandSec + 1) lastSec }
    let s := (s.calShow src false).calSourceTold oldSrc oldD oldT
    (if s.calNow = some (secOf oldD oldT) ∧ oldSrc ≠ srcNone then s else s.alarmAt).calEvaluate

/-- The island's clock runs whenever the island has power (R41). -/
def execCalendarSecond (s : State) : Out := fin (if s.pwr.islandOn then s.calSecond else s)

/-! ### The CAL page (R465, R468) -/

/-- The checks of one CAL word, on the state that the press would leave. -/
def calChk (off : Nat) (v : Word) (s : State) : Option Nat :=
  if off = 0x15 ∧ bitAt v 0 = true then
    if s.g CAL.STAT_SRC 0 = srcPtp then some errRange
    else if dateOk (s.wd (CAL.SET_DATE.addr 0 0)) && timeOk (s.wd (CAL.SET_TIME.addr 0 0)) then none else some errDate
  else if off = 0x17 ∧ bitAt v 31 = true then
    if dateOk (s.wd (CAL.ALARM_DATE.addr 0 0)) && timeOk v then none else some errDate
  else none

/-- SET (R465): the clock is set, the change is logged, the alarm and expiry are evaluated; a SET that moves the calendar backward does
not fire the alarm, whatever second it lands on (R468; log 107). -/
def State.calSet (s : State) (origin : Nat) : State :=
  let oldSrc := s.g CAL.STAT_SRC 0
  let oldD := s.wd (CAL.DATE.addr 0 0)
  let oldT := s.wd (CAL.TIME.addr 0 0)
  let x := secOf (s.wd (CAL.SET_DATE.addr 0 0)) (s.wd (CAL.SET_TIME.addr 0 0))
  let was := s.calNow
  let s := s.upChase fun c => { c with islandSet := true, islandSec := x }
  let s := s.calShow srcIsland false
  let s := s.logWith 0x040 noLane origin [oldD, oldT, s.wd (CAL.DATE.addr 0 0), s.wd (CAL.TIME.addr 0 0), 0, 0, 0]
  let s := s.calSourceTold oldSrc oldD oldT
  let onward := match was with | some t => decide (t < x) | none => true
  (if onward then s.alarmAt else s).calEvaluate

/-- The effect of an accepted CAL word of the writer with holder code `h`. -/
def calEff (h off : Nat) (v proof : Word) (s : State) : State :=
  if off = 0x15 then (if bitAt v 0 then s.calSet h else s)
  else
    let old := s.wd (Page.cal.at_ off)
    let s := storeEff .cal off v proof s
    if off = 0x17 then s.upChase fun c => { c with alarmArmed := bitAt v 31 }
    else if off = 0x18 ∧ bitAt old 0 ≠ bitAt v 0 then s.logIt 0x019 noLane h
    else s

def calPress (w : Writer) (off : Nat) (v : Word) (s : State) : State :=
  pressOne w .cal off v 0 (calChk off v) (calEff w.holder off v 0) s

def execCalSet (w : Writer) (s : State) : Out := fin (calPress w 0x15 1 s)

end Sys2Proof.Machine
end

