-- ==== Sys2Proof/Machine/Flow.lean ====
section
/-! DEFINITION. Branches, calls, returns, traps and waits of the compositor (spec/16_compositor.md R396 to R400, R410;
spec/17_traps_memory_dma.md R414 to R418). -/

namespace Sys2Proof.Machine

/-- The PC becomes the target. -/
def State.jump (s : State) (n : LaneId) (t : Word) : State := s.upEng n fun e => { e with pc := t }

/-! ### Branches and jumps -/

def State.branch (s : State) (n : LaneId) (op rs1 rs2 : Nat) (off : BitVec 16) : State :=
  s.instr n (encI op rs1 rs2 off.toNat) [rs1, rs2] fun s =>
    if branchOf op ((s.eng n).r rs1) ((s.eng n).r rs2) then s.jump n ((s.eng n).pc + disp16 off) else s.nextPc n

def State.jmp (s : State) (n : LaneId) (off : BitVec 26) : State :=
  s.instr n (encJ 0x28 off.toNat) [] fun s => s.jump n ((s.eng n).pc + disp26 off)

/-- The misaligned trap of a target (R398). -/
def State.badTarget (s : State) (n : LaneId) (t : Word) : State :=
  s.syncTrap n ⟨3, (s.eng n).pc, t, mkTinfoAlign false (!(s.eng n).sp.psr.mon)⟩

/-- Is a word a multiple of 4? -/
def aligned4 (t : Word) : Bool := t &&& 3 == 0

def State.jr (s : State) (n : LaneId) (rs1 : Nat) (imm : BitVec 16) : State :=
  s.instr n (encI 0x2A 0 rs1 imm.toNat) [rs1] fun s =>
    let t := (s.eng n).r rs1 + sext16 imm
    if aligned4 t then s.jump n t else s.badTarget n t

/-! ### Calls and windows (R398) -/

/-- The window advances, b0 to b3 pass, k7 takes the return address. -/
def Eng.call (e : Eng) (t : Word) : Eng :=
  let r := e.regs.passDown e.regs.cwp e.regs.next
  { e with regs := { r.wr e.regs.next 19 (e.pc + 4) with cwp := e.regs.next }, pc := t }

/-- A call to `t`: overflow at WRES 11 or 12, then the alignment of the target. After the handler's SPILLW and RTT it executes again with WRES at
10 (R421, R422). -/
def State.callTo (s : State) (n : LaneId) (t : Word) : State :=
  if 11 ≤ (s.eng n).regs.wres then s.syncTrap n ⟨7, (s.eng n).pc, 0, 0⟩
  else if !aligned4 t then s.badTarget n t
  else s.upEng n fun e => e.call t

def State.callw (s : State) (n : LaneId) (off : BitVec 26) : State :=
  s.instr n (encJ 0x29 off.toNat) [] fun s => s.callTo n ((s.eng n).pc + disp26 off)

def State.callwr (s : State) (n : LaneId) (rs1 : Nat) (imm : BitVec 16) : State :=
  s.instr n (encI 0x2B 0 rs1 imm.toNat) [rs1] fun s => s.callTo n ((s.eng n).r rs1 + sext16 imm)

/-- Results pass to the window numbered one lower, which becomes current. -/
def Eng.retw (e : Eng) : Eng :=
  { e with regs := { e.regs.passUp e.regs.cwp e.regs.prev with cwp := e.regs.prev }, pc := e.r 19 }

def State.retw (s : State) (n : LaneId) : State :=
  s.instr n (encJ 0x2C 0) [] fun s =>
    let e := s.eng n
    if e.regs.cwp = e.regs.wold then s.syncTrap n ⟨8, e.pc, 0, 0⟩
    else if !aligned4 (e.r 19) then s.badTarget n (e.r 19)
    else s.upEng n Eng.retw

/-! ### Traps and their return (R415, R418) -/

/-- TRAP: cause 0x0D with EPC behind it. A TRAP that is taken counts as executed (R408). -/
def State.trapInstr (s : State) (n : LaneId) (imm : BitVec 16) : State :=
  if !s.engReady n then s
  else
    let user := !(s.eng n).sp.psr.mon
    (s.syncTrap n ⟨0xD, (s.eng n).pc + 4, zext16 imm, 0⟩).afterInstr n user true

/-- The return proper. -/
def Eng.back (e : Eng) : Eng :=
  { e with regs := { e.regs.passUp e.regs.cwp e.regs.prev with cwp := e.regs.prev }, sp := { e.sp with psr := e.sp.epsr }, pc := e.sp.epc }

/-- A trap taken in place of the return: only CAUSE, TVAL, TINFO and PC change. -/
def Eng.chain (e : Eng) (t : TrapInfo) : Eng :=
  { e with sp := { e.sp with cause := t.cause, tval := t.tval, tinfo := t.tinfo }, pc := e.sp.vector t.cause }

def State.rtt (s : State) (n : LaneId) : State :=
  s.instr n (encR 0x30 0 0 0 0x002) [] fun s =>
    let e := s.eng n
    if !e.sp.psr.mon then s.privTrap n (encR 0x30 0 0 0 0x002)
    else if e.regs.cwp = e.regs.wold then s.halt n 4
    else match s.asyncFor n e.sp.epsr with
      | some (t, irq) =>
        let s := (s.consumeAsync n t.cause irq).upEng n fun e => e.chain t
        (s.put ENG.LAST_TRAP n t.cause).bump ENG.TRAPS n
      | none => s.upEng n Eng.back

/-- A pending asynchronous trap or interrupt is taken at a pre-emption point. -/
def execTrapEntry (n : LaneId) (s : State) : Out := fin (if s.fitted n then s.takeAsync n else s)

/-! ### Waits and breaks (R400, R409, R410) -/

def State.idle (s : State) (n : LaneId) : State :=
  s.instr n (encR 0x30 0 0 0 0x001) [] fun s => s.upEng n fun e => { e with run := .idle, pc := e.pc + 4 }

def State.brk (s : State) (n : LaneId) : State :=
  s.instr n (encR 0x30 0 0 0 0x006) [] fun s =>
    if !(s.eng n).sp.psr.mon && s.on ENG.DBG_ATTACH n then ((s.nextPc n).debugHalt n (s.eng n).stepReq).raise (.lane n .eng) 1
    else s.illegal n (encR 0x30 0 0 0 0x006)

/-- A breakpoint is reached: the engine halts before the instruction (R409, R417). -/
def execBpHit (n : LaneId) (s : State) : Out :=
  let e := s.eng n
  fin (if s.fitted n && e.run == .running && e.qwait.isNone && e.movbUnits == 0 && (s.asyncNow n).isNone && s.bpMatch n then
    (s.debugHalt n false).raise (.lane n .eng) 1 else s)

/-! ### The instructions -/

def execBeq (n : LaneId) (rs1 rs2 : BitVec 5) (off : BitVec 16) (s : State) : Out := fin (s.branch n 0x20 rs1.toNat rs2.toNat off)
def execBne (n : LaneId) (rs1 rs2 : BitVec 5) (off : BitVec 16) (s : State) : Out := fin (s.branch n 0x21 rs1.toNat rs2.toNat off)
def execBlt (n : LaneId) (rs1 rs2 : BitVec 5) (off : BitVec 16) (s : State) : Out := fin (s.branch n 0x22 rs1.toNat rs2.toNat off)
def execBge (n : LaneId) (rs1 rs2 : BitVec 5) (off : BitVec 16) (s : State) : Out := fin (s.branch n 0x23 rs1.toNat rs2.toNat off)
def execBltu (n : LaneId) (rs1 rs2 : BitVec 5) (off : BitVec 16) (s : State) : Out := fin (s.branch n 0x24 rs1.toNat rs2.toNat off)
def execBgeu (n : LaneId) (rs1 rs2 : BitVec 5) (off : BitVec 16) (s : State) : Out := fin (s.branch n 0x25 rs1.toNat rs2.toNat off)
def execJmp (n : LaneId) (off : BitVec 26) (s : State) : Out := fin (s.jmp n off)
def execCallw (n : LaneId) (off : BitVec 26) (s : State) : Out := fin (s.callw n off)
def execJr (n : LaneId) (rs1 : BitVec 5) (imm : BitVec 16) (s : State) : Out := fin (s.jr n rs1.toNat imm)
def execCallwr (n : LaneId) (rs1 : BitVec 5) (imm : BitVec 16) (s : State) : Out := fin (s.callwr n rs1.toNat imm)
def execRetw (n : LaneId) (s : State) : Out := fin (s.retw n)
def execTrap (n : LaneId) (imm : BitVec 16) (s : State) : Out := fin (s.trapInstr n imm)
def execRtt (n : LaneId) (s : State) : Out := fin (s.rtt n)
def execIdle (n : LaneId) (s : State) : Out := fin (s.idle n)
def execBrk (n : LaneId) (s : State) : Out := fin (s.brk n)

end Sys2Proof.Machine
end

