-- ==== Sys2Proof/Machine/Log.lean ====
section
/-! DEFINITION. Keeping and reading the colophon log (spec/18_chase_services.md R472 to R476): the words of an entry, the meter's refill,
erase ahead, the clears, a session's reads, and the LOG page. -/

namespace Sys2Proof.Machine

/-! ### An entry's words (Table: Colophon entry) -/

/-- Words 0 to 14. -/
def LogEntry.words15 (e : LogEntry) : List Word :=
  [BitVec.ofNat 32 (e.rt / 2 ^ 32), BitVec.ofNat 32 e.rt, BitVec.ofNat 32 (e.index / 2 ^ 32), BitVec.ofNat 32 e.index,
   BitVec.ofNat 32 (e.cls * 2 ^ 28 + e.code * 65536 + e.lane % 256 * 256 + e.origin % 256),
   BitVec.ofNat 32 (min e.dropped 0xFFFF * 65536 + e.flags % 65536), e.date, e.time]
  ++ (e.detail ++ List.replicate 7 0).take 7

/-- Words as bytes, most significant first (R481). -/
def wordBytes (ws : List Word) : List Byte := (ws.map fun w => beBytes 4 w.toNat).flatten

/-- All sixteen words. -/
def LogEntry.words (e : LogEntry) : List Word := e.words15 ++ [BitVec.ofNat 32 (crc32 (wordBytes e.words15))]

/-- The entry that an index of a region names, unless it has gone (R476). -/
def State.logFind (s : State) (fault : Bool) (i : Nat) : Option LogEntry :=
  if fault then s.log.fault[i]? else s.log.general.find? fun e => e.index == i

def State.upLog (s : State) (f : Colophon → Colophon) : State := { s with log := f s.log }

/-- The codes that Table: Entry codes and R522 define. -/
def logCode (c : Nat) : Bool :=
  (1 ≤ c && decide (c ≤ 4)) || (0x10 ≤ c && decide (c ≤ 0x19)) || (0x20 ≤ c && decide (c ≤ 0x27)) || (0x30 ≤ c && decide (c ≤ 0x37))
    || (0x40 ≤ c && decide (c ≤ 0x43)) || (0x50 ≤ c && decide (c ≤ 0x52)) || (0x60 ≤ c && decide (c ≤ 0x63))

/-- An entry is offered (R472 to R474). -/
def execLogEntry (code : BitVec 12) (lane origin : Byte) (detail : List Word) (s : State) : Out :=
  fin (if s.chaseUp && logCode code.toNat then s.logWith code.toNat lane.toNat origin.toNat detail else s)

/-! ### The meter (R474) -/

def bucketMax : Nat := 1200

/-- Ticks between two refills: 20 tokens a second. -/
def tokenTicks : Nat := 50 * msTicks

def execTokenRefill (s : State) : Out :=
  fin (if s.chaseUp && decide (s.log.bucketAt + tokenTicks ≤ s.clock) then
    State.put { s with log := { s.log with bucketAt := s.log.bucketAt + tokenTicks } } LOG.BUCKET 0 (min (s.g LOG.BUCKET 0 + 1) bucketMax) else s)

/-! ### Erase ahead (R475) -/

/-- The sector that is erased next. -/
def Colophon.nextSector (l : Colophon) : Nat := ((l.pos + sectorEntries - 1) / sectorEntries + l.ahead) % generalSectors

/-- A sector is erased once more; ERASE_MAX follows. Sectors of the fault region count on from those of the general one. -/
def State.sectorErased (s : State) (sec : Nat) : State :=
  let c := sget (fun _ => 0) s.log.erases sec + 1
  let s := s.upLog fun l => { l with erases := sset (fun _ => 0) l.erases sec c }
  s.put LOG.ERASE_MAX 0 (max (s.g LOG.ERASE_MAX 0) c)

/-- The erase in progress starts, or goes on (`granted`: unsuspended). -/
def State.eraseRuns (s : State) (granted : Bool) : State :=
  (s.put LOG.STAT_ERASING 0 1).upLog fun l => { l with granted := granted || l.granted }

def execLogEraseStart (s : State) : Out :=
  fin (if s.chaseUp && s.on LOG.STAT_WEAR_DUE 0 then s.eraseRuns false else s)

/-- Entries that waited are written, while the writer has a place (R475). -/
def State.drainBuffer (s : State) : Nat → State
  | 0 => s
  | k + 1 =>
    match s.log.buffer with
    | [] => s
    | e :: r =>
      if s.writerReady then State.drainBuffer ((s.upLog fun l => { l with buffer := r }).writeGeneral e) k else s

/-- The notice of the log's background work in MOD.BG (R510). -/
def State.bgLog (s : State) (on : Bool) : State :=
  let was := s.on MOD.BG_LOG_WEAR 0
  let s := s.put MOD.BG_LOG_WEAR 0 (b2n on)
  if on && !was then s.raiseMod 7 else s

def execLogEraseComplete (s : State) : Out :=
  fin (if s.chaseUp && s.on LOG.STAT_ERASING 0 then
    let s := s.sectorErased s.log.nextSector
    let s := s.upLog fun l => { l with ahead := l.ahead + 1, granted := false }
    let s := ((s.put LOG.STAT_ERASING 0 0).put LOG.STAT_WEAR_DUE 0 0).bgLog false
    s.drainBuffer s.log.buffer.length
  else s)

/-- An erase has been due for at least this many milliseconds. -/
def State.wearFor (s : State) (ms : Nat) : Bool := s.chaseUp && s.on LOG.STAT_WEAR_DUE 0 && decide (s.log.dueAt + ms * msTicks ≤ s.clock)

/-- The notice, 1 s before the erase has been due for 5 s. -/
def execWearNotice (s : State) : Out := fin (if s.wearFor 4000 && !s.on MOD.BG_LOG_WEAR 0 then (s.bgLog true).raise .log 4 else s)

/-- At 5 s due the erase runs unsuspended; the first entry after it carries BACKGROUND_PREEMPTED. -/
def execWearForced (s : State) : Out :=
  fin (if s.wearFor 5000 && !s.log.granted then
    ((s.eraseRuns true).upLog fun l => { l with preempted := true }).bump LOG.WEAR_PREEMPTS 0 else s)

/-! ### The clears (R473, R474) -/

/-- Every sector of a list is erased. -/
def State.sectorsErased (s : State) (l : List Nat) : State := l.foldl (fun s i => s.sectorErased i) s

/-- A clear holds the flash for a time that the spec bounds at 4 s for the fault region and does not state (log 125). -/
def State.flashHeld (s : State) : State :=
  { s with freeCtr := s.freeCtr + 1, log := { s.log with clearTo := s.clock + min (Config.free s.freeCtr).toNat (4000 * msTicks) } }

/-- Is the flash held by a clear? -/
def State.flashBusy (s : State) : Bool := decide (s.clock < s.log.clearTo)

def State.clearFault (s : State) (origin : Nat) : State :=
  let s := s.logIt 0x017 noLane origin
  let k := (s.log.fault.length + sectorEntries - 1) / sectorEntries
  let s := s.sectorsErased ((List.range k).map (generalSectors + ·))
  let s := s.upLog fun l => { l with fault := [], faultFullTold := false }
  ((s.put LOG.STAT_FAULT_COUNT 0 0).put LOG.STAT_FAULT_FULL 0 0).flashHeld

/-- The general region is emptied: every sector that is not erased is erased, and the writer starts a sector. -/
def State.clearGeneral (s : State) : State :=
  let first := s.log.nextSector
  let s := s.sectorsErased ((List.range (generalSectors - s.log.ahead)).map fun i => (first + i) % generalSectors)
  let s := s.upLog fun l =>
    { l with general := [], fullTold := false, granted := false, ahead := generalSectors,
             pos := (l.pos + sectorEntries - 1) / sectorEntries * sectorEntries % (generalSectors * sectorEntries) }
  let s := (((s.put LOG.STAT_GEN_FULL 0 0).put LOG.STAT_WEAR_DUE 0 0).put LOG.STAT_ERASING 0 0).bgLog false
  (s.drainBuffer s.log.buffer.length).flashHeld

/-! ### The LOG page (R476) -/

def State.logRead (s : State) (k : SessId) : LogRead := s.chase.reads[k]
def State.upRead (s : State) (k : SessId) (f : LogRead → LogRead) : State := s.upChase fun c => { c with reads := c.reads.set k (f (s.logRead k)) }

/-- Does a writer hold a bit of SERVICES? S0 holds all (R139, R141). -/
def State.service (s : State) (w : Writer) (bit : Nat) : Bool :=
  match w with
  | .host k => k == 0 || bitAt (s.wd (SESS.SERVICES.addr 0 k.val)) bit
  | _ => true

/-- The checks of one LOG word. -/
def logChk (w : Writer) (off : Nat) (v : Word) (s : State) : Option Nat :=
  if off = 0x11 ∧ bitsOf v 1 0 ≠ 0 then
    if s.on LOG.STAT_FROZEN 0 then some errRights else if bitsOf v 31 16 ≠ 0x5AA5 then some errRange else none
  else if 0x20 ≤ off ∧ off ≤ 0x22 ∧ s.service w 3 = false then some errRights
  else none

/-- The effect of an accepted LOG word. -/
def logEff (w : Writer) (off : Nat) (v proof : Word) (s : State) : State :=
  if off = 0x11 then
    let s := if bitAt v 4 && s.on LOG.STAT_WEAR_DUE 0 then s.eraseRuns true else s
    let s := if bitAt v 0 then s.clearFault w.holder else s
    if bitAt v 1 then s.clearGeneral else s
  else match w with
    | .host k =>
      if off = 0x20 then s.upRead k fun r => { r with fault := bitAt v 31 }
      else if off = 0x21 then s.upRead k fun r => { r with hi := v }
      else if off = 0x22 then s.upRead k fun r => { r with lo := v, fetching := true, ready := false, gone := false }
      else storeEff .log off v proof s
    | _ => storeEff .log off v proof s

def logPress (w : Writer) (off : Nat) (v : Word) (s : State) : State := pressOne w .log off v 0 (logChk w off v) (logEff w off v 0) s

def execWearGrant (w : Writer) (s : State) : Out := fin (logPress w 0x11 0x10 s)
def execClearFault (w : Writer) (key : BitVec 16) (s : State) : Out := fin (logPress w 0x11 (BitVec.ofNat 32 (key.toNat * 65536 + 1)) s)
def execClearGeneral (w : Writer) (key : BitVec 16) (s : State) : Out := fin (logPress w 0x11 (BitVec.ofNat 32 (key.toNat * 65536 + 2)) s)
def execLogFetch (k : SessId) (v : Word) (s : State) : Out := fin (logPress (.host k) 0x22 v s)

def execLogFetchComplete (k : SessId) (s : State) : Out :=
  fin (if (s.logRead k).fetching && s.chaseUp then
    match s.logFind (s.logRead k).fault ((s.logRead k).hi.toNat * 2 ^ 32 + (s.logRead k).lo.toNat) with
    | some e => s.upRead k fun r => { r with fetching := false, ready := true, entry := e.words }
    | none => s.upRead k fun r => { r with fetching := false, gone := true }
  else s)

end Sys2Proof.Machine
end

