-- ==== Sys2Proof/Machine/Fix.lean ====
section
/-! DEFINITION. The fixture controller (spec/19_two_wire_ports.md R494 to R499; spec/02_connectors_supplies_isolation.md R35): operations,
attempts under a deadline, the fixture record, and the FIX page. -/

namespace Sys2Proof.Machine

/-! ### Outcomes and operations -/

def fxOk : Nat := 0
def fxNakAddr : Nat := 1
def fxNakData : Nat := 2
def fxWriteCycle : Nat := 3
def fxAborted : Nat := 4
def fxStuck : Nat := 5
def fxStretch : Nat := 6
def fxNone : Nat := 7
def fxRecBad : Nat := 8

def opRead : Nat := 1
def opWrite : Nat := 2
def opProbe : Nat := 3
def opClear : Nat := 4
def opRecord : Nat := 5

/-! ### Time budget (R497) -/

/-- Bytes that an attempt places on the bus. -/
def State.fixBytes (s : State) (op count : Nat) : Nat :=
  let a := if s.on FIX.CFG_ADDR16 0 then 2 else 1
  if op = opRead then 2 + a + count else if op = opWrite then 1 + a + count else if op = opRecord then 258 + a else 1

/-- T_att in half microseconds. -/
def State.fixAttempt (s : State) (op count : Nat) : Nat :=
  (9 * s.fixBytes op count + 3) * (if s.on FIX.CFG_SPEED 0 then 5 else 20) + 4000
    + (if op = opWrite then 2000 * s.g FIX.CFG_WRITE_CYCLE_MS 0 else 0)

/-- The attempts do not fit into 0.9 of TIMEOUT_MS. -/
def State.fixOver (s : State) (op count : Nat) : Bool :=
  op != opClear && decide (9 * 2000 * s.g FIX.TIMEOUT_MS 0 < 10 * (s.fixAttempt op count * (s.g FIX.CFG_RETRY 0 + 1)))

/-- WORST_US after a check. -/
def State.fixWorst (s : State) (op count : Nat) : State :=
  if op = opClear then s else s.put FIX.WORST_US 0 ((s.fixAttempt op count + 1) / 2)

/-! ### An operation starts and ends -/

def State.upFix (s : State) (f : Fix → Fix) : State := { s with fix := f s.fix }

def State.fixStart (s : State) (x : FixOp) : State :=
  let s := (s.upFix fun f => { f with busy := some { x with at_ := s.clock } }).bump FIX.OPS 0
  (s.setWd (FIX.STAT_STATE.addr 0 0) 0).put FIX.STAT_STATE 0 1

/-- The automatic read starts, once nothing is busy, unless the budget forbids it (R497, R499). -/
def State.fixKick (s : State) : State :=
  if s.fix.autoDue && s.fix.busy.isNone && s.awake then
    let s := (s.upFix fun f => { f with autoDue := false }).fixWorst opRecord 256
    if s.on FIX.PRESENT 0 && !s.fixOver opRecord 256 then s.fixStart ⟨opRecord, 256, 0, true, 0⟩ else s
  else s

/-- An automatic read falls due (R499). -/
def State.fixAuto (s : State) : State :=
  if s.on FIX.CFG_AUTO_READ 0 && s.on FIX.PRESENT 0 then (s.upFix fun f => { f with autoDue := true }).fixKick else s

/-- DONE with an outcome: FIX_DONE, and of a READ_RECORD the outcome and RECORD. -/
def State.fixDone (s : State) (code : Nat) : State :=
  match s.fix.busy with
  | none => s
  | some x =>
    let s := ((s.upFix fun f => { f with busy := none }).put FIX.STAT_STATE 0 2).put FIX.STAT_OUTCOME 0 code
    let s := s.raise .fix 0
    let s := if x.op = opRecord then (s.put FIX.REC_OUTCOME 0 code).raise .fix 1 else s
    s.fixKick

/-! ### The record (R499) -/

/-- Bytes into words from an offset of the FIX page, most significant byte first. -/
def State.fixStore (s : State) (off : Nat) (bs : List Byte) : State :=
  (bs.zip (List.range bs.length)).foldl (fun s e =>
    let a := Page.fix.at_ (off + e.2 / 4)
    s.setWd a (withBits (s.wd a) (31 - 8 * (e.2 % 4)) (24 - 8 * (e.2 % 4)) e.1.toNat)) s

/-- Is the record good? -/
def fixRecOk (r : List Byte) : Bool :=
  let z : Nat → Nat → Bool := fun o k => ((r.drop o).take k).all fun b => b == 0
  r.length == 256 && beNat (r.take 4) == 0x46585231 && beNat ((r.drop 4).take 2) == 1 && beNat ((r.drop 6).take 2) == 0x100
    && z 0x10 2 && z 0x14 2 && z 0x21 3 && z 0x2C 4 && z 0xF0 12 && beNat ((r.drop 0xFC).take 4) == crc32 (r.take 0xFC)

/-- A record has been read. -/
def State.fixRecord (s : State) (bs : List Byte) : State :=
  let r := (bs ++ List.replicate 256 0).take 256
  let ok := fixRecOk r
  ((s.fixStore 0x80 r).put FIX.REC_VALID 0 (b2n ok)).fixDone (if ok then fxOk else fxRecBad)

/-! ### Attempts (R496, R498) -/

/-- A failed attempt: again while RETRY allows it, else its outcome. -/
def State.fixFail (s : State) (code : Nat) : State :=
  if s.g FIX.STAT_ATTEMPTS 0 ≤ s.g FIX.CFG_RETRY 0 then s.bump FIX.RETRIES 0 else s.fixDone code

/-- The outcome after the last attempt lost arbitration, for which the spec gives no code: a free value (log 40). -/
def State.fixLost (s : State) : State :=
  if s.g FIX.STAT_ATTEMPTS 0 ≤ s.g FIX.CFG_RETRY 0 then s.bump FIX.RETRIES 0
  else
    let (v, s) := s.fresh
    s.fixDone (bitsOf v 7 0)

/-- The bus stays stuck. -/
def State.fixStuck (s : State) : State := ((s.bump FIX.BUS_STUCKS 0).raise .fix 2).fixDone fxStuck

/-- Bus clears that an ended attempt made. -/
def fixClears : FixEnd → Nat
  | .good _ c | .nakAddr c | .nakData c | .writeCycle c | .stretch c | .lost c | .stuck c => c
  | .gone => 0

/-- The end of one attempt of the operation in progress. -/
def State.fixEnd (s : State) (x : FixOp) (r : FixEnd) : State :=
  let s := (s.bump FIX.BUS_CLEARS 0 0 (fixClears r)).put FIX.STAT_ATTEMPTS 0 (min (s.g FIX.STAT_ATTEMPTS 0 + 1) 255)
  if s.on MOD.SUPPLY_FX_FAULT 0 then s.fixDone fxNone
  else match r with
  | .good bs _ =>
    if x.op = opRecord then s.fixRecord bs
    else if x.op = opRead then (s.fixStore 0x40 ((bs ++ List.replicate x.count 0).take x.count)).fixDone fxOk
    else s.fixDone fxOk
  | .nakAddr _ => (s.bump FIX.NAKS 0).fixFail fxNakAddr
  | .nakData _ => (s.bump FIX.NAKS 0).fixFail fxNakData
  | .writeCycle _ => s.fixDone fxWriteCycle
  | .stretch _ => s.fixFail fxStretch
  | .lost _ => s.fixLost
  | .stuck _ => s.fixStuck
  | .gone => s.fixDone fxNone

/-- Can this operation's attempt end so? A bus clear sends no byte, and only a WRITE sends data and polls. -/
def FixOp.ends (x : FixOp) : FixEnd → Bool
  | .nakAddr _ | .stretch _ | .lost _ => x.op != opClear
  | .nakData _ | .writeCycle _ => x.op == opWrite
  | _ => true

def execFixAttemptEnd (r : FixEnd) (s : State) : Out :=
  fin (match s.fix.busy with
    | some x => if s.awake && x.ends r then s.fixEnd x r else s
    | none => s)

/-- An operation is past its deadline, TIMEOUT_MS after the GO. -/
def State.fixLate (s : State) : Bool :=
  match s.fix.busy with | some x => decide (x.at_ + s.g FIX.TIMEOUT_MS 0 * msTicks ≤ s.clock) | none => false

/-- The deadline: LOWER_ABORTED; an attempt whose last byte ends there good is discarded (R496). -/
def execFixDeadline (lastGood : Bool) (s : State) : Out :=
  fin (if s.fixLate && s.awake then
    let s := if lastGood then s.bump FIX.LATE_DISCARD 0 else s
    (s.bump FIX.LOWER_ABORTED 0).fixDone fxAborted
  else s)

/-! ### The FIX page (R495, R497) -/

/-- A field of a GO word is out of range. -/
def State.fixGoBad (s : State) (v : Word) : Bool :=
  let op := bitsOf v 26 24
  let count := bitsOf v 23 16
  let mem := bitsOf v 15 0
  let page := 8 * 2 ^ s.g FIX.CFG_PAGE 0
  decide (op = 0 ∨ 5 < op) || (op != opRead && op != opWrite && (count != 0 || mem != 0))
    || (op == opWrite && decide (page < mem % page + count + 1)) || (!s.on FIX.CFG_ADDR16 0 && decide (255 < mem))

/-- The checks of one FIX word, on the state that the press would leave. -/
def fixChk (off : Nat) (v : Word) (s : State) : Option Nat :=
  let busy := s.fix.busy.isSome
  if off = 0x10 then
    if busy || s.g FIX.CFG_WRITE_CYCLE_MS 0 == 0 || decide (20 < s.g FIX.CFG_WRITE_CYCLE_MS 0) then some errRange else none
  else if off = 0x12 then
    if busy || s.g FIX.TIMEOUT_MS 0 == 0 || decide (1000 < s.g FIX.TIMEOUT_MS 0) then some errRange else none
  else if 0x40 ≤ off ∧ off ≤ 0x7F then (if busy then some errRange else none)
  else if off = 0x11 ∧ bitAt v 31 = true then
    if busy || s.fixGoBad v then some errRange
    else if !s.on FIX.PRESENT 0 then some errAbsent
    else if s.fixOver (bitsOf v 26 24) (bitsOf v 23 16 + 1) then some errBudget
    else none
  else none

/-- The effect of an accepted FIX word. -/
def fixEff (off : Nat) (v proof : Word) (s : State) : State :=
  if off = 0x11 then
    (if bitAt v 31 then (s.fixWorst (bitsOf v 26 24) (bitsOf v 23 16 + 1)).fixStart ⟨bitsOf v 26 24, bitsOf v 23 16 + 1, bitsOf v 15 0, false, 0⟩ else s)
  else storeEff .fix off v proof s

/-- A refused GO shows what its check found, where the check was made. -/
def fixTold (w : Writer) (v : Word) (s : State) : State :=
  if s.writable w .fix 0x11 && bitAt v 31 && fixChk 0x11 v s == some errBudget then s.fixWorst (bitsOf v 26 24) (bitsOf v 23 16 + 1) else s

def fixPress (w : Writer) (off : Nat) (v : Word) (s : State) : State :=
  pressOne w .fix off v 0 (fixChk off v) (fixEff off v 0) (if off = 0x11 then fixTold w v s else s)

/-- A GO of the operation that the row names; a word whose OP names another is another row. -/
def fixGo (op : Nat) (w : Writer) (v : Word) (s : State) : State := if bitsOf v 26 24 = op then fixPress w 0x11 v s else s

def execFixRead (w : Writer) (v : Word) (s : State) : Out := fin (fixGo opRead w v s)
def execFixWrite (w : Writer) (v : Word) (s : State) : Out := fin (fixGo opWrite w v s)
def execFixProbe (w : Writer) (v : Word) (s : State) : Out := fin (fixGo opProbe w v s)
def execFixBusClear (w : Writer) (v : Word) (s : State) : Out := fin (fixGo opClear w v s)
def execFixReadRecord (w : Writer) (v : Word) (s : State) : Out := fin (fixGo opRecord w v s)

/-! ### The pins of J5 (R35) -/

/-- FX_3V3 is on, so FX_PRESENT# can be read: RUN, QUIET and module reset. -/
def State.fxOn (s : State) : Bool := s.awake || s.pwr.mode == .inReset

/-- The debounced level of FX_PRESENT# is another. -/
def execFxPresentChange (on : Bool) (s : State) : Out :=
  fin (if !s.fxOn || on == s.on FIX.PRESENT 0 then s
  else
    let s := (s.put FIX.PRESENT 0 (b2n on)).put MOD.SUPPLY_FX_PRESENT 0 (b2n on)
    if !s.awake then s
    else
      let s := s.raiseMod 5
      if on then s.fixAuto
      else ((s.put FIX.REC_VALID 0 0).fixStore 0x80 (List.replicate 256 0)).fixDone fxNone)

/-- FX_3V3 enters or leaves current limit. -/
def execFxCurrentLimit (on : Bool) (s : State) : Out :=
  fin (if s.fxOn && on != s.on MOD.SUPPLY_FX_FAULT 0 then
    let s := s.put MOD.SUPPLY_FX_FAULT 0 (b2n on)
    let s := if s.awake then s.raiseMod 5 else s
    if on then s.fixDone fxNone else s
  else s)

end Sys2Proof.Machine
end

