-- ==== Sys2Proof/Machine/Grant.lean ====
section
/-! DEFINITION. Frisket grants and their ceilings (spec/18_chase_services.md R458 to R462): making, lowering and ending a grant, and what
follows from it in the lane's HV cycle (R237). -/

namespace Sys2Proof.Machine

/-- The hardware maximum of VMAX, IMAX, EMAX: 1,000 V, 200 mA, 3,600 J (R458). -/
def hwMax : Frisket := ⟨0x447A0000, 0x3E4CCCCD, 0x45610000⟩

/-- A value that R458 and R460 refuse: NaN, not above 0, or above the hardware maximum. -/
def limitBad (v hw : Word) : Bool := !f32Lt 0 v || f32Lt hw v

/-- A lane's ceiling. -/
def State.ceiling (s : State) (n : LaneId) : Frisket :=
  ⟨s.wd (CHASE.CEIL_VMAX.addr 0 n.val), s.wd (CHASE.CEIL_IMAX.addr 0 n.val), s.wd (CHASE.CEIL_EMAX.addr 0 n.val)⟩

/-- FRISKET_END of a grant that is no more: the event, the entry, and R237 (R462). -/
def State.grantGone (s : State) (h : Nat) (n : LaneId) : State :=
  (((s.raise .chase 1).logIt 0x023 n.val h).friskEnded h n)

/-- Is this the grant of an engine that follows session `h`'s grant on lane `n` (R461)? -/
def Grant.follows (g : Grant) (h n : Nat) : Bool := g.parent == some h && g.lane == n

/-- The grant of `h` on lane `n` ends, and with it every grant that follows it (R461, R462). -/
def State.endGrant (s : State) (h : Nat) (n : LaneId) : State :=
  if (s.grantOf h n.val).isNone then s
  else
    let kids := s.grants.filter fun g => g.follows h n.val
    let s := { s with grants := s.grants.filter fun g => !(g.holder == h && g.lane == n.val) && !g.follows h n.val }
    kids.foldl (fun s g => s.grantGone g.holder n) (s.grantGone h n)

/-- Every grant of lane `n` that `pick` names is lowered to `f`; a cycle started under one of them follows (R237, R459, R461). -/
def State.lowerGrants (s : State) (n : LaneId) (f : Frisket) (pick : Grant → Bool) : State :=
  let hit : Grant → Bool := fun g => g.lane == n.val && pick g
  let low : Grant → Grant := fun g =>
    let m := Frisket.min ⟨g.vmax, g.imax, g.emax⟩ f
    { g with vmax := m.v, imax := m.i, emax := m.e }
  let hs := (s.grants.filter hit).map (·.holder)
  let s := { s with grants := s.grants.map fun g => if hit g then low g else g }
  hs.foldl (fun s h => s.friskLowered h n) s

/-- A grant replaces the holder's grant on the lane; what follows it is lowered to it (R460, R461). -/
def State.setGrant (s : State) (h : Nat) (n : LaneId) (f : Frisket) (secs : Nat) (parent : Option Nat) : State :=
  let g : Grant := ⟨h, n.val, f.v, f.i, f.e, if secs = 0 then none else some (s.clock + secs * 1000 * msTicks), parent⟩
  let s := { s with grants := g :: s.grants.filter fun x => !(x.holder == h && x.lane == n.val) }
  let s := s.logWith 0x022 n.val h [f.v, f.i, f.e, BitVec.ofNat 32 secs, 0, 0, 0]
  (s.friskLowered h n).lowerGrants n f fun x => x.follows h n.val

/-- Every grant of a holder ends. -/
def State.endGrantsOf (s : State) (h : Nat) : State := s.forLanes allLanes fun n s => s.endGrant h n

/-- The time of a grant has run out at this tick. -/
def Grant.over (g : Grant) (now : Nat) : Bool := match g.endAt with | some t => decide (t ≤ now) | none => false

/-- The whole seconds that a grant has left, as GRANT_REMAIN_S shows them: those that have begun. -/
def Grant.left (g : Grant) (now : Nat) : Option Nat := g.endAt.map fun t => (t - now + 1000 * msTicks - 1) / (1000 * msTicks)

def execGrantExpiry (h : Nat) (n : LaneId) (s : State) : Out :=
  fin (match s.grantOf h n.val with
    | some g => if g.over s.clock then s.endGrant h n else s
    | none => s)

/-! ### Ceilings (R458, R459) -/

/-- The check of a ceiling word; `i` is 0 VMAX, 1 IMAX, 2 EMAX. -/
def ceilChk (i : Nat) (v : Word) : Option Nat :=
  if limitBad v (if i = 0 then hwMax.v else if i = 1 then hwMax.i else hwMax.e) then some errRange else none

/-- A ceiling is stored, and every grant on the lane is lowered to it. -/
def ceilEff (n : LaneId) (off : Nat) (v proof : Word) (s : State) : State :=
  let s := storeEff .chase off v proof s
  s.lowerGrants n (s.ceiling n) fun _ => true

def execCeilingWrite (w : Writer) (n : LaneId) (i : Fin 3) (v : Word) (s : State) : Out :=
  let off := 0x60 + 4 * n.val + i.val
  fin (pressOne w .chase off v 0 (fun _ => ceilChk i.val v) (ceilEff n off v 0) s)

end Sys2Proof.Machine
end

