-- ==== Sys2Proof/Machine/Quoin.lean ====
section
/-! DEFINITION. Quoins (spec/06_sessions_and_quoins.md R142 to R153): take, give, clear, draw, break, waits, hold limits and ranks. -/

namespace Sys2Proof.Machine

/-! ### Outcome codes (Table: Quoin outcomes) -/

def qTaken : Nat := 1
def qTakenBroken : Nat := 2
def qGiven : Nat := 3
def qCleared : Nat := 4
def qBusy : Nat := 5
def qOrder : Nat := 6
def qNotHolder : Nat := 7
def qAlreadyHeld : Nat := 8
def qRights : Nat := 9
def qGenMismatch : Nat := 0xA
def qAbsent : Nat := 0xB
def qTimeout : Nat := 0xC
def qDrawn : Nat := 0xD
def qWaitCancelled : Nat := 0xE
def qNoWait : Nat := 0xF

/-- No holder (R124). -/
def noHolder : Nat := 0x7F

/-! ### Access -/

def State.quoin (s : State) (q : Nat) : Quoin := s.quoins[q]?.getD (Quoin.resetAt 0)
def State.setQuoin (s : State) (q : Nat) (x : Quoin) : State := { s with quoins := s.quoins.setIfInBounds q x }

/-- The lane of a lane quoin. -/
def quoinLane (q : Nat) : Option Nat := if q < 32 then none else some ((q - 32) / 4)

/-- A quoin of a lane that a TH8 does not have (R142). -/
def State.quoinAbsent (s : State) (q : Nat) : Bool := decide (96 ≤ q) || (s.th8 && decide (0x40 ≤ q))

/-- The quoins a holder holds. -/
def State.heldBy (s : State) (h : Nat) : List Nat := (List.range 96).filter fun q => (s.quoin q).holder == h

/-- Is the rank of `q` not strictly above every rank the requester holds (R145)? -/
def State.outOfOrder (s : State) (h q : Nat) : Bool := (s.heldBy h).any fun x => decide ((s.quoin q).rank ≤ (s.quoin x).rank)

/-! ### Taking (R145, R148, R151) -/

/-- What a TAKE of requester `h` answers, and the quoin's new state. -/
def State.takeQuoin (s : State) (h q : Nat) : Nat × State :=
  if s.quoinAbsent q then (qAbsent, s)
  else if !s.quoinRight h q then (qRights, s)
  else if (s.quoin q).holder = h then (qAlreadyHeld, s)
  else if s.outOfOrder h q then (qOrder, (s.bump QUOIN.ORDER_REFUSALS 0).raise .quoin 3)
  else if (s.quoin q).holder = noHolder then
    let x := s.quoin q
    (if x.broken then qTakenBroken else qTaken,
     s.setQuoin q { x with holder := h, since := s.clock, lastLane := if 0x10 ≤ h ∧ h < 0x20 then h - 0x10 else x.lastLane })
  else (qBusy, s)

/-- The word that TAKEQ, GIVEQ and CLRQ write to rd (R401), and QUOIN.RESULT in another order of fields (R144). -/
def State.engQuoinWord (s : State) (code q : Nat) : Word := BitVec.ofNat 32 ((s.quoin q).gen * 65536 + q * 256 + code)

/-- The TAKEQ in its wait completes with an outcome: rd, PC, QW (R147, R401). -/
def State.endWait (s : State) (n : LaneId) (code : Nat) : State :=
  match (s.eng n).qwait with
  | none => s
  | some w =>
    let v := s.engQuoinWord code w.quoin
    let s := s.upEng n fun e => { (e.w w.rd v) with qwait := none, pc := e.pc + 4, sp := { e.sp with psr := { e.sp.psr with qw := false } } }
    s.afterInstr n (!(s.eng n).sp.psr.mon)

/-- The lanes in rotating order, starting after the lane that last held the quoin (R148). -/
def rotation (last : Nat) : List LaneId :=
  (List.range 16).map fun i => ⟨(last + 1 + i) % 16, Nat.mod_lt _ (by decide)⟩

/-- One waiting engine tries the quoin again. -/
def State.retryWait (s : State) (n : LaneId) (q : Nat) : State :=
  match (s.eng n).qwait with
  | none => s
  | some w =>
    if w.quoin ≠ q ∨ (s.quoin q).holder ≠ noHolder then s
    else
      let (c, s') := s.takeQuoin (0x10 + n.val) q
      if c = qTaken ∨ c = qTakenBroken then s'.endWait n c else s

/-- RELEASED bits of the sessions that wait for `q`, whose waits end (R146). -/
def State.endWaits (s : State) (q : Nat) : State :=
  let waiting := allSess.filter fun k => (s.session k).wait == some q
  let s := waiting.foldl (fun s k => s.upSess k fun x =>
    { x with wait := none, released := x.released ||| BitVec.ofNat 96 (2 ^ q) }) s
  let s := if waiting.any fun k => s.forme.started.any fun t => t.h.session == k then s.strike (Page.quoin.at_ (0x16 + q / 32)) (bitMask (q % 32) (q % 32)) else s
  if waiting.isEmpty then s else s.raise .quoin 0

/-- A quoin has become free: registered waits end, then waiting engines try it in rotating order (R146 to R148). -/
def State.engsRetry (s : State) (q : Nat) : State := (rotation (s.quoin q).lastLane).foldl (fun s n => s.retryWait n q) s

def State.freed (s : State) (q : Nat) : State := (s.endWaits q).engsRetry q

/-! ### Giving and clearing (R149, R151) -/

def State.giveQuoin (s : State) (h q : Nat) (gen : Option Nat) : Nat × State :=
  if s.quoinAbsent q then (qAbsent, s)
  else if (s.quoin q).holder ≠ h then (qNotHolder, s)
  else if gen.isSome ∧ gen ≠ some (s.quoin q).gen then (qGenMismatch, s)
  else (qGiven, (s.setQuoin q { s.quoin q with holder := noHolder }).freed q)

def State.clearQuoin (s : State) (h q : Nat) (gen : Option Nat) : Nat × State :=
  if s.quoinAbsent q then (qAbsent, s)
  else if (s.quoin q).holder ≠ h then (qNotHolder, s)
  else if gen.isSome ∧ gen ≠ some (s.quoin q).gen then (qGenMismatch, s)
  else (qCleared, s.setQuoin q { s.quoin q with broken := false })

/-! ### Breaking and drawing (R150, R152) -/

/-- The quoins of a list break together: released, BROKEN, generation + 1; then BROKEN is raised and the registered waits end. Engines
that wait have not tried them yet: a press that breaks quoins may take one first (R148). -/
def State.breakOnly (s : State) (qs : List Nat) : State :=
  let s := qs.foldl (fun s q => s.setQuoin q
    { s.quoin q with holder := noHolder, broken := true, gen := ((s.quoin q).gen + 1) % 65536 }) s
  let s := if qs.isEmpty then s else s.raise .quoin 1
  qs.foldl (fun s q => s.endWaits q) s

/-- The same, and the waiting engines try them. -/
def State.breakQuoins (s : State) (qs : List Nat) : State := qs.foldl (fun s q => s.engsRetry q) (s.breakOnly qs)

/-- Waiting engines try the quoins that have become free since `old` and that no press has taken (R147, R148). -/
def State.retryFreed (old s : State) : State :=
  ((List.range 96).filter fun q => (old.quoin q).holder != noHolder && (s.quoin q).holder == noHolder).foldl (fun s q => s.engsRetry q) s

/-- A held quoin is drawn, by the steward or by its hold limit. -/
def State.drawQuoin (s : State) (q origin : Nat) : State :=
  let old := (s.quoin q).holder
  let s := s.setWd (QUOIN.LD_QUOIN.addr 0 0) (BitVec.ofNat 32 (((s.quoin q).gen + 1) % 65536 * 65536 + old * 256 + q))
  let s := (s.bump QUOIN.DRAWS 0).logIt 0x016 ((quoinLane q).getD noLane) origin
  (s.raise .quoin 2).breakQuoins [q]

/-! ### QUOIN.OP (R144, R146) -/

/-- The configuration code of a quoin operation that R144 calls refused. -/
def quoinRefusal (code : Nat) : Option Nat :=
  if code = qOrder then some errOrder else if code = qRights then some errRights else none

/-- What an outcome of a session's or an engine's operation leaves in QUOIN.PG_ERR (R144; log 10). -/
def State.quoinErr (s : State) (w : Writer) (code : Nat) : State :=
  match quoinRefusal code with | some c => s.recordErr w .quoin 0x10 c false | none => s

/-- The operation of a session or of Chase, and its outcome code. Chase never waits (R154). -/
def State.sessionQuoin (s : State) (h : Nat) (v : Word) : Nat × State :=
  let q := bitsOf v 7 0
  let gen := if bitAt v 13 then some (bitsOf v 31 16) else none
  let k : SessId := ⟨h % 8, Nat.mod_lt _ (by decide)⟩
  match bitsOf v 11 8 with
  | 1 =>
    let (c, s) := s.takeQuoin h q
    (c, if c = qBusy ∧ bitAt v 12 = true ∧ h < 8 then s.upSess k fun x => { x with wait := some q } else s)
  | 2 => s.giveQuoin h q gen
  | 3 => s.clearQuoin h q gen
  | 4 =>
    if s.quoinAbsent q then (qAbsent, s)
    else if h ≠ 0 then (qRights, s)
    else if (s.quoin q).holder = noHolder then (qNotHolder, s)
    else (qDrawn, s.drawQuoin q 0)
  | _ =>
    if s.quoinAbsent q then (qAbsent, s)
    else if h < 8 ∧ (s.session k).wait = some q then (qWaitCancelled, s.upSess k fun x => { x with wait := none })
    else (qNoWait, s)

/-- A QUOIN.OP word that is carried out: the operation, its outcome code, and a session's QUOIN.RESULT. -/
def quoinOpDo (h : Nat) (v : Word) (s : State) : Nat × State :=
  let (c, s) := s.sessionQuoin h v
  (c, if hk : h < 8 then s.upSess ⟨h, hk⟩ fun x =>
      { x with result := BitVec.ofNat 32 ((s.quoin (bitsOf v 7 0)).gen * 65536 + bitsOf v 7 0 * 256 + c) } else s)

/-- The same with what it leaves in PG_ERR; a word that the operation does not refuse counts as accepted (R121, R128, R144). -/
def quoinOpEff (w : Writer) (v : Word) (s : State) : State :=
  let (c, s) := quoinOpDo w.holder v s
  match quoinRefusal c with
  | some e => s.recordErr w .quoin 0x10 e false
  | none => s.pressedOn .quoin true

/-- The range rule of QUOIN.OP. -/
def quoinOpChk (v : Word) : Option Nat :=
  if bitsOf v 7 0 ≤ 0x5F ∧ 1 ≤ bitsOf v 11 8 ∧ bitsOf v 11 8 ≤ 5 then none else some errRange

/-- A TAKE or GIVE of a session or of Chase with the named operation; an engine uses TAKEQ, GIVEQ and CLRQ (R143, R144). A session's TAKE of a
lane quoin outside its LANES never gets this far: the transaction answers RIGHTS (R139). -/
def quoinPress (w : Writer) (op : Nat) (v : Word) (s : State) : State :=
  let v := withBits v 11 8 op
  if !s.writable w .quoin 0x10 || s.quoinBarred w v then s
  else match s.judge w .quoin 0x10 v (quoinOpChk v) with
    | some c => s.recordErr w .quoin 0x10 c false
    | none => quoinOpEff w v s

def execTake (w : Writer) (v : Word) (s : State) : Out := fin (quoinPress w 1 v s)
def execGive (w : Writer) (v : Word) (s : State) : Out := fin (quoinPress w 2 v s)
def execClearBroken (w : Writer) (v : Word) (s : State) : Out := fin (quoinPress w 3 v s)
def execDraw (w : Writer) (v : Word) (s : State) : Out := fin (quoinPress w 4 v s)
def execCancelWait (w : Writer) (v : Word) (s : State) : Out := fin (quoinPress w 5 v s)

/-! ### Hold limits, ranks and engine waits -/

/-- A quoin has been held for longer than its hold limit (R152). -/
def State.overHeld (s : State) (q : Nat) : Bool :=
  !s.quoinAbsent q && (s.quoin q).holder != noHolder && decide ((s.quoin q).since + (s.quoin q).limit * 200000 < s.clock)

/-- R152: a quoin that is held past its limit is drawn. -/
def execHoldLimitExpiry (q : Nat) (s : State) : Out := fin (if s.overHeld q then s.drawQuoin q 0x20 else s)

/-- Is a quoin waited for by a session or an engine? -/
def State.waitedFor (s : State) (q : Nat) : Bool :=
  allSess.any (fun k => (s.session k).wait == some q)
    || allLanes.any fun n => match (s.eng n).qwait with | some w => w.quoin == q | none => false

/-- R153: the checks of QUOIN.CFG_q. The code that refuses it for a quoin of a lane that a TH8 does not have is this model's choice: ABSENT, as
for an operation on that quoin (DESIGN CHOICE, log 10). -/
def quoinCfgChk (q : Nat) (v : Word) (s : State) : Option Nat :=
  if s.quoinAbsent q then some errAbsent
  else if (s.quoin q).holder ≠ noHolder ∨ s.waitedFor q = true then some errQuoin
  else if bitsOf v 15 0 < 10 ∨ 60000 < bitsOf v 15 0 then some errRange else none

def quoinCfgEff (q : Nat) (v : Word) (s : State) : State :=
  (storeEff .quoin (0x80 + q) v 0 s).setQuoin q { s.quoin q with rank := bitsOf v 20 16, limit := bitsOf v 15 0 }

def execQuoinCfg (w : Writer) (q : Nat) (v : Word) (s : State) : Out :=
  fin (if 96 ≤ q then s else pressOne w .quoin (0x80 + q) v 0 (quoinCfgChk q v) (quoinCfgEff q v) s)

/-- R147: the wait of a TAKEQ runs out; the take is tried once more before the limit is judged. -/
def execTakeqTimeout (n : LaneId) (s : State) : Out :=
  fin (match (s.eng n).qwait with
    | none => s
    | some w =>
      if s.clock < w.until_ then s
      else
      let (c, s') := s.takeQuoin (0x10 + n.val) w.quoin
      if c = qTaken ∨ c = qTakenBroken then s'.endWait n c else s.endWait n qTimeout)

end Sys2Proof.Machine
end

