-- ==== Sys2Proof/Machine/Session.lean ====
section
/-! DEFINITION. Sessions (spec/06_sessions_and_quoins.md R132 to R141; spec/18_chase_services.md R448): keys, challenge and response,
judgement, lockout, and the one close that every way of closing uses. -/

namespace Sys2Proof.Machine

/-! ### Outcomes (Table: Open and close outcomes) -/

def soOpened : Nat := 1
def soReopened : Nat := 2
def soBadResponse : Nat := 3
def soNoKey : Nat := 4
def soLockedOut : Nat := 5
def soClosed : Nat := 6
def soForced : Nat := 7
def soPending : Nat := 8

/-- Bit k: session k is open, has a key, is locked out. -/
def State.openMask (s : State) : Nat := allSess.foldl (fun m k => m + (if (s.session k).isOpen then 2 ^ k.val else 0)) 0
def State.keyedMask (s : State) : Nat := allSess.foldl (fun m k => m + (if (s.session k).key.isSome then 2 ^ k.val else 0)) 0
def State.lockMask (s : State) : Nat := allSess.foldl (fun m k => m + (if (s.session k).lockout then 2 ^ k.val else 0)) 0

/-- SESSION_CHANGE if OPEN or KEYED changed since `old` (R158). -/
def State.sessionChange (old s : State) : State :=
  if old.openMask = s.openMask ∧ old.keyedMask = s.keyedMask then s else s.raiseMod 6

/-- An outcome is recorded for session k (R136). -/
def State.sessOutcome (s : State) (k : SessId) (c : Nat) : State :=
  ((s.p SESS.OUTCOME 0 k.val c).put MOD.SESSIONS_LAST_OUTCOME 0 c).put MOD.SESSIONS_LAST_SESSION 0 k.val

/-- Take 32 fresh random bytes (R134). -/
def State.random (s : State) : BitVec 256 × State := (Config.random256 s.freeCtr, { s with freeCtr := s.freeCtr + 1 })

/-- A session's challenge is replaced (R134). -/
def State.newChallenge (s : State) (k : SessId) : State :=
  let (c, s) := s.random
  s.upSess k fun x => { x with challenge := c }

/-! ### Closing (R138, R448) -/

/-- A request that Chase has not started to serve ends with RIGHTS and nothing else (R448). -/
def State.dropRequest (s : State) (k : SessId) : State :=
  if s.chase.queue.any (fun r => r.who == k.val) then
    s.upChase fun c => { c with queue := c.queue.filter (fun r => r.who != k.val),
                                boxes := c.boxes.set k { c.boxes[k] with state := 2, outcome := 2, res := Vector.replicate 4 0 } }
  else s

/-- Effects of a close, whichever way it comes about (Table: Effects of a close; R220, R462). A response that has been pressed stays and is
judged (R136, R138); whoever closes lets waiting engines try the quoins that became free (`State.retryFreed`). -/
def State.closeSession (s : State) (k : SessId) : State :=
  let s := s.breakOnly (s.heldBy k.val)
  let s := s.upSess k fun x =>
    { x with isOpen := false, record := none, wait := none, released := 0, afterPlaneReset := false }
  let s := (s.dropRequest k).endGrantsOf k.val
  (s.closeRules k).logIt 0x011 noLane k.val

/-- A session opens with nothing of its past but its key, its challenge, its lockout and responses that still wait (R136). -/
def State.openSession (s : State) (k : SessId) : State :=
  (s.upSess k fun x =>
    { Session.reset with isOpen := true, key := x.key, challenge := x.challenge, lockout := x.lockout, lockAt := x.lockAt,
                         responses := x.responses }).logIt 0x010 noLane k.val

/-- Several sessions are force-closed in rising order, in one step. -/
def State.forceClose (s : State) (mask : Nat) : State :=
  let s' := (allSess.filter fun k => k != 0 && mask / 2 ^ k.val % 2 == 1).foldl (fun s k =>
    if (s.session k).isOpen then (s.closeSession k).sessOutcome k soForced else s) s
  State.sessionChange s s'

def execForceClose (w : Writer) (v : Word) (s : State) : Out :=
  fin (State.retryFreed s (pressOne w .sess 0x12 v 0 (fun _ => none) (fun s => s.forceClose (v.toNat)) s))

/-! ### Judgement (R134 to R137) -/

/-- The response that would open session k (R135). -/
def State.goodResponse (s : State) (k : SessId) (key : BitVec 256) : List Byte :=
  hmacSha256 (beBytes 32 key.toNat) (beBytes 32 (s.session k).challenge.toNat ++ [BitVec.ofNat 8 k.val])

/-- ATTEMPTS_k wraps at 256. -/
def State.sessAttempt (s : State) (k : SessId) : State := s.p SESS.ATTEMPTS 0 k.val ((s.g SESS.ATTEMPTS 0 k.val + 1) % 256)

/-- A lockout starts (R137). -/
def State.lockSession (s : State) (k : SessId) : State :=
  (s.upSess k fun x => { x with lockout := true, lockAt := s.clock }).logIt 0x013 noLane k.val

/-- Chase judges a delivered response, or in a lockout refuses to: LOCKED_OUT, also for one that was delivered during a lockout that has ended
(`barred`). -/
def State.judgeResponse (s : State) (k : SessId) (r : BitVec 256) (barred : Bool) : State :=
  let old := s
  let s := s.upSess k fun x => { x with responses := x.responses.drop 1 }
  if barred || (s.session k).lockout then (s.newChallenge k).sessOutcome k soLockedOut
  else match (s.session k).key with
  | none => ((s.sessAttempt k).newChallenge k).sessOutcome k soNoKey
  | some key =>
    let good := decide (s.goodResponse k key = beBytes 32 r.toNat)
    let s := (s.sessAttempt k).newChallenge k
    if good then
      let was := (s.session k).isOpen
      let s := if was then State.retryFreed s (s.closeSession k) else s
      let s := (s.openSession k).p SESS.FAILS 0 k.val 0
      State.sessionChange old (s.sessOutcome k (if was then soReopened else soOpened))
    else
      let s := ((s.p SESS.FAILS 0 k.val (s.g SESS.FAILS 0 k.val + 1)).sessOutcome k soBadResponse).logIt 0x012 noLane k.val
      if 3 ≤ s.g SESS.FAILS 0 k.val then s.lockSession k else s

def execResponseJudgement (k : SessId) (s : State) : Out :=
  fin (match (s.session k).responses with
    | (r, barred) :: _ => if s.chaseUp then s.judgeResponse k r barred else s
    | [] => s)

/-- 10 s in ticks of the system clock. -/
def lockoutTicks : Nat := 2000000000

def execLockoutEnd (k : SessId) (s : State) : Out :=
  fin (if (s.session k).lockout && decide ((s.session k).lockAt + lockoutTicks ≤ s.clock) then (s.upSess k fun x => { x with lockout := false }).p SESS.FAILS 0 k.val 0 else s)

/-! ### Keys (R133) -/

/-- The number that eight words spell, word 0 most significant. -/
def wordsNat (ws : List Word) : Nat := ws.foldl (fun a w => a * 2 ^ 32 + w.toNat) 0

/-- The checks of a KEY_TARGET word; `words` are the KEY_LOAD words of the same press, if it writes all eight. -/
def keyChk (words : List Word) (v : Word) : Option Nat :=
  if bitsOf v 2 0 = 0 then some errRights
  else if bitAt v 8 && bitAt v 9 then some errRange
  else if bitAt v 8 && words.length != 8 then some errRange else none

/-- A key changes: KEY_CHANGE in the log and at the CHASE page (R477), SESSION_CHANGE (R158). -/
def State.keyTold (old s : State) (origin : Nat) : State :=
  State.sessionChange old ((s.logIt 0x014 noLane origin).raise .chase 2)

def keyEff (h : Nat) (words : List Word) (v : Word) (s : State) : State :=
  let k : SessId := ⟨bitsOf v 2 0 % 8, Nat.mod_lt _ (by decide)⟩
  if bitAt v 8 then State.keyTold s (s.upSess k fun x => { x with key := some (BitVec.ofNat 256 (wordsNat words)) }) h
  else if bitAt v 9 then State.keyTold s (s.upSess k fun x => { x with key := none }) h
  else s

def keyPress (w : Writer) (words : List Word) (v : Word) (s : State) : State :=
  pressOne w .sess 0x28 v 0 (fun _ => keyChk words v) (keyEff w.holder words v) s

def execKeyLoad (w : Writer) (words : List Word) (v : Word) (s : State) : Out :=
  fin (keyPress w words (withBits (withBits v 8 8 1) 9 9 0) s)
def execKeyErase (w : Writer) (v : Word) (s : State) : Out := fin (keyPress w [] (withBits (withBits v 9 9 1) 8 8 0) s)

/-- The effect of an accepted SESS word other than KEY_TARGET (R138, R140). -/
def sessEff (h off : Nat) (v proof : Word) (s : State) : State :=
  if off = 0x12 then s.forceClose v.toNat
  else
    let s' := storeEff .sess off v proof s
    if 0x40 ≤ off ∧ s'.hw .sess off ≠ s.hw .sess off then s'.logIt 0x015 noLane h else s'

end Sys2Proof.Machine
end

