-- ==== Sys2Proof/Machine/Image.lean ====
section
/-! DEFINITION. Firmware images (spec/18_chase_services.md R448 to R451): the slots, an image staged in a lane store and its checks, and what a
reset leaves of a write in progress. -/

namespace Sys2Proof.Machine

/-! ### Outcomes (Table: Service outcomes) -/

def svOk : Nat := 0
def svClamped : Nat := 1
def svRights : Nat := 2
def svRange : Nat := 3
def svBusy : Nat := 4
def svFormat : Nat := 5
def svSignature : Nat := 6
def svNoKey : Nat := 7
def svRollback : Nat := 8
def svDate : Nat := 9
def svAbsent : Nat := 0xA
def svFlash : Nat := 0xB
def svStale : Nat := 0xC

/-! ### Slots -/

/-- The slot that booted. -/
def State.bootedB (s : State) : Bool := s.g MOD.BOOT_IMAGE 0 == 2
def State.slot (s : State) (b : Bool) : ImageSlot := if b then s.pwr.slotB else s.pwr.slotA
def State.setSlot (s : State) (b : Bool) (x : ImageSlot) : State :=
  { s with pwr := if b then { s.pwr with slotB := x } else { s.pwr with slotA := x } }

/-! ### A staged image -/

def SvcReq.arg (r : SvcReq) (i : Nat) : Word := r.args[i]?.getD 0

/-- A lane number. -/
def laneArg (w : Word) : Option LaneId := if h : w.toNat < 16 then some ⟨w.toNat, h⟩ else none

/-- Staged bytes, if they lie in lane store. -/
def State.stagedBytes (s : State) (n : LaneId) (a len : Word) : Option (List Byte) :=
  if a.toNat + len.toNat ≤ storeSize then some (Memory.bytes (s.lane n).mem a.toNat len.toNat) else none

/-- Are the bytes of a range of a record zero? -/
def zeros (r : List Byte) (off k : Nat) : Bool := ((r.drop off).take k).all fun b => b == 0

/-- The parts of an image that its header names. -/
def imgBodyLen (b : List Byte) : Nat := recNat b 0xC 4
def imgRollback (b : List Byte) : Nat := recNat b 7 1

/-- Header fields, reserved bytes and lengths of R450; `b` is the header and the body. -/
def imgFormatOk (b : List Byte) : Bool :=
  let body := imgBodyLen b
  decide (256 ≤ b.length) && recNat b 0 4 == 0x43485331 && recNat b 4 2 == 0x100 && zeros b 0x20 32 && zeros b 0xA0 96
    && decide (body ≤ 1048320) && b.length == 256 + body && decide (recNat b 0x10 4 + recNat b 0x14 4 ≤ body)
    && decide (recNat b 0x18 4 + recNat b 0x1C 4 ≤ body) && decide (recNat b 7 1 ≤ 63)
    && decide (recNat b 0x14 4 ≤ 0x40000) && decide (recNat b 0x1C 4 ≤ 0x4000)

/-- Digest and signature of R450. -/
def imgSigned (b : List Byte) : Bool :=
  let d := sha256 (b.take 0x40 ++ b.drop 0x100)
  (b.drop 0x40).take 32 == d && edVerify Config.romKey ((b.drop 0x60).take 64) d

/-- The slot that an accepted image makes. -/
def imgSlot (b : List Byte) : ImageSlot :=
  ⟨true, recWord b 8, recNat b 6 1, imgRollback b, true, (b.drop (0x100 + recNat b 0x18 4)).take (recNat b 0x1C 4)⟩

/-- A slot is being written, or its write failed: it reads as refused (R451). -/
def badSlot : ImageSlot := ⟨true, 0, 0, 0, false, []⟩

/-- A slot receives an image; a slot that had failed is no longer the one that failed (R66). -/
def State.putSlot (s : State) (b : Bool) (x : ImageSlot) : State :=
  let s := s.setSlot b x
  { s with pwr := { s.pwr with failedSlot := if s.pwr.failedSlot == some b then none else s.pwr.failedSlot } }

/-- The checks of IMAGE_WRITE in order: the image's bytes, or the outcome that refuses it. A clear that holds the flash is looked at before the
image (DESIGN CHOICE, log 125). -/
def State.imageAsk (s : State) (r : SvcReq) : Except Nat (List Byte) :=
  if r.who ≠ 0 then .error svRights
  else match laneArg (r.arg 0) with
  | none => .error svRange
  | some n =>
    if !s.fitted n then .error svAbsent
    else if s.flashBusy then .error svBusy
    else match s.stagedBytes n (r.arg 1) (r.arg 2) with
    | none => .error svRange
    | some b =>
      if !imgFormatOk b then .error svFormat
      else if !imgSigned b then .error svSignature
      else if imgRollback b < s.g MOD.BOOT_ROLLBACK 0 then .error svRollback
      else .ok b

/-- A module-scope reset finds IMAGE_WRITE next in Chase's queue: the write may have begun, and then the slot is refused (R451). Whether it has
is not stated: a free bit (log 125). -/
def State.imageCut (s : State) : State :=
  match s.chase.queue with
  | r :: _ =>
    if s.chaseUp && r.op == 5 && (match s.imageAsk r with | .ok _ => true | .error _ => false) then
      let (b, s) := s.fresh
      if b.getLsbD 0 then s.putSlot (!s.bootedB) badSlot else s
    else s
  | [] => s

end Sys2Proof.Machine
end

