-- ==== Sys2Proof/Machine/Therm.lean ====
section
/-! DEFINITION. The thermal supervisor (spec/23_characteristics.md R533 to R536): the warning, shedding the far sides, recovery, and a
far side's own sensor. Temperatures are signed, in units of 0.1 °C. -/

namespace Sys2Proof.Machine

def celsius (w : BitVec 16) : Int := w.toInt

/-- WARN_C in the units of the readings. -/
def State.warnAt (s : State) : Int := 10 * (s.g THERM.CFG_WARN_C 0 : Int)

/-- The readings of the supervisor, and the highest baseplate temperature. -/
def State.thermShow (s : State) (base die : BitVec 16) : State :=
  let s := (s.put THERM.BASEPLATE 0 base.toNat).put THERM.NEAR_DIE 0 die.toNat
  if celsius (BitVec.ofNat 16 (s.g THERM.BASE_MAX 0)) < celsius base then s.put THERM.BASE_MAX 0 base.toNat else s

def execThermWarn (base die : BitVec 16) (s : State) : Out :=
  fin (if s.awake && decide (s.warnAt < celsius base) then
    let s := s.thermShow base die
    if s.on THERM.STAT_WARN 0 then s else (s.put THERM.STAT_WARN 0 1).raise .therm 0
  else s)

/-- The baseplate has stayed below WARN_C - 3 °C. -/
def State.baseCool (s : State) (base : BitVec 16) : Bool := decide (celsius base < s.warnAt - 30)

def execThermWarnClear (base die : BitVec 16) (s : State) : Out :=
  fin (if s.awake && s.baseCool base then (s.thermShow base die).put THERM.STAT_WARN 0 0 else s)

/-- The record of a shed goes to the fault shelf alone; the spec gives it no code (log 41). -/
def State.shedRecord (s : State) : State :=
  let (c, s) := s.fresh
  let (d, s) := s.freeDetail
  s.shelve { s.mkEntry 0x030 noLane 0x31 0 d with code := bitsOf c 11 0 } (!s.chaseUp)

/-- The far sides are shed (R534). -/
def State.shed (s : State) : State :=
  let s := s.forLanes allLanes fun n s => if s.farUp n then s.powerDown n 5 else s
  (((s.shedRecord).put THERM.STAT_SHED 0 1).bump THERM.SHEDS 0).raise .therm 1

def execThermShed (base die : BitVec 16) (s : State) : Out :=
  fin (if s.awake && decide (700 < celsius base ∨ 1150 < celsius die) then
    let s := s.thermShow base die
    if s.on THERM.STAT_SHED 0 then s else s.shed
  else s)

/-- Far sides are powered again, but not in QUIET (R535). -/
def execShedEnd (base die : BitVec 16) (s : State) : Out :=
  fin (if s.awake && s.on THERM.STAT_SHED 0 && s.baseCool base && decide (celsius die < 1000) then
    let s := (s.thermShow base die).put THERM.STAT_SHED 0 0
    let s := if s.pwr.mode = .run then s.forLanes allLanes fun n s =>
        if s.fitted n && !(s.lane n).link.farPowered then s.powerUp n else s
      else s
    s.raise .therm 2
  else s)

/-- LANES_HOT bit n. -/
def State.setHot (s : State) (n : LaneId) (b : Bool) : State :=
  let m := s.g THERM.STAT_LANES_HOT 0
  s.put THERM.STAT_LANES_HOT 0 (if b then m ||| 2 ^ n.val else m &&& (0xFFFF - 2 ^ n.val))

def State.isHot (s : State) (n : LaneId) : Bool := s.g THERM.STAT_LANES_HOT 0 / 2 ^ n.val % 2 == 1

/-- A far side's sensor has stayed above +110 °C: its rails are cut (R536). -/
def execFarSideOvertemp (n : LaneId) (t : BitVec 16) (s : State) : Out :=
  fin (if s.farUp n && decide (1100 < celsius t) then
    let s := s.p THERM.FAR 0 n.val t.toNat
    if s.isHot n then s
    else
      let s := s.setHot n true
      if s.on LANE.ISO_TRIPPED n then s else s.converterTrip n
  else s)

def execFarSideCooled (n : LaneId) (t : BitVec 16) (s : State) : Out :=
  fin (if s.farUp n && s.isHot n && decide (celsius t < 950) then (s.p THERM.FAR 0 n.val t.toNat).setHot n false else s)

/-- The check of CFG.WARN_C: 40 to 65. -/
def thermChk (off : Nat) (s : State) : Option Nat :=
  if off = 0x12 ∧ (s.g THERM.CFG_WARN_C 0 < 40 ∨ 65 < s.g THERM.CFG_WARN_C 0) then some errRange else none

end Sys2Proof.Machine
end

