-- ==== Sys2Proof/Machine/Reset.lean ====
section
/-! DEFINITION. Resets of every scope, supplies, power states, boot, the self-test and lane readiness (spec/02_connectors_supplies_isolation.md
R29 to R42, R56; spec/03_reset_and_bring_up.md R57 to R68, R76 to R82; spec/01_lanes_and_plane.md R27, R28; spec/07_event_gatherer.md R174 to
R177). -/

namespace Sys2Proof.Machine

/-! ### The side-band command that a reset cuts off (R482) -/

/-- A command that is BUSY ends: its response is written and DONE becomes pending (R480, R493). -/
def State.sbFinish (s : State) (rsp : Word) : State :=
  (State.put { s with sb := { s.sb with busy := none } } SB.LAST_RSP 0 rsp.toNat).alert 2

/-- A response with OP and COUNT of the one shown. -/
def State.sbWord (s : State) (rcode data : Nat) : Word :=
  (s.wd (SB.LAST_RSP.addr 0 0) &&& 0xFF0F0000) ||| BitVec.ofNat 32 (rcode * 2 ^ 20 + data % 65536)

/-- The main side goes down: STATE; from now on the island runs alone. -/
def State.sbCut (s : State) : State :=
  let s := { s with sb := { s.sb with load := none, awakeFrom := s.clock } }
  if s.sb.busy.isSome then s.sbFinish (s.sbWord 4 0) else s

/-! ### What a module-scope reset keeps (R125) -/

/-- The bits of a word that the island or flash keeps, or that a pin shows. -/
def keptMask (p : Page) (off : Nat) : Word :=
  match p with
  | .mod => if off = 0x19 ∨ off = 0x1F then 0xFFFFFFFF else if off = 0x1A then 0x0080FF00 else if off = 0x16 then 0xFFFFFFFF else 0
  | .sess => if 0x40 ≤ off then 0xFFFFFFFF else 0
  | .quoin => if off = 0x15 ∨ (0x80 ≤ off ∧ off ≤ 0xDF) then 0xFFFFFFFF else 0
  | .evg => if off = 0x16 ∨ (0x58 ≤ off ∧ off ≤ 0x67) then 0xFFFFFFFF else 0
  | .reg => if off = 0x14 ∨ off = 0x15 ∨ off = 0x16 then 0xFFFFFFFF else if off = 0x21 then 0xE000FFFF else 0
  | .ptp => if off = 0x10 ∨ off = 0x11 ∨ off = 0x20 ∨ off = 0x21 then 0xFFFFFFFF else 0
  | .net => if off = 0x13 ∨ off = 0x14 then 0xFFFFFFFF else 0
  | .chase => if off = 0x26 ∨ (0x40 ≤ off ∧ off ≤ 0x9F) then 0xFFFFFFFF else 0
  | .cal => if off = 0x16 ∨ off = 0x17 then 0xFFFFFFFF else if off = 0x18 then 1 else 0
  | .log => if off = 0x10 then 1 else if off = 0x12 then 0xE0001FFF else if off = 0x1B then 0xFFFFFFFF else 0
  | .sb => if off = 0x10 ∨ off = 0x14 ∨ (0x18 ≤ off ∧ off ≤ 0x1C) then 0xFFFFFFFF else if off = 0x11 then 0x001F0000 else 0
  | .fix => if off = 0x15 then 0x80000000 else 0
  | .therm => if off = 0x10 ∨ off = 0x11 then 0xFFFFFFFF else if off = 0x12 then 0xFFFFFFFF else 0
  | _ => 0

/-- One word after a module-scope reset; none if it reads its Reset column. -/
def keptWord (e : Nat × Word) : Option (Nat × Word) :=
  if coefBase ≤ e.1 then none
  else match Page.ofNum (e.1 / 256) with
  | none => none
  | some p =>
    let m := if e.1 % 256 < 0x10 then 0 else keptMask p (e.1 % 256)
    let v := (resetWord e.1 &&& ~~~m) ||| (e.2 &&& m)
    if v = resetWord e.1 then none else some (e.1, v)

/-- The bits that the island keeps while it has power: lost with its power (R42, R176, R493). -/
def islandWord (a : Nat) : Bool :=
  a == 0x19 || (a / 256 == 0x04 && (a % 256 == 0x16 || (decide (0x58 ≤ a % 256) && decide (a % 256 ≤ 0x67))))
    || a == 0xE16 || a == 0xE17 || a / 256 == 0x10

/-- What a lane is after a reset of its near half, its far half and its link: the SRAMs keep their contents (R413), the lane store is
clear, and the pods on the line are without power. -/
def Lane.afterReset (l : Lane) (clock : Nat) : Lane :=
  { Lane.reset with
    mem := l.mem.filter (fun c => decide (storeSize ≤ c.1)), eccBad := l.eccBad.filter (fun a => decide (storeSize ≤ a)),
    eng := { Eng.reset with since := clock }, link := { Link.reset with huntFrom := clock },
    line := { Line.reset with pods := l.line.pods.map fun p => { Pod.reset with id := p.id, fw := p.fw, profile := p.profile, saves := p.saves } } }

/-! ### Supplies shown -/

/-- AUX_5V feeds the island (R41). -/
def auxOk (mv : Nat) : Bool := decide (4500 < mv)

/-- +24V_IN is high enough for the main converter to start (R39, R56). -/
def vinOk (mv : Nat) : Bool := decide (17500 < mv)

/-- The island has a supply: AUX_5V above 4.5 V, else +24V_IN above 9 V (R41). -/
def islandFed (vin aux : Nat) : Bool := auxOk aux || decide (9000 < vin)

/-- What the supplies show. AUX reads 0 when absent; an AUX_5V that is there but too low for the island is shown as absent too (DESIGN
CHOICE, log 125). -/
def State.supplyShow (s : State) : State :=
  let s := (s.put MOD.SUPPLY_VIN 0 (s.pwr.vin / 10)).put MOD.SUPPLY_AUX 0 (if auxOk s.pwr.aux then s.pwr.aux / 25 else 0)
  (s.put MOD.SUPPLY_VIO_LEVEL 0 (vioLevel s.pwr.vio)).put MOD.PWR_AUX_PRESENT 0 (b2n (auxOk s.pwr.aux))

/-! ### Module scope (R57 to R59, R82, R125) -/

/-- Every session closed, keys kept (Table: Effects of each reset). -/
def State.sessionsReset (s : State) : State := allSess.foldl (fun s k => s.upSess k fun x => { Session.reset with key := x.key }) s

/-- The challenges of a module that starts: of every session, and of the side-band (R134, R483). -/
def State.drawChallenges (s : State) : State :=
  let (c, s) := (allSess.foldl (fun (s : State) k => s.newChallenge k) s).random
  s.upChase fun x => { x with sbChallenge := c }

/-- Quoins free, with the ranks and limits that the steward keeps (R142). -/
def State.quoinsReset (s : State) : State :=
  { s with quoins := Vector.ofFn fun q =>
      { Quoin.resetAt q.val with rank := s.g QUOIN.CFG_RANK 0 q.val, limit := s.g QUOIN.CFG_LIMIT 0 q.val } }

/-- Chase starts afresh; what flash and the island keep stays. -/
def Chase.afterReset (c : Chase) : Chase :=
  { Chase.reset with recs := c.recs, dueTold := c.dueTold, islandSet := c.islandSet, islandSec := c.islandSec, leap := c.leap,
                     alarmArmed := c.alarmArmed, alarmHit := c.alarmHit, calLost := c.calLost, record := c.record, worksDue := c.worksDue }

/-- The cause that a lane's HV-off under a reset is recorded with: of the causes of one 10 µs sample the lowest (R53). -/
def State.offCause (s : State) (n : LaneId) (hv : Nat) : Option Nat :=
  if !s.on LANE.ILK_HW_OFF n then some hv
  else if s.offNow n then some (min (s.g LANE.ILK_LAST_CAUSE n) hv) else none

/-- An HV-off that a reset has brought stands in the registers that the reset leaves. -/
def State.offNoted (s : State) (n : LaneId) (c : Nat) : State := (s.put LANE.ILK_LAST_CAUSE n c).upLane n fun l => { l with hwAt := some s.clock }

/-- A module-scope reset is taken with a cause code of Table: Reset sources. HV-off of lanes that had HV allowed is recorded with
`hv` after their registers are reset. -/
def State.moduleReset (s : State) (cause hv : Nat) : State :=
  let hot := allLanes.filterMap fun n => if s.fitted n then (s.offCause n hv).map fun c => (n, c) else none
  let already := s.pwr.mode == .inReset
  let s := s.imageCut.sbCut
  let was := s.g MOD.RESET_CAUSE_CAUSE 0
  let s := { s with
    regs := s.regs.filterMap keptWord, image := [], frozen := [],
    evg := { Evg.reset with nwCopy := s.evg.nwCopy, nwRaise := s.evg.nwRaise },
    log := { s.log with buffer := [], granted := false, preempted := false, dropRun := false, droppedBefore := 0 },
    forme := FormeOut.reset, imp := ImpSt.reset, grants := [], chase := s.chase.afterReset, fix := Fix.reset,
    ru := RegUnit.reset, ptpA := PtpDom.reset, ptpB := PtpDom.reset, lanes := s.lanes.map fun (l : Lane) => l.afterReset s.clock,
    pwr := { s.pwr with mode := .inReset, softReset := false, bootFailed := false, watchdog := s.pwr.watchdog || cause == 5,
                        answers := false, permits := Ilk.reset, lanesDone := false, heldFrom := s.clock } }
  let s : State := (State.sessionsReset s).quoinsReset.supplyShow
  let s := s.calShow (if s.chase.islandSet then srcIsland else srcNone) false
  let s := hot.foldl (fun (s : State) e => s.offNoted e.1 e.2) (s.put REG.STATE 0 s.rtState)
  if already then s.put MOD.RESET_CAUSE_CAUSE 0 (if was = 0 then cause else min was cause)
  else (((s.put MOD.RESET_CAUSE_PREV_CAUSE 0 was).put MOD.RESET_CAUSE_CAUSE 0 cause).bump MOD.RESET_CAUSE_COUNT 0).alert 1

/-- FAULT# is driven low (R32). -/
def State.faultLow (s : State) : Bool :=
  match s.pwr.mode with
  | .off | .dormant => false
  | .inReset => true
  | _ => !s.chaseUp || s.pwr.bootFailed || s.pwr.watchdog || s.pwr.brownout || s.on THERM.STAT_SHED 0

/-! ### Supplies and pins (R29, R31, R39 to R42, R56) -/

/-- VIO has another voltage. With VIO in neither window MRST# does not act, and a reset that it held runs on (R29, R31). -/
def execVioWindowChange (mv : Nat) (s : State) : Out :=
  let gone := vioLevel mv == 0 && s.pwr.mrstLow
  let s := { s with pwr := { s.pwr with vio := mv, mrstLow := s.pwr.mrstLow && !gone, heldFrom := if gone then s.clock else s.pwr.heldFrom } }
  fin (if s.pwr.mode = .off then s else s.supplyShow)

/-- The module leaves DORMANT: NW_CAUSE is written, and a module-scope reset is taken (R28, R176). -/
def State.wakeDormant (s : State) (trigger entry source cause : Nat) : State :=
  let s := s.moduleReset cause 5
  let s := (s.put EVG.NW_CAUSE_VALID 0 1).put EVG.NW_CAUSE_TRIGGER 0 trigger
  let s := if trigger = 2 then (s.put EVG.NW_CAUSE_ENTRY 0 entry).put EVG.NW_CAUSE_SOURCE 0 source else s
  { s with evg := { s.evg with nwCopy := [] } }

/-- A watched event wakes the module; a page event is raised again once Chase runs (R175, R176). -/
def State.nwWake (s : State) (x : NwWatch) : State :=
  let s := { s with evg := { s.evg with nwRaise := if x.aux then some (Page.mod.num, 4) else if x.alarm then some (Page.cal.num, 0) else none } }
  (s.wakeDormant 2 x.entry x.source 6).upChase fun c => { c with alarmHit := false }

def execNightWatchWake (entry : Nat) (s : State) : Out :=
  fin (match s.evg.nwCopy.find? fun x => x.entry == entry with
    | some x => if s.pwr.mode = .dormant ∧ (x.alarm = false ∨ x.aux = true ∨ s.chase.alarmHit = true) then s.nwWake x else s
    | none => s)

/-- MRST# has been low for 1 µs (R31), or is high again. In DORMANT its falling edge is a trigger of R28 and a reset source at once:
the lower cause code is recorded (R82). -/
def execMrstLow (low : Bool) (s : State) : Out :=
  fin (if vioLevel s.pwr.vio = 0 then s
  else
    let fell := low && !s.pwr.mrstLow
    let rose := !low && s.pwr.mrstLow
    let s := { s with pwr := { s.pwr with mrstLow := low, heldFrom := if rose then s.clock else s.pwr.heldFrom } }
    if !fell then s
    else match s.pwr.mode with
      | .off => s
      | .dormant => s.wakeDormant 3 0 0 3
      | _ => s.moduleReset 3 5)

/-- The island starts: straps sampled, its registers and buffers at their first values (R33, R493). -/
def State.islandStart (s : State) (adr : Nat) : State :=
  { s with pwr := { s.pwr with islandOn := true, adrStraps := adr, adrSampled := adr }, sb := Sb.reset }

/-- The island starts alone, and the module is in DORMANT. -/
def State.islandAlone (s : State) (vin aux adr : Nat) : State :=
  let s := s.islandStart adr
  let s := { s with pwr := { s.pwr with mode := .dormant, aux := aux, vin := vin, brownout := false }, evg := { s.evg with nwCopy := [] } }
  ((s.supplyShow).put MOD.PWR_STATE 0 2).alert 1

/-- Supplies are applied (Table: Reset sources, Table: Power-state transitions). +24V_IN that is above 9 V, and not above 17.5 V, feeds the island
alone (R39, R41). -/
def execPowerOn (vin aux : Nat) (adr : Fin 4) (s : State) : Out :=
  fin (match s.pwr.mode with
    | .off =>
      if vinOk vin then
        let s := s.islandStart adr.val
        State.moduleReset { s with pwr := { s.pwr with vin := vin, aux := aux, brownout := false } } 1 5
      else if islandFed vin aux then s.islandAlone vin aux adr.val else s
    | .dormant =>
      if !islandFed vin aux then s
      else
        let t := { s with pwr := { s.pwr with vin := vin, aux := aux, brownout := false } }
        if vinOk vin && !vinOk s.pwr.vin then t.wakeDormant 4 0 0 1 else t.supplyShow
    | _ => s)

/-- AUX_5V alone starts the island, and the module is in DORMANT. -/
def execIslandPowerUp (aux : Nat) (adr : Fin 4) (s : State) : Out :=
  fin (if s.pwr.mode = .off ∧ auxOk aux = true then s.islandAlone 0 aux adr.val else s)

/-- Neither supply is there: the island stops, and with it go its registers and the calendar; the fault shelf stays (R42). -/
def execIslandPowerLoss (s : State) : Out :=
  fin (if s.pwr.mode = .off then s
  else
    let s := s.moduleReset 0 5
    let s := { s with
      regs := s.regs.filter (fun e => !islandWord e.1),
      pwr := { s.pwr with mode := .off, vin := 0, aux := 0, islandOn := false, brownout := false, watchdog := false },
      evg := { s.evg with nwCopy := [], nwRaise := none }, sb := Sb.reset }
    let s := State.upChase s fun c => { c with islandSet := false, islandSec := 0, alarmArmed := false, alarmHit := false, calLost := true }
    ((s.put MOD.BOOT_TRIES 0 0).calShow srcNone false).supplyShow)

/-- The island moves between its two supplies: AUX_5V has the voltage `aux` (R41). -/
def execAuxSourceChange (aux : Nat) (s : State) : Out :=
  fin (if !s.pwr.islandOn || !islandFed s.pwr.vin aux then s
  else
    let was := s.on MOD.PWR_AUX_PRESENT 0
    let s := State.supplyShow { s with pwr := { s.pwr with aux := aux } }
    if was == auxOk aux then s
    else if s.awake then s.raiseMod 4
    else match s.pwr.mode, s.evg.nwCopy.find? (·.aux) with
      | .dormant, some x => s.nwWake x
      | _, _ => s)

/-- +24V_IN has stayed at `vin`, below 16.5 V, for 200 µs: permits withdrawn, rails cut, a shelf record, the module held in reset (R56). In
DORMANT, and while a brown-out is in progress, the supply alone changes; without any supply for the island the row is ISLAND_POWER_LOSS. -/
def execBrownout (vin : Nat) (s : State) : Out :=
  let t := { s with pwr := { s.pwr with vin := vin } }
  fin (if 16500 ≤ vin ∨ s.pwr.mode = .off then s
  else if s.pwr.mode = .dormant then (if islandFed vin s.pwr.aux then t.supplyShow else s)
  else if s.pwr.brownout then t.supplyShow
  else
    let (d, s) := t.freeDetail
    let s := if s.chaseUp then s.shelve (s.mkEntry 0x034 noLane 0x20 0 d) true else s
    let s := s.moduleReset 2 7
    { s with pwr := { s.pwr with brownout := true } })

def execBrownoutRecovery (vin : Nat) (s : State) : Out :=
  fin (if s.pwr.brownout && vinOk vin then
    (State.supplyShow { s with pwr := { s.pwr with brownout := false, vin := vin } }).put MOD.PWR_BROWNOUT_SEEN 0 1
  else s)

/-! ### Power states (R12, R27, Table: Power-state transitions) -/

/-- Some lane's HV state machine is outside OFF, or some impression is armed. -/
def State.hvOrArmed (s : State) : Bool :=
  (allLanes.any fun n => s.fitted n && s.g SMU.STAT_STATE n != 0) || s.imp.sheets.any fun x => !x.armed.isEmpty

/-- The words of the MOD page that are refused with RANGE or STOPPED_ONLY. -/
def modChk (off : Nat) (v : Word) (s : State) : Option Nat :=
  if off = 0x12 then
    if bitsOf v 1 0 = 3 then some errRange else if bitsOf v 1 0 ≠ 0 ∧ s.hvOrArmed then some errStopped else none
  else if off = 0x1C then (if bitsOf v 31 16 ≠ 0x5AA5 then some errRange else none)
  else none

/-- The effect of an accepted MOD word; a soft reset is taken once the transaction has ended (R61). -/
def modEff (off : Nat) (v proof : Word) (s : State) : State :=
  if off = 0x15 then (if bitAt v 3 && bitAt proof 3 then s.discrepancyClear .permit else s)
  else if off = 0x1C then (if bitAt v 0 then { s with pwr := { s.pwr with softReset := true } } else s)
  else storeEff .mod off v proof s

/-- The soft reset that a press asked for. -/
def State.softResetDue (s : State) : State := if s.pwr.softReset then s.moduleReset 4 5 else s

def execPwrReq (w : Writer) (v : Word) (s : State) : Out := fin (pressOne w .mod 0x12 v 0 (modChk 0x12 v) (modEff 0x12 v 0) s)

def execSoftReset (w : Writer) (v : Word) (s : State) : Out :=
  fin (pressOne w .mod 0x1C v 0 (modChk 0x1C v) (modEff 0x1C v 0) s).softResetDue

/-- What the island watches from now on (R175). -/
def State.nwEntries (s : State) : List NwWatch :=
  (List.range 16).filterMap fun e =>
    let i := s.g EVG.NW_SOURCE 0 e
    if !s.on EVG.NW_EN 0 e || !(s.src i).en then none
    else if 992 ≤ i then some ⟨e, i, false, false⟩
    else match sourcePage i with
      | some (p, j) =>
        let aux := p == .mod && !bitAt (s.hw p 7) 4 && s.route p 4 == j
        let alarm := p == .cal && !bitAt (s.hw p 7) 0 && s.route p 0 == j
        if aux || alarm then some ⟨e, i, aux, alarm⟩ else none
      | none => none

/-- The module reaches a power state: MOD.PWR.STATE, and the alert cause POWER. -/
def State.toPower (s : State) (m : PwrMode) (code : Nat) : State :=
  (State.put { s with pwr := { s.pwr with mode := m } } MOD.PWR_STATE 0 code).alert 1

/-- DORMANT: only the island is left; the Ethernet PHY is off, and no output of J1 is driven (Table: Output pin states). -/
def State.toDormant (s : State) : State :=
  let s := s.sbCut
  let s := s.forLanes allLanes fun n s => if s.fitted n then s.powerDown n 5 else s
  let s := { s with evg := { s.evg with nwCopy := s.nwEntries }, fix := Fix.reset, imp := { s.imp with ppsHigh := false, pulse := none },
                    ru := { s.ru with net := { s.ru.net with queue := [] } } }
  (((s.put NET.UP 0 0).put SYNC.OUT_LEVEL 0 0).put MOD.BOOT_STAGE 0 0).toPower .dormant 2

/-- The module enters the state that an accepted request names, whatever has started since (R27). -/
def execPowerStateChange (s : State) : Out :=
  fin (if !s.awake then s
  else match s.g MOD.PWR_REQ 0, s.pwr.mode with
    | 0, .quiet =>
      let s := s.toPower .run 0
      if s.on THERM.STAT_SHED 0 then s
      else s.forLanes allLanes fun n s => if s.fitted n && !(s.lane n).link.farPowered then s.powerUp n else s
    | 1, .run => (s.forLanes allLanes fun n s => if s.farUp n then s.powerDown n 5 else s).toPower .quiet 1
    | 2, _ => s.toDormant
    | _, _ => s)

/-! ### Lane and engine scope (R57, R58, R62, R78, R413) -/

/-- Source numbers of lane n: its pages' and its two doorbells (Table: Page map, R159). -/
def laneSource (n : LaneId) (i : Nat) : Bool :=
  (decide (64 + 56 * n.val ≤ i) && decide (i < 120 + 56 * n.val)) || i == 960 + 2 * n.val || i == 961 + 2 * n.val

/-- Sources that target t had claimed are completed as at a DONE (R177). -/
def State.doneAll (s : State) (t : Nat) : State :=
  ((s.evg.srcs.filter fun e => e.2.st == .active && e.2.claimedAt == t).map (·.1)).foldl (fun s i => s.afterDone i) s

/-- Requests of lane n's engine that wait for Chase end with it. -/
def State.dropEngine (s : State) (n : LaneId) : State :=
  s.upChase fun c => { c with queue := c.queue.filter fun r => r.who != 0x10 + n.val }

/-- An engine reset of lane n (Table: Effects of each reset), but for the completion of what it was serving, which follows the other writes of
the press (`State.doneAll`, R163); the monitor starts at its release. Of the TCTL word of the engine's target the
level in service goes and THRESH stays (R177), although EVTHR, which shows it, is listed with 0 after an engine reset (R413): the model
follows R177, and EVTHR reads what THRESH holds (DESIGN CHOICE, log 110). -/
def State.engineReset (s : State) (n : LaneId) (origin : Nat) : State :=
  let s := s.breakOnly (s.heldBy (0x10 + n.val))
  let s := ((s.d1Stop n).upGal n fun g => { g with d0Paused := true }).galShow n
  let s := ((s.clearSheet n.val).endGrantsOf (0x10 + n.val)).dropEngine n
  let s := s.upEng n fun _ => { Eng.reset with since := s.clock }
  let eng : Nat → Bool := fun a => a / 256 == (Page.lane n .eng).num
  let s := { s with regs := s.regs.filter (fun e => !eng e.1) }
  let s := s.hvStop n 13
  (s.upChase fun c => { c with loaders := c.loaders.set n none }).logIt 0x051 n.val origin

/-- The same outside a press: what it was serving completes, and waiting engines try at once the quoins that it frees. -/
def State.engineResetNow (s : State) (n : LaneId) (origin : Nat) : State :=
  State.retryFreed s ((s.engineReset n origin).doneAll (3 + n.val))

/-- A running GALLEY_READ or STORE_READ of lane n is cut: the rest of its words will have all bits set (R106). -/
def State.cutBurst (s : State) (n : LaneId) : State :=
  { s with forme := { s.forme with started := s.forme.started.map fun t =>
      if (t.op = 3 ∨ t.op = 4) ∧ t.h.addr.toNat = 0xC000 + 256 * n.val then { t with cut := true } else t } }

/-- Does an address of the register file belong to lane n's pages or windows, or is it lane n's own word of a common page? -/
def laneWord (n : LaneId) (a : Nat) : Bool :=
  laneWindow n a || (match Page.ofNum (a / 256) with | some p => p.lane? == some n && decide (a < coefBase) | none => false)
    || a == REG.LANE_ERR.addr 0 n.val || a == THERM.FAR.addr 0 n.val || a == IMP.SHEET_LOW_AT.addr 0 n.val
    || a == EVG.TCTL_THRESH.addr 0 (3 + n.val)

/-- A lane reset (R58, R62, R125, R131, R177), but for the completion of what the engine was serving, as above; HV that was allowed goes off with cause 5. Launches of the lane that Chase has not heard of count
as launched (R203): here at the reset, which takes their reports (DESIGN CHOICE, log 125). -/
def State.laneReset (s : State) (n : LaneId) (origin : Nat) : State :=
  let hot := s.offCause n 5
  let was := s.phase n
  let s := (s.reportsOut n).foldl (fun (s : State) r => s.countLaunch r) s
  let four := [32 + 4 * n.val, 33 + 4 * n.val, 34 + 4 * n.val, 35 + 4 * n.val]
  let s := s.breakOnly (four ++ (s.heldBy (0x10 + n.val)).filter fun q => !four.contains q)
  let s := ((s.clearSheet n.val).unarm n.val).endGrantsOf (0x10 + n.val)
  let s := (s.dropEngine n).upChase fun c => { c with loaders := c.loaders.set n none }
  let s := s.upLane n fun l => l.afterReset s.clock
  let s := { s with regs := s.regs.filter (fun e => !laneWord n e.1), image := s.image.filter (fun e => !laneWord n e.1),
                    frozen := s.frozen.filter (fun e => !laneWord n e.1),
                    evg := { s.evg with srcs := s.evg.srcs.filter fun e => !laneSource n e.1 } }
  let hotW := THERM.STAT_LANES_HOT.addr 0 0
  let s := { s with frozen := sset resetWord s.frozen hotW (withBits (sget resetWord s.frozen hotW) n.val n.val 0) }
  let s := ((s.setHot n false).bgLane n false).put CAL.STAT_EXPIRED 0 (s.g CAL.STAT_EXPIRED 0 &&& (0xFFFF - 2 ^ n.val))
  let s := allSess.foldl (fun s k => s.upSess k fun x => { x with galRstart := sdel x.galRstart n.val }) (s.cutBurst n)
  let s := match hot with | some c => s.offNoted n c | none => s
  ((s.put LANE.STATE_PHASE n was).setPhase n phReset).logIt 0x050 n.val origin

/-- The same outside a press. -/
def State.laneResetNow (s : State) (n : LaneId) (origin : Nat) : State :=
  State.retryFreed s ((s.laneReset n origin).doneAll (3 + n.val))

/-- The checks of LANE.RST: the key. -/
def rstChk (v : Word) (_ : State) : Option Nat := if bitsOf v 31 16 ≠ 0x5AA5 then some errRange else none

/-- A write of LANE.RST with LANE or, without it, ENGINE. A lane reset leaves PRESSED and APPLIED of the lane's pages at 0 (R131). -/
def rstPress (w : Writer) (n : LaneId) (v : Word) (s : State) : State :=
  let p := Page.lane n .lane
  if bitAt v 0 && s.writable w p 0x1A && (s.judge w p 0x1A v (rstChk v s)).isNone then (s.laneReset n w.holder).doneAll (3 + n.val)
  else pressOne w p 0x1A v 0 (rstChk v) (fun s => if bitAt v 1 then (s.engineReset n w.holder).doneAll (3 + n.val) else s) s

def execLaneReset (w : Writer) (n : LaneId) (v : Word) (s : State) : Out := fin (if bitAt v 0 then State.retryFreed s (rstPress w n v s) else s)
def execEngineReset (w : Writer) (n : LaneId) (v : Word) (s : State) : Out := fin (if bitAt v 0 then s else State.retryFreed s (rstPress w n v s))

/-! ### The lane monitor (R76, R78, R413) -/

/-- First byte of the instruction SRAM (Table: Compositor physical map). -/
def isramBase : Nat := 0x4000000

/-- Chase loads the monitor and releases the engine; the monitor declares the host-writable region (text before
R453) and writes D0_CTL.RESUME (R78, R437). -/
def State.startMonitor (s : State) (n : LaneId) : State :=
  let s := s.putMem n isramBase ((s.slot s.bootedB).mon.take 0x10000)
  (((s.upEng n fun e => { e with run := .running }).put LANE.HWR_BASE n 0x3C00).put LANE.HWR_LIMIT n 0x4000).d0Resume n

/-! ### Release (R57) -/

/-- The slot that the ROM prefers: the higher version, or PREFER (R65). -/
def State.prefersB (s : State) : Bool :=
  let a := s.pwr.slotA
  let b := s.pwr.slotB
  if !b.present then false else if !a.present then true
  else if a.version = b.version then s.on MOD.BOOT_PREFER 0 else decide (a.version.toNat < b.version.toNat)

/-- t0: the ROM starts and checks the preferred slot; RT runs from 0; every fitted far side is powered (Table: Start-up after power-on). -/
def State.release (s : State) : State :=
  let s := State.drawChallenges { s with pwr := { s.pwr with mode := .run, answers := true, t0 := s.clock }, ru := RegUnit.reset }
  let s := (((s.put REG.RT_LO 0 0).put REG.RT_HI 0 0).put REG.WRAP_PENDING 0 0).put SB.STAT_AWAKE 0 1
  let s := (s.put MOD.BOOT_STAGE 0 (if s.prefersB then stageCheckB else stageCheckA)).alert 1
  let s := s.forLanes allLanes fun n s => if s.fitted n then (s.upLink n fun l => { l with huntFrom := s.clock }).powerUp n else s
  (s.fixAuto).rtShow

/-- The ticks for which a module reset is held at least: 100 µs after MRST# has returned high, 1 ms after a soft reset and a watchdog expiry
(Table: Reset sources); a supply's own time is in the row that brings it. -/
def holdTicks (cause : Nat) : Nat := if cause = 3 then 20000 else if cause = 4 ∨ cause = 5 then msTicks else 0

/-- The module's reset may end. -/
def State.releasable (s : State) : Bool :=
  s.pwr.mode == .inReset && !s.pwr.mrstLow && !s.pwr.brownout && vinOk s.pwr.vin
    && decide (s.pwr.heldFrom + holdTicks (s.g MOD.RESET_CAUSE_CAUSE 0) ≤ s.clock)

def execResetRelease (which : Option LaneId) (s : State) : Out :=
  fin (match which with
    | none => if s.releasable then s.release else s
    | some n =>
      if !s.awake || !s.fitted n then s
      else if s.phase n = phReset then
        if s.clock < (s.lane n).link.huntFrom + msTicks then s
        else
        let s := s.upLink n fun l => { l with huntFrom := s.clock }
        if s.pwr.mode = .run ∧ s.on THERM.STAT_SHED 0 = false then s.powerUp n else s.setPhase n phOff
      else if (s.eng n).run = .reset ∧ (s.gal n).d0Paused = true ∧ s.chaseUp = true ∧ (s.eng n).since + 20000 ≤ s.clock then s.startMonitor n
      else s)

/-! ### Boot (R64 to R68) -/

/-- The watchdog, which runs from t0 and is serviced at least every 250 ms, expires: a shelf record with the program counter and the stage, and a
reset that counts in TRIES. -/
def execWatchdogExpiry (pc : Word) (s : State) : Out :=
  fin (if s.awake && decide (s.pwr.t0 + 250 * msTicks ≤ s.clock) then
    let s := s.shelve (s.mkEntry 0x033 noLane 0x31 0 [pc, BitVec.ofNat 32 (s.g MOD.BOOT_STAGE 0), 0, 0, 0, 0, 0]) true
    let tries := min (s.g MOD.BOOT_TRIES 0 + 1) 3
    let s := s.put MOD.BOOT_TRIES 0 tries
    let s := if tries = 3 ∧ s.g MOD.BOOT_IMAGE 0 ≠ 0 then { s with pwr := { s.pwr with failedSlot := some s.bootedB } } else s
    s.moduleReset 5 5
  else s)

/-- Does the ROM accept a slot (R65, R66)? -/
def State.acceptsSlot (s : State) (b : Bool) : Bool :=
  let x := s.slot b
  x.present && x.verified && decide (s.g MOD.BOOT_ROLLBACK 0 ≤ x.rollback) && s.pwr.failedSlot != some b

/-- The check of the slot that STAGE names is complete: it boots, or the other is checked, or Chase is in NO_IMAGE (R67). -/
def State.bootCheck (s : State) (b : Bool) : State :=
  let second := if b then s.on MOD.BOOT_A_BAD 0 else s.on MOD.BOOT_B_BAD 0
  if s.acceptsSlot b then
    ((s.put MOD.BOOT_IMAGE 0 (if b then 2 else 1)).put MOD.BOOT_FALLBACK 0 (b2n second)).put MOD.BOOT_STAGE 0 stageInit
  else
    let s := if b then s.put MOD.BOOT_B_BAD 0 1 else s.put MOD.BOOT_A_BAD 0 1
    if second then
      let s := (s.put MOD.BOOT_STAGE 0 stageNoImage).logIt 0x035 noLane 0x20
      { s with pwr := { s.pwr with bootFailed := true } }
    else s.put MOD.BOOT_STAGE 0 (if b then stageCheckA else stageCheckB)

def execBootImageCheck (s : State) : Out :=
  fin (if s.pwr.mode != .run then s
  else if s.g MOD.BOOT_STAGE 0 = stageCheckA then s.bootCheck false
  else if s.g MOD.BOOT_STAGE 0 = stageCheckB then s.bootCheck true
  else s)

/-- Shelf records made while Chase was not running go to the fault region with FROM_SHELF, oldest first (R473). -/
def State.shelfCopy (s : State) : State :=
  if s.on LOG.STAT_FROZEN 0 then s
  else
    let due := (s.pwr.shelf.filter (·.toCopy)).reverse
    let s := { s with pwr := { s.pwr with shelf := s.pwr.shelf.map fun r => { r with toCopy := false } } }
    due.foldl (fun s r => s.intoFault { r.entry with flags := r.entry.flags ||| 8 }) s

/-- The page event that woke the module is raised (R176). -/
def State.nwReraise (s : State) : State :=
  let t := { s with evg := { s.evg with nwRaise := none } }
  match s.evg.nwRaise with
  | none => s
  | some e => match Page.ofNum e.1 with
    | some p => t.raise p e.2
    | none => t

/-- BOOT, the refused images, and a calendar lost with the island's power (R42, R467). -/
def State.bootEntries (s : State) : State :=
  let s := s.logIt 0x001 noLane 0x20
  let s := if s.on MOD.BOOT_A_BAD 0 && s.pwr.slotA.present then s.logIt 0x002 noLane 0x20 else s
  let s := if s.on MOD.BOOT_B_BAD 0 && s.pwr.slotB.present then s.logIt 0x002 noLane 0x20 else s
  if s.chase.calLost then (s.upChase fun c => { c with calLost := false }).logIt 0x041 noLane 0x20 else s

/-- Milliseconds since t0, as MOD.BOOT_TIME shows them. -/
def State.bootMs (s : State) : Nat := min ((s.clock - s.pwr.t0) / msTicks) 0xFFFF

/-- Chase reaches RUNNING (R68, R176, R467, R473, R475). -/
def State.chaseStart (s : State) : State :=
  let s := (s.put MOD.BOOT_STAGE 0 stageRunning).put MOD.BOOT_TIME_CHASE_MS 0 s.bootMs
  let s := { s with pwr := { s.pwr with watchdog := false, runAt := s.clock }, log := { s.log with bucketAt := s.clock } }
  let s := (State.calShow s (if s.chase.islandSet then srcIsland else srcNone) false).bootEntries
  let s := (s.shelfCopy).nwReraise
  (if s.log.ahead = 0 then s.wearDue else s).calEvaluate

def execChaseRunning (s : State) : Out :=
  fin (if s.awake && s.g MOD.BOOT_STAGE 0 == stageInit && !s.chase.worksDue then s.chaseStart else s)

/-- 60 s in ticks of the system clock. -/
def confirmTicks : Nat := 60000 * msTicks

def execBootConfirmed (s : State) : Out :=
  fin (if s.chaseUp && s.awake && decide (s.pwr.runAt + confirmTicks ≤ s.clock) then
    let s := (s.put MOD.BOOT_CONFIRMED 0 1).put MOD.BOOT_TRIES 0 0
    { s with pwr := { s.pwr with failedSlot := none } }
  else s)

/-! ### The far-side self-test and readiness (R76 to R79) -/

/-- LANES_READY and LANES_MS, once every fitted lane is READY or SAFE. -/
def State.lanesCheck (s : State) : State :=
  let fit := allLanes.filter fun n => s.fitted n
  if !s.pwr.lanesDone && fit.all fun n => s.phase n == phReady || s.phase n == phSafe then
    let s := { s with pwr := { s.pwr with lanesDone := true } }
    (s.put MOD.BOOT_TIME_LANES_MS 0 (if fit.any fun n => s.phase n == phSafe then 0xFFFF else s.bootMs)).raiseMod 0
  else s

/-- All twelve checks have run; `failed` has the outcomes, but for [10] CAL, which Chase's record decides. The monitor of a lane that
has not run one starts. -/
def execSelftestComplete (n : LaneId) (failed : BitVec 12) (s : State) : Out :=
  fin (if s.farUp n && s.phase n == phSelftest && (s.lane n).link.locked && s.chaseUp then
    let bits := (failed.toNat &&& 0xBFF) ||| (if (s.calRec n).isNone then 0x400 else 0)
    let s := if (s.eng n).run = .reset then s.startMonitor n else s
    let s := s.put LANE.SELFTEST_DONE n 1
    if bits = 0 then s.put LANE.SELFTEST_PASS n 1 else (s.laneFails n bits 0x031).lanesCheck
  else s)

/-- A lane becomes READY: its image is applied, or replayed to a far side that has been READY before (R77, R81). The coarse path starts on its
lattice (R265); a lane whose far-side power went in DISCHARGE has its 300 ms of R246 before it again (log 119). -/
def State.becomeReady (s : State) (n : LaneId) : State :=
  let again := (s.lane n).link.stale && (s.lane n).link.everReady
  let s := (s.setPhase n phReady).coarseRestart n
  let s := if s.g SMU.STAT_STATE n = 5 then s.upSmu n fun x => { x with since := s.clock } else s
  let s := if again then s.queueReplay n else (((s.applyImage n).laneApplied n).setStale n false).leaveSafe n
  let s := (s.upLink n fun l => { l with everReady := true }).raiseLane n 0
  let s := (s.calLane n).calDueSoon n
  s.lanesCheck

def execLaneReady (n : LaneId) (s : State) : Out :=
  fin (if s.farUp n && s.phase n == phSelftest && (s.lane n).link.locked && s.on LANE.SELFTEST_PASS n && s.on LANE.STATE_DISCIPLINED n then
    s.becomeReady n else s)

end Sys2Proof.Machine
end

