-- ==== Sys2Proof/Machine/Svc.lean ====
section
/-! DEFINITION. Chase's service mailboxes and services (spec/18_chase_services.md R447 to R457, R460, R461, R469): requests in the order of
their GOs, firmware images, signed programs, calibration writes, notes, program ends, and the program-signing keys. -/

namespace Sys2Proof.Machine

/-- The codes of Table: Services. -/
def svcCodes : List Nat := [1, 2, 3, 4, 5, 6, 8, 9, 0xA]

/-! ### Mailboxes (R447, R448) -/

/-- Byte address of word k of a lane monitor's mailbox. -/
def monBox (k : Nat) : Nat := 0x401FFC0 + 4 * k

/-- The word of SVC_STAT. -/
def statWord (state outcome op seq : Nat) : Word := BitVec.ofNat 32 (state * 2 ^ 24 + outcome * 65536 + op * 256 + seq)

/-- A session's mailbox. -/
def State.box (s : State) (k : SessId) : Box := s.chase.boxes[k]
def State.upBox (s : State) (k : SessId) (f : Box → Box) : State := s.upChase fun c => { c with boxes := c.boxes.set k (f (s.box k)) }

/-- A request ends: results, then STAT with DONE, then SVC_DONE for a session. -/
def State.svcDone (s : State) (r : SvcReq) (outcome : Nat) (res : List Word) : State :=
  let res := (res ++ List.replicate 4 0).take 4
  if h : r.who < 8 then
    (s.upBox ⟨r.who, h⟩ fun b => { b with state := 2, outcome := outcome, res := Vector.ofFn fun i => res[i.val]?.getD 0 }).raise .chase 0
  else if h : 0x10 ≤ r.who ∧ r.who < 0x20 then
    let n : LaneId := ⟨r.who - 0x10, by omega⟩
    let s := (res.zip (List.range 4)).foldl (fun s e => s.putWord n (monBox (8 + e.2)) e.1) s
    s.putWord n (monBox 14) (statWord 2 outcome r.op (s.chase.monSeq[n]))
  else s

/-- Requests at the head of the queue that name no service end at once with RANGE. -/
def State.svcSkip (s : State) : Nat → State
  | 0 => s
  | k + 1 =>
    match s.chase.queue with
    | [] => s
    | r :: rest =>
      if svcCodes.contains r.op then s
      else State.svcSkip ((s.upChase fun c => { c with queue := rest }).svcDone r svRange []) k

/-- A request joins the queue. -/
def State.svcPut (s : State) (r : SvcReq) : State :=
  let s := s.upChase fun c => { c with queue := c.queue ++ [r] }
  s.svcSkip s.chase.queue.length

/-- Does a requester's mailbox hold a request that Chase has not ended? -/
def State.svcBusy (s : State) (who : Nat) : Bool := s.chase.queue.any fun r => r.who == who

/-- The check of SVC_GO. -/
def State.svcChk (s : State) (w : Writer) (v : Word) : Option Nat :=
  if bitAt v 31 && s.svcBusy w.holder then some errRange else none

/-- A session's accepted GO. -/
def State.svcGo (s : State) (k : SessId) (v : Word) : State :=
  if bitAt v 31 then
    let s := s.upBox k fun b => { b with state := 1, outcome := 0, op := bitsOf v 7 0, seq := (b.seq + 1) % 256 }
    s.svcPut ⟨k.val, bitsOf v 7 0, (s.box k).args.toList⟩
  else s

/-- A monitor's store to word 15 of its mailbox: ignored while a request is in it. -/
def State.monitorGo (s : State) (n : LaneId) (v : Word) : State :=
  let who := 0x10 + n.val
  if !bitAt v 31 || s.svcBusy who then s
  else
    let seq := (s.chase.monSeq[n] + 1) % 256
    let args := (List.range 8).map fun k => s.memWord n (monBox k)
    let s := s.upChase fun c => { c with monSeq := c.monSeq.set n seq }
    (s.putWord n (monBox 14) (statWord 1 0 (bitsOf v 7 0) seq)).svcPut ⟨who, bitsOf v 7 0, args⟩

def execSvcGo (k : SessId) (v : Word) (s : State) : Out :=
  fin (pressOne (.host k) .chase 0x20 v 0 (fun _ => s.svcChk (.host k) v) (fun s => s.svcGo k v) s)

/-- The store at monitor privilege that starts a service. -/
def execMonitorSvcGo (n : LaneId) (v : Word) (s : State) : Out :=
  fin (if s.fitted n && (s.eng n).run == .running && (s.eng n).sp.psr.mon && s.chaseUp then (s.putWord n (monBox 15) v).monitorGo n v else s)

/-- Chase serves the request at the head of its queue, if it is one for this service. -/
def State.serve (s : State) (op : Nat) (f : SvcReq → State → (Nat × List Word) × State) : State :=
  match s.chase.queue with
  | [] => s
  | r :: rest =>
    if r.op ≠ op ∨ s.chaseUp = false ∨ s.awake = false then s
    else
      let (e, s) := f r (s.upChase fun c => { c with queue := rest })
      let s := s.svcDone r e.1 e.2
      s.svcSkip s.chase.queue.length

/-- An outcome with no result and no other effect. -/
def svcEnds (code : Nat) (s : State) : (Nat × List Word) × State := ((code, []), s)

/-! ### Requesters and arguments -/

/-- A session, S0 included, with a bit of SERVICES. -/
def State.svcRight (s : State) (r : SvcReq) (bit : Nat) : Bool :=
  decide (r.who < 8) && (r.who == 0 || bitAt (s.wd (SESS.SERVICES.addr 0 r.who)) bit)

/-- A session's bit for a lane; `kind` asks for write rights to that kind of page as well. -/
def State.svcLane (s : State) (r : SvcReq) (n : LaneId) (kind : Option LaneKind) : Bool :=
  let l := s.wd (SESS.LANES.addr 0 r.who)
  r.who == 0 || (bitAt l n.val && match kind with | some k => bitAt l (24 + k.num) | none => true)

/-- A requester that is a lane's engine. -/
def SvcReq.engine (r : SvcReq) : Option LaneId := if h : 0x10 ≤ r.who ∧ r.who < 0x20 then some ⟨r.who - 0x10, by omega⟩ else none

/-! ### FRISKET_REQUEST and FRISKET_RELEASE (R460, R461) -/

/-- The lane of a frisket request, or the outcome that refuses it. -/
def State.friskLane (s : State) (r : SvcReq) : Except Nat LaneId :=
  match r.engine with
  | some n => .ok n
  | none =>
    if !s.svcRight r 1 then .error svRights
    else match laneArg (r.arg 0) with
      | none => .error svRange
      | some n => if !s.svcLane r n none then .error svRights else if !s.fitted n then .error svAbsent else .ok n

/-- The session that loaded lane n's program. -/
def State.loader (s : State) (n : LaneId) : Option SessId := s.chase.loaders[n]

/-- What an engine may have at most: the loading session's grant on the lane as it stands (R461). -/
def State.loaderFrisket (s : State) (n : LaneId) : Frisket :=
  match s.loader n with
  | some k => s.frisket k.val n.val
  | none => baseFrisket

def friskRequest (r : SvcReq) (s : State) : (Nat × List Word) × State :=
  match s.friskLane r with
  | .error e => svcEnds e s
  | .ok n =>
    let want : Frisket := ⟨r.arg 1, r.arg 2, r.arg 3⟩
    if limitBad want.v hwMax.v || limitBad want.i hwMax.i || limitBad want.e hwMax.e || decide (86400 < (r.arg 4).toNat) then svcEnds svRange s
    else
      let f := Frisket.min want (s.ceiling n)
      let f := if r.engine.isSome then Frisket.min f (s.loaderFrisket n) else f
      let parent := if r.engine.isSome then (s.loader n).map (·.val) else none
      let s := s.setGrant r.who n f (r.arg 4).toNat parent
      ((if f = want then svOk else svClamped, [f.v, f.i, f.e]), s)

def friskRelease (r : SvcReq) (s : State) : (Nat × List Word) × State :=
  match s.friskLane r with
  | .error e => svcEnds e s
  | .ok n => svcEnds svOk (s.endGrant r.who n)

def execFrisketRequest (s : State) : Out := fin (s.serve 2 friskRequest)
def execFrisketRelease (s : State) : Out := fin (s.serve 3 friskRelease)

/-! ### CAL_WRITE (R469, R470) -/

/-- A gain from 0.9 to 1.1. -/
def gainOk (w : Word) : Bool := f32Le 0x3F666666 w && f32Le w 0x3F8CCCCD

/-- Check 3 of R469. -/
def recFormatOk (r : List Byte) (lane : Nat) : Bool :=
  r.length == 256 && recNat r 0 4 == recMagic && recNat r 4 1 == lane && zeros r 6 2 && zeros r 0x10 16 && zeros r 0xF0 12 && recValid r
    && decide (1 ≤ recInterval r) && decide (recInterval r ≤ 60) && f32Finite (recWord r 0xC)
    && (List.range 21).all fun i => gainOk (recEntry r i).1 && f32Finite (recEntry r i).2

/-- CAL_DATE is possible and not after today; with the calendar not set no date is known to be that (log 42). -/
def State.recDateOk (s : State) (r : List Byte) : Bool :=
  dateOk (recDate r) && match s.calNow with
    | some t => decide (secOf (recDate r) 0 ≤ t)
    | none => false

def calWrite (ok : Bool) (r : SvcReq) (s : State) : (Nat × List Word) × State :=
  if !s.svcRight r 2 then svcEnds svRights s
  else match laneArg (r.arg 0) with
  | none => svcEnds svRange s
  | some n =>
    if !s.svcLane r n none then svcEnds svRights s
    else if !s.fitted n then svcEnds svAbsent s
    else if !(s.lane n).link.locked then svcEnds svStale s
    else if !s.stopped (.lane n .smu) || s.flashBusy then svcEnds svBusy s
    else match s.stagedBytes n (r.arg 1) (r.arg 2) with
    | none => svcEnds svRange s
    | some b =>
      if !recFormatOk b n.val then svcEnds svFormat s
      else if !s.recDateOk b then svcEnds svDate s
      else if 2399 < dateYear (recDue b) then svcEnds svRange s
      else if !ok then svcEnds svFlash s
      else
        let s := s.upChase fun c => { c with recs := c.recs.set n (some b), dueTold := c.dueTold &&& ~~~(BitVec.twoPow 16 n.val) }
        svcEnds svOk ((s.logIt 0x024 n.val r.who).calLane n)

def execCalWrite (ok : Bool) (s : State) : Out := fin (s.serve 4 (calWrite ok))

/-! ### Firmware images (R450 to R452) -/

def imageWrite (ok : Bool) (r : SvcReq) (s : State) : (Nat × List Word) × State :=
  match s.imageAsk r with
  | .error e => svcEnds e s
  | .ok b =>
    if !ok then svcEnds svFlash (s.putSlot (!s.bootedB) badSlot)
    else svcEnds svOk ((s.putSlot (!s.bootedB) (imgSlot b)).logIt 0x004 noLane r.who)

def execImageWrite (ok : Bool) (s : State) : Out := fin (s.serve 5 (imageWrite ok))

def rollbackAdvance (r : SvcReq) (s : State) : (Nat × List Word) × State :=
  let k := (r.arg 0).toNat
  if r.who ≠ 0 then svcEnds svRights s
  else if s.g MOD.BOOT_ROLLBACK 0 < k ∧ k ≤ 63 ∧ k ≤ (s.slot s.bootedB).rollback ∧ s.on MOD.BOOT_CONFIRMED 0 = true then
    svcEnds svOk ((s.put MOD.BOOT_ROLLBACK 0 k).logIt 0x003 noLane r.who)
  else svcEnds svRange s

def execRollbackAdvance (s : State) : Out := fin (s.serve 6 rollbackAdvance)

/-! ### Notes and program ends (R457) -/

def logNote (r : SvcReq) (s : State) : (Nat × List Word) × State :=
  match r.engine with
  | none => svcEnds svRights s
  | some n => svcEnds svOk (s.logWith 0x026 n.val r.who (r.args.take 7))

/-- PROGRAM_END, or with the trap's CAUSE, EPC and TVAL an ENGINE_END (log 38): the engine is reset, and the entry written. -/
def programEnd (fault : Bool) (r : SvcReq) (s : State) : (Nat × List Word) × State :=
  match r.engine with
  | none => svcEnds svRights s
  | some n =>
    let sp := (s.eng n).sp
    let d : List Word := (r.arg 0 &&& 0xFF) :: (if fault then [r.arg 7, sp.epc, sp.tval] ++ (r.args.drop 1).take 3 else (r.args.drop 1).take 6)
    svcEnds svOk ((s.engineResetNow n r.who).logWith (if fault then 0x037 else 0x027) n.val r.who d)

def execLogNote (s : State) : Out := fin (s.serve 8 logNote)
def execProgramEnd (s : State) : Out := fin (s.serve 9 (programEnd false))
def execEngineEnd (s : State) : Out := fin (s.serve 0xA (programEnd true))

/-! ### Program containers (R454, R455) -/

/-- A segment: VBASE, PHYS, LEN, FLAGS and its contents. -/
structure Seg where
  vbase : Nat
  phys : Nat
  len : Nat
  flags : Nat
  data : List Byte
  deriving DecidableEq, Repr

def Seg.demand (x : Seg) : Bool := x.flags / 8 % 2 == 1
def Seg.exec (x : Seg) : Bool := x.flags / 4 % 2 == 1

/-- Header fields, lengths and reserved bytes (check 3). -/
def pgmHeaderOk (b : List Byte) : Bool :=
  let count := recNat b 0x14 4
  let body := recNat b 0x18 4
  decide (256 ≤ b.length) && recNat b 0 4 == 0x50474D31 && recNat b 4 2 == 3 && decide (recNat b 6 1 ≤ 3) && zeros b 7 1
    && recNat b 0xA 2 == 0 && decide (1 ≤ count) && decide (count ≤ 64) && decide (body ≤ 4194048) && b.length == 256 + body
    && decide (16 * count ≤ body) && zeros b 0x60 64

/-- The segments, each with the contents that the container holds for it. -/
def pgmSegs (b : List Byte) : List Seg :=
  let count := recNat b 0x14 4
  let step : List Seg × List Byte → Nat → List Seg × List Byte := fun (acc, rest) i =>
    let o := 0x100 + 16 * i
    let x : Seg := ⟨recNat b o 4, recNat b (o + 4) 4, recNat b (o + 8) 4, recNat b (o + 12) 4, []⟩
    if x.demand then (acc ++ [x], rest) else (acc ++ [{ x with data := rest.take x.len }], rest.drop x.len)
  ((List.range count).foldl step ([], b.drop (0x100 + 16 * count))).1

/-- Do two ranges meet? -/
def meets (a la b lb : Nat) : Bool := decide (a < b + lb) && decide (b < a + la)

/-- One segment lies where R455 allows. -/
def Seg.ok (x : Seg) : Bool :=
  let inside (lo hi : Nat) : Bool := decide (lo ≤ x.phys) && decide (x.phys + x.len ≤ hi)
  x.vbase % 4096 == 0 && x.phys % 4096 == 0 && decide (x.flags < 16) && decide (x.vbase + x.len ≤ 2 ^ 32)
    && (if x.exec then inside 0x4004000 0x4010000 else inside 0x4014000 0x401FFC0 || inside 0x100000 storeSize)

/-- No two segments of a list overlap, in either address space. -/
def segsApart : List Seg → Bool
  | [] => true
  | x :: r => (r.all fun y => !meets x.phys x.len y.phys y.len && !meets x.vbase x.len y.vbase y.len) && segsApart r

/-- The galley and the host-writable region of a container, in bytes. -/
structure Geometry where
  vbase : Nat
  pbase : Nat
  size : Nat
  mode : Nat
  hwBase : Nat
  hwLimit : Nat
  deriving DecidableEq, Repr

def pgmGeometry (b : List Byte) : Geometry :=
  ⟨recNat b 0x1C 4, recNat b 0x20 4, recNat b 0x24 4, recNat b 0x28 4, recNat b 0x2C 4, recNat b 0x30 4⟩

/-- The limits of R438 and R444. -/
def Geometry.ok (g : Geometry) : Bool :=
  g.size % 256 == 0 && decide (256 ≤ g.size) && decide (g.size ≤ 3145728) && g.vbase % 4096 == 0 && g.pbase % 4096 == 0
    && decide (g.pbase + 16 * g.size ≤ storeSize) && decide (g.mode ≤ 1) && g.hwBase % 4096 == 0 && g.hwLimit % 4096 == 0
    && decide (g.hwBase ≤ storeSize) && decide (g.hwLimit ≤ storeSize)

/-- Check 7. -/
def pgmSegsOk (segs : List Seg) (g : Geometry) : Bool :=
  segs.all Seg.ok && segsApart segs && g.ok
    && segs.all fun x => !meets x.phys x.len g.pbase (16 * g.size) && !meets x.phys x.len g.hwBase (g.hwLimit - g.hwBase)

/-- An installed program-signing key, as bytes. -/
def State.pkey (s : State) (j : Nat) : List Byte := wordBytes ((List.range 8).map fun i => s.wd (CHASE.PKEY.addr 0 (8 * j + i)))

def pgmDigest (b : List Byte) : List Byte := (b.drop 0xA0).take 32

/-- Checks 4 to 7 of R455: the outcome of the first that fails. -/
def State.pgmCheck (s : State) (n : LaneId) (b : List Byte) : Nat :=
  let d := sha256 (b.take 0xA0 ++ b.drop 0x100)
  if recNat b 8 2 / 2 ^ n.val % 2 = 0 then svRights
  else if bitAt (s.wd (CHASE.PKEY_VALID.addr 0 0)) (recNat b 6 1) = false then svNoKey
  else if (pgmDigest b == d && edVerify (s.pkey (recNat b 6 1)) ((b.drop 0xC0).take 64) d) = false then svSignature
  else if pgmSegsOk (pgmSegs b) (pgmGeometry b) = false then svFormat
  else svOk

/-! ### Loading a program (R456) -/

/-- The monitor's page tables: the first level in the first page of lane store, second-level tables in the pages after it (text after
R456; log 43). `next` is the first page that is free. -/
def State.mapPage (s : State) (n : LaneId) (next : Nat) (va pa perm : Nat) : Nat × State :=
  let a1 := 4 * (va / 2 ^ 22 % 1024)
  let (next, s) := if bitAt (s.memWord n a1) 0 then (next, s)
    else (next + 1, (s.putMem n (4096 * next) (List.replicate 4096 0)).putWord n a1 (BitVec.ofNat 32 (4096 * next + 1)))
  let t := bitsOf (s.memWord n a1) 26 12
  (next, s.putWord n (4096 * t + 4 * (va / 4096 % 1024)) (BitVec.ofNat 32 (pa / 4096 * 4096 + perm)))

/-- Map a range, page by page. -/
def State.mapRange (s : State) (n : LaneId) (next va pa len perm : Nat) : Nat × State :=
  (List.range ((len + 4095) / 4096)).foldl (fun (e : Nat × State) i => State.mapPage e.2 n e.1 (va + 4096 * i) (pa + 4096 * i) perm) (next, s)

/-- The second-level permission bits of a segment: V, R, W, X, U, and DMA for what is not fetched. -/
def Seg.perm (x : Seg) : Nat := 0x11 + 2 * (x.flags % 8) + (if x.exec then 0 else 0x80)

/-- Segments that are not DEMAND, and the galley, are mapped. -/
def State.mapProgram (s : State) (n : LaneId) (segs : List Seg) (g : Geometry) : State :=
  let s := s.putMem n 0 (List.replicate 4096 0)
  let e := (segs.filter fun x => !x.demand).foldl (fun (e : Nat × State) x => State.mapRange e.2 n e.1 x.vbase x.phys x.len x.perm) (1, s)
  (State.mapRange e.2 n e.1 g.vbase g.pbase (16 * g.size) 0x97).2

/-- Every segment at its PHYS, the rest of LEN zero; DEMAND segments are left to the monitor's first touch. -/
def State.copySegs (s : State) (n : LaneId) (segs : List Seg) : State :=
  (segs.filter fun x => !x.demand).foldl (fun s x => s.putMem n x.phys ((x.data ++ List.replicate x.len 0).take x.len)) s

/-- The galley runs with the container's geometry, and the host-writable region is its own. -/
def State.startGalley (s : State) (n : LaneId) (g : Geometry) : State :=
  let s := ((s.put LANE.GAL_VBASE n (g.vbase / 4096)).put LANE.GAL_PBASE n (g.pbase / 4096)).put LANE.GAL_SIZE n g.size
  let s := (s.put LANE.HWR_BASE n (g.hwBase / 4096)).put LANE.HWR_LIMIT n (g.hwLimit / 4096)
  galCtlEff n (BitVec.ofNat 32 (16 * g.mode + 1)) (galCtlEff n (BitVec.ofNat 32 (16 * g.mode)) s)

/-- User privilege at ENTRY, with TRANS and TE set. -/
def State.enterUser (s : State) (n : LaneId) (entry : Word) : State :=
  s.upEng n fun e => { e with pc := entry, sp := { e.sp with ptbr := 0, mmuEn := true, psr := ⟨false, true, false, true, false⟩ } }

/-- Bytes as words, most significant byte first. -/
def beWords (k : Nat) (bs : List Byte) : List Word := (List.range k).map fun i => BitVec.ofNat 32 (beNat ((bs.drop (4 * i)).take 4))

/-- The steps of R456. -/
def State.loadProgram (s : State) (n : LaneId) (k : SessId) (b : List Byte) : State :=
  let segs := pgmSegs b
  let s := (s.engineResetNow n k.val).copySegs n segs
  let s := (s.startMonitor n).mapProgram n segs (pgmGeometry b)
  let s := (s.upChase fun c => { c with loaders := c.loaders.set n (some k) })
  let s := match s.grantOf k.val n.val with
    | some g => s.setGrant (0x10 + n.val) n (Frisket.min ⟨recWord b 0x34, recWord b 0x38, recWord b 0x3C⟩ ⟨g.vmax, g.imax, g.emax⟩) 0 (some k.val)
    | none => s
  ((s.startGalley n (pgmGeometry b)).enterUser n (recWord b 0x10)).logWith 0x020 n.val k.val (recWord b 0xC :: beWords 6 (pgmDigest b))

/-- Checks 1 to 3 of R455: the session, the lane and the container's bytes, or the outcome. -/
def State.pgmAsk (s : State) (r : SvcReq) : Except Nat (SessId × LaneId × List Byte) :=
  if h : r.who < 8 then
    if !s.svcRight r 0 then .error svRights
    else match laneArg (r.arg 0) with
    | none => .error svRange
    | some n =>
      if !s.svcLane r n (some .eng) then .error svRights
      else if !s.fitted n || s.phase n != phReady then .error svAbsent
      else if !(s.lane n).link.locked then .error svStale
      else match s.stagedBytes n (r.arg 1) (r.arg 2) with
        | none => .error svRange
        | some b => if pgmHeaderOk b then .ok (⟨r.who, h⟩, n, b) else .error svFormat
  else .error svRights

def programLoad (r : SvcReq) (s : State) : (Nat × List Word) × State :=
  match s.pgmAsk r with
  | .error e => svcEnds e s
  | .ok (k, n, b) =>
    let code := s.pgmCheck n b
    if code ≠ svOk then svcEnds code (s.logIt 0x021 n.val r.who)
    else ((svOk, [recWord b 0xA0]), s.loadProgram n k b)

def execProgramLoad (s : State) : Out := fin (s.serve 1 programLoad)

/-! ### Program-signing keys (R453) -/

/-- The checks of a PKEY_CTL word; `words` are the PKEY_LOAD words of the same press, if it writes all eight. -/
def pkeyChk (words : List Word) (v : Word) : Option Nat :=
  if bitAt v 8 && (bitAt v 9 || words.length != 8) then some errRange else none

/-- Slot j holds these words, or is empty. -/
def State.putPkey (s : State) (j : Nat) (words : List Word) (valid : Bool) : State :=
  let s := (words.zip (List.range 8)).foldl (fun s e => s.setWd (CHASE.PKEY.addr 0 (8 * j + e.2)) e.1) s
  s.put CHASE.PKEY_VALID 0 (bitsOf (withBits (s.wd (CHASE.PKEY_VALID.addr 0 0)) j j (b2n valid)) 3 0)

def pkeyEff (h : Nat) (words : List Word) (v : Word) (s : State) : State :=
  let j := bitsOf v 1 0
  if bitAt v 8 then ((s.putPkey j words true).logIt 0x018 noLane h).raise .chase 2
  else if bitAt v 9 then ((s.putPkey j (List.replicate 8 0) false).logIt 0x018 noLane h).raise .chase 2
  else s

def pkeyPress (w : Writer) (words : List Word) (v : Word) (s : State) : State :=
  pressOne w .chase 0x27 v 0 (fun _ => pkeyChk words v) (pkeyEff w.holder words v) s

def execPkeyLoad (w : Writer) (words : List Word) (v : Word) (s : State) : Out :=
  fin (pkeyPress w words (withBits (withBits v 8 8 1) 9 9 0) s)
def execPkeyErase (w : Writer) (v : Word) (s : State) : Out := fin (pkeyPress w [] (withBits (withBits v 9 9 1) 8 8 0) s)

/-! ### The CHASE page -/

/-- The checks of one CHASE word; `words` are the PKEY_LOAD words of the press. -/
def chaseChk (w : Writer) (off : Nat) (words : List Word) (v : Word) (s : State) : Option Nat :=
  if off = 0x20 then s.svcChk w v
  else if off = 0x27 then pkeyChk words v
  else if 0x60 ≤ off ∧ off ≤ 0x9F ∧ off % 4 ≠ 3 then ceilChk (off % 4) v
  else none

/-- The effect of an accepted CHASE word. -/
def chaseEff (w : Writer) (off : Nat) (words : List Word) (v proof : Word) (s : State) : State :=
  if 0x60 ≤ off ∧ off ≤ 0x9F then
    (if off % 4 = 3 then s else ceilEff ⟨(off - 0x60) / 4 % 16, Nat.mod_lt _ (by decide)⟩ off v proof s)
  else if off = 0x27 then pkeyEff w.holder words v s
  else match w with
    | .host k =>
      if 0x18 ≤ off ∧ off ≤ 0x1F then s.upBox k fun b => { b with args := b.args.setIfInBounds (off - 0x18) v }
      else if off = 0x20 then s.svcGo k v else s
    | _ => s

end Sys2Proof.Machine
end

