-- ==== Sys2Proof/Machine/Sb.lean ====
section
/-! DEFINITION. The side-band port (spec/19_two_wire_ports.md R478 to R493; spec/03_reset_and_bring_up.md R63): taking a command, the
commands but for returns, PEC, sleep, self-reset, timeouts and the alert line. -/

namespace Sys2Proof.Machine

/-! ### Response codes and states (Table: Side-band response codes, R482) -/

def rcOk : Nat := 0
def rcBusy : Nat := 1
def rcUnknown : Nat := 2
def rcRange : Nat := 3
def rcState : Nat := 4
def rcAuth : Nat := 5
def rcGone : Nat := 6
def rcVerify : Nat := 7
def rcFlash : Nat := 8

/-- D: the island alone. B: the main side without Chase. R: Chase RUNNING. -/
inductive SbState where
  | d | b | r
  deriving DecidableEq, Repr

def State.sbState (s : State) : SbState := if !s.awake then .d else if s.chaseUp then .r else .b

/-- Boot has failed (R67). -/
def State.noImage (s : State) : Bool := s.g MOD.BOOT_STAGE 0 == stageNoImage

/-! ### Taking a command (R479, R480) -/

/-- Events of the SB page are raised while the main side runs. -/
def State.sbRaise (s : State) (bit : Nat) : State := if s.awake then s.raise .sb bit else s

/-- The front end has met its address: it stays awake for 100 ms from now (R489). -/
def State.sbMet (s : State) : State := { s with sb := { s.sb with awakeFrom := s.clock } }

/-- Less than 3 ms have passed since a wake NAK: a match may be NAKed again (R489). -/
def State.sbMayNak (s : State) : Bool := match s.sb.nakAt with | some t => decide (s.clock < t + 3 * msTicks) | none => false

/-- The front end meets its address; the answer says whether it serves this transaction. A sleeping one wakes, with a NAK if SLEEP asks for
it; a match within 3 ms of that NAK is NAKed or not as a free bit says (R489; log 128). -/
def State.sbAddressed (s : State) : Bool × State :=
  if s.on SB.STAT_AWAKE 0 then
    if s.sbMayNak then
      let (b, s) := s.fresh
      if b.getLsbD 0 then (false, s.sbMet.bump SB.WAKE_NAKS 0) else (true, s)
    else (true, s)
  else
    let s := (s.put SB.STAT_AWAKE 0 1).sbMet
    if s.on SB.CFG_SLEEP 0 then (false, State.bump { s with sb := { s.sb with nakAt := some s.clock } } SB.WAKE_NAKS 0) else (true, s)

/-- COUNT, COMMANDS, SB_COMMAND, and the command word; the response has OP and COUNT of this command. -/
def State.sbTake (s : State) (op : Nat) (p : Byte) (arg : BitVec 16) : State :=
  let c := (s.sb.count + 1) % 16
  let s := State.bump { s with sb := { s.sb with count := c, awakeFrom := s.clock } } SB.COMMANDS 0
  let s := s.put SB.LAST_CMD 0 (op * 2 ^ 24 + p.toNat * 65536 + arg.toNat)
  (s.put SB.LAST_RSP 0 (op * 2 ^ 24 + c * 65536)).sbRaise 0

/-- What a command answers: RCODE and DATA. -/
abbrev SbAnswer := Nat × Nat

/-- A command that ends at once. -/
def State.sbReply (s : State) (a : SbAnswer) : State := s.put SB.LAST_RSP 0 (s.sbWord a.1 a.2).toNat

/-- A command that takes longer shows BUSY, and its answer waits for SB_COMMAND_COMPLETE. -/
def State.sbLater (s : State) (a : SbAnswer) : State :=
  let rsp := s.sbWord a.1 a.2
  State.sbReply { s with sb := { s.sb with busy := some rsp } } (rcBusy, 0)

/-- One command word: NAKed while the last command is BUSY; then its word is judged, then the state. `words` is the judgement
(RCODE 0: right), `where_` the states, `slow` says that its limit exceeds 100 µs. -/
def sbCommand (op : Nat) (p : Byte) (arg : BitVec 16) (words : Nat) (where_ : State → Bool) (slow : Bool)
    (run : State → SbAnswer × State) (s : State) : Out :=
  fin (if !s.pwr.islandOn then s
  else
    let (serves, s) := s.sbAddressed
    if !serves then s
    else if s.sb.busy.isSome then s.sbMet
    else
      let s := s.sbTake op p arg
      if words ≠ rcOk then s.sbReply (words, 0)
      else if !where_ s then s.sbReply (rcState, 0)
      else
        let (a, s) := run s
        if slow then s.sbLater a else s.sbReply a)

/-- Judgements of a command word: both fields 0; P in a range; P 0 with an ARG that fits. -/
def bothZero (p : Byte) (arg : BitVec 16) : Nat := if p = 0 ∧ arg = 0 then rcOk else rcRange
def upTo (p : Byte) (k : Nat) : Nat := if p.toNat ≤ k then rcOk else rcUnknown
def zeroAnd (p : Byte) (ok : Bool) : Nat := if p = 0 ∧ ok = true then rcOk else rcRange

def anyState (_ : State) : Bool := true
def inR (s : State) : Bool := s.sbState == .r
def inNoImage (s : State) : Bool := s.sbState == .b && s.noImage

def sbOk (s : State) : SbAnswer × State := ((rcOk, 0), s)

/-- The OPs of Table: Side-band commands, with the largest P of those that give P a range. -/
def sbOps : List (Nat × Option Nat) :=
  [(0x00, none), (0x01, some 5), (0x02, none), (0x03, none), (0x04, none), (0x05, some 3), (0x06, some 63), (0x07, some 1), (0x08, none),
   (0x09, some 31), (0x10, some 127), (0x11, some 127), (0x12, none), (0x20, none), (0x21, some 1), (0x30, some 1), (0x31, none),
   (0x32, none), (0x40, none), (0x41, none)]

def execSbUnknownCommand (op p : Byte) (arg : BitVec 16) (s : State) : Out :=
  let known := match sbOps.find? fun e => e.1 == op.toNat with
    | some (_, some k) => decide (p.toNat ≤ k)
    | some (_, none) => true
    | none => false
  if known then fin s else sbCommand op.toNat p arg rcUnknown anyState false sbOk s

/-- A BUSY command finishes (R480, R493). -/
def execSbCommandComplete (s : State) : Out :=
  fin (match s.sb.busy with
    | some rsp => s.sbFinish rsp
    | none => s)

/-! ### Status and buffers (R481, Table: Status words) -/

def State.sbStatus (s : State) (p : Nat) : Nat :=
  let d := s.sbState == .d
  match p with
  | 0 =>
    let st := match s.pwr.mode with | .run => 0 | .quiet => 1 | .dormant => 2 | _ => 3
    st * 16384 + b2n (vinOk s.pwr.vin) * 8192 + b2n (auxOk s.pwr.aux) * 4096 + b2n s.faultLow * 2048 + b2n (!d && s.noImage) * 1024
      + b2n (s.on LOG.STAT_FROZEN 0) * 512 + b2n s.chase.islandSet * 256 + (if d then 0 else s.g MOD.BOOT_STAGE 0)
  | 1 => s.g MOD.RESET_CAUSE_CAUSE 0 * 4096 + s.g MOD.RESET_CAUSE_PREV_CAUSE 0 * 256 + s.pwr.shelf.length
  | 2 => s.fittedMask
  | 3 => if inR s then allLanes.foldl (fun m n => m + (if s.fitted n ∧ s.phase n = phReady then 2 ^ n.val else 0)) 0 else 0
  | 4 => s.pwr.vin / 10
  | _ => if inR s then bitsOf (s.slot s.bootedB).version 31 24 * 256 + bitsOf (s.slot s.bootedB).version 23 16 else 0

/-- Load bytes into the out-buffer from byte 0. -/
def State.sbLoad (s : State) (bs : List Byte) : State :=
  { s with sb := { s.sb with outBuf := (bs.zip (List.range bs.length)).foldl (fun b e => b.setIfInBounds e.2 e.1) s.sb.outBuf } }

/-- Bytes of the in-buffer. -/
def State.sbIn (s : State) (off k : Nat) : List Byte := (s.sb.inBuf.toList.drop off).take k

def execSbNop (p : Byte) (arg : BitVec 16) (s : State) : Out := sbCommand 0x00 p arg (bothZero p arg) anyState false sbOk s

def execSbStatus (p : Byte) (arg : BitVec 16) (s : State) : Out :=
  sbCommand 0x01 p arg (upTo p 5) anyState false (fun s => ((rcOk, s.sbStatus p.toNat), s)) s

def execSbDataWr (p : Byte) (arg : BitVec 16) (s : State) : Out :=
  sbCommand 0x10 p arg (upTo p 127) anyState false (fun s =>
    sbOk { s with sb := { s.sb with inBuf :=
      (s.sb.inBuf.setIfInBounds (2 * p.toNat) (BitVec.ofNat 8 (arg.toNat / 256))).setIfInBounds (2 * p.toNat + 1) (BitVec.ofNat 8 arg.toNat) } }) s

def execSbDataRd (p : Byte) (arg : BitVec 16) (s : State) : Out :=
  sbCommand 0x11 p arg (upTo p 127) anyState false (fun s => ((rcOk, beNat ((s.sb.outBuf.toList.drop (2 * p.toNat)).take 2)), s)) s

def execSbBufClear (p : Byte) (arg : BitVec 16) (s : State) : Out :=
  sbCommand 0x12 p arg (bothZero p arg) anyState false
    (fun s => sbOk { s with sb := { s.sb with inBuf := Vector.replicate 256 0, outBuf := Vector.replicate 256 0 } }) s

/-- An alert cause is pending and unmasked. -/
def State.alertDue (s : State) : Bool := s.g SB.STAT_PENDING 0 &&& (31 - s.g SB.CFG_ALERT_MASK 0) != 0

/-- SB_ALERT# is driven low (R493); a module reset releases it, and without island power it is high-impedance (Table: Output pin states). -/
def State.alertLow (s : State) : Bool := s.pwr.islandOn && s.pwr.mode != .inReset && s.alertDue

/-! ### Waking, ringing, the plane reset (R28, R63, R102, R485) -/

def execSbWake (p : Byte) (arg : BitVec 16) (s : State) : Out :=
  sbCommand 0x02 p arg (bothZero p arg) anyState false (fun s => sbOk (if s.pwr.mode = .dormant then s.wakeDormant 1 0 0 6 else s)) s

/-- RING in D is a ring for the night-watch copy, in R a ring of R159. -/
def State.sbRing (s : State) (i : Nat) : State :=
  if inR s then s.ring i
  else match s.pwr.mode, s.evg.nwCopy.find? (fun x => x.source == i) with
    | .dormant, some x => s.nwWake x
    | _, _ => s

def execSbRing (p : Byte) (arg : BitVec 16) (s : State) : Out :=
  sbCommand 0x03 p arg (zeroAnd p (decide (992 ≤ arg.toNat ∧ arg.toNat ≤ 1023))) (fun s => s.sbState != .b) false
    (fun s => sbOk (s.sbRing arg.toNat)) s

/-- A plane reset: records and read buffers go, and the next transaction of each open session is not executed (R63, R102). -/
def State.planeReset (s : State) (origin : Nat) : State :=
  let s := { s with forme := FormeOut.reset }
  let s := allSess.foldl (fun (s : State) k => s.upSess k fun x => { x with record := none, afterPlaneReset := x.isOpen }) s
  s.logIt 0x052 noLane origin

def execSbFormeReset (p : Byte) (arg : BitVec 16) (s : State) : Out :=
  sbCommand 0x04 p arg (zeroAnd p (arg == 0x5AA5)) (fun s => s.sbState != .d) false (fun s => sbOk (s.planeReset 0x30)) s

/-! ### Calendar and records (R486, R487) -/

/-- One part of the snapshot. -/
def Sb.calPart (b : Sb) (p : Nat) : Nat :=
  match p with
  | 0 => bitsOf b.snapDate 31 16
  | 1 => bitsOf b.snapDate 15 0
  | 2 => bitsOf b.snapTime 20 16 * 256 + bitsOf b.snapTime 13 8
  | _ => bitsOf b.snapStat 31 31 * 32768 + bitsOf b.snapStat 30 30 * 16384 + bitsOf b.snapStat 25 24 * 256 + bitsOf b.snapTime 5 0

def execSbCalRead (p : Byte) (arg : BitVec 16) (s : State) : Out :=
  sbCommand 0x05 p arg (upTo p 3) anyState false (fun s =>
    let s := if p = 0 then
        { s with sb := { s.sb with snapDate := s.wd (CAL.DATE.addr 0 0), snapTime := s.wd (CAL.TIME.addr 0 0), snapStat := s.wd (CAL.STAT_SET.addr 0 0) } }
      else s
    ((rcOk, s.sb.calPart p.toNat), s)) s

/-- Load an entry, or GONE. -/
def State.sbEntry (s : State) (e : Option LogEntry) : SbAnswer × State :=
  match e with
  | some e => ((rcOk, 64), s.sbLoad (wordBytes e.words))
  | none => ((rcGone, 0), s)

def execSbShelfRead (p : Byte) (arg : BitVec 16) (s : State) : Out :=
  sbCommand 0x06 p arg (upTo p 63) anyState true (fun s => s.sbEntry ((s.pwr.shelf[p.toNat]?).map (·.entry))) s

def execSbLogRead (p : Byte) (arg : BitVec 16) (s : State) : Out :=
  sbCommand 0x07 p arg (upTo p 1) anyState true (fun s => s.sbEntry (s.logFind (p == 1) (beNat (s.sbIn 0 8)))) s

/-! ### Alerts and settings (R488, R489, R493) -/

def execSbAlertClear (p : Byte) (arg : BitVec 16) (s : State) : Out :=
  sbCommand 0x08 p arg (zeroAnd p (decide (arg.toNat < 32))) anyState false
    (fun s => sbOk (s.put SB.STAT_PENDING 0 (s.g SB.STAT_PENDING 0 &&& (31 - arg.toNat % 32)))) s

/-- ARG of SET_CFG: the PEC mode, the sleep mode, nothing else. -/
def cfgArgOk (arg : BitVec 16) : Bool := arg &&& ~~~(0x0310 : BitVec 16) == 0 && arg &&& 0x0300 != 0x0300

def execSbSetCfg (p : Byte) (arg : BitVec 16) (s : State) : Out :=
  sbCommand 0x09 p arg (if upTo p 31 = rcOk then (if cfgArgOk arg then rcOk else rcRange) else rcUnknown) anyState false
    (fun s => sbOk (s.setWd (SB.CFG_SLEEP.addr 0 0) (BitVec.ofNat 32 (p.toNat * 65536 + arg.toNat)))) s

/-- A host's write of ALERT_SET. -/
def sbEff (off : Nat) (v proof : Word) (s : State) : State :=
  if off = 0x12 then (if bitAt v 4 then s.alert 4 else s) else storeEff .sb off v proof s

def sbChk (off : Nat) (v : Word) : Option Nat := if off = 0x10 ∧ bitsOf v 9 8 = 3 then some errRange else none

def execAlertSet (w : Writer) (v : Word) (s : State) : Out := fin (pressOne w .sb 0x12 v 0 (fun _ => none) (sbEff 0x12 v 0) s)

/-! ### The steward key (R483) -/

def execSbChallenge (p : Byte) (arg : BitVec 16) (s : State) : Out :=
  sbCommand 0x20 p arg (bothZero p arg) inR true (fun s => sbOk (s.sbLoad (beBytes 32 s.chase.sbChallenge.toNat))) s

/-- The side-band challenge is replaced. -/
def State.newSbChallenge (s : State) : State :=
  let (c, s) := s.random
  s.upChase fun x => { x with sbChallenge := c }

/-- The steward's key becomes `key`, under a judgement that accepts it. -/
def State.stewardKey (s : State) (key : Option (BitVec 256)) : SbAnswer × State :=
  let t := (s.newSbChallenge).upChase fun c => { c with steward := Tries.reset }
  sbOk (State.keyTold s (t.upSess 0 fun x => { x with key := key }) 0x30)

/-- A proof that does not verify; the third in a row begins the lockout. -/
def State.stewardBad (s : State) : SbAnswer × State :=
  let s := (s.newSbChallenge).logIt 0x012 noLane 0x30
  let k := s.chase.steward.fails + 1
  let s := s.upChase fun c => { c with steward := ⟨k, decide (3 ≤ k), s.clock⟩ }
  ((rcAuth, 0), if 3 ≤ k then s.alert 3 else s)

/-- One STEWARD_KEY: P 0 installs, P 1 erases. -/
def stewardRun (erase : Bool) (s : State) : SbAnswer × State :=
  let new := s.sbIn 0 32
  let key := if erase then none else some (BitVec.ofNat 256 (beNat new))
  if s.chase.steward.locked then ((rcAuth, 0), s)
  else if erase && !new.all (fun b => b == 0) then ((rcRange, 0), s)
  else match (s.session 0).key with
    | none => if erase then ((rcRange, 0), s) else s.stewardKey key
    | some k =>
      let m := beBytes 32 s.chase.sbChallenge.toNat ++ new ++ [if erase then 1 else 0]
      if hmacSha256 (beBytes 32 k.toNat) m = s.sbIn 32 32 then s.stewardKey key else s.stewardBad

def execSbStewardKeyInstall (arg : BitVec 16) (s : State) : Out := sbCommand 0x21 0 arg rcOk inR true (stewardRun false) s
def execSbStewardKeyErase (arg : BitVec 16) (s : State) : Out := sbCommand 0x21 1 arg rcOk inR true (stewardRun true) s

def execStewardLockoutEnd (s : State) : Out :=
  fin (if s.chase.steward.locked && decide (s.chase.steward.at_ + lockoutTicks ≤ s.clock) then s.upChase fun c => { c with steward := Tries.reset } else s)

/-! ### Image load in NO_IMAGE (R484) -/

def execSbImageBegin (p : Byte) (arg : BitVec 16) (s : State) : Out :=
  sbCommand 0x30 p arg (upTo p 1) inNoImage true (fun s =>
    let s := s.setSlot (p == 1) badSlot
    sbOk { s with sb := { s.sb with load := some (p == 1, []) } }) s

/-- 256 bytes of the slot; `ok` says whether the flash took them. -/
def execSbImageChunk (p : Byte) (arg : BitVec 16) (ok : Bool) (s : State) : Out :=
  sbCommand 0x31 p arg (if arg.toNat ≤ 4095 then rcOk else rcRange) inNoImage true (fun s =>
    match s.sb.load with
    | none => ((rcState, 0), s)
    | some (b, m) =>
      if ok then sbOk { s with sb := { s.sb with load := some (b, Memory.putBytes m (256 * arg.toNat) (s.sbIn 0 256)) } }
      else ((rcFlash, 0), s)) s

/-- The image that a slot's bytes hold: as much as its header claims, at most the slot. -/
def loadedImage (m : Bytes) : List Byte := Memory.bytes m 0 (min (256 + leNat (Memory.bytes m 0xC 4)) 1048576)

def execSbImageEnd (p : Byte) (arg : BitVec 16) (s : State) : Out :=
  sbCommand 0x32 p arg (bothZero p arg) inNoImage true (fun s =>
    match s.sb.load with
    | none => ((rcState, 0), s)
    | some (b, m) =>
      let i := loadedImage m
      if imgFormatOk i && imgSigned i && decide (s.g MOD.BOOT_ROLLBACK 0 ≤ imgRollback i) then sbOk (s.putSlot b (imgSlot i))
      else ((rcVerify, 0), s)) s

/-! ### PEC, sleep, the bus (R488 to R491) -/

/-- The port's address byte of a write (R478). -/
def State.sbAddress (s : State) : Nat := 2 * (0x5C + s.pwr.adrSampled)

/-- A word on the bus: its bytes, least significant first (R479). -/
def busBytes (v : Nat) : List Byte := (beBytes 4 v).reverse

/-- The SMBus CRC-8 (R488). -/
def pecOf (bs : List Byte) : Byte := BitVec.ofNat 8 (crcBytes 8 0x07 0 bs)

/-- The PEC of a Write 32 of this word: address, command code 0x00, data. -/
def State.writePec (s : State) (v : Word) : Byte := pecOf ([BitVec.ofNat 8 s.sbAddress, 0] ++ busBytes v.toNat)

/-- The PEC byte that the port sends after a Read 32 of the response word, if it sends one: over both address bytes, the command code and the
response. -/
def State.readPec (s : State) : Option Byte :=
  if s.g SB.CFG_PEC_MODE 0 = 0 then none
  else some (pecOf ([BitVec.ofNat 8 s.sbAddress, 0, BitVec.ofNat 8 (s.sbAddress + 1)] ++ busBytes (s.g SB.LAST_RSP 0)))

/-- Is a Write 32 of this word with this fifth byte discarded? -/
def State.pecDiscards (s : State) (v : Word) (pec : Option Byte) : Bool :=
  match s.g SB.CFG_PEC_MODE 0 with
  | 0 => pec.isSome
  | 1 => pec.isSome && pec != some (s.writePec v)
  | _ => pec != some (s.writePec v)

def execSbPec (word : Word) (pec : Option Byte) (s : State) : Out :=
  fin (if s.pwr.islandOn && s.sb.busy.isNone && s.pecDiscards word pec then (s.bump SB.PEC_ERRS 0).sbRaise 2 else s)

/-- 100 ms without an address match while the island runs alone (R489). -/
def execSbSleep (s : State) : Out :=
  fin (if s.pwr.islandOn && s.sbState == .d && decide (s.sb.awakeFrom + 100 * msTicks ≤ s.clock) then s.put SB.STAT_AWAKE 0 0 else s)

def execSbAddressWake (s : State) : Out := fin (if s.pwr.islandOn then s.sbAddressed.2.sbMet else s)

def execSbStretchAbort (s : State) : Out := fin (if s.pwr.islandOn then (s.bump SB.STRETCH_ABORTS 0).sbRaise 3 else s)
def execSbBusTimeout (s : State) : Out := fin (if s.pwr.islandOn then (s.bump SB.TIMEOUTS 0).sbRaise 1 else s)

end Sys2Proof.Machine
end

