-- ==== Sys2Proof/Machine/Returns.lean ====
section
/-! DEFINITION. Returns and works modes (spec/22_field_failures_and_returns.md R514 to R522): the freeze, the return record, works tokens,
the works erase, works exit. -/

namespace Sys2Proof.Machine

/-- MOD.IDENT. -/
def State.ident (s : State) : Word := BitVec.ofNat 32 ((if s.th8 then 0x0008 else 0x0016) * 65536 + Config.hwLevel % 256 * 256)

/-- The version of the slot that did not boot; 0 if it is refused. -/
def State.otherVersion (s : State) : Word := if s.acceptsSlot (!s.bootedB) then (s.slot (!s.bootedB)).version else 0

/-- INDEX of the oldest general entry held; NEXT where none is. -/
def State.logOldest (s : State) : Nat := match s.log.general with | e :: _ => e.index | [] => s.log.next

/-! ### The return record (R518) -/

/-- LOG_DIGEST. -/
def State.logDigest (s : State) : List Byte := sha256 ((s.log.fault ++ s.log.general).map fun e => wordBytes e.words).flatten

/-- LANE_n. -/
def State.returnLane (s : State) (n : LaneId) : Word :=
  if !s.fitted n then 0
  else
    let st := s.wd (LANE.SELFTEST_DONE.addr n.val 0)
    BitVec.ofNat 32 (bitsOf st 30 30 * 2 ^ 31 + b2n (s.calRec n).isSome * 2 ^ 30 + s.g CAL.STAT_EXPIRED 0 / 2 ^ n.val % 2 * 2 ^ 29
      + bitsOf st 11 0 * 65536 + min (s.shown (.lane n .lane) 0x19).toNat 0xFFFF)

/-- FLAGS. -/
def State.returnFlags (s : State) : Nat :=
  b2n s.chase.islandSet + 2 * s.g LOG.STAT_FAULT_FULL 0 + 4 * s.g LOG.STAT_GEN_FULL 0 + 8 * b2n (s.session 0).key.isSome
    + 16 * b2n (s.g CAL.STAT_SRC 0 != srcPtp)

/-- The record for a NOTE. -/
def State.returnRecord (s : State) (note : List Byte) : List Byte :=
  let w (x : Word) : List Byte := beBytes 4 x.toNat
  let b := beBytes 4 0x52544E31 ++ beBytes 2 1 ++ beBytes 2 0x100 ++ w s.ident ++ beBytes 6 Config.mac.toNat ++ [0, 0]
    ++ w (s.slot s.bootedB).version ++ w s.otherVersion ++ w (s.wd (MOD.BOOT_STAGE.addr 0 0)) ++ w (s.wd (MOD.RESET_CAUSE_CAUSE.addr 0 0))
    ++ beBytes 8 s.rt64 ++ w (if s.g CAL.STAT_SRC 0 = srcNone then 0 else s.wd (CAL.DATE.addr 0 0))
    ++ w (if s.g CAL.STAT_SRC 0 = srcNone then 0 else s.wd (CAL.TIME.addr 0 0)) ++ beBytes 8 s.log.next ++ beBytes 8 s.logOldest
    ++ beBytes 2 (s.g LOG.STAT_FAULT_COUNT 0) ++ beBytes 1 s.pwr.shelf.length ++ beBytes 1 s.returnFlags
    ++ w (s.wd (LOG.DROPPED.addr 0 0)) ++ w (s.wd (LOG.ERASE_MAX.addr 0 0)) ++ s.logDigest ++ wordBytes (allLanes.map fun n => s.returnLane n)
    ++ w (s.wd (MOD.PERMIT_OPENS_COUNT.addr 0 0)) ++ note ++ List.replicate 40 0
  b ++ beBytes 4 (crc32 b)

/-! ### PREPARE_RETURN (R514, R515) -/

def State.prepareReturn (s : State) : State :=
  let note := s.sbIn 0 32
  let s := s.logWith 0x060 noLane 0x30 (beWords 7 note)
  let r := s.returnRecord note
  let s := ((s.upChase fun c => { c with record := r }).sbLoad r).put MOD.RETURN_RECORD_VALID 0 1
  ((s.put LOG.STAT_FROZEN 0 1).put MOD.RETURN_FROZEN 0 1).alert 1

def execSbPrepareReturn (p : Byte) (arg : BitVec 16) (s : State) : Out :=
  sbCommand 0x40 p arg (zeroAnd p (arg == 0x5AA5)) inR true
    (fun s => ((rcOk, 0x100), if s.on LOG.STAT_FROZEN 0 then s.sbLoad s.chase.record else s.prepareReturn)) s

/-! ### Works tokens (R519 to R521) -/

/-- Would this token be accepted? -/
def State.tokenOk (s : State) (t : List Byte) : Bool :=
  let part (o k : Nat) : List Byte := (t.drop o).take k
  s.on LOG.STAT_FROZEN 0 && beNat (part 0 4) == 0x574B5431 && zeros t 4 4 && zeros t 0x34 12
    && part 8 8 == beBytes 6 Config.mac.toNat ++ [0, 0] && part 0x10 32 == beBytes 32 s.chase.sbChallenge.toNat
    && part 0x30 4 == s.chase.record.drop 0xFC && edVerify Config.worksKey (part 0x40 64) (sha256 (part 0 0x40))

/-- Step 1 of R520: the steward key, the other keys, the program-signing keys. -/
def State.eraseKeys (s : State) : State :=
  let t := allSess.foldl (fun (s : State) k => s.upSess k fun x => { x with key := none }) s
  State.sessionChange s ((List.range 4).foldl (fun (s : State) j => s.putPkey j (List.replicate 8 0) false) t)

/-- Step 2: sessions closed, challenges replaced. -/
def State.eraseSessions (s : State) : State :=
  let t := allSess.foldl (fun (s : State) k => (if (s.session k).isOpen then s.closeSession k else s).newChallenge k) s
  (State.sessionChange s (State.retryFreed s t)).newSbChallenge

/-- Step 3: lanes reset, SRAMs zeroed. -/
def State.erasePrograms (s : State) : State :=
  s.forLanes allLanes fun n s => if s.fitted n then (s.laneResetNow n 0x20).upLane n fun l => { l with mem := [], eccBad := [] } else s

/-- The first `k` steps. -/
def State.worksErase (s : State) (k : Nat) : State :=
  let s := if 1 ≤ k then s.eraseKeys else s
  let s := if 2 ≤ k then s.eraseSessions else s
  if 3 ≤ k then s.erasePrograms else s

/-- The erase is done: WORKS_ENTERED, then WORKS. -/
def State.worksEntered (s : State) : State :=
  let s := (s.logIt 0x061 noLane 0x20).put MOD.RETURN_WORKS 0 1
  s.upChase fun c => { c with worksDue := false }

/-- A token that is not accepted; the third in a row begins the lockout. -/
def State.tokenBad (s : State) : SbAnswer × State :=
  let k := s.chase.works.fails + 1
  ((rcAuth, 0), (s.logIt 0x063 noLane 0x30).upChase fun c => { c with works := ⟨k, decide (3 ≤ k), s.clock⟩ })

/-- One WORKS_TOKEN; `cut` is how many steps of the erase were made before power was lost. -/
def tokenRun (cut : Option (Fin 3)) (s : State) : SbAnswer × State :=
  if s.chase.works.locked then ((rcAuth, 0), s)
  else if !s.tokenOk (s.sbIn 0 128) then s.tokenBad
  else
    let s := (s.newSbChallenge).upChase fun c => { c with works := Tries.reset, worksDue := true }
    match cut with
    | some k => ((rcState, 0), s.worksErase k.val)
    | none => sbOk (s.worksErase 3).worksEntered

def execSbWorksToken (p : Byte) (arg : BitVec 16) (cut : Option (Fin 3)) (s : State) : Out :=
  sbCommand 0x41 p arg (bothZero p arg) inR true (tokenRun cut) s

def execWorksLockoutEnd (s : State) : Out :=
  fin (if s.chase.works.locked && decide (s.chase.works.at_ + lockoutTicks ≤ s.clock) then s.upChase fun c => { c with works := Tries.reset } else s)

/-- At boot, before any session may open, Chase finishes an erase that power loss cut (R521). -/
def execWorksEraseResume (s : State) : Out :=
  fin (if s.awake && s.g MOD.BOOT_STAGE 0 == stageInit && s.chase.worksDue then (s.worksErase 3).worksEntered else s)

/-- Works exit (R522). -/
def execWorksExit (s : State) : Out :=
  fin (if s.chaseUp && s.on MOD.RETURN_WORKS 0 then
    let s := (((s.logIt 0x062 noLane 0x20).put MOD.RETURN_WORKS 0 0).put MOD.RETURN_FROZEN 0 0).put MOD.RETURN_RECORD_VALID 0 0
    (s.put LOG.STAT_FROZEN 0 0).bump MOD.RETURN_RETURNS 0
  else s)

end Sys2Proof.Machine
end

