-- ==== Sys2Proof/Machine/Read.lean ====
section
/-! DEFINITION. What a read of one register word returns (spec/04_forme_port.md R99; spec/05_register_pages.md R110 to R118, R124 to R130):
the common header, the words that a block shows in another form than it keeps them, the words that each session sees as its own. -/

namespace Sys2Proof.Machine

/-! ### The common header (R111 to R128) -/

/-- PG_ID (R113). -/
def pageId (p : Page) : Word :=
  let inst := match p.lane? with | some n => n.val | none => 0xFF
  BitVec.ofNat 32 (p.kindCode * 2 ^ 24 + inst * 65536 + p.num * 256 + 3)

/-- PG_CAPS (R114). -/
def pageCaps (p : Page) (th8 : Bool) : Word :=
  BitVec.ofNat 32 (p.last * 2 ^ 24 + p.evCount * 2 ^ 18 + b2n p.mirrored * 2 ^ 17 + b2n p.stoppable * 2 ^ 16 + p.caps th8)

/-- PG_STAT: STALE of a mirrored page (R130), PENDING (R128), STOPPED and the block's status. -/
def State.statWord (s : State) (p : Page) : Word :=
  let stale := match p.lane? with | some n => p.mirrored && (s.lane n).link.stale | none => false
  let ap := s.hw p 0xD
  BitVec.ofNat 32 (b2n stale * 2 ^ 31 + b2n (bitsOf ap 31 16 != bitsOf ap 15 0) * 2 ^ 30 + bitsOf (s.shown p 3) 16 0)

/-- PG_QUOIN (R124). -/
def State.quoinWord (s : State) (p : Page) : Word :=
  if p.quoinNum = 0xFF then 0x7FFF
  else
    let q := s.quoin p.quoinNum
    BitVec.ofNat 32 (q.gen * 65536 + b2n q.broken * 32768 + q.holder * 256 + p.quoinNum)

/-- A word of the common header. -/
def State.headerWord (s : State) (p : Page) (off : Nat) : Word :=
  match off with
  | 0 => pageId p
  | 1 => pageCaps p s.th8
  | 2 => s.shown p 2
  | 3 => s.statWord p
  | 4 => s.hw p 4
  | 5 => s.hw p 4
  | 6 => s.hw p 4
  | 7 => s.hw p 7
  | 8 => s.hw p 7
  | 9 => s.hw p 7
  | 0xA => s.hw p 0xA
  | 0xB => s.hw p 0xB
  | 0xC => s.quoinWord p
  | 0xD => s.hw p 0xD
  | _ => 0

/-! ### The source table (Table: Source entry, R161) -/

/-- Is the source named by an enabled night-watch entry? -/
def State.watched (s : State) (i : Nat) : Bool := (List.range 16).any fun e => s.on EVG.NW_EN 0 e && s.g EVG.NW_SOURCE 0 e == i

def State.entryWord (s : State) (i : Nat) : Word :=
  if s.srcAbsent i then 0
  else
    let x := s.src i
    BitVec.ofNat 32 (x.target * 2 ^ 27 + x.prio * 2 ^ 24 + x.coal * 2 ^ 20 + b2n (s.level i) * 2 ^ 15 + b2n (x.st == .held) * 2 ^ 14
      + b2n (x.st == .pending) * 2 ^ 13 + b2n (x.st == .active) * 2 ^ 12 + b2n x.en * 2 ^ 11 + b2n (s.watched i) * 2 ^ 10 + i)

/-! ### Common pages -/

/-- Bit n of a mask of lanes. -/
def State.laneMask (s : State) (f : LaneId → Bool) : Nat :=
  allLanes.foldl (fun m n => m + if s.fitted n && f n then 2 ^ n.val else 0) 0

/-- MOD: identity, lanes, LINK, CLK, SESSIONS (Tables: MOD registers). SYS_LOCK and NET_REF_OK
read 1 from the reset release on, which R57 makes wait for the PLL; AON_OK while the island runs (log 69). -/
def State.modWord (s : State) (off : Nat) : Word :=
  match off with
  | 0x10 => s.ident
  | 0x11 => BitVec.ofNat 32 ((if s.th8 then 8 else 16) * 65536 + s.fittedMask)
  | 0x13 => BitVec.ofNat 32 (s.laneMask (fun n => (s.lane n).link.stale) * 65536 + s.laneMask fun n => s.on LANE.STATE_LOCKED n)
  | 0x14 => BitVec.ofNat 32 (s.laneMask (fun n => s.on LANE.STATE_DISCIPLINED n) * 65536 + b2n s.pwr.islandOn * 4 +
      (if s.pwr.mode = .run ∨ s.pwr.mode = .quiet then 3 else 0))
  | 0x1D => BitVec.ofNat 32 (s.g MOD.SESSIONS_LAST_OUTCOME 0 * 2 ^ 24 + s.g MOD.SESSIONS_LAST_SESSION 0 * 2 ^ 16 + s.keyedMask * 256 + s.openMask)
  | _ => s.wd (Page.mod.at_ off)

/-- FORME: each session's own LIST (offsets 0x40 to 0x7F) and the records (R100). -/
def State.formeWord (s : State) (k : Option SessId) (off : Nat) : Word :=
  if 0x40 ≤ off ∧ off ≤ 0x7F then (match k with | some k => sget (fun _ => 0) (s.session k).list (off - 0x40) | none => 0)
  else if h : 0x18 ≤ off ∧ off ≤ 0x1F then
    match (s.session ⟨off - 0x18, by omega⟩).record with
    | none => 0
    | some r => BitVec.ofNat 32 ((r.header[6]?.getD 0).toNat * 2 ^ 24 + (r.header[0]?.getD 0).toNat * 65536 + r.status * 256 + r.outcome)
  else if off = 0x11 then s.rtLo
  else s.wd (Page.forme.at_ off)

/-- S0's own rights words: every field reads all ones (R140), and a reserved bit 0 (R3, R139). -/
def s0Rights : Nat → Word
  | 0 => 0xFFE10
  | 1 => 0xFFE1E
  | 5 => 0xF
  | _ => 0xFFFFFFFF

/-- SESS: OPEN, KEYED, LOCKOUT, SELF, and the rights masks that this session may see (R140). -/
def State.sessWord (s : State) (k : Option SessId) (off : Nat) : Word :=
  let self := match k with | some k => k.val | none => 0
  if off = 0x10 then BitVec.ofNat 32 (s.lockMask * 65536 + s.keyedMask * 256 + s.openMask)
  else if off = 0x11 then BitVec.ofNat 32 self
  else if 0x40 ≤ off ∧ off ≤ 0x7D then
    if 6 ≤ off % 8 then 0
    else if off < 0x48 then (if self = 0 then s0Rights (off % 8) else 0)
    else if self = 0 ∨ self = (off - 0x40) / 8 then s.wd (Page.sess.at_ off) else 0
  else s.wd (Page.sess.at_ off)

/-- Bit i of a word: quoin `base + i` is held by `h`. -/
def State.heldWord (s : State) (h base : Nat) : Word :=
  (List.range 32).foldl (fun a i => if (s.quoin (base + i)).holder = h then a ||| bitMask i i else a) 0

/-- QUOIN: the reader's own RESULT, HELD and RELEASED, and the state words (Table: QUOIN registers). -/
def State.quoinPageWord (s : State) (k : Option SessId) (off : Nat) : Word :=
  let own (f : SessId → Word) : Word := match k with | some k => f k | none => 0
  if off = 0x11 then own fun k => (s.session k).result
  else if 0x12 ≤ off ∧ off ≤ 0x14 then own fun k => s.heldWord k.val (32 * (off - 0x12))
  else if 0x16 ≤ off ∧ off ≤ 0x18 then own fun k => (s.session k).released.extractLsb' (32 * (off - 0x16)) 32
  else if 0x20 ≤ off ∧ off ≤ 0x7F then
    if s.quoinAbsent (off - 0x20) then 0
    else
      let q := s.quoin (off - 0x20)
      BitVec.ofNat 32 (q.gen * 65536 + b2n q.broken * 32768 + q.holder * 256 + b2n (s.waitedFor (off - 0x20)) * 128 + q.rank)
  else s.wd (Page.quoin.at_ off)

/-- EVG: TOP, TCTL, LIVE, IDLE and the bitmaps (Tables: EVG registers; R162, R170, R175). -/
def State.evgWord (s : State) (off : Nat) : Word :=
  if 0x20 ≤ off ∧ off ≤ 0x32 then (if s.th8 && decide (0x2B ≤ off) then 0 else s.topWord (off - 0x20))
  else if 0x40 ≤ off ∧ off ≤ 0x52 then (if s.th8 && decide (0x4B ≤ off) then 0 else s.wd (Page.evg.at_ off))
  else if 0x58 ≤ off ∧ off ≤ 0x67 then
    withBits (s.wd (Page.evg.at_ off)) 30 30 (b2n (s.nwEntries.any fun x => x.entry == off - 0x58))
  else if 0x71 ≤ off ∧ off ≤ 0x7F then withBits (s.wd (Page.evg.at_ off)) 30 30 (b2n (s.coalIdle (off - 0x70)))
  else if 0x80 ≤ off ∧ off ≤ 0xBF then s.enWord (off % 32)
  else if 0xC0 ≤ off then s.pendWord (off % 32)
  else s.wd (Page.evg.at_ off)

/-- IMP: ARMED_ANY, the reader's POST_OK, each sheet's ARMED and USED (Table: IMP registers). -/
def State.impWord (s : State) (k : Option SessId) (off : Nat) : Word :=
  if off = 0x14 then
    BitVec.ofNat 32 ((List.range 17).foldl (fun m i => m + if (s.armedIn i).isEmpty then 0 else 2 ^ i) 0)
  else if off = 0x15 then (match k with | some k => (s.session k).postOk | none => 0)
  else if 0x40 ≤ off ∧ off ≤ 0x50 then
    if s.th8 && decide (0x48 ≤ off) && decide (off ≤ 0x4F) then 0
    else
      let sh := s.onSheet (off - 0x40)
      let armed := (sh.filter fun x => !x.armed.isEmpty).length
      BitVec.ofNat 32 (min armed 16 * 2 ^ 27 + sh.length * 65536 + bitsOf (s.wd (Page.imp.at_ off)) 8 0)
  else s.wd (Page.imp.at_ off)

/-- CHASE: the images, the reader's own mailbox and its own grants (R447, R458). -/
def State.chaseWord (s : State) (k : Option SessId) (off : Nat) : Word :=
  let own (f : SessId → Word) : Word := match k with | some k => f k | none => 0
  if off = 0x10 then (s.slot s.bootedB).version
  else if off = 0x11 then BitVec.ofNat 32 ((s.slot s.bootedB).issue * 2 ^ 24 + (s.slot s.bootedB).rollback * 256)
  else if off = 0x12 then s.otherVersion
  else if 0x18 ≤ off ∧ off ≤ 0x1F then own fun k => (s.box k).args[off - 0x18]?.getD 0
  else if off = 0x21 then own fun k => Sys2Proof.Machine.statWord (s.box k).state (s.box k).outcome (s.box k).op (s.box k).seq
  else if 0x22 ≤ off ∧ off ≤ 0x25 then own fun k => (s.box k).res[off - 0x22]?.getD 0
  else if 0xA0 ≤ off ∧ off ≤ 0xDF then
    own fun k => match s.grants.find? fun g => g.holder == k.val && g.lane == (off - 0xA0) / 4 with
      | none => 0
      | some g => match off % 4 with
        | 0 => g.vmax | 1 => g.imax | 2 => g.emax
        | _ => BitVec.ofNat 32 (match g.left s.clock with | some r => min r 0x1FFFE | none => 0x1FFFF)
  else s.wd (Page.chase.at_ off)

/-- CAL: each lane's dates and interval, from its record (R469, R470). -/
def State.calWord (s : State) (off : Nat) : Word :=
  if h : 0x20 ≤ off ∧ off ≤ 0x3F then
    match s.calRec ⟨(off - 0x20) / 2, by omega⟩ with
    | none => 0
    | some r => if off % 2 = 0 then recDate r else recDue r
  else if h : 0x40 ≤ off ∧ off ≤ 0x4F then
    match s.calRec ⟨off - 0x40, by omega⟩ with
    | none => 0
    | some r => BitVec.ofNat 32 (2 ^ 31 + recInterval r)
  else s.wd (Page.cal.at_ off)

/-- LOG: NEXT, OLDEST and the reader's own read (R476). -/
def State.logWord (s : State) (k : Option SessId) (off : Nat) : Word :=
  let own (f : LogRead → Word) : Word := match k with | some k => f (s.logRead k) | none => 0
  if off = 0x13 then BitVec.ofNat 32 (s.log.next / 2 ^ 32)
  else if off = 0x14 then BitVec.ofNat 32 s.log.next
  else if off = 0x15 then BitVec.ofNat 32 (s.logOldest / 2 ^ 32)
  else if off = 0x16 then BitVec.ofNat 32 s.logOldest
  else if off = 0x20 then own fun r => bitMask 31 31 &&& if r.fault then 0xFFFFFFFF else 0
  else if off = 0x21 then own fun r => r.hi
  else if off = 0x22 then own fun r => r.lo
  else if off = 0x23 then own fun r => BitVec.ofNat 32 (b2n r.ready * 2 ^ 31 + b2n r.gone * 2 ^ 30)
  else if 0x30 ≤ off ∧ off ≤ 0x3F then own fun r => r.entry[off - 0x30]?.getD 0
  else s.wd (Page.log.at_ off)

/-- SB: ALERT and ADDRESS (R493; Table: SB registers). -/
def State.sbPageWord (s : State) (off : Nat) : Word :=
  let w := s.wd (Page.sb.at_ off)
  if off = 0x11 then
    withBits (withBits w 24 24 (b2n s.alertDue)) 6 0 (0x5C + s.pwr.adrSampled)
  else w

/-- REG: SLEW_REMAIN, while a switch slews, is what is left now (R193). -/
def State.regWord (s : State) (off : Nat) : Word :=
  if off = REG.SLEW_REMAIN.addr 0 0 % 256 ∧ s.ru.switching = true then BitVec.ofInt 32 s.slewLeft else s.wd (Page.reg.at_ off)

/-- THERM: the far-side temperature and LANES_HOT of a stale lane stay frozen (R10, R536); absent lanes read 0. -/
def State.thermWord (s : State) (off : Nat) : Word :=
  let w := s.wd (Page.therm.at_ off)
  if h : 0x20 ≤ off ∧ off ≤ 0x2F then
    let n : LaneId := ⟨off - 0x20, by omega⟩
    if !s.fitted n then 0 else if (s.lane n).link.stale then sget resetWord s.frozen (Page.therm.at_ off) else w
  else if off = 0x13 then
    let old := sget resetWord s.frozen (Page.therm.at_ off)
    allLanes.foldl (fun w n => if s.fitted n && (s.lane n).link.stale then withBits w n.val n.val (bitsOf old n.val n.val) else w) w
  else w

/-! ### Lane pages -/

/-- LANE: STALE, DISCIPLINED and LOCKED of STATE, UP_RATE (R13), the reading session's RSTART (R442). -/
def State.lanePageWord (s : State) (k : Option SessId) (n : LaneId) (off : Nat) : Word :=
  if off = 0x10 then withBits (s.wd ((Page.lane n .lane).at_ off)) 9 9 (b2n (s.lane n).link.stale)
  else if off = 0x15 then BitVec.ofNat 32 (s.committed n)
  else if off = 0x2A then (match k with | some k => sget (fun _ => 0) (s.session k).galRstart n.val | none => 0)
  else s.shown (.lane n .lane) off

/-- The register that REGSEL names, while it may be accessed (R411): window and code. -/
def State.regSel (s : State) (n : LaneId) : Option (Nat × Nat) :=
  let e := s.eng n
  let w := s.g ENG.REGSEL_WINDOW n
  let c := s.g ENG.REGSEL_CODE n
  if e.run = .halted ∧ e.haltCode = 1 ∧ c ≤ 25 ∧ w < e.regs.wres then some ((e.regs.cwp + 12 - w) % 12, c) else none

/-- The value of a selected register. -/
def Eng.selected (e : Eng) (w c : Nat) : Word :=
  if c = 24 then e.pc else if c = 25 then BitVec.ofNat 32 (b2n e.sp.psr.ie) else e.regs.rd w c

/-- What ENG.STATE.STATE reports. -/
def EngRun.code : EngRun → Nat
  | .reset => 0 | .running => 1 | .idle => 2 | .halted => 3

/-- ENG: STATE, PC, REGVAL and WSTAT (Table: ENG registers). -/
def State.engWord (s : State) (n : LaneId) (off : Nat) : Word :=
  let e := s.eng n
  match off with
  | 0x10 => BitVec.ofNat 32 ((if e.run = .halted then e.haltCode else 0) * 2 ^ 24 + b2n e.sp.psr.ie * 1024 + b2n e.sp.psr.te * 512
      + b2n e.sp.psr.mon * 256 + e.run.code)
  | 0x11 => e.pc
  | 0x19 => match s.regSel n with | some (w, c) => e.selected w c | none => 0
  | 0x1A => e.regs.wstat
  | _ => s.wd ((Page.lane n .eng).at_ off)

/-! ### One word -/

/-- Block words of a page, as reader `k` sees them (none: an engine). -/
def State.blockWord (s : State) (k : Option SessId) (p : Page) (off : Nat) : Word :=
  match p with
  | .mod => s.modWord off
  | .forme => s.formeWord k off
  | .sess => s.sessWord k off
  | .quoin => s.quoinPageWord k off
  | .evg => s.evgWord off
  | .table j => s.entryWord (256 * j.val + off)
  | .imp => s.impWord k off
  | .chase => s.chaseWord k off
  | .cal => s.calWord off
  | .log => s.logWord k off
  | .sb => s.sbPageWord off
  | .reg => s.regWord off
  | .therm => s.thermWord off
  | .net => if off = 0x11 then BitVec.ofNat 32 (Config.mac.toNat / 2 ^ 32) else if off = 0x12 then BitVec.ofNat 32 Config.mac.toNat
            else s.wd (Page.net.at_ off)
  | .lane n .lane => s.lanePageWord k n off
  | .lane n .eng => s.engWord n off
  | _ => s.shown p off

/-- A read of one word of a page (R99, R127): 0 beyond the page's last word and on the pages of an absent lane. -/
def State.readPage (s : State) (k : Option SessId) (p : Page) (off : Nat) : Word :=
  if !s.present p then 0
  else match p with
    | .table _ => s.blockWord k p off
    | _ => if off < 0x10 then s.headerWord p off else if p.last < off then 0 else s.blockWord k p off

/-- A read of one word address; 0 from a reserved page. -/
def State.readAddr (s : State) (k : Option SessId) (a : Nat) : Word :=
  match Page.ofNum (a / 256) with
  | some p => s.readPage k p (a % 256)
  | none => 0

end Sys2Proof.Machine
end

