-- ==== Sys2Proof/Machine/EngDebug.lean ====
section
/-! DEFINITION. The ENG page and the host's debug controls (spec/16_compositor.md R407 to R412), and what Chase does about a fatal halt
(spec/17_traps_memory_dma.md R427). -/

namespace Sys2Proof.Machine

/-- Is the engine halted with DEBUG? -/
def Eng.debugHalted (e : Eng) : Bool := e.run == .halted && e.haltCode == 1

/-- The checks of one ENG word, on the state that the press would leave (R408, R411). -/
def engChk (n : LaneId) (off : Nat) (v : Word) (s : State) : Option Nat :=
  if off = 0x12 then (if bitsOf v 2 1 ≠ 0 ∧ (s.eng n).debugHalted = false then some errRange else none)
  else if off = 0x18 then (if 11 < bitsOf v 11 8 ∨ 25 < bitsOf v 4 0 then some errRange else none)
  else if off = 0x19 then
    match s.regSel n with
    | none => some errRange
    | some (_, c) => if c = 24 ∧ v &&& 3 ≠ 0 then some errRange else none
  else none

/-- The wait that a debug halt ended goes on with what is left of its limit; time in the halt counted against it (R401). -/
def State.waitBack (s : State) (n : LaneId) : State :=
  let now := s.clock
  s.upEng n fun e => match e.qhalt with
    | some q => if e.sp.psr.qw then { (e.w q.rd (BitVec.ofNat 32 (min ((q.until_ - now + 199) / 200) 65535))) with qhalt := none } else { e with qhalt := none }
    | none => e

/-- RESUME, or a STEP, from a DEBUG halt: the instruction at PC is not matched again (R408, R409). -/
def State.dbgGo (s : State) (n : LaneId) (step noInt : Bool) : State :=
  (s.waitBack n).upEng n fun e => { e with run := .running, haltCode := 0, bpSkip := true, stepReq := step, stepDone := false, noInt := step && noInt }

/-- A write to the selected register (R411). -/
def State.regvalSet (s : State) (n : LaneId) (v : Word) : State :=
  match s.regSel n with
  | none => s
  | some (w, c) => s.upEng n fun e =>
    if c = 24 then { e with pc := v }
    else if c = 25 then { e with sp := { e.sp with psr := { e.sp.psr with ie := bitAt v 0 } } }
    else { e with regs := e.regs.wr w c v }

/-- The effect of an accepted ENG word. STEP goes before RESUME where both are written, and HALT asks a halted engine nothing. -/
def engEff (n : LaneId) (off : Nat) (v proof : Word) (s : State) : State :=
  let p := Page.lane n .eng
  if off = 0x12 then
    let s := storeEff p off v proof s
    if (s.eng n).run = .halted then
      (if bitAt v 2 then s.dbgGo n true (bitAt v 9) else if bitAt v 1 then s.dbgGo n false false else s)
    else if bitAt v 0 then s.upEng n fun e => { e with haltReq := true }
    else s
  else if off = 0x19 then s.regvalSet n v
  else storeEff p off v proof s

def engPress (w : Writer) (n : LaneId) (off : Nat) (v proof : Word) (s : State) : State :=
  pressOne w (.lane n .eng) off v proof (engChk n off v) (engEff n off v proof) s

/-- DBG with one strobe, its RW fields as they stand. -/
def State.dbgStrobe (s : State) (n : LaneId) (bit : Nat) : Word := (s.wd ((Page.lane n .eng).at_ 0x12) &&& 0x300) ||| bitMask bit bit

def execDbgHalt (w : Writer) (n : LaneId) (s : State) : Out := fin (engPress w n 0x12 (s.dbgStrobe n 0) 0 s)
def execDbgResume (w : Writer) (n : LaneId) (s : State) : Out := fin (engPress w n 0x12 (s.dbgStrobe n 1) 0 s)
def execDbgStep (w : Writer) (n : LaneId) (s : State) : Out := fin (engPress w n 0x12 (s.dbgStrobe n 2) 0 s)
def execRegvalWrite (w : Writer) (n : LaneId) (v : Word) (s : State) : Out := fin (engPress w n 0x19 v 0 s)

/-! ### Fatal halts (R427) -/

/-- Chase is told of a fatal halt: the fault entry (log 38), and CMD.ABORT to an SMU whose HV state is not OFF. -/
def State.haltTold (s : State) (n : LaneId) : State :=
  let e := s.eng n
  let s := s.logWith 0x030 n.val 0x20 [BitVec.ofNat 32 e.haltCode, e.pc, e.sp.epc, BitVec.ofNat 32 e.sp.cause, e.sp.tval, 0, 0]
  let s := s.upEng n fun e => { e with fatalTold := true }
  if s.on SMU.STAT_STATE n then smuPress .chase n 0x10 4 0 s else s

def execChaseHaltResponse (n : LaneId) (s : State) : Out :=
  fin (if s.fatalHalt n && !(s.eng n).fatalTold && s.chaseUp then s.haltTold n else s)

/-- HALT_POLICY = RESET: 10 ms after the halt (R427). -/
def execHaltPolicyReset (n : LaneId) (s : State) : Out :=
  fin (if s.fatalHalt n && (s.eng n).fatalTold && s.on LANE.HALT_POLICY n && s.chaseUp && decide ((s.eng n).haltAt + 10 * msTicks ≤ s.clock) then
    s.engineResetNow n 0x20 else s)

end Sys2Proof.Machine
end

