-- ==== Sys2Proof/Machine/EngQuoin.lean ====
section
/-! DEFINITION. The quoin, doorbell and posting instructions of the compositor (spec/16_compositor.md R401 to R403). -/

namespace Sys2Proof.Machine

/-- The engine of lane n as a writer at its present privilege. -/
def State.engWriter (s : State) (n : LaneId) : Writer := if (s.eng n).sp.psr.mon then .monitor n else .user n

/-- The result word of a quoin operation in rd. -/
def State.retQuoin (s : State) (n : LaneId) (rd code q : Nat) : State :=
  let s := s.quoinErr (s.engWriter n) code
  let v := s.engQuoinWord code q
  s.upEng n fun e => { e.w rd v with pc := e.pc + 4, sp := { e.sp with psr := { e.sp.psr with qw := false } } }

/-- TAKEQ: one attempt, and a wait where the quoin is busy and a limit is left; a resumed wait takes its limit from rd and, with none
left, has run out (R147, R401, R418). A single step makes one attempt (R408). -/
def State.takeq (s : State) (n : LaneId) (rd rs1 : Nat) (imm : BitVec 16) : State :=
  s.instr n (encI 0x34 rd rs1 imm.toNat) [rd, rs1] fun s =>
    let e := s.eng n
    let q := bitsOf (e.r rs1) 7 0
    let limit := if e.sp.psr.qw then bitsOf (e.r rd) 15 0 else imm.toNat
    let (c, s) := s.takeQuoin (0x10 + n.val) q
    if c = qBusy ∧ limit ≠ 0 ∧ (e.stepReq && !e.sp.psr.mon) = false then
      s.upEng n fun e => { e with qwait := some ⟨q, rd, s.clock + limit * 200⟩, sp := { e.sp with psr := { e.sp.psr with qw := false } } }
    else s.retQuoin n rd (if c = qBusy ∧ limit = 0 ∧ e.sp.psr.qw = true then qTimeout else c) q

/-- GIVEQ, CLRQ and their .G forms. -/
def State.qop (s : State) (n : LaneId) (funct rd rs1 rs2 : Nat) : State :=
  s.instr n (encR 0x35 rd rs1 rs2 funct) [rd, rs1, rs2] fun s =>
    let e := s.eng n
    let q := bitsOf (e.r rs1) 7 0
    let gen := if funct % 2 = 1 then some (bitsOf (e.r rs2) 15 0) else none
    let (c, s) := if funct < 2 then s.giveQuoin (0x10 + n.val) q gen else s.clearQuoin (0x10 + n.val) q gen
    s.retQuoin n rd c q

/-- RING (R159, R402); a refusal records the low eight bits of the doorbell number. -/
def State.engRing (s : State) (n : LaneId) (rs1 : Nat) (imm : BitVec 16) : State :=
  s.instr n (encI 0x33 0 rs1 imm.toNat) [rs1] fun s =>
    let d := ((s.eng n).r rs1 + sext16 imm).toNat
    let s := if d < 960 ∨ 1023 < d then s.setErr (s.engWriter n) .evg (d % 256) errRange false
      else if !engineRings n.val d then s.setErr (s.engWriter n) .evg (d % 256) errRights false
      else s.ring d
    s.nextPc n

/-- POST: the impression in POST0 to POST3 (R207, R403). -/
def State.engPost (s : State) (n : LaneId) (rd : Nat) : State :=
  s.instr n (encR 0x38 rd 0 0 0x000) [rd] fun s =>
    let p := (s.eng n).sp.post
    let t := p[0].toNat * 2 ^ 32 + p[1].toNat
    match s.postChk (0x10 + n.val) t p[2] p[3] with
    | some c => s.ret n rd (BitVec.ofNat 32 c)
    | none => (s.putImpression (0x10 + n.val) t p[2] p[3]).ret n rd 0

/-- PCANCEL: the TAG of POST2 on the lane's own sheet (R208, R403). -/
def State.engCancel (s : State) (n : LaneId) (rd : Nat) : State :=
  s.instr n (encR 0x38 rd 0 0 0x001) [rd] fun s =>
    let (gone, late, s) := s.cancelTag n.val (bitsOf ((s.eng n).sp.post[2]) 11 0)
    s.ret n rd (BitVec.ofNat 32 (gone * 65536 + late))

def execTakeq (n : LaneId) (rd rs1 : BitVec 5) (imm : BitVec 16) (s : State) : Out := fin (s.takeq n rd.toNat rs1.toNat imm)
def execGiveq (n : LaneId) (rd rs1 : BitVec 5) (s : State) : Out := fin (s.qop n 0 rd.toNat rs1.toNat 0)
def execGiveqG (n : LaneId) (rd rs1 rs2 : BitVec 5) (s : State) : Out := fin (s.qop n 1 rd.toNat rs1.toNat rs2.toNat)
def execClrq (n : LaneId) (rd rs1 : BitVec 5) (s : State) : Out := fin (s.qop n 2 rd.toNat rs1.toNat 0)
def execClrqG (n : LaneId) (rd rs1 rs2 : BitVec 5) (s : State) : Out := fin (s.qop n 3 rd.toNat rs1.toNat rs2.toNat)
def execEngineRing (n : LaneId) (rs1 : BitVec 5) (imm : BitVec 16) (s : State) : Out := fin (s.engRing n rs1.toNat imm)
def execPost (n : LaneId) (rd : BitVec 5) (s : State) : Out := fin (s.engPost n rd.toNat)
def execPcancel (n : LaneId) (rd : BitVec 5) (s : State) : Out := fin (s.engCancel n rd.toNat)

end Sys2Proof.Machine
end

