-- ==== Sys2Proof/Machine/EngSys.lean ====
section
/-! DEFINITION. The special registers of the compositor (spec/16_compositor.md R391 to R394; spec/17_traps_memory_dma.md Tables SHELF, PTBR and
MMUCTL; spec/07_event_gatherer.md R161, R162, R166), and the system instructions that touch no memory. -/

namespace Sys2Proof.Machine

/-! ### Access (Table: Special registers) -/

/-- User and monitor access to a special register. -/
inductive SrAcc where
  | none | ro | rw | wo
  deriving DecidableEq, Repr

/-- The access of each privilege, user first; none for a number not in the table. -/
def srAccess (sr : Nat) : Option (SrAcc × SrAcc) :=
  match sr with
  | 0x000 => some (.ro, .rw)
  | 0x001 => some (.none, .rw)
  | 0x002 => some (.none, .rw)
  | 0x003 => some (.none, .ro)
  | 0x004 => some (.none, .ro)
  | 0x005 => some (.none, .ro)
  | 0x006 => some (.none, .rw)
  | 0x007 => some (.rw, .rw)
  | 0x008 => some (.ro, .rw)
  | 0x009 => some (.none, .rw)
  | 0x00A => some (.none, .ro)
  | 0x00C => some (.none, .rw)
  | 0x010 => some (.none, .rw)
  | 0x011 => some (.none, .rw)
  | 0x018 => some (.ro, .ro)
  | 0x019 => some (.ro, .ro)
  | 0x01A => some (.wo, .wo)
  | 0x01B => some (.wo, .wo)
  | 0x01C => some (.rw, .rw)
  | 0x01D => some (.none, .rw)
  | 0x01E => some (.none, .rw)
  | 0x01F => some (.none, .rw)
  | 0x020 => some (.none, .wo)
  | 0x024 => some (.ro, .ro)
  | 0x025 => some (.ro, .ro)
  | 0x026 => some (.ro, .ro)
  | 0x028 => some (.ro, .ro)
  | 0x029 => some (.ro, .ro)
  | 0x02C => some (.ro, .ro)
  | 0x02D => some (.ro, .ro)
  | 0x030 => some (.rw, .rw)
  | 0x031 => some (.rw, .rw)
  | 0x032 => some (.rw, .rw)
  | 0x033 => some (.rw, .rw)
  | 0x038 => some (.ro, .ro)
  | _ => none

/-- The access that the engine has at its present privilege. -/
def State.srNow (s : State) (n : LaneId) (sr : Nat) : Option SrAcc :=
  (srAccess sr).map fun a => if (s.eng n).sp.psr.mon then a.2 else a.1

/-! ### Reading -/

/-- SHELF: PEND and COUNT. -/
def Eng.shelfWord (e : Eng) : Word := BitVec.ofNat 32 (b2n e.shelfPend * 256 + e.shelf.length)

/-- System clocks since the engine's reset. -/
def State.cycles (s : State) (n : LaneId) : Nat := s.clock - (s.eng n).since

/-- The value of a special register. -/
def State.srRead (s : State) (n : LaneId) (sr : Nat) : Word :=
  let p := (s.eng n).sp
  match sr with
  | 0x000 => p.psr.toWord
  | 0x001 => p.epsr.toWord
  | 0x002 => p.epc
  | 0x003 => BitVec.ofNat 32 p.cause
  | 0x004 => p.tval
  | 0x005 => p.tinfo
  | 0x006 => p.tvec
  | 0x007 => BitVec.ofNat 32 (b2n p.psr.ie)
  | 0x008 => (s.eng n).regs.wstat
  | 0x009 => p.ssp
  | 0x00A => (s.eng n).shelfWord
  | 0x00C => p.mscratch
  | 0x010 => p.ptbr
  | 0x011 => BitVec.ofNat 32 (b2n p.mmuEn)
  | 0x018 => s.topWord (3 + n.val)
  | 0x019 => p.evcur
  | 0x01C => BitVec.ofNat 32 (s.g EVG.TCTL_THRESH 0 (3 + n.val))
  | 0x01D => BitVec.ofNat 32 p.mlevel
  | 0x01E => BitVec.ofNat 32 p.evsel
  | 0x01F => s.entryWord p.evsel
  | 0x024 => s.rtLo
  | 0x025 => p.rtHiS
  | 0x026 => BitVec.ofNat 32 (b2n p.rtWpS)
  | 0x028 => BitVec.ofNat 32 (s.cycles n)
  | 0x029 => p.cycHiS
  | 0x02C => s.shown (.lane n .tmr) 0x13
  | 0x02D => p.watchHiS
  | 0x030 => p.post[0]
  | 0x031 => p.post[1]
  | 0x032 => p.post[2]
  | 0x033 => p.post[3]
  | 0x038 => BitVec.ofNat 32 (0x300 + n.val)
  | _ => 0

/-- What a read captures (R392). -/
def State.srCapture (s : State) (n : LaneId) (sr : Nat) : State :=
  if sr = 0x024 then
    s.upEng n fun e => { e with sp := { e.sp with rtHiS := s.wd (REG.RT_HI.addr 0 0), rtWpS := s.on REG.WRAP_PENDING 0 } }
  else if sr = 0x028 then s.upEng n fun e => { e with sp := { e.sp with cycHiS := BitVec.ofNat 32 (s.cycles n / 2 ^ 32) } }
  else if sr = 0x02C then s.upEng n fun e => { e with sp := { e.sp with watchHiS := s.shown (.lane n .tmr) 0x12 } }
  else s

/-- RDS. -/
def State.rds (s : State) (n : LaneId) (rd sr : Nat) : State :=
  let w := encI 0x31 rd 0 sr
  s.instr n w [rd] fun s =>
    match s.srNow n sr with
    | none => s.illegal n w
    | some .none => s.privTrap n w
    | some .wo => s.illegal n w
    | some _ => (s.srCapture n sr).ret n rd (s.srRead n sr)

/-! ### Writing -/

/-- Does a source or doorbell belong to lane n (R391)? -/
def ownSource (n : LaneId) (i : Nat) : Bool := sourceLane i == some n.val

/-- A refusal of EVENTRY or EVCTL, recorded as that of a source entry (R161, R391). -/
def State.evRefused (s : State) (n : LaneId) (i code : Nat) : State :=
  s.recordErr (s.engWriter n) (.table ⟨i / 256 % 4, Nat.mod_lt _ (by decide)⟩) (i % 256) code false

/-- EVENTRY: the source entry of EVSEL, checked under R161. -/
def State.eventryPut (s : State) (n : LaneId) (v : Word) : State :=
  let i := (s.eng n).sp.evsel
  if !ownSource n i then s.evRefused n i errRange
  else match s.entryChk i v with
    | some c => s.evRefused n i c
    | none => entryEff i v s

/-- EVCTL: the bitmaps' actions on EVSEL. -/
def State.evctlPut (s : State) (n : LaneId) (v : Word) : State :=
  let i := (s.eng n).sp.evsel
  if !ownSource n i then s.evRefused n i errRange
  else
    let s := if bitAt v 31 then s.enSet i else s
    let s := if bitAt v 30 then s.enClr i else s
    let s := if bitAt v 29 then s.pendSet i else s
    if bitAt v 28 then s.pendClr i else s

/-- Change the special registers that the engine itself holds. -/
def State.upSp (s : State) (n : LaneId) (f : EngSpecial → EngSpecial) : State := s.upEng n fun e => { e with sp := f e.sp }

/-- Is a value outside the field's stated range (R391, R415, Table: PTBR and MMUCTL)? -/
def srBad (sr : Nat) (v : Word) : Bool :=
  match sr with
  | 0x006 => v &&& 0x1FF != 0 || decide (v.toNat < 0x4000000) || decide (0x4010000 ≤ v.toNat)
  | 0x008 => decide (11 < bitsOf v 3 0) || decide (11 < bitsOf v 11 8)
  | 0x009 => v &&& 0xF != 0
  | 0x010 => v &&& 0xF8000FFF != 0 || !tablePage (bitsOf v 26 12)
  | 0x011 => v &&& 0xFFFFFFFE != 0
  | 0x01C => decide (8 < bitsOf v 3 0)
  | 0x01D => decide (8 < bitsOf v 3 0)
  | _ => false

/-- The effect of an accepted WRS. -/
def State.srWrite (s : State) (n : LaneId) (sr : Nat) (v : Word) : State :=
  match sr with
  | 0x000 => s.upSp n fun p => { p with psr := { p.psr with ie := bitAt v 0, te := bitAt v 1, trans := bitAt v 3 } }
  | 0x001 => s.upSp n fun p => { p with epsr := Psr.ofWord v }
  | 0x002 => s.upSp n fun p => { p with epc := v }
  | 0x006 => s.upSp n fun p => { p with tvec := v }
  | 0x007 => s.upSp n fun p => { p with psr := { p.psr with ie := bitAt v 0 } }
  | 0x008 => s.upEng n fun e => { e with regs := { e.regs with cwp := bitsOf v 3 0, wold := bitsOf v 11 8 } }
  | 0x009 => s.upSp n fun p => { p with ssp := v }
  | 0x00C => s.upSp n fun p => { p with mscratch := v }
  | 0x010 => s.upSp n fun p => { p with ptbr := v }
  | 0x011 => s.upSp n fun p => { p with mmuEn := bitAt v 0 }
  | 0x01A => claimEff (3 + n.val) v s
  | 0x01B => doneEff (3 + n.val) v s
  | 0x01C => s.p EVG.TCTL_THRESH 0 (3 + n.val) (bitsOf v 3 0)
  | 0x01D => s.upSp n fun p => { p with mlevel := bitsOf v 3 0 }
  | 0x01E => s.upSp n fun p => { p with evsel := bitsOf v 9 0 }
  | 0x01F => s.eventryPut n v
  | 0x020 => s.evctlPut n v
  | 0x030 => s.upSp n fun p => { p with post := p.post.set 0 v }
  | 0x031 => s.upSp n fun p => { p with post := p.post.set 1 v }
  | 0x032 => s.upSp n fun p => { p with post := p.post.set 2 v }
  | 0x033 => s.upSp n fun p => { p with post := p.post.set 3 v }
  | _ => s

/-- WRS. -/
def State.wrs (s : State) (n : LaneId) (sr rs1 : Nat) : State :=
  let w := encI 0x32 0 rs1 sr
  s.instr n w [rs1] fun s =>
    let v := (s.eng n).r rs1
    match s.srNow n sr with
    | none => s.illegal n w
    | some .none => s.privTrap n w
    | some .ro => s.illegal n w
    | some _ => if srBad sr v then s.illegal n w else (s.srWrite n sr v).nextPc n

/-! ### The rows of special registers -/

def execRds (n : LaneId) (rd : BitVec 5) (sr : BitVec 12) (s : State) : Out := fin (s.rds n rd.toNat sr.toNat)
def execWrs (n : LaneId) (sr : BitVec 12) (rs1 : BitVec 5) (s : State) : Out := fin (s.wrs n sr.toNat rs1.toNat)
def execEvclaim (n : LaneId) (rs1 : BitVec 5) (s : State) : Out := fin (s.wrs n 0x01A rs1.toNat)
def execEvdone (n : LaneId) (rs1 : BitVec 5) (s : State) : Out := fin (s.wrs n 0x01B rs1.toNat)
def execEventryWrite (n : LaneId) (rs1 : BitVec 5) (s : State) : Out := fin (s.wrs n 0x01F rs1.toNat)

/-- A WRS of EVCTL whose word has the bit of its row at 1; a word without it is another row. -/
def State.evctl (s : State) (n : LaneId) (rs1 bit : Nat) : State := if bitAt ((s.eng n).r rs1) bit then s.wrs n 0x020 rs1 else s

def execSetEn (n : LaneId) (rs1 : BitVec 5) (s : State) : Out := fin (s.evctl n rs1.toNat 31)
def execClrEn (n : LaneId) (rs1 : BitVec 5) (s : State) : Out := fin (s.evctl n rs1.toNat 30)
def execSetPend (n : LaneId) (rs1 : BitVec 5) (s : State) : Out := fin (s.evctl n rs1.toNat 29)
def execClrPend (n : LaneId) (rs1 : BitVec 5) (s : State) : Out := fin (s.evctl n rs1.toNat 28)
def execRtLoCapture (n : LaneId) (rd : BitVec 5) (s : State) : Out := fin (s.rds n rd.toNat 0x024)

/-! ### System instructions without memory (R393, R404, R433) -/

/-- An instruction of monitor privilege (R393). -/
def State.monInstr (s : State) (n : LaneId) (w : Word) (cs : List Nat) (body : State → State) : State :=
  s.instr n w cs fun s => if (s.eng n).sp.psr.mon then body s else s.privTrap n w

/-- FENCE: every store of this model is in its region when it has executed. -/
def execFence (n : LaneId) (s : State) : Out := fin (s.instr n (encR 0x30 0 0 0 0x005) [] fun s => s.nextPc n)

def execTlbi (n : LaneId) (rs1 : BitVec 5) (s : State) : Out :=
  fin (s.monInstr n (encR 0x30 0 rs1.toNat 0 0x007) [rs1.toNat] fun s => State.nextPc (s.upEng n fun e => e.tlbi (e.r rs1.toNat).toNat) n)
def execTlbia (n : LaneId) (s : State) : Out :=
  fin (s.monInstr n (encR 0x30 0 0 0 0x008) [] fun s => State.nextPc (s.upEng n fun e => e.tlbia) n)

/-! ### Words that are no instruction (R395) -/

/-- Is a word an instruction: a defined opcode and funct, unused fields zero, every register code a register? -/
def wordLegal (w : Word) : Bool :=
  let op := bitsOf w 31 26
  let a := bitsOf w 25 21
  let b := bitsOf w 20 16
  let c := bitsOf w 15 11
  let f := bitsOf w 10 0
  let two := codeOk a && codeOk b
  let three := two && codeOk c
  if op = 0x00 then
    (decide (f ≤ 0x010) && three) || (decide (0x011 ≤ f ∧ f ≤ 0x013) && two) || (decide (0x020 ≤ f ∧ f ≤ 0x028) && three)
      || ((f == 0x014 || decide (0x029 ≤ f ∧ f ≤ 0x02B)) && two && c == 0)
  else if 0x01 ≤ op ∧ op ≤ 0x06 then two
  else if op = 0x07 then codeOk a && b == 0
  else if (0x10 ≤ op ∧ op ≤ 0x14) ∨ (0x18 ≤ op ∧ op ≤ 0x1A) ∨ (0x20 ≤ op ∧ op ≤ 0x25) then two
  else if op = 0x28 ∨ op = 0x29 then true
  else if op = 0x2A ∨ op = 0x2B ∨ op = 0x33 then a == 0 && codeOk b
  else if op = 0x2C then bitsOf w 25 0 == 0
  else if op = 0x30 then
    ((decide (1 ≤ f ∧ f ≤ 6) || f == 8) && a == 0 && b == 0 && c == 0) || (f == 7 && a == 0 && codeOk b && c == 0) || (f == 9 && three)
  else if op = 0x31 then codeOk a && b == 0 && bitsOf w 15 12 == 0
  else if op = 0x32 then a == 0 && codeOk b && bitsOf w 15 12 == 0
  else if op = 0x34 then two
  else if op = 0x35 then (f == 0 || f == 2) && two && c == 0 || (f == 1 || f == 3) && three
  else if op = 0x36 then decide (f ≤ 1) && three
  else if op = 0x37 then a == 0 && b == 0
  else if op = 0x38 then decide (f ≤ 1) && codeOk a && b == 0 && c == 0
  else false

/-- A word that is no instruction raises illegal; a word that is one is another row. -/
def execIllegalInstruction (n : LaneId) (w : Word) (s : State) : Out :=
  fin (if wordLegal w then s else s.instr n w [] fun s => s.illegal n w)

/-- A fetch at PC that faults (R387, R416). -/
def execFetchPageFault (n : LaneId) (s : State) : Out :=
  fin (if !s.engReady n then s
    else match s.engXlate n (s.eng n).pc.toNat .fetch with
    | (.ok _, _) => s
    | (.error f, s) =>
      let user := !(s.eng n).sp.psr.mon
      (s.syncTrap n ⟨4, (s.eng n).pc, (s.eng n).pc, mkTinfo f false user⟩).afterInstr n user)

end Sys2Proof.Machine
end

