-- ==== Sys2Proof/Machine/Press.lean ====
section
/-! DEFINITION. One press: every word that one writer writes at once, judged together and acting together (spec/00_scope.md R5; R24, R25;
R62; R92 to R94; R116 to R131; R144; R166, R167; R206; R227; R239; R259). -/

namespace Sys2Proof.Machine

/-- One word of a press: its page, offset and value. -/
structure PWord where
  page : Page
  off : Nat
  v : Word
  deriving DecidableEq, Repr

/-- What a press has come to: the state, the pages with an accepted word, and the refused words by page, offset and code in the order in
which R121 ranks them. -/
structure PressAcc where
  s : State
  taken : List Page
  bad : List (Page × Nat × Nat)
  deriving DecidableEq, Repr

/-! ### The checks of a word -/

/-- The eight words from `base` that a press writes on a page; none unless it writes all eight (R133, R453). -/
def pressRun (ws : List PWord) (p : Page) (base : Nat) : List Word :=
  let xs := (List.range 8).filterMap fun i => (ws.reverse.find? fun x => x.page == p && x.off == base + i).map (·.v)
  if xs.length = 8 then xs else []

/-- The checks of a lane page's words. -/
def laneChk (old : State) (w : Writer) (n : LaneId) (k : LaneKind) (off : Nat) (v : Word) (s : State) : Option Nat :=
  match k with
  | .lane => if off = 0x1A then rstChk v s else galChk old n off v s
  | .smu => smuChk w n off v s
  | .chain => chainChk old n off v s
  | .usnd => usndChk old n off v s
  | .tmr => tmrChk old n off v s
  | .dunc => duncChk old n off v s
  | .can => canChk old n off v s
  | .eng => engChk n off v s

/-- The checks that a page's own rules make of a word, on the state `s` that the press would leave; `old` is the state before it. -/
def blockChk (old : State) (w : Writer) (ws : List PWord) (p : Page) (off : Nat) (v : Word) (s : State) : Option Nat :=
  match p with
  | .mod => modChk off v s
  | .forme => none
  | .sess => if off = 0x28 then keyChk (pressRun ws .sess 0x20) v else none
  | .quoin => if off = 0x10 then quoinOpChk v else if 0x80 ≤ off ∧ off ≤ 0xDF then quoinCfgChk (off - 0x80) v s else none
  | .evg => evgChk off v
  | .table j => s.entryChk (256 * j.val + off) v
  | .reg => regChk old off v s
  | .ptp => ptpChk off v s
  | .net => netChk off v s
  | .imp => impChk w off v s
  | .chase => chaseChk w off (pressRun ws .chase 0x28) v s
  | .cal => calChk off v s
  | .log => logChk w off v s
  | .sb => sbChk off v
  | .fix => fixChk off v s
  | .sync => syncChk off v s
  | .therm => thermChk off s
  | .lane n k => laneChk old w n k off v s
  | .store _ => none

/-- Is this a word of the common header? -/
def headerOff (p : Page) (off : Nat) : Bool := match p with | .table _ => false | _ => decide (off < 0x10)

/-- All the checks of a word beyond R5's first three. -/
def wordChk (old : State) (w : Writer) (ws : List PWord) (x : PWord) (s : State) : Option Nat :=
  if headerOff x.page x.off && x.off != 2 then (if x.off = 0xA then evSourceChk x.page x.v else none)
  else blockChk old w ws x.page x.off x.v s

/-! ### The effects of near-side words -/

/-- A word of FORME: the session's own LIST, else a plain word. -/
def formeEff (w : Writer) (off : Nat) (v proof : Word) (s : State) : State :=
  if 0x40 ≤ off ∧ off ≤ 0x7F then
    (match w with
     | .host k => s.upSess k fun x => { x with list := sset (fun _ => 0) x.list (off - 0x40) (v &&& 0xFFFF) }
     | _ => s)
  else storeEff .forme off v proof s

/-- A word of QUOIN other than OP: the session's own RELEASED bits, a configuration, a plain word. -/
def quoinEff (w : Writer) (off : Nat) (v proof : Word) (s : State) : State :=
  if 0x16 ≤ off ∧ off ≤ 0x18 then
    (match w with
     | .host k => s.upSess k fun x => { x with released := x.released &&& ~~~((v &&& proof).zeroExtend 96 <<< (32 * (off - 0x16))) }
     | _ => s)
  else if 0x80 ≤ off ∧ off ≤ 0xDF then quoinCfgEff (off - 0x80) v s
  else storeEff .quoin off v proof s

/-- A near-side word of a lane page. -/
def laneNearEff (w : Writer) (n : LaneId) (k : LaneKind) (off : Nat) (v proof : Word) (s : State) : State :=
  match k with
  | .lane => if off = 0x1A then (if bitAt v 1 && !bitAt v 0 then s.engineReset n w.holder else s) else galEff n off v proof s
  | .eng => engEff n off v proof s
  | _ => s

/-- The effect of an accepted near-side word of a page's block. -/
def blockEff (w : Writer) (ws : List PWord) (p : Page) (off : Nat) (v proof : Word) (s : State) : State :=
  match p with
  | .mod => modEff off v proof s
  | .forme => formeEff w off v proof s
  | .sess => if off = 0x28 then keyEff w.holder (pressRun ws .sess 0x20) v s else sessEff w.holder off v proof s
  | .quoin => quoinEff w off v proof s
  | .evg => evgEff off v proof s
  | .table j => entryEff (256 * j.val + off) v s
  | .reg => regEff off v proof s
  | .ptp => ptpEff off v proof s
  | .net => storeEff .net off v proof s
  | .imp => impEff w off v proof s
  | .chase => chaseEff w off (pressRun ws .chase 0x28) v proof s
  | .cal => calEff w.holder off v proof s
  | .log => logEff w off v proof s
  | .sb => sbEff off v proof s
  | .fix => fixEff off v proof s
  | .sync => syncEff off v proof s
  | .therm => storeEff .therm off v proof s
  | .lane n k => laneNearEff w n k off v proof s
  | .store n => storeEff (.store n) off v proof s

/-- The effect of an accepted near-side word; the event registers of a page act together, in `evPress`. PG_CTL with KEEP writes no
mirrored field (R123). -/
def nearEff (w : Writer) (ws : List PWord) (x : PWord) (proof : Word) (s : State) : State :=
  if headerOff x.page x.off then
    if x.off = 2 then
      (match x.page with
       | .imp => impEff w 2 x.v proof s
       | .lane _ k => if k = .lane ∨ k = .eng then storeEff x.page 2 x.v proof s else s
       | p => storeEff p 2 x.v proof s)
    else s
  else blockEff w ws x.page x.off x.v proof s

/-- Is this an event register of a page's header? -/
def eventWord (x : PWord) : Bool := headerOff x.page x.off && (x.off == 5 || x.off == 6 || x.off == 8 || x.off == 9 || x.off == 0xA)

/-- What the words of a press leave of a page's EV_PEND and EV_MASK, and the bits that EV_SET sets. -/
def evWords (p : Page) (pend : Word) (ws : List PWord) (pd mk : Word) : Word × Word × Word :=
  let at' (o : Nat) : Word := (ws.filter fun x => x.page == p && x.off == o).foldl (fun a x => a ||| x.v) 0
  let set := at' 6 &&& p.evBits
  let mk := (ws.filter fun x => x.page == p && (x.off == 8 || x.off == 9)).foldl
    (fun m x => if x.off = 8 then m ||| (x.v &&& p.evBits) else m &&& ~~~(x.v &&& p.evBits)) mk
  ((pd &&& ~~~(at' 5 &&& pend)) ||| set, mk, set)

/-- The event registers of one page act together (R93, R117, R118): a bit that is pending, unmasked and routed as the press leaves it
counts as one occurrence if the press set it, unmasked it or routed it to another source. `pend` is what the proof saw. -/
def evPress (p : Page) (pend : Word) (ws : List PWord) (s : State) : State :=
  let mk0 := s.hw p 7
  let old := s.hw p 0xA
  let (pd, mk, set) := evWords p pend ws (s.hw p 4) mk0
  let s := (s.setHw p 4 pd).setHw p 7 mk
  let s := match (ws.filter fun x => x.page == p && x.off == 0xA).getLast? with | some x => s.setHw p 0xA x.v | none => s
  (bitList (pd &&& ~~~mk)).foldl (fun s b =>
    let dst := s.route p b
    let was := bitsOf old (4 * (b / 4) + 3) (4 * (b / 4))
    if dst != 0xF && (bitAt set b || bitAt mk0 b || was != dst) then s.occur (pageBase p + dst) else s) s

/-! ### The order in which near-side words act -/

/-- Every write of a press stands before what the writes bring about (R163, R167): 0 resets, 1 plain words, 2 enables cleared, then the event
registers, 3 enables set, whose levels are those that the press leaves, 4 PEND_SET and PEND_CLR, then the completions that resets bring, 5
strobes, 6 claims and completions (R166). Where one press sets and clears the enable of one source is not stated: it ends enabled, and
withdrawn (DESIGN CHOICE, log 126). -/
def nearRank (x : PWord) : Nat :=
  match x.page with
  | .lane _ .lane => if x.off = 0x1A then 0 else if x.off = 0x20 ∨ x.off = 0x2F ∨ x.off = 0x35 then 5 else 1
  | .lane _ .eng => if x.off = 0x12 ∨ x.off = 0x19 then 5 else 1
  | .evg =>
    if 0x11 ≤ x.off ∧ x.off ≤ 0x15 then 6 else if x.off < 0x80 then 1
    else if x.off < 0xA0 then 3 else if x.off < 0xC0 then 2 else 4
  | .reg => if x.off = 0x20 then 5 else 1
  | .cal => if x.off = 0x15 then 5 else 1
  | .fix => if x.off = 0x11 then 5 else 1
  | .log => if x.off = 0x11 ∨ x.off = 0x22 then 5 else 1
  | .sess => if x.off = 0x12 ∨ x.off = 0x28 then 5 else 1
  | .chase => if x.off = 0x20 ∨ x.off = 0x27 then 5 else 1
  | .mod => if x.off = 0x1C then 5 else 1
  | _ => 1

/-- Words that are decided after every other word of the press (R121, R144, R206, R239): QUOIN.OP, CMD.START, IMP.DISARM and IMP.CANCEL. -/
def lateWord (x : PWord) : Bool :=
  match x.page with
  | .quoin => x.off == 0x10
  | .imp => x.off == 0x11 || x.off == 0x12
  | .lane _ .smu => x.off == 0x10 && bitAt x.v 0
  | _ => false

/-- A mirrored word that goes to a far side (R123). -/
def farWordOf (x : PWord) : Option LaneId :=
  match x.page with
  | .lane n _ => if x.page.farWord x.off x.v then some n else none
  | _ => none

/-- Windows are chosen and SMU.CFG is taken before the words that depend on them. -/
def farFirst (x : PWord) : Bool := applyRank x.page x.off == 0
def farFirstOrder (ws : List PWord) : List PWord := ws.filter farFirst ++ ws.filter fun x => !farFirst x

/-! ### Judging a press -/

/-- SMU words of lane n in a press, by offset. -/
def smuOffs (ws : List PWord) (n : LaneId) : List Nat := (ws.filter fun x => x.page == .lane n .smu).map (·.off)

/-- The configuration that a press would leave: its words staged, and the SMU words reset that a changing CFG resets (R227). -/
def State.stagedAll (s : State) (ws : List PWord) : State :=
  let t := (farFirstOrder ws).foldl (fun t x => t.staged x.page x.off x.v) s
  allLanes.foldl (fun t n =>
    if (smuOffs ws n).contains 0x14 && s.imageWd (.lane n .smu) 0x14 != t.imageWd (.lane n .smu) 0x14 then t.cfgResetImage n (smuOffs ws n) else t) t

/-- What refuses a word: R5 on the state `s` before the press, its own rules on `t`, then the far side. Words for a lane that the same
press resets go into its new image, and a strobe among them is refused with ABSENT (R62). -/
def State.pressJudge (s : State) (rst : List LaneId) (w : Writer) (ws : List PWord) (t : State) (x : PWord) : Option Nat :=
  let c := s.judge w x.page x.off x.v (wordChk s w ws x t)
  match x.page.lane? with
  | some n =>
    if rst.contains n && x.page.mirrorAt x.off && (c == some errStale || c == some errAbsent) then
      (if x.off ≠ 2 ∧ x.v &&& accMask x.page x.off .wo ≠ 0 then some errAbsent else none)
    else c
  | none => c

/-- The words of a press that are refused, with their codes, taken out until those that stay pass together. Of the words that fail in what
they would leave together, those that fail each by itself go first; where none does, they offend together and all go (R259, R267). The
first argument bounds the rounds. -/
def State.pressRefused (s : State) (rst : List LaneId) (w : Writer) (ws : List PWord) : Nat → List PWord → List (PWord × Nat)
  | 0, _ => []
  | k + 1, stay =>
    let t := s.stagedAll stay
    let bad := stay.filterMap fun x => (s.pressJudge rst w ws t x).map fun c => (x, c)
    let alone := bad.filter fun e => (s.pressJudge rst w ws (s.staged e.1.page e.1.off e.1.v) e.1).isSome
    let out := if alone.isEmpty then bad else alone
    if out.isEmpty then [] else out ++ s.pressRefused rst w ws k (stay.filter fun x => !(out.any fun e => e.1 == x))

/-- The words of a press with their codes. -/
def State.pressCodes (s : State) (rst : List LaneId) (w : Writer) (ws : List PWord) : List (PWord × Option Nat) :=
  let out := s.pressRefused rst w ws (ws.length + 1) ws
  ws.map fun x => (x, (out.find? fun e => e.1 == x).map (·.2))

/-- A second SVC_GO of one press finds the mailbox busy (R448). -/
def secondGo : Bool → List (PWord × Option Nat) → List (PWord × Option Nat)
  | _, [] => []
  | seen, (x, c) :: r =>
    if x.page == .chase && x.off == 0x20 && bitAt x.v 31 && c.isNone then (x, if seen then some errRange else none) :: secondGo true r
    else (x, c) :: secondGo seen r

/-! ### Accepting -/

/-- A near-side word of a press, and whether the proof saw the bits or the count it clears. -/
def PressAcc.near (a : PressAcc) (w : Writer) (ws : List PWord) (proof : PWord → Word) (x : PWord) : PressAcc :=
  { a with s := nearEff w ws x (proof x) a.s, taken := a.taken ++ [x.page] }

def PressAcc.refuse (a : PressAcc) (x : PWord) (c : Nat) : PressAcc := { a with bad := a.bad ++ [(x.page, x.off, c)] }

/-- A mirrored word enters the near-side image, with the value that the clamp leaves (R234) and with what CFG and SWAP change there. -/
def State.enterImage (s : State) (h : Nat) (ws : List PWord) (t : State) (x : PWord) : State :=
  match x.page with
  | .lane n .smu =>
    let adj := t.smuAdj h n x.off x.v
    let s' := s.putImage x.page x.off (keepAdj s x.page x.off adj)
    let s' := s'.noteClamp n x.off x.v adj
    if x.off = 0x14 ∧ s.imageWd x.page 0x14 ≠ s'.imageWd x.page 0x14 then s'.cfgResetImage n (smuOffs ws n) else s'
  | .lane n .chain => (s.putImage x.page x.off (keepAdj s x.page x.off x.v)).chainNear n x.off x.v
  | p => s.putImage p x.off (keepAdj s p x.off x.v)

/-- The value of a mirrored word that goes to the far side. -/
def State.farValue (t : State) (h : Nat) (x : PWord) : Word :=
  match x.page with | .lane n .smu => t.smuAdj h n x.off x.v | _ => x.v

/-- A word that goes to a far side: its value there and what the proof showed of it. -/
structure FarWord where
  x : PWord
  v : Word
  proof : Word
  deriving DecidableEq, Repr

/-- The accepted words of one press for one lane set out together, the last of them marked (R24); `since` is the number of the first step
after the proof. -/
def State.sendPress (s : State) (w : Writer) (n : LaneId) (xs : List FarWord) (since : Nat) : State :=
  if xs.isEmpty then s
  else ((xs.zip (List.range xs.length)).foldl (fun s e =>
    s.carry n ⟨w, e.1.x.page, e.1.x.off, e.1.v, e.1.proof, since⟩ e.2 (e.2 + 1 == xs.length)) s).pressSent n

/-- The frisket trap of a user engine whose SMU write was clamped or refused (R238). -/
def State.pressTraps (s : State) (w : Writer) (t : State) (codes : List (PWord × Option Nat)) : State :=
  codes.foldl (fun s e => match e.1.page with
    | .lane n .smu =>
      if e.2 = some errFrisket then s.frisketTrap w n e.1.off true
      else if e.2.isNone && t.smuAdj w.holder n e.1.off e.1.v != e.1.v then s.frisketTrap w n e.1.off false else s
    | _ => s) s

/-! ### The late words -/

/-- CMD.START, judged after every other write of the press (R239). -/
def PressAcc.start (a : PressAcc) (rst : List LaneId) (w : Writer) (x : PWord) : PressAcc × Option Nat :=
  let c := a.s.pressJudge rst w [x] a.s x
  match c with
  | some k => (a.refuse x k, c)
  | none => ({ a with taken := a.taken ++ [x.page] }, none)

/-- IMP.DISARM and IMP.CANCEL (R206). -/
def PressAcc.impLate (a : PressAcc) (w : Writer) (x : PWord) : PressAcc :=
  match a.s.judge w .imp x.off x.v (impChk w x.off x.v a.s) with
  | some c => a.refuse x c
  | none => { a with s := impEff w x.off x.v 0 a.s, taken := a.taken ++ [.imp] }

/-- The post slots whose word 2 a press writes with an action, with the value that word 2 had (R206). -/
def postSlots (old : State) (ws : List PWord) : List (Nat × Bool × Word) :=
  (List.range 32).filterMap fun p =>
    let wrote := fun k => ws.any fun x => x.page == .imp && x.off == 0x80 + 4 * p + k
    match (ws.filter fun x => x.page == .imp && x.off == 0x82 + 4 * p).getLast? with
    | some x => if impAction x.v = 0 then none else some (p, wrote 0 && wrote 1 && wrote 3, old.slotWord p 2)
    | none => none

/-- One post; the mask gathers the slots accepted. -/
def PressAcc.post (a : PressAcc × Word) (w : Writer) (x : Nat × Bool × Word) : PressAcc × Word :=
  match a.1.s.postSlot w.holder x.1 x.2.1 with
  | (some c, s) =>
    ({ a.1 with s := s.setWd (IMP.SLOT.addr 0 (4 * x.1 + 2)) x.2.2, bad := a.1.bad ++ [(.imp, 0x82 + 4 * x.1, c)] }, a.2)
  | (none, s) => ({ a.1 with s := s, taken := a.1.taken ++ [.imp] }, a.2 ||| bitMask x.1 x.1)

/-- The posts of a press in slot order, and the writer's POST_OK. -/
def PressAcc.posts (a : PressAcc) (w : Writer) (xs : List (Nat × Bool × Word)) : PressAcc :=
  if xs.isEmpty then a
  else
    let (a, ok) := xs.foldl (fun a x => PressAcc.post a w x) (a, (0 : Word))
    { a with s := a.s.notePost w ok }

/-- QUOIN.OP: the first acts, and where its own outcome refuses it (R144) it is recorded like a refused word and counts as none accepted (R128). A
second one is refused with RANGE (DESIGN CHOICE, log 10). -/
def PressAcc.quoinOps (a : PressAcc) (w : Writer) : List PWord → Bool → PressAcc
  | [], _ => a
  | x :: r, first =>
    match a.s.judge w .quoin 0x10 x.v (if first then quoinOpChk x.v else some errRange) with
    | some c => PressAcc.quoinOps (a.refuse x c) w r false
    | none =>
      let (o, s) := quoinOpDo w.holder x.v a.s
      let a := { a with s := s }
      PressAcc.quoinOps (match quoinRefusal o with | some c => a.refuse x c | none => { a with taken := a.taken ++ [.quoin] }) w r false

/-! ### Recording -/

/-- The page whose PG_ERR records a refusal. -/
def errPage : Page → Page
  | .table _ => .evg
  | p => p

/-- Is a refusal one of those that TABLE_REFUSED tells (R158): a source entry or a night-watch entry? -/
def tableRefusal (b : Page × Nat × Nat) : Bool :=
  match b.1 with | .table _ => true | .evg => decide (0x58 ≤ b.2.1 ∧ b.2.1 ≤ 0x67) | _ => false

/-- Table refusals behind the one that PG_ERR records (R158, R161): TABLE_SOURCE names the last refused source, and TABLE_REFUSED is raised if
the recorded one does not raise it. -/
def State.tableTold (s : State) (b : Page × Nat × Nat) (r : List (Page × Nat × Nat)) : State :=
  let s := match (r.filterMap fun x => match x.1 with | .table j => some (256 * j.val + x.2.1) | _ => none).getLast? with
    | some i => s.put EVG.TABLE_SOURCE 0 i
    | none => s
  if !tableRefusal b && r.any tableRefusal then s.raise .evg 1 else s

/-- The first refused word of each page, with MORE if there was another (R121). -/
def State.recordBad (s : State) (w : Writer) (bad : List (Page × Nat × Nat)) : State :=
  ((bad.map fun b => errPage b.1).eraseDups).foldl (fun s p =>
    match bad.filter fun b => errPage b.1 == p with
    | [] => s
    | b :: r => (s.recordErr w b.1 b.2.1 b.2.2 (!r.isEmpty)).tableTold b r) s

/-! ### The whole press -/

/-- The lanes that a press resets (R62). -/
def State.pressResets (s : State) (w : Writer) (ws : List PWord) : List LaneId :=
  allLanes.filter fun n => ws.any fun x =>
    x.page == .lane n .lane && x.off == 0x1A && bitAt x.v 0 && (s.judge w x.page x.off x.v (rstChk x.v s)).isNone

/-- What the proof shows the writer of a word (R93, R122, R129): EV_PEND for EV_CLR, for PG_CTL that PG_ERR is as it stands. -/
def State.proofOf (s : State) (w : Writer) (x : PWord) : Word :=
  if headerOff x.page x.off && x.off == 5 then s.hw x.page 4
  else if headerOff x.page x.off && x.off == 2 then 0x80000000
  else s.readPage (match w with | .host k => some k | _ => none) x.page x.off

/-- What follows from a refused or an accepted word beside its effect: WORST_NS of a refused CAN request (R372), the budget that a fixture
GO was checked by. -/
def State.pressTold (s old : State) (w : Writer) (codes : List (PWord × Option Nat)) : State :=
  codes.foldl (fun s e => match e.1.page with
    | .lane n .can => if e.1.off = 0x18 ∧ e.2.isSome = true then canWorst n e.1.v old s else s
    | .fix => if e.1.off = 0x11 then fixTold w e.1.v s else s
    | _ => s) s

/-- A word that acts on the near side at its rank. -/
def State.nearOf (x : PWord × Option Nat) : Bool := x.2.isNone && !lateWord x.1 && (farWordOf x.1).isNone && !eventWord x.1
def PressAcc.nearRanked (a : PressAcc) (w : Writer) (ws : List PWord) (proof : PWord → Word) (codes : List (PWord × Option Nat)) (r : Nat) : PressAcc :=
  ((codes.filter fun e => State.nearOf e && nearRank e.1 == r).map (·.1)).foldl (fun a x => a.near w ws proof x) a

/-- The event registers of every page that a press writes. -/
def PressAcc.events (a : PressAcc) (proof : PWord → Word) (codes : List (PWord × Option Nat)) : PressAcc :=
  let xs := (codes.filter fun e => e.2.isNone && eventWord e.1).map (·.1)
  let ps := (xs.map (·.page)).eraseDups
  { a with s := ps.foldl (fun s p => evPress p (proof ⟨p, 5, 0⟩) xs s) a.s, taken := a.taken ++ ps }

/-- PG_ERR of a page is cleared by ERR_CLR, unless a refusal has been recorded since the proof (R122). -/
def State.errClears (s : State) (proof : PWord → Word) (codes : List (PWord × Option Nat)) : State :=
  codes.foldl (fun s e =>
    if e.2.isNone && headerOff e.1.page e.1.off && e.1.off == 2 && bitAt e.1.v 31 && bitAt (proof e.1) 31 then s.setHw e.1.page 0xB 0 else s) s

/-- The lanes whose engine a press resets by itself (R62). -/
def engineResets (codes : List (PWord × Option Nat)) : List LaneId :=
  allLanes.filter fun n => codes.any fun e => e.2.isNone && e.1.page == .lane n .lane && e.1.off == 0x1A && bitAt e.1.v 1 && !bitAt e.1.v 0

/-- Words accepted before the late ones, in the order of `nearRank`, the images last; `rst` are the lanes reset. -/
def PressAcc.early (a : PressAcc) (rst : List LaneId) (t : State) (w : Writer) (ws : List PWord) (proof : PWord → Word) (codes : List (PWord × Option Nat)) :
    PressAcc :=
  let a := { a with s := a.s.errClears proof codes }
  let a := ((a.nearRanked w ws proof codes 0).nearRanked w ws proof codes 1).nearRanked w ws proof codes 2
  let a := ((a.events proof codes).nearRanked w ws proof codes 3).nearRanked w ws proof codes 4
  let a := { a with s := (rst ++ engineResets codes).foldl (fun s (n : LaneId) => s.doneAll (3 + n.val)) a.s }
  let a := a.nearRanked w ws proof codes 5
  let far := farFirstOrder ((codes.filter fun e => e.2.isNone && !lateWord e.1 && (farWordOf e.1).isSome).map (·.1))
  far.foldl (fun a x => { a with s := a.s.enterImage w.holder far t x, taken := a.taken ++ [x.page] }) a

/-- The codes of a press, QUOIN.OP and the other late words apart. -/
def earlyCodes (codes : List (PWord × Option Nat)) : List (PWord × Option Nat) := secondGo false (codes.filter fun e => !lateWord e.1)

/-- The CMD.STARTs of a press, with their codes. -/
def PressAcc.starts (a : PressAcc) (rst : List LaneId) (w : Writer) (ws : List PWord) : PressAcc × List (PWord × Option Nat) :=
  (ws.filter fun x => lateWord x && x.page != .quoin && x.page != .imp).foldl (fun (r : PressAcc × List (PWord × Option Nat)) x =>
    let (a, c) := r.1.start rst w x
    (a, r.2 ++ [(x, c)])) (a, [])

/-- The accepted words that go to far sides, lane by lane. -/
def State.sendAll (s : State) (t : State) (w : Writer) (proof : PWord → Word) (since : Nat) (codes : List (PWord × Option Nat)) : State :=
  allLanes.foldl (fun s n =>
    s.sendPress w n ((codes.filter fun e => e.2.isNone && farWordOf e.1 == some n).map fun e => ⟨e.1, t.farValue w.holder e.1, proof e.1⟩) since) s

/-- Are the accepted words of a press on a page all in force at once: does none of them go to a far side (R128)? -/
def inForcePage (codes : List (PWord × Option Nat)) (p : Page) : Bool :=
  codes.all fun e => e.1.page != p || e.2.isSome || (farWordOf e.1).isNone

/-- One writer's press of a list of words on pages that it may write; `proof` is what its proof showed of each word, `since` the number of the
first step after that. Engines that wait for a quoin try it last (R148). -/
def State.pressWith (s0 : State) (w : Writer) (ws : List PWord) (proof : PWord → Word) (since : Nat) : State :=
  let rst := s0.pressResets w ws
  let s1 := rst.foldl (fun s n => s.laneReset n w.holder) s0
  let ws := ws.filter fun x => !(x.off == 0x1A && rst.any fun n => x.page == .lane n .lane)
  let jd := { s1 with quoins := s0.quoins }
  let codes := earlyCodes (jd.pressCodes rst w (ws.filter fun x => !lateWord x))
  let good := (codes.filter fun e => e.2.isNone).map (·.1)
  let t := jd.stagedAll good
  let told := s1.pressTold jd w codes
  let bad := codes.filterMap fun e => e.2.map fun c => (e.1.page, e.1.off, c)
  let a := PressAcc.early ⟨told, [], bad⟩ rst t w ws proof codes
  let (a, starts) := a.starts rst w ws
  let all := codes ++ starts
  let posts := postSlots s0 good
  let word2 := fun (x : PWord) => x.page == .imp && posts.any fun y => x.off == 0x82 + 4 * y.1
  let taken := if good.any fun x => x.page == .imp && !word2 x then a.taken else a.taken.filter (· != .imp)
  let a : PressAcc := { a with s := (a.s.sendAll t w proof since all).pressTraps w t all, taken := taken }
  let imp := ws.filter fun x => x.page == .imp && lateWord x
  let a := (imp.filter fun x => x.off == 0x11).foldl (fun a x => a.impLate w x) a
  let a := (imp.filter fun x => x.off == 0x12).foldl (fun a x => a.impLate w x) a
  let a := a.posts w posts
  let a := PressAcc.quoinOps a w (ws.filter fun x => x.page == .quoin && lateWord x) true
  let a := a.nearRanked w ws proof codes 6
  State.retryFreed s0 (a.taken.eraseDups.foldl (fun s p => s.pressedOn p (inForcePage all p)) (a.s.recordBad w a.bad))

/-- A press whose proof is taken in the same step. -/
def State.pressWords (s : State) (w : Writer) (ws : List PWord) : State := s.pressWith w ws (s.proofOf w) s.stepNo

end Sys2Proof.Machine
end

