-- ==== Sys2Proof/Machine/Forme.lean ====
section
/-! DEFINITION. The Forme port's transactions (spec/04_forme_port.md R83 to R108; R80, R134, R136, R138, R444): one command is a whole
transaction, or its part up to where FCLK stops, or its rest. Its header carries the CRC that was sent, its data the data CRC. -/

namespace Sys2Proof.Machine

/-! ### The header (R87, R88) -/

def Hdr.flag (h : Hdr) (i : Nat) : Bool := h.flags.getLsbD i
def Hdr.len (h : Hdr) : Nat := h.length.toNat
def Hdr.at_ (h : Hdr) : Nat := h.addr.toNat

/-- Header bytes 0 to 6. -/
def hdrBytes (op : Nat) (h : Hdr) : List Byte :=
  [BitVec.ofNat 8 op, BitVec.ofNat 8 (h.session.val * 32 + h.flags.toNat)] ++ beBytes 2 (Hdr.at_ h) ++ beBytes 2 (Hdr.len h) ++ [h.seq]

/-- HCRC (R89). -/
def hdrCrc (op : Nat) (h : Hdr) : Nat := crcBytes 8 0x07 0 (hdrBytes op h)

/-- The data CRC (R89): the words as they travel. -/
def dataCrc (ws : List Word) : Nat := crcBytes 16 0x1021 0xFFFF (ws.flatMap fun w => beBytes 4 w.toNat)

/-- Opcodes (Table: Opcodes). -/
def opRd : Nat := 1
def opWr : Nat := 2
def opGalley : Nat := 3
def opStoreRd : Nat := 4
def opStoreWr : Nat := 5
def opOpen : Nat := 6
def opClose : Nat := 7
def opRing : Nat := 8
def opNop : Nat := 9

/-- Is the transaction read-type, or write-type (Table: Opcodes)? -/
def readType (op : Nat) (h : Hdr) : Bool := op == opRd || op == opGalley || op == opStoreRd || op == opNop || (op == opOpen && Hdr.flag h 0)
def writeType (op : Nat) (h : Hdr) : Bool := op == opWr || op == opStoreWr || op == opClose || op == opRing || (op == opOpen && !Hdr.flag h 0)

/-! ### What a transaction names -/

/-- The word addresses of a READ, in order; with LIST those of the session's own entries. -/
def State.readAddrs (s : State) (h : Hdr) : List Nat :=
  if Hdr.flag h 1 then (List.range (Hdr.len h)).map fun i => (sget (fun _ => (0 : Word)) (s.session h.session).list i).toNat
  else (List.range (Hdr.len h)).map fun i => Hdr.at_ h + i

/-- Pairs of a SCATTER write: address word and value word. -/
def scatterPairs : List Word → List (Word × Word)
  | a :: v :: r => (a, v) :: scatterPairs r
  | _ => []

/-- The data words that the header's LENGTH counts. -/
def fitData (h : Hdr) (data : List Word) : List Word := (data ++ List.replicate (Hdr.len h) 0).take (Hdr.len h)

/-- The addresses and values of a WRITE, in transaction order. -/
def writePairs (h : Hdr) (data : List Word) : List (Nat × Word) :=
  if Hdr.flag h 1 then (scatterPairs (fitData h data)).map fun e => (bitsOf e.1 15 0, e.2)
  else (fitData h data).zip (List.range (Hdr.len h)) |>.map fun e => (Hdr.at_ h + e.2, e.1)

/-- The lane of a window transaction: the page is 0xC0 + n, the offset 0. -/
def winLane (h : Hdr) : Option LaneId :=
  if Hdr.at_ h % 256 = 0 ∧ 0xC0 ≤ Hdr.at_ h / 256 ∧ Hdr.at_ h / 256 < 0xD0 then some ⟨Hdr.at_ h / 256 % 16, Nat.mod_lt _ (by decide)⟩ else none

/-- WIN_BASE as a byte address (R105). -/
def State.winBase (s : State) (n : LaneId) : Nat := 4 * s.g STORE.WIN_BASE n

/-! ### The checks (R80, R88, R96 to R99, R106) -/

/-- The port answers from 2 ms after t0 on (Table: Start-up after power-on). -/
def formeTicks : Nat := 400000

/-- Does the port answer at all: the near side works, t0 + 2 ms has come, and VIO lies in one of its windows (R29, R80)? -/
def State.formeAnswers (s : State) : Bool :=
  s.awake && s.pwr.answers && decide (s.pwr.t0 + formeTicks ≤ s.clock) && s.g MOD.SUPPLY_VIO_LEVEL 0 != 0

/-- FD0 to FD3 are high-impedance outside a transaction, before the port answers, in reset, DORMANT and OFF, and outside the windows of VIO
(Table: Outputs in each power state, R29, R80). -/
def State.fdHighZ (s : State) : Bool := !s.formeAnswers || s.forme.started.isNone

/-- Does a READ lie wholly in page 0x00? One with LENGTH 0 touches no page, and whether it counts is not stated: it does, so that in a closed
session it answers ADDR, not SESSION_CLOSED (DESIGN CHOICE, log 46). -/
def State.readsPage0 (s : State) (op : Nat) (h : Hdr) : Bool := op == opRd && (s.readAddrs h).all fun a => decide (a < 0x100)

/-- Check 2: before RUNNING only a READ of page 0x00 and NOP (R80), then what R98 lets a closed session send. -/
def State.formeOpen (s : State) (op : Nat) (h : Hdr) : Bool :=
  if !s.chaseUp then op == opNop || s.readsPage0 op h
  else (s.session h.session).isOpen || op == opOpen || op == opNop || s.readsPage0 op h

/-- Is the transaction a retry of the session's record (R100)? -/
def State.formeRetry (s : State) (op : Nat) (h : Hdr) : Option Record :=
  match (s.session h.session).record with
  | some r => if r.header = hdrBytes op h then some r else none
  | none => none

/-- May an address be written, rights apart: its page is no reserved page and no absent lane's. Pages 0xF0 to 0xFF are a matter of rights
(R99). -/
def State.addrWritable (s : State) (a : Nat) : Bool :=
  decide (0xF000 ≤ a) || match Page.ofNum (a / 256) with | some p => s.present p | none => false

/-- LENGTH and lane of a burst (Table: Opcodes, R105, R106): the store must not be in the course of being cleared. -/
def State.burstShape (s : State) (h : Hdr) (step : Nat) (window : Bool) : Bool :=
  match winLane h with
  | none => false
  | some n =>
    s.fitted n && s.phase n != phReset && Hdr.len h % step == 0 && decide (1 ≤ Hdr.len h) && decide (Hdr.len h ≤ 1024)
      && (!window || decide (s.winBase n + 4 * Hdr.len h ≤ storeSize))

/-- Check 5: the header against Table: Opcodes, and the address range. R88 says that bits [31:16] of a SCATTER address word must be zero and
names no status for others: they answer ADDR here like any other departure from the table (DESIGN CHOICE, log 46). -/
def State.formeShape (s : State) (op : Nat) (h : Hdr) (data : List Word) : Bool :=
  let l := Hdr.len h
  let a := Hdr.at_ h
  h.flags.toNat / 4 == 0 && (!Hdr.flag h 0 || op == opOpen) && (!Hdr.flag h 1 || op == opRd || op == opWr) &&
  (if op = opRd then
     (if Hdr.flag h 1 then a == 0 && decide (1 ≤ l) && decide (l ≤ 64) else decide (1 ≤ l) && decide (l ≤ 256) && decide (a + l ≤ 0x10000))
   else if op = opWr then
     (if Hdr.flag h 1 then
        a == 0 && decide (2 ≤ l) && decide (l ≤ 256) && l % 2 == 0 && (scatterPairs (fitData h data)).all fun e => bitsOf e.1 31 16 == 0
      else decide (1 ≤ l) && decide (l ≤ 256) && decide (a + l ≤ 0x10000))
     && (writePairs h data).all fun e => s.addrWritable e.1
   else if op = opGalley then s.burstShape h 4 false
   else if op = opStoreRd ∨ op = opStoreWr then s.burstShape h 1 true
   else if op = opOpen then a == 0 && l == 8
   else if op = opClose ∨ op = opNop then a == 0 && l == 0
   else if op = opRing then decide (960 ≤ a) && decide (a < 1024) && l == 0 && !s.srcAbsent a
   else false)

/-- May the session read an address? Pages 0xF0 to 0xFF never; a reserved page reads zeros; page 0x00 needs no right. R99 has the pages of a
lane that a TH8 does not have read zeros with OK, R139 asks for the rights to them: here the rights are asked for first (DESIGN CHOICE, log
46). -/
def State.addrReadable (s : State) (k : SessId) (a : Nat) : Bool :=
  decide (a < 0x100) || (decide (a < 0xF000) && match Page.ofNum (a / 256) with | some p => s.readable k p | none => true)

/-- May the session write an address? -/
def State.mayWrite (s : State) (k : SessId) (a : Nat) : Bool :=
  match Page.ofNum (a / 256) with | some p => s.writable (.host k) p (a % 256) | none => false

/-- Is a STORE_WRITE wholly inside the host-writable region (R444)? -/
def State.inHwr (s : State) (n : LaneId) (len : Nat) : Bool :=
  decide (4096 * s.g LANE.HWR_BASE n ≤ s.winBase n) && decide (s.winBase n + 4 * len ≤ 4096 * s.g LANE.HWR_LIMIT n)

/-- Check 6: rights to every page, lane and lane quoin touched (Table: Rights of a session). -/
def State.formeRights (s : State) (op : Nat) (h : Hdr) (data : List Word) : Bool :=
  let k := h.session
  if op = opRd then (s.readAddrs h).all fun a => s.addrReadable k a
  else if op = opWr then
    (writePairs h data).all fun e => s.mayWrite k e.1 && !(e.1 == Page.quoin.at_ 0x10 && s.quoinBarred (.host k) e.2)
  else match winLane h with
  | some n =>
    if op = opGalley ∨ op = opStoreRd then s.readable k (.store n)
    else if op = opStoreWr then s.writable (.host k) (.store n) 0x10 && s.inHwr n (Hdr.len h) else true
  | none => if op = opRing then s.sessionRings k (Hdr.at_ h) else true

/-- The status of R96; checks 1 to 3 alone when `early`. -/
def State.formeStatus (s : State) (op : Nat) (h : Hdr) (data : List Word) (dcrc : BitVec 16) : Nat :=
  if hdrCrc op h ≠ h.hcrc.toNat then 1
  else if !s.formeOpen op h then 7
  else if (s.session h.session).isOpen && (s.session h.session).afterPlaneReset then 8
  else if writeType op h && (s.formeRetry op h).any fun r => r.outcome == 1 then 6
  else if !s.formeShape op h data then 4
  else if !s.formeRights op h data then 3
  else if writeType op h && Hdr.len h != 0 && dataCrc (fitData h data) != dcrc.toNat then 2
  else if writeType op h && (s.formeRetry op h).any fun r => r.outcome == 2 then 5
  else 0

/-! ### Data that the module drives (R103 to R105) -/

/-- One word that D2 reads: all ones where the ECC cannot correct it. -/
def State.d2Word (s : State) (n : LaneId) (a : Nat) : Word := if s.eccHit n a 4 then 0xFFFFFFFF else s.memWord n a

/-- The lane-store byte address of slug number `k` of the galley; none for a slug that is not written. -/
def State.slugAddr (s : State) (n : LaneId) (k : Nat) : Option Nat :=
  if (s.gal n).wcount ≤ k ∨ s.g LANE.GAL_SIZE n = 0 then none
  else some (4096 * s.g LANE.GAL_PBASE n + 16 * (k % s.g LANE.GAL_SIZE n))

/-- The addresses that a burst reads, from slug `first` in a galley; none for words beyond the newest slug. -/
def State.burstAddrs (s : State) (op : Nat) (n : LaneId) (first len : Nat) : List (Option Nat) :=
  (List.range len).map fun i =>
    if op = opGalley then (s.slugAddr n (first + i / 4)).map fun a => a + 4 * (i % 4) else some (s.winBase n + 4 * i)

/-- The words of a burst. -/
def State.burstWords (s : State) (op : Nat) (n : LaneId) (first len : Nat) : List Word :=
  (s.burstAddrs op n first len).map fun x => match x with | some a => s.d2Word n a | none => 0

/-- The data of a read-type transaction that passed its checks. -/
def State.formeData (s : State) (op : Nat) (h : Hdr) : List Word :=
  if op = opRd then (s.readAddrs h).map fun a => s.readAddr (some h.session) a
  else if op = opOpen then (List.range 8).map fun i => (s.session h.session).challenge.extractLsb' (224 - 32 * i) 32
  else match winLane h with
  | some n => s.burstWords op n (s.gal n).rcount (Hdr.len h)
  | none => []

/-! ### The press (R92) and the other effects -/

/-- STORE_WRITE data in D2's buffer land in lane store (R105). What a read sees within the 10 µs from the press is left open: nothing of the
write until it has all landed (DESIGN CHOICE, log 46). -/
def State.landStore (s : State) (n : LaneId) : State :=
  match (s.lane n).storeWrite with
  | none => s
  | some x =>
    ((x.words.zip (List.range x.words.length)).foldl (fun s e => s.putWord n (x.addr + 4 * e.2) e.1) s).upLane n fun l => { l with storeWrite := none }

/-- Words of a burst that the ECC could not correct set ECC_ERR (R103). -/
def State.eccNote (s : State) (n : LaneId) (as_ : List (Option Nat)) : State :=
  if as_.any fun x => match x with | some a => s.eccHit n a 4 | none => false then s.put STORE.STAT_ECC_ERR n 1 else s

/-- What a burst read leaves behind: ECC_ERR (R103), the session's GAL_RSTART (R442). -/
def State.burstDone (s : State) (op : Nat) (k : SessId) (n : LaneId) (first len : Nat) : State :=
  let s' := s.eccNote n (s.burstAddrs op n first len)
  if op = opGalley then s'.upSess k fun x => { x with galRstart := sset (fun _ => 0) x.galRstart n.val (BitVec.ofNat 32 first) }
  else s'

/-- The words of a WRITE with their pages. -/
def pressList (xs : List (Nat × Word)) : List PWord := xs.filterMap fun e => (Page.ofNum (e.1 / 256)).map fun p => ⟨p, e.1 % 256, e.2⟩

/-- A transaction begins: what its proof and the end of its header fix. -/
def State.begin_ (s : State) (op : Nat) (h : Hdr) (data : List Word) : Started :=
  let k := match h.part with | .begin k => min k (Hdr.len h) | _ => 0
  let burst := op == opGalley || op == opStoreRd
  let st := if readType op h then s.formeStatus op h data 0 else 0
  { op := op, h := { h with part := .whole }, data := data, status := st,
    words := if !readType op h || st != 0 then [] else if burst then (s.formeData op h).take ((k + 3) / 4 * 4) else s.formeData op h,
    seen := if op = opWr then (pressList (writePairs h data)).map fun x => (x.page.at_ x.off, s.proofOf (.host h.session) x) else [],
    since := s.stepNo, rcount := match winLane h with | some n => (s.gal n).rcount | none => 0,
    sent := k, cut := false, quad := s.on FORME.CFG_WIDTH 0 }

/-- What the proof of a WRITE in progress showed of a word. -/
def Started.proof (t : Started) (x : PWord) : Word := ((t.seen.find? fun e => e.1 == x.page.at_ x.off).map (·.2)).getD 0

/-- The data that a read-type transaction that passed its checks has driven at its end: what it had, and the rest of a burst (R103, R104); all
ones behind a lane reset (R106). -/
def State.endData (s : State) (t : Started) : List Word :=
  if t.cut then t.words.take t.sent ++ List.replicate (Hdr.len t.h - t.sent) 0xFFFFFFFF
  else match winLane t.h with
  | some n => if t.op = opGalley ∨ t.op = opStoreRd then t.words ++ (s.burstWords t.op n t.rcount (Hdr.len t.h)).drop t.words.length else t.words
  | none => t.words

/-- The effect at the press of a transaction that passed every check. -/
def State.perform (s : State) (t : Started) : State :=
  let k := t.h.session
  let op := t.op
  if op = opWr then s.pressWith (.host k) (pressList (writePairs t.h t.data)) t.proof t.since
  else if op = opClose then State.retryFreed s (State.sessionChange s ((s.closeSession k).sessOutcome k soClosed))
  else if op = opOpen then
    (if Hdr.flag t.h 0 then s
     else (s.upSess k fun x => { x with responses := x.responses ++ [(BitVec.ofNat 256 (wordsNat (fitData t.h t.data)), x.lockout)] }).sessOutcome k soPending)
  else if op = opRing then s.ring (Hdr.at_ t.h)
  else match winLane t.h with
  | some n =>
    if op = opStoreWr then (s.landStore n).upLane n fun l => { l with storeWrite := some ⟨s.winBase n, fitData t.h t.data⟩ }
    else if op = opGalley ∨ op = opStoreRd then s.burstDone op k n t.rcount (Hdr.len t.h) else s
  | none => s

/-- The bytes of the press tail (R95, R97); `quad` is the width the transaction ran in. -/
def tailBytes (quad : Bool) (st : Nat) (seq : BitVec 8) : List Byte :=
  let b := BitVec.ofNat 8 st
  if quad then (if st = 1 then [] else [b, seq, ~~~b, ~~~seq]) else [b]

/-- What the status counts, and the plane reset that it answers for. -/
def State.formeCounts (s : State) (k : SessId) (st : Nat) : State :=
  if st = 1 then s.bump FORME.ERRS_HDR 0
  else if st = 2 then s.bump FORME.ERRS_DATA 0
  else if st = 6 then s.bump FORME.ERRS_DUPLICATE 0
  else if st = 8 then s.upSess k fun x => { x with afterPlaneReset := false }
  else s

/-- The session's record after a transaction (R100): kept by one that failed checks 1 to 3 and by a duplicate. -/
def State.formeRecord (s : State) (op : Nat) (h : Hdr) (st outcome : Nat) : State :=
  if st = 1 ∨ st = 7 ∨ st = 8 ∨ st = 6 ∨ (s.session h.session).isOpen = false then s
  else s.upSess h.session fun x => { x with record := some ⟨hdrBytes op h, st, outcome⟩ }

/-- Was the transaction executed? -/
def ranWhole (st : Nat) : Bool := st == 0 || st == 5

/-- MODE_SEEN (R84). -/
def State.modeSeen (s : State) (h : Hdr) : State := s.put FORME.CFG_MODE_SEEN 0 (if h.mode3 then 3 else 0)

/-- The status of a transaction at its end: a read-type one's was decided as its data phase began, a write-type one's is decided now (R95, R96; log
46); a burst that a lane reset has cut answers ADDR (R106). -/
def State.endStatus (s : State) (t : Started) (dcrc : BitVec 16) : Nat :=
  if t.cut then 4 else if readType t.op t.h then t.status else s.formeStatus t.op t.h t.data dcrc

/-- A transaction runs to its end. A burst cut by a lane reset passed its checks: its record is that of a read (DESIGN CHOICE, log 46). -/
def State.finish (s : State) (t : Started) (dcrc : BitVec 16) : State :=
  let st := s.endStatus t dcrc
  let rd := readType t.op t.h
  let out := if !rd || st == 1 then [] else if ranWhole st || t.cut then s.endData t else List.replicate (Hdr.len t.h) 0
  let s' := (s.formeCounts t.h.session st).formeRecord t.op t.h st (if ranWhole st || t.cut then (if rd then 3 else 1) else 2)
  let s' := s'.modeSeen t.h
  let s' := (if ranWhole st then s'.perform t else s').softResetDue
  { s' with forme := ⟨st, out, if out.isEmpty then 0 else BitVec.ofNat 16 (dataCrc out), tailBytes t.quad st t.h.seq, none⟩ }

/-- The transaction that a command runs or goes on with: a new one where none is in progress, or the one in progress. -/
def State.entered (s : State) (op : Nat) (h : Hdr) (data : List Word) : Option Started :=
  match s.forme.started with
  | none => if h.part = .rest then none else some (s.begin_ op h data)
  | some t => if h.part = .rest ∧ t.op = op ∧ t.h = { h with part := .whole } ∧ t.data = data then some t else none

/-- The port with no transaction in progress. -/
def State.portFree (s : State) : State := { s with forme := { s.forme with started := none } }

/-- A transaction, or the part of it that the command runs: one that stops in its midst waits, with the words that it has delivered (R108). -/
def State.transact (s : State) (op : Nat) (h : Hdr) (data : List Word) (dcrc : BitVec 16) : State :=
  if !s.formeAnswers then s
  else match s.entered op h data with
  | none => s
  | some t =>
    match h.part with
    | .begin k =>
      let s' := if ranWhole t.status && (op == opGalley || op == opStoreRd) then
          match winLane h with | some n => s.eccNote n ((s.burstAddrs op n t.rcount (Hdr.len h)).take t.words.length) | none => s
        else s
      { s' with forme := { s'.forme with started := some { t with sent := min k (Hdr.len h) } } }
    | _ => s.portFree.finish t dcrc

/-! ### The rows of the port -/

def execRead (h : Hdr) (s : State) : Out := fin (s.transact opRd h [] 0)
def execReadList (h : Hdr) (s : State) : Out := fin (s.transact opRd h [] 0)
def execWrite (h : Hdr) (data : List Word) (dcrc : BitVec 16) (s : State) : Out := fin (s.transact opWr h data dcrc)
def execWriteScatter (h : Hdr) (data : List Word) (dcrc : BitVec 16) (s : State) : Out := fin (s.transact opWr h data dcrc)
def execGalleyRead (h : Hdr) (s : State) : Out := fin (s.transact opGalley h [] 0)
def execStoreRead (h : Hdr) (s : State) : Out := fin (s.transact opStoreRd h [] 0)
def execStoreWrite (h : Hdr) (data : List Word) (dcrc : BitVec 16) (s : State) : Out := fin (s.transact opStoreWr h data dcrc)
def execStoreWriteComplete (n : LaneId) (s : State) : Out := fin (s.landStore n)
def execSessionOpenChallenge (h : Hdr) (s : State) : Out := fin (s.transact opOpen h [] 0)
def execSessionOpenResponse (h : Hdr) (data : List Word) (dcrc : BitVec 16) (s : State) : Out := fin (s.transact opOpen h data dcrc)
def execSessionClose (h : Hdr) (s : State) : Out := fin (s.transact opClose h [] 0)
def execRing (h : Hdr) (s : State) : Out := fin (s.transact opRing h [] 0)
def execNop (h : Hdr) (s : State) : Out := fin (s.transact opNop h [] 0)

/-- A header whose CRC fails, whatever opcode it carries; a header with a correct CRC is another row. -/
def execHdrCrc (op : BitVec 8) (h : Hdr) (s : State) : Out :=
  fin (if hdrCrc op.toNat h = h.hcrc.toNat then s else s.transact op.toNat h [] 0)

/-- A transaction cut off after its header (R107). `tail` says that its data were through, so that its status was decided and a burst had
returned its slugs. -/
def State.cutOff (s : State) (t : Started) (dcrc : BitVec 16) (tail : Bool) : State :=
  let st := s.endStatus t dcrc
  let seen := if tail || st == 1 || st == 8 then st else 0
  let s' := (if tail || st == 1 || st == 8 then s.formeCounts t.h.session st else s).formeRecord t.op t.h
    (if st == 6 || st == 7 || st == 8 || st == 1 then st else seen) 2
  let s' := s'.modeSeen t.h
  let s' := if writeType t.op t.h && st != 1 then s'.bump FORME.ERRS_UNPRESSED 0 else s'
  if tail && readType t.op t.h && ranWhole st then s'.perform t else s'

/-- FCS# rises early. With a transaction in progress, whose header is through, it is that one. -/
def execFcsEarlyRise (op : BitVec 8) (h : Hdr) (data : List Word) (dcrc : BitVec 16) (at_ : Trunc) (s : State) : Out :=
  fin (if !s.formeAnswers then s.portFree
  else match at_, s.entered op.toNat h data with
    | .inData, some t => s.portFree.cutOff t dcrc false
    | .tail1to3, some t => s.portFree.cutOff t dcrc true
    | .tail4to8, some t => s.portFree.finish t dcrc
    | _, _ => s)

/-! ### Single register writes (R2, R93, R117, R118, R122, R126) -/

/-- One word of any page, whole: what a press of that word alone does. -/
def State.pressAlone (s : State) (w : Writer) (p : Page) (off : Nat) (v : Word) : State :=
  if decide (256 ≤ off) || !s.writable w p off || (p == .quoin && off == 0x10 && s.quoinBarred w v) then s else s.pressWords w [⟨p, off, v⟩]

def execEvClr (w : Writer) (p : Page) (v proof : Word) (s : State) : Out :=
  fin (if Page.hasHeader p then pressOne w p 5 v proof (fun _ => none) (evClrEff p v proof) s else s)
def execEvSet (w : Writer) (p : Page) (v : Word) (s : State) : Out :=
  fin (if Page.hasHeader p then pressOne w p 6 v 0 (fun _ => none) (evSetEff p v) s else s)
def execEvMaskSet (w : Writer) (p : Page) (v : Word) (s : State) : Out :=
  fin (if Page.hasHeader p then pressOne w p 8 v 0 (fun _ => none) (evMaskSetEff p v) s else s)
def execEvMaskClr (w : Writer) (p : Page) (v : Word) (s : State) : Out :=
  fin (if Page.hasHeader p then pressOne w p 9 v 0 (fun _ => none) (evMaskClrEff p v) s else s)
def execEvSource (w : Writer) (p : Page) (v : Word) (s : State) : Out :=
  fin (if Page.hasHeader p then pressOne w p 0xA v 0 (fun _ => evSourceChk p v) (evSourceEff p v) s else s)

/-- A PG_CTL word with ERR_CLR; its other bits are the word's own. -/
def execErrClr (w : Writer) (p : Page) (v : Word) (s : State) : Out :=
  fin (if Page.hasHeader p then s.pressAlone w p 2 (v ||| 0x80000000) else s)

/-- The effect of one word alone, on the near side or on the far side. -/
def wordEff (w : Writer) (x : PWord) (proof : Word) (s : State) : State :=
  match farWordOf x, x.page with
  | some n, .lane _ k => farEffect w n k x.off x.v proof [] s
  | _, _ => nearEff w [x] x proof s

/-- A write to a counter; `proof` is the count that the writer saw. A word that holds no counter is another row. -/
def execCounterClear (w : Writer) (p : Page) (off : Nat) (v proof : Word) (s : State) : Out :=
  fin (if accMask p off .ctr = 0 ∨ 256 ≤ off then s else pressOne w p off v proof (wordChk s w [] ⟨p, off, v⟩) (wordEff w ⟨p, off, v⟩ proof) s)

def execRegisterWrite (w : Writer) (p : Page) (off : Nat) (v : Word) (s : State) : Out := fin (s.pressAlone w p off v).softResetDue

end Sys2Proof.Machine
end

