-- ==== Sys2Proof/Machine/EngMem.lean ====
section
/-! DEFINITION. The compositor's loads, stores, spills, atomics and block move (spec/16_compositor.md R386 to R388, R396, R399, R404, R405;
spec/17_traps_memory_dma.md R416, R419, R423 to R425; spec/18_chase_services.md R447). -/

namespace Sys2Proof.Machine

/-! ### Register space (R388) -/

/-- First byte of register space. -/
def regsBase : Nat := 0x4800000

/-- Page and offset of a byte address of register space. -/
def regPlace (pa : Nat) : Option (Page × Nat) := (Page.ofNum ((pa - regsBase) / 1024)).map fun p => (p, (pa - regsBase) / 4 % 256)

/-- Is this one of the lane's eight pages? -/
def ownPage (n : LaneId) (p : Page) : Bool := match p with | .lane m _ => m == n | _ => false

/-- The region fault of an access whose address translates. -/
def State.regionFault (s : State) (n : LaneId) : XFault := ⟨fkRegion, b2n (s.eng n).sp.psr.trans⟩

/-! ### Faults of a load and of a store (R416) -/

def State.userNow (s : State) (n : LaneId) : Bool := !(s.eng n).sp.psr.mon
def State.misaligned (s : State) (n : LaneId) (va : Nat) (write : Bool) : State :=
  s.syncTrap n ⟨3, (s.eng n).pc, BitVec.ofNat 32 va, mkTinfoAlign write (s.userNow n)⟩
def State.loadFault (s : State) (n : LaneId) (va : Nat) (f : XFault) (movb : Bool := false) : State :=
  s.syncTrap n ⟨5, (s.eng n).pc, BitVec.ofNat 32 va, mkTinfo f false (s.userNow n) movb⟩
def State.storeFault (s : State) (n : LaneId) (va : Nat) (f : XFault) : State :=
  s.syncTrap n ⟨6, (s.eng n).pc, BitVec.ofNat 32 va, mkTinfo f true (s.userNow n)⟩

/-! ### Storing bytes -/

/-- Does the store touch word 15 of the monitor's mailbox (R447)? -/
def touchesGo (pa k : Nat) : Bool := decide (pa < monBox 15 + 4) && decide (monBox 15 < pa + k)

/-- The engine stores bytes at a physical address; at monitor privilege a store to word 15 of the mailbox starts a service. -/
def State.engPut (s : State) (n : LaneId) (pa : Nat) (bs : List Byte) : State :=
  let s := s.putMem n pa bs
  if touchesGo pa bs.length && (s.eng n).sp.psr.mon && s.chaseUp then s.monitorGo n (s.memWord n (monBox 15)) else s

/-! ### Loads and stores -/

/-- The value of a load of `k` bytes. -/
def loadValue (k : Nat) (signed : Bool) (v : Nat) : Word :=
  if k = 2 then (if signed then sext16 (BitVec.ofNat 16 v) else zext16 (BitVec.ofNat 16 v))
  else if k = 1 then (if signed then (BitVec.ofNat 8 v).signExtend 32 else (BitVec.ofNat 8 v).zeroExtend 32)
  else BitVec.ofNat 32 v

/-- rs1 + sext(imm). -/
def State.effAddr (s : State) (n : LaneId) (rs1 : Nat) (imm : BitVec 16) : Nat := ((s.eng n).r rs1 + sext16 imm).toNat

/-- A load from register space: the eight pages of the lane, MOD and REG, as they stand. -/
def State.regLoad (s : State) (n : LaneId) (rd va pa : Nat) : State :=
  match regPlace pa with
  | some (p, off) => if ownPage n p || p == .mod || p == .reg then s.ret n rd (s.readPage none p off) else s.loadFault n va (s.regionFault n)
  | none => s.loadFault n va (s.regionFault n)

/-- LW, LH, LHU, LB, LBU. -/
def State.engLoad (s : State) (n : LaneId) (op rd rs1 : Nat) (imm : BitVec 16) (k : Nat) (signed : Bool) : State :=
  s.instr n (encI op rd rs1 imm.toNat) [rd, rs1] fun s =>
    let va := s.effAddr n rs1 imm
    if va % k ≠ 0 then s.misaligned n va false
    else match s.engXlate n va .load with
    | (.error f, s) => s.loadFault n va f
    | (.ok pa, s) =>
      if regionOf pa = .regs then (if k = 4 then s.regLoad n rd va pa else s.misaligned n va false)
      else if s.eccHit n pa k then s.loadFault n va ⟨fkEcc, 0⟩
      else s.ret n rd (loadValue k signed (s.memNat n pa k))

/-- A store to register space: one write by the engine, to the eight pages of the lane. -/
def State.regStore (s : State) (n : LaneId) (va pa : Nat) (v : Word) : State :=
  match regPlace pa with
  | some (p, off) =>
    if ownPage n p then (s.nextPc n).pressAlone (s.engWriter n) p off v else s.storeFault n va (s.regionFault n)
  | none => s.storeFault n va (s.regionFault n)

/-- SW, SH, SB. -/
def State.engStore (s : State) (n : LaneId) (op rs2 rs1 : Nat) (imm : BitVec 16) (k : Nat) : State :=
  s.instr n (encI op rs2 rs1 imm.toNat) [rs2, rs1] fun s =>
    let va := s.effAddr n rs1 imm
    let v := (s.eng n).r rs2
    if va % k ≠ 0 then s.misaligned n va true
    else match s.engXlate n va .store with
    | (.error f, s) => s.storeFault n va f
    | (.ok pa, s) =>
      if regionOf pa = .regs then (if k = 4 then s.regStore n va pa v else s.misaligned n va true)
      else (s.engPut n pa (leBytes k v.toNat)).nextPc n

def execLw (n : LaneId) (rd rs1 : BitVec 5) (imm : BitVec 16) (s : State) : Out := fin (s.engLoad n 0x10 rd.toNat rs1.toNat imm 4 false)
def execLh (n : LaneId) (rd rs1 : BitVec 5) (imm : BitVec 16) (s : State) : Out := fin (s.engLoad n 0x11 rd.toNat rs1.toNat imm 2 true)
def execLhu (n : LaneId) (rd rs1 : BitVec 5) (imm : BitVec 16) (s : State) : Out := fin (s.engLoad n 0x12 rd.toNat rs1.toNat imm 2 false)
def execLb (n : LaneId) (rd rs1 : BitVec 5) (imm : BitVec 16) (s : State) : Out := fin (s.engLoad n 0x13 rd.toNat rs1.toNat imm 1 true)
def execLbu (n : LaneId) (rd rs1 : BitVec 5) (imm : BitVec 16) (s : State) : Out := fin (s.engLoad n 0x14 rd.toNat rs1.toNat imm 1 false)
def execSw (n : LaneId) (rs2 rs1 : BitVec 5) (imm : BitVec 16) (s : State) : Out := fin (s.engStore n 0x18 rs2.toNat rs1.toNat imm 4)
def execSh (n : LaneId) (rs2 rs1 : BitVec 5) (imm : BitVec 16) (s : State) : Out := fin (s.engStore n 0x19 rs2.toNat rs1.toNat imm 2)
def execSb (n : LaneId) (rs2 rs1 : BitVec 5) (imm : BitVec 16) (s : State) : Out := fin (s.engStore n 0x1A rs2.toNat rs1.toNat imm 1)

/-! ### Spills and fills (R399, R423 to R425) -/

/-- Translate twelve words from `va`: their physical addresses, or the first that faults. -/
def State.xlateWords (s : State) (n : LaneId) (w : Way) : Nat → Nat → Except (Nat × XFault) (List Nat) × State
  | _, 0 => (.ok [], s)
  | va, k + 1 =>
    match s.spillXlate n (va % 2 ^ 32) w with
    | (.error f, s) => (.error (va % 2 ^ 32, f), s)
    | (.ok pa, s) => match s.xlateWords n w (va + 4) k with
      | (.error f, s) => (.error f, s)
      | (.ok r, s) => (.ok (pa :: r), s)

/-- Store words at their physical addresses. -/
def State.putWords (s : State) (n : LaneId) (xs : List (Nat × Word)) : State := xs.foldl (fun s e => s.engPut n e.1 (leBytes 4 e.2.toNat)) s

/-- SPILL_FAULT becomes pending, with the entries on the shelf as COUNT. -/
def State.spillPending (s : State) (n : LaneId) (va : Nat) (f : XFault) : State :=
  s.upEng n fun e => { e with shelfPend := true, spill := some ⟨BitVec.ofNat 32 va, mkTinfo f true false false 0 e.shelf.length⟩ }

/-- WOLD and SSP after a spill. -/
def Eng.spilled (e : Eng) : Eng :=
  { e with regs := { e.regs with wold := (e.regs.wold + 1) % 12 }, sp := { e.sp with ssp := e.sp.ssp - 48 } }

/-- A SPILLW while CAUSE reads 0x09: the oldest shelf entry drains; with an empty shelf there is nothing to drain. -/
def State.drain (s : State) (n : LaneId) : State :=
  match (s.eng n).shelf with
  | [] => s.nextPc n
  | x :: r =>
    match s.xlateWords n .store x.addr.toNat 12 with
    | (.error e, s) => (s.spillPending n e.1 e.2).nextPc n
    | (.ok pas, s) =>
      State.nextPc ((s.putWords n (pas.zip x.regs)).upEng n fun e => { e with shelf := r, shelfPend := e.shelfPend && !r.isEmpty }) n

/-- The engine's own SPILLW: window WOLD is stored, and WRES is one less (R422). -/
def State.spill (s : State) (n : LaneId) (w : Word) : State :=
  let e := s.eng n
  let va := e.sp.ssp - 48
  let regs := e.regs.twelve e.regs.wold
  if e.regs.wres ≤ 2 then s.illegal n w
  else if 8 ≤ e.shelf.length then s.halt n 3
  else match s.xlateWords n .store va.toNat 12 with
    | (.error f, s) => State.nextPc ((State.spillPending (s.upEng n fun e => { e with shelf := e.shelf ++ [⟨va, regs⟩] }) n f.1 f.2).upEng n Eng.spilled) n
    | (.ok pas, s) => State.nextPc ((s.putWords n (pas.zip regs)).upEng n Eng.spilled) n

def execSpillw (n : LaneId) (s : State) : Out :=
  let w := encR 0x30 0 0 0 0x003
  fin (s.monInstr n w [] fun s => if (s.eng n).sp.cause = 9 then s.drain n else s.spill n w)

/-- Twelve registers enter window WOLD − 1. -/
def Eng.filled (e : Eng) (vs : List Word) : Eng :=
  let w := (e.regs.wold + 11) % 12
  { e with regs := { e.regs.setTwelve w vs with wold := w }, sp := { e.sp with ssp := e.sp.ssp + 48 }, pc := e.pc + 4 }

/-- FILLW: window WOLD − 1 is reloaded, from the shelf, newest entry first, or from memory (R422). -/
def State.fill (s : State) (n : LaneId) (w : Word) : State :=
  let e := s.eng n
  if e.regs.wres = 12 then s.illegal n w
  else match e.shelf.reverse.find? fun x => x.addr == e.sp.ssp with
    | some x =>
      s.upEng n fun e =>
        let r := (e.shelf.reverse.erase x).reverse
        { e.filled x.regs with shelf := r, shelfPend := e.shelfPend && !r.isEmpty }
    | none =>
      match s.xlateWords n .load e.sp.ssp.toNat 12 with
      | (.error f, s) => s.loadFault n f.1 f.2
      | (.ok pas, s) =>
        match (pas.zip (List.range 12)).find? fun x => s.eccHit n x.1 4 with
        | some x => s.loadFault n ((e.sp.ssp.toNat + 4 * x.2) % 2 ^ 32) ⟨fkEcc, 0⟩
        | none => s.upEng n fun e => e.filled (pas.map fun a => s.memWord n a)

def execFillw (n : LaneId) (s : State) : Out :=
  let w := encR 0x30 0 0 0 0x004
  fin (s.monInstr n w [] fun s => s.fill n w)

/-! ### SWAPW and CASW (R404) -/

/-- The word at rs1 is read and, where `put` says so of the old value, replaced by rs2; rd takes the old value. -/
def State.atomic (s : State) (n : LaneId) (funct rd rs1 rs2 : Nat) : State :=
  let w := encR 0x36 rd rs1 rs2 funct
  s.instr n w [rd, rs1, rs2] fun s =>
    let va := ((s.eng n).r rs1).toNat
    let new := (s.eng n).r rs2
    let want := (s.eng n).r rd
    if va % 4 ≠ 0 then s.misaligned n va true
    else match s.engXlate n va .load with
    | (.error f, s) => s.loadFault n va f
    | (.ok pa, s) =>
      if regionOf pa ≠ .store ∧ regionOf pa ≠ .dsram then s.illegal n w
      else match s.engXlate n va .store with
      | (.error f, s) => s.storeFault n va f
      | (.ok _, s) =>
        if s.eccHit n pa 4 then s.loadFault n va ⟨fkEcc, 0⟩
        else
          let old := s.memWord n pa
          (if funct = 0 ∨ old = want then s.engPut n pa (leBytes 4 new.toNat) else s).ret n rd old

def execSwapw (n : LaneId) (rd rs1 rs2 : BitVec 5) (s : State) : Out := fin (s.atomic n 0x000 rd.toNat rs1.toNat rs2.toNat)
def execCasw (n : LaneId) (rd rs1 rs2 : BitVec 5) (s : State) : Out := fin (s.atomic n 0x001 rd.toNat rs1.toNat rs2.toNat)

/-! ### MOVB (R405, R419) -/

/-- The move's registers after a unit of `k` bytes; the move ends when nothing is left. -/
def Eng.movbStep (e : Eng) (rd rs1 rs2 k : Nat) : Eng :=
  let dst := e.r rs1 + BitVec.ofNat 32 k
  let src := e.r rs2 + BitVec.ofNat 32 k
  let left := e.r rd - BitVec.ofNat 32 k
  let units := e.movbUnits + 1
  let e := ((e.w rs1 dst).w rs2 src).w rd left
  if left = 0 then { e with pc := e.pc + 4, movbUnits := 0, movbMid := false }
  else { e with movbUnits := units, movbMid := units % 16 != 0 && dst &&& 0xFFF != 0 && src &&& 0xFFF != 0 }

/-- One unit of the move: read, then written; a fault leaves it undone. -/
def State.movbUnit (s : State) (n : LaneId) (rd rs1 rs2 : Nat) : State :=
  let e := s.eng n
  let k := if (e.r rd ||| e.r rs1 ||| e.r rs2) &&& 3 = 0 then 4 else 1
  let src := (e.r rs2).toNat
  let dst := (e.r rs1).toNat
  match s.engXlate n src .load with
  | (.error f, s) => s.loadFault n src f true
  | (.ok pa, s) =>
    if regionOf pa = .regs then s.misaligned n src false
    else match s.engXlate n dst .store with
    | (.error f, s) => s.storeFault n dst f
    | (.ok pb, s) =>
      if regionOf pb = .regs then s.misaligned n dst true
      else if s.eccHit n pa k then s.loadFault n src ⟨fkEcc, 0⟩ true
      else (s.engPut n pb (Memory.bytes (s.lane n).mem pa k)).upEng n fun e => e.movbStep rd rs1 rs2 k

/-- MOVB, one unit each time the command is given; the one in progress is not matched by a breakpoint again. -/
def State.movb (s : State) (n : LaneId) (rd rs1 rs2 : Nat) : State :=
  let w := encR 0x30 rd rs1 rs2 0x009
  let e := s.eng n
  let ready := s.fitted n && e.run == .running && e.qwait.isNone && (s.asyncNow n).isNone && (e.movbUnits != 0 || !s.bpMatch n)
  if !ready then s
  else
    let user := !e.sp.psr.mon
    let ok := [rd, rs1, rs2].all fun c => codeOk c && c != 0
    (if !ok || rd == rs1 || rd == rs2 || rs1 == rs2 then s.illegal n w
     else if e.r rd = 0 then s.nextPc n
     else s.movbUnit n rd rs1 rs2).afterInstr n user

def execMovb (n : LaneId) (rd rs1 rs2 : BitVec 5) (s : State) : Out := fin (s.movb n rd.toNat rs1.toNat rs2.toNat)

end Sys2Proof.Machine
end

