-- ==== Sys2Proof/Machine/Dispatch.lean ====
section
/-! DEFINITION. Which meaning each command has: one arm per constructor of Instr. -/

namespace Sys2Proof.Machine

def exec (i : Instr) (s : State) : Host.Outcome State Fault Refusal :=
  match i with
  | .gutterFrameSend n up => Sys2Proof.Machine.execGutterFrameSend n up s
  | .gutterFrameReceive n up bits => Sys2Proof.Machine.execGutterFrameReceive n up bits s
  | .itemResend n up => Sys2Proof.Machine.execItemResend n up s
  | .farSideSafe n => Sys2Proof.Machine.execFarSideSafe n s
  | .telemetryDue n => Sys2Proof.Machine.execTelemetryDue n s
  | .farSideApply n => Sys2Proof.Machine.execFarSideApply n s
  | .vioWindowChange mv => Sys2Proof.Machine.execVioWindowChange mv s
  | .mrstLow low => Sys2Proof.Machine.execMrstLow low s
  | .powerOn vin aux adr => Sys2Proof.Machine.execPowerOn vin aux adr s
  | .brownout vin => Sys2Proof.Machine.execBrownout vin s
  | .brownoutRecovery vin => Sys2Proof.Machine.execBrownoutRecovery vin s
  | .auxSourceChange aux => Sys2Proof.Machine.execAuxSourceChange aux s
  | .islandPowerLoss => Sys2Proof.Machine.execIslandPowerLoss s
  | .fxPresentChange on => Sys2Proof.Machine.execFxPresentChange on s
  | .fxCurrentLimit on => Sys2Proof.Machine.execFxCurrentLimit on s
  | .interlockOpening pair mvA mvB us => Sys2Proof.Machine.execInterlockOpening pair mvA mvB us s
  | .permitChannelSilent n => Sys2Proof.Machine.execPermitChannelSilent n s
  | .channelDiscrepancy pair mvA mvB us => Sys2Proof.Machine.execChannelDiscrepancy pair mvA mvB us s
  | .channelClosing pair mvA mvB us => Sys2Proof.Machine.execChannelClosing pair mvA mvB us s
  | .discrepancyClear w pair proof => Sys2Proof.Machine.execDiscrepancyClear w pair proof s
  | .converterTrip n => Sys2Proof.Machine.execConverterTrip n s
  | .rearm w n => Sys2Proof.Machine.execRearm w n s
  | .pwrReq w v => Sys2Proof.Machine.execPwrReq w v s
  | .powerStateChange => Sys2Proof.Machine.execPowerStateChange s
  | .resetRelease which => Sys2Proof.Machine.execResetRelease which s
  | .softReset w v => Sys2Proof.Machine.execSoftReset w v s
  | .watchdogExpiry pc => Sys2Proof.Machine.execWatchdogExpiry pc s
  | .laneReset w n v => Sys2Proof.Machine.execLaneReset w n v s
  | .engineReset w n v => Sys2Proof.Machine.execEngineReset w n v s
  | .bootImageCheck => Sys2Proof.Machine.execBootImageCheck s
  | .chaseRunning => Sys2Proof.Machine.execChaseRunning s
  | .bootConfirmed => Sys2Proof.Machine.execBootConfirmed s
  | .selftestComplete n failed => Sys2Proof.Machine.execSelftestComplete n failed s
  | .laneReady n => Sys2Proof.Machine.execLaneReady n s
  | .laneDisciplined n => Sys2Proof.Machine.execLaneDisciplined n s
  | .read h => Sys2Proof.Machine.execRead h s
  | .readList h => Sys2Proof.Machine.execReadList h s
  | .write h data dcrc => Sys2Proof.Machine.execWrite h data dcrc s
  | .writeScatter h data dcrc => Sys2Proof.Machine.execWriteScatter h data dcrc s
  | .galleyRead h => Sys2Proof.Machine.execGalleyRead h s
  | .storeRead h => Sys2Proof.Machine.execStoreRead h s
  | .storeWrite h data dcrc => Sys2Proof.Machine.execStoreWrite h data dcrc s
  | .storeWriteComplete n => Sys2Proof.Machine.execStoreWriteComplete n s
  | .sessionOpenChallenge h => Sys2Proof.Machine.execSessionOpenChallenge h s
  | .sessionOpenResponse h data dcrc => Sys2Proof.Machine.execSessionOpenResponse h data dcrc s
  | .sessionClose h => Sys2Proof.Machine.execSessionClose h s
  | .ring h => Sys2Proof.Machine.execRing h s
  | .nop h => Sys2Proof.Machine.execNop h s
  | .fcsEarlyRise op h data dcrc at_ => Sys2Proof.Machine.execFcsEarlyRise op h data dcrc at_ s
  | .evClr w p v proof => Sys2Proof.Machine.execEvClr w p v proof s
  | .evSet w p v => Sys2Proof.Machine.execEvSet w p v s
  | .evMaskSet w p v => Sys2Proof.Machine.execEvMaskSet w p v s
  | .evMaskClr w p v => Sys2Proof.Machine.execEvMaskClr w p v s
  | .evSource w p v => Sys2Proof.Machine.execEvSource w p v s
  | .errClr w p v => Sys2Proof.Machine.execErrClr w p v s
  | .counterClear w p off v proof => Sys2Proof.Machine.execCounterClear w p off v proof s
  | .registerWrite w p off v => Sys2Proof.Machine.execRegisterWrite w p off v s
  | .responseJudgement k => Sys2Proof.Machine.execResponseJudgement k s
  | .lockoutEnd k => Sys2Proof.Machine.execLockoutEnd k s
  | .forceClose w v => Sys2Proof.Machine.execForceClose w v s
  | .keyLoad w words v => Sys2Proof.Machine.execKeyLoad w words v s
  | .keyErase w v => Sys2Proof.Machine.execKeyErase w v s
  | .take w v => Sys2Proof.Machine.execTake w v s
  | .give w v => Sys2Proof.Machine.execGive w v s
  | .clearBroken w v => Sys2Proof.Machine.execClearBroken w v s
  | .draw w v => Sys2Proof.Machine.execDraw w v s
  | .cancelWait w v => Sys2Proof.Machine.execCancelWait w v s
  | .holdLimitExpiry q => Sys2Proof.Machine.execHoldLimitExpiry q s
  | .quoinCfg w q v => Sys2Proof.Machine.execQuoinCfg w q v s
  | .takeqTimeout n => Sys2Proof.Machine.execTakeqTimeout n s
  | .enSet w i' v => Sys2Proof.Machine.execEnSet w i' v s
  | .enClr w i' v proof => Sys2Proof.Machine.execEnClr w i' v proof s
  | .pendSet w i' v => Sys2Proof.Machine.execPendSet w i' v s
  | .pendClr w i' v proof => Sys2Proof.Machine.execPendClr w i' v proof s
  | .claim w t v => Sys2Proof.Machine.execClaim w t v s
  | .done w t v => Sys2Proof.Machine.execDone w t v s
  | .forceDone w v => Sys2Proof.Machine.execForceDone w v s
  | .sourceEntryWrite w src v => Sys2Proof.Machine.execSourceEntryWrite w src v s
  | .coalWrite w c v => Sys2Proof.Machine.execCoalWrite w c v s
  | .coalescerTimeFire c => Sys2Proof.Machine.execCoalescerTimeFire c s
  | .firqEdgeReassert t => Sys2Proof.Machine.execFirqEdgeReassert t s
  | .nightWatchWake entry => Sys2Proof.Machine.execNightWatchWake entry s
  | .rtWrap => Sys2Proof.Machine.execRtWrap s
  | .rtHiIncrement => Sys2Proof.Machine.execRtHiIncrement s
  | .rtSecond => Sys2Proof.Machine.execRtSecond s
  | .rtIncWrite w v => Sys2Proof.Machine.execRtIncWrite w v s
  | .stepGo w => Sys2Proof.Machine.execStepGo w s
  | .stepAnnounce ahead => Sys2Proof.Machine.execStepAnnounce ahead s
  | .stepInstant => Sys2Proof.Machine.execStepInstant s
  | .laneStepApply n => Sys2Proof.Machine.execLaneStepApply n s
  | .selectWrite w v => Sys2Proof.Machine.execSelectWrite w v s
  | .switchComplete => Sys2Proof.Machine.execSwitchComplete s
  | .modeWrite w v => Sys2Proof.Machine.execModeWrite w v s
  | .utcWrite w v => Sys2Proof.Machine.execUtcWrite w v s
  | .ptpSyncRx m => Sys2Proof.Machine.execPtpSyncRx m s
  | .ptpFollowUpRx m => Sys2Proof.Machine.execPtpFollowUpRx m s
  | .ptpDelayRespRx m => Sys2Proof.Machine.execPtpDelayRespRx m s
  | .ptpAnnounceRx m => Sys2Proof.Machine.execPtpAnnounceRx m s
  | .ptpTimestampCapture req => Sys2Proof.Machine.execPtpTimestampCapture req s
  | .delayReqSend b seq => Sys2Proof.Machine.execDelayReqSend b seq s
  | .announceTimeout b => Sys2Proof.Machine.execAnnounceTimeout b s
  | .syncOffsetTimeout b => Sys2Proof.Machine.execSyncOffsetTimeout b s
  | .holdoverExpiry b => Sys2Proof.Machine.execHoldoverExpiry b s
  | .ethLinkChange signal aneg full100 mdix => Sys2Proof.Machine.execEthLinkChange signal aneg full100 mdix s
  | .arpRx h sip ip => Sys2Proof.Machine.execArpRx h sip ip s
  | .icmpEcho h sip ip ident payload fragment => Sys2Proof.Machine.execIcmpEcho h sip ip ident payload fragment s
  | .ethFrameDrop fcsOk => Sys2Proof.Machine.execEthFrameDrop fcsOk s
  | .triggerFrameRx h body => Sys2Proof.Machine.execTriggerFrameRx h body s
  | .laneErrUpdate n err => Sys2Proof.Machine.execLaneErrUpdate n err s
  | .impPost k p w0 w1 w2 w3 => Sys2Proof.Machine.execImpPost k p w0 w1 w2 w3 s
  | .impDisarm w => Sys2Proof.Machine.execImpDisarm w s
  | .impCancel w v => Sys2Proof.Machine.execImpCancel w v s
  | .impRun w v => Sys2Proof.Machine.execImpRun w v s
  | .feederArm sh m => Sys2Proof.Machine.execFeederArm sh m s
  | .smuStep n => Sys2Proof.Machine.execSmuStep n s
  | .smuOff n => Sys2Proof.Machine.execSmuOff n s
  | .windowOpen n => Sys2Proof.Machine.execWindowOpen n s
  | .windowClose n => Sys2Proof.Machine.execWindowClose n s
  | .dioSet n => Sys2Proof.Machine.execDioSet n s
  | .syncReset n => Sys2Proof.Machine.execSyncReset n s
  | .canLaunch n => Sys2Proof.Machine.execCanLaunch n s
  | .usndShot n => Sys2Proof.Machine.execUsndShot n s
  | .tmrCtl n => Sys2Proof.Machine.execTmrCtl n s
  | .mark n => Sys2Proof.Machine.execMark n s
  | .impRing m => Sys2Proof.Machine.execImpRing m s
  | .syncOut => Sys2Proof.Machine.execSyncOut s
  | .ethLaunch => Sys2Proof.Machine.execEthLaunch s
  | .impressionSkip sh m => Sys2Proof.Machine.execImpressionSkip sh m s
  | .impressionExpired sh m => Sys2Proof.Machine.execImpressionExpired sh m s
  | .launchReport n => Sys2Proof.Machine.execLaunchReport n s
  | .syncInEdge rising => Sys2Proof.Machine.execSyncInEdge rising s
  | .inRelease w v => Sys2Proof.Machine.execInRelease w v s
  | .ppsPulseEnd => Sys2Proof.Machine.execPpsPulseEnd s
  | .syncOutPulseEnd => Sys2Proof.Machine.execSyncOutPulseEnd s
  | .smuStart w n => Sys2Proof.Machine.execSmuStart w n s
  | .smuStop w n => Sys2Proof.Machine.execSmuStop w n s
  | .smuAbort w n => Sys2Proof.Machine.execSmuAbort w n s
  | .smuMeasure w n => Sys2Proof.Machine.execSmuMeasure w n s
  | .azGrant w n => Sys2Proof.Machine.execAzGrant w n s
  | .smuCfgWrite w n v => Sys2Proof.Machine.execSmuCfgWrite w n v s
  | .smuLevelWrite w n v => Sys2Proof.Machine.execSmuLevelWrite w n v s
  | .smuIrangeWrite w n v => Sys2Proof.Machine.execSmuIrangeWrite w n v s
  | .smuRun w n v => Sys2Proof.Machine.execSmuRun w n v s
  | .hvArmingComplete n => Sys2Proof.Machine.execHvArmingComplete n s
  | .hvArmingTimeout n => Sys2Proof.Machine.execHvArmingTimeout n s
  | .rampTimeout n => Sys2Proof.Machine.execRampTimeout n s
  | .dwellElapsed n => Sys2Proof.Machine.execDwellElapsed n s
  | .dischargeFault n => Sys2Proof.Machine.execDischargeFault n s
  | .smuResult n v i' v2 i2 stamp => Sys2Proof.Machine.execSmuResult n v i' v2 i2 stamp s
  | .coarseSample n bv bi ba => Sys2Proof.Machine.execCoarseSample n bv bi ba s
  | .arcExcursionEnd n => Sys2Proof.Machine.execArcExcursionEnd n s
  | .rangeChangeEnd n => Sys2Proof.Machine.execRangeChangeEnd n s
  | .azDue n t => Sys2Proof.Machine.execAzDue n t s
  | .azRunStart n => Sys2Proof.Machine.execAzRunStart n s
  | .azRunComplete n t => Sys2Proof.Machine.execAzRunComplete n t s
  | .azNotice n => Sys2Proof.Machine.execAzNotice n s
  | .azForced n => Sys2Proof.Machine.execAzForced n s
  | .chainOutput n c bits => Sys2Proof.Machine.execChainOutput n c bits s
  | .chainRestart n c => Sys2Proof.Machine.execChainRestart n c s
  | .chainCtlWrite w n ctl v => Sys2Proof.Machine.execChainCtlWrite w n ctl v s
  | .chainTapWrite w n v => Sys2Proof.Machine.execChainTapWrite w n v s
  | .mSrcWrite w n v => Sys2Proof.Machine.execMSrcWrite w n v s
  | .coefWrite w n i' v => Sys2Proof.Machine.execCoefWrite w n i' v s
  | .coefSelWrite w n v => Sys2Proof.Machine.execCoefSelWrite w n v s
  | .swap w n v => Sys2Proof.Machine.execSwap w n v s
  | .usndRun w n v => Sys2Proof.Machine.execUsndRun w n v s
  | .cadenceWrite w n v => Sys2Proof.Machine.execCadenceWrite w n v s
  | .cadencePairStart n => Sys2Proof.Machine.execCadencePairStart n s
  | .shot w n => Sys2Proof.Machine.execShot w n s
  | .pairEnd n down up => Sys2Proof.Machine.execPairEnd n down up s
  | .autoIdleReturn n => Sys2Proof.Machine.execAutoIdleReturn n s
  | .zero w n => Sys2Proof.Machine.execZero w n s
  | .reseed w n => Sys2Proof.Machine.execReseed w n s
  | .zcGrant w n => Sys2Proof.Machine.execZcGrant w n s
  | .zcDue n t => Sys2Proof.Machine.execZcDue n t s
  | .zcRunStart n => Sys2Proof.Machine.execZcRunStart n s
  | .zcRunComplete n dtEl t => Sys2Proof.Machine.execZcRunComplete n dtEl t s
  | .zcNotice n => Sys2Proof.Machine.execZcNotice n s
  | .zcForced n => Sys2Proof.Machine.execZcForced n s
  | .lineStart n => Sys2Proof.Machine.execLineStart n s
  | .censusDue n => Sys2Proof.Machine.execCensusDue n s
  | .rollcall n e => Sys2Proof.Machine.execRollcall n e s
  | .ticks n turns e => Sys2Proof.Machine.execTicks n turns e s
  | .poll n k g e => Sys2Proof.Machine.execPoll n k g e s
  | .podRead n k own e => Sys2Proof.Machine.execPodRead n k own e s
  | .podWrite n k own e => Sys2Proof.Machine.execPodWrite n k own e s
  | .event n k e => Sys2Proof.Machine.execEvent n k e s
  | .attn n e => Sys2Proof.Machine.execAttn n e s
  | .search n e => Sys2Proof.Machine.execSearch n e s
  | .unassign n k e => Sys2Proof.Machine.execUnassign n k e s
  | .identify n e => Sys2Proof.Machine.execIdentify n e s
  | .pollDue n k g => Sys2Proof.Machine.execPollDue n k g s
  | .attnDue n => Sys2Proof.Machine.execAttnDue n s
  | .reqGo w n v => Sys2Proof.Machine.execReqGo w n v s
  | .duncolDeadline n job lateGood => Sys2Proof.Machine.execDuncolDeadline n job lateGood s
  | .searchNotice n => Sys2Proof.Machine.execSearchNotice n s
  | .searchGrant w n => Sys2Proof.Machine.execSearchGrant w n s
  | .searchForced n => Sys2Proof.Machine.execSearchForced n s
  | .forget w n => Sys2Proof.Machine.execForget w n s
  | .streamWrite w n k v => Sys2Proof.Machine.execStreamWrite w n k v s
  | .lineFaultRecovery n => Sys2Proof.Machine.execLineFaultRecovery n s
  | .dpFault n => Sys2Proof.Machine.execDpFault n s
  | .podJoin n p => Sys2Proof.Machine.execPodJoin n p s
  | .podAddressTimeout n p => Sys2Proof.Machine.execPodAddressTimeout n p s
  | .podPowerUp n p id fw fail => Sys2Proof.Machine.execPodPowerUp n p id fw fail s
  | .podInternalSample n p tick x y z gyro recA recG => Sys2Proof.Machine.execPodInternalSample n p tick x y z gyro recA recG s
  | .podWriteApply n p => Sys2Proof.Machine.execPodWriteApply n p s
  | .save n p => Sys2Proof.Machine.execSave n p s
  | .saveComplete n p => Sys2Proof.Machine.execSaveComplete n p s
  | .defaults n p => Sys2Proof.Machine.execDefaults n p s
  | .capArm n p => Sys2Proof.Machine.execCapArm n p s
  | .capRelease n p => Sys2Proof.Machine.execCapRelease n p s
  | .tiltRef n p => Sys2Proof.Machine.execTiltRef n p s
  | .gyroLost n p tick => Sys2Proof.Machine.execGyroLost n p tick s
  | .gyroReady n p tick => Sys2Proof.Machine.execGyroReady n p tick s
  | .smTimeout n p m => Sys2Proof.Machine.execSmTimeout n p m s
  | .timerStart w n m => Sys2Proof.Machine.execTimerStart w n m s
  | .timerStop w n m => Sys2Proof.Machine.execTimerStop w n m s
  | .timerReload n t => Sys2Proof.Machine.execTimerReload n t s
  | .compareMatch n t => Sys2Proof.Machine.execCompareMatch n t s
  | .captureLeadingEdge n t => Sys2Proof.Machine.execCaptureLeadingEdge n t s
  | .captureTrailingEdge n t => Sys2Proof.Machine.execCaptureTrailingEdge n t s
  | .dioEdge n p rising => Sys2Proof.Machine.execDioEdge n p rising s
  | .dioOvercurrent n p => Sys2Proof.Machine.execDioOvercurrent n p s
  | .dioFaultClear w n v proof => Sys2Proof.Machine.execDioFaultClear w n v proof s
  | .timerFreeze n => Sys2Proof.Machine.execTimerFreeze n s
  | .timerUnfreeze n => Sys2Proof.Machine.execTimerUnfreeze n s
  | .canRun w n v => Sys2Proof.Machine.execCanRun w n v s
  | .canIntegration n => Sys2Proof.Machine.execCanIntegration n s
  | .txbReq w n v => Sys2Proof.Machine.execTxbReq w n v s
  | .txbCancel w n v => Sys2Proof.Machine.execTxbCancel w n v s
  | .canAttemptStart n => Sys2Proof.Machine.execCanAttemptStart n s
  | .canAttemptEnd n ok lec dataPhase => Sys2Proof.Machine.execCanAttemptEnd n ok lec dataPhase s
  | .canDeadline n b => Sys2Proof.Machine.execCanDeadline n b s
  | .canFrameRx n hdr0 dlc rtr esi data stamp => Sys2Proof.Machine.execCanFrameRx n hdr0 dlc rtr esi data stamp s
  | .rxRelease w n v => Sys2Proof.Machine.execRxRelease w n v s
  | .busoffDelayExpiry n => Sys2Proof.Machine.execBusoffDelayExpiry n s
  | .recover w n => Sys2Proof.Machine.execRecover w n s
  | .recoveryComplete n => Sys2Proof.Machine.execRecoveryComplete n s
  | .addi n rd rs1 imm => Sys2Proof.Machine.execAddi n rd rs1 imm s
  | .andi n rd rs1 imm => Sys2Proof.Machine.execAndi n rd rs1 imm s
  | .ori n rd rs1 imm => Sys2Proof.Machine.execOri n rd rs1 imm s
  | .xori n rd rs1 imm => Sys2Proof.Machine.execXori n rd rs1 imm s
  | .slti n rd rs1 imm => Sys2Proof.Machine.execSlti n rd rs1 imm s
  | .sltiu n rd rs1 imm => Sys2Proof.Machine.execSltiu n rd rs1 imm s
  | .lui n rd imm => Sys2Proof.Machine.execLui n rd imm s
  | .lw n rd rs1 imm => Sys2Proof.Machine.execLw n rd rs1 imm s
  | .lh n rd rs1 imm => Sys2Proof.Machine.execLh n rd rs1 imm s
  | .lhu n rd rs1 imm => Sys2Proof.Machine.execLhu n rd rs1 imm s
  | .lb n rd rs1 imm => Sys2Proof.Machine.execLb n rd rs1 imm s
  | .lbu n rd rs1 imm => Sys2Proof.Machine.execLbu n rd rs1 imm s
  | .sw n rs2 rs1 imm => Sys2Proof.Machine.execSw n rs2 rs1 imm s
  | .sh n rs2 rs1 imm => Sys2Proof.Machine.execSh n rs2 rs1 imm s
  | .sb n rs2 rs1 imm => Sys2Proof.Machine.execSb n rs2 rs1 imm s
  | .beq n rs1 rs2 off => Sys2Proof.Machine.execBeq n rs1 rs2 off s
  | .bne n rs1 rs2 off => Sys2Proof.Machine.execBne n rs1 rs2 off s
  | .blt n rs1 rs2 off => Sys2Proof.Machine.execBlt n rs1 rs2 off s
  | .bge n rs1 rs2 off => Sys2Proof.Machine.execBge n rs1 rs2 off s
  | .bltu n rs1 rs2 off => Sys2Proof.Machine.execBltu n rs1 rs2 off s
  | .bgeu n rs1 rs2 off => Sys2Proof.Machine.execBgeu n rs1 rs2 off s
  | .jmp n off => Sys2Proof.Machine.execJmp n off s
  | .callw n off => Sys2Proof.Machine.execCallw n off s
  | .jr n rs1 imm => Sys2Proof.Machine.execJr n rs1 imm s
  | .callwr n rs1 imm => Sys2Proof.Machine.execCallwr n rs1 imm s
  | .retw n => Sys2Proof.Machine.execRetw n s
  | .rds n rd sr => Sys2Proof.Machine.execRds n rd sr s
  | .wrs n sr rs1 => Sys2Proof.Machine.execWrs n sr rs1 s
  | .engineRing n rs1 imm => Sys2Proof.Machine.execEngineRing n rs1 imm s
  | .takeq n rd rs1 imm => Sys2Proof.Machine.execTakeq n rd rs1 imm s
  | .trap n imm => Sys2Proof.Machine.execTrap n imm s
  | .addR n rd rs1 rs2 => Sys2Proof.Machine.execAddR n rd rs1 rs2 s
  | .subR n rd rs1 rs2 => Sys2Proof.Machine.execSubR n rd rs1 rs2 s
  | .andR n rd rs1 rs2 => Sys2Proof.Machine.execAndR n rd rs1 rs2 s
  | .orR n rd rs1 rs2 => Sys2Proof.Machine.execOrR n rd rs1 rs2 s
  | .xorR n rd rs1 rs2 => Sys2Proof.Machine.execXorR n rd rs1 rs2 s
  | .sll n rd rs1 rs2 => Sys2Proof.Machine.execSll n rd rs1 rs2 s
  | .srl n rd rs1 rs2 => Sys2Proof.Machine.execSrl n rd rs1 rs2 s
  | .sra n rd rs1 rs2 => Sys2Proof.Machine.execSra n rd rs1 rs2 s
  | .slt n rd rs1 rs2 => Sys2Proof.Machine.execSlt n rd rs1 rs2 s
  | .sltu n rd rs1 rs2 => Sys2Proof.Machine.execSltu n rd rs1 rs2 s
  | .mul n rd rs1 rs2 => Sys2Proof.Machine.execMul n rd rs1 rs2 s
  | .mulh n rd rs1 rs2 => Sys2Proof.Machine.execMulh n rd rs1 rs2 s
  | .mulhu n rd rs1 rs2 => Sys2Proof.Machine.execMulhu n rd rs1 rs2 s
  | .div n rd rs1 rs2 => Sys2Proof.Machine.execDiv n rd rs1 rs2 s
  | .divu n rd rs1 rs2 => Sys2Proof.Machine.execDivu n rd rs1 rs2 s
  | .rem n rd rs1 rs2 => Sys2Proof.Machine.execRem n rd rs1 rs2 s
  | .remu n rd rs1 rs2 => Sys2Proof.Machine.execRemu n rd rs1 rs2 s
  | .slli n rd rs1 sh => Sys2Proof.Machine.execSlli n rd rs1 sh s
  | .srli n rd rs1 sh => Sys2Proof.Machine.execSrli n rd rs1 sh s
  | .srai n rd rs1 sh => Sys2Proof.Machine.execSrai n rd rs1 sh s
  | .clz n rd rs1 => Sys2Proof.Machine.execClz n rd rs1 s
  | .fadd n rd rs1 rs2 => Sys2Proof.Machine.execFadd n rd rs1 rs2 s
  | .fsub n rd rs1 rs2 => Sys2Proof.Machine.execFsub n rd rs1 rs2 s
  | .fmul n rd rs1 rs2 => Sys2Proof.Machine.execFmul n rd rs1 rs2 s
  | .fdiv n rd rs1 rs2 => Sys2Proof.Machine.execFdiv n rd rs1 rs2 s
  | .fmin n rd rs1 rs2 => Sys2Proof.Machine.execFmin n rd rs1 rs2 s
  | .fmax n rd rs1 rs2 => Sys2Proof.Machine.execFmax n rd rs1 rs2 s
  | .feq n rd rs1 rs2 => Sys2Proof.Machine.execFeq n rd rs1 rs2 s
  | .flt n rd rs1 rs2 => Sys2Proof.Machine.execFlt n rd rs1 rs2 s
  | .fle n rd rs1 rs2 => Sys2Proof.Machine.execFle n rd rs1 rs2 s
  | .fcvtsw n rd rs1 => Sys2Proof.Machine.execFcvtsw n rd rs1 s
  | .fcvtws n rd rs1 => Sys2Proof.Machine.execFcvtws n rd rs1 s
  | .fsqrt n rd rs1 => Sys2Proof.Machine.execFsqrt n rd rs1 s
  | .idle n => Sys2Proof.Machine.execIdle n s
  | .rtt n => Sys2Proof.Machine.execRtt n s
  | .spillw n => Sys2Proof.Machine.execSpillw n s
  | .fillw n => Sys2Proof.Machine.execFillw n s
  | .fence n => Sys2Proof.Machine.execFence n s
  | .brk n => Sys2Proof.Machine.execBrk n s
  | .tlbi n rs1 => Sys2Proof.Machine.execTlbi n rs1 s
  | .tlbia n => Sys2Proof.Machine.execTlbia n s
  | .movb n rd rs1 rs2 => Sys2Proof.Machine.execMovb n rd rs1 rs2 s
  | .giveq n rd rs1 => Sys2Proof.Machine.execGiveq n rd rs1 s
  | .giveqG n rd rs1 rs2 => Sys2Proof.Machine.execGiveqG n rd rs1 rs2 s
  | .clrq n rd rs1 => Sys2Proof.Machine.execClrq n rd rs1 s
  | .clrqG n rd rs1 rs2 => Sys2Proof.Machine.execClrqG n rd rs1 rs2 s
  | .swapw n rd rs1 rs2 => Sys2Proof.Machine.execSwapw n rd rs1 rs2 s
  | .casw n rd rs1 rs2 => Sys2Proof.Machine.execCasw n rd rs1 rs2 s
  | .post n rd => Sys2Proof.Machine.execPost n rd s
  | .pcancel n rd => Sys2Proof.Machine.execPcancel n rd s
  | .evclaim n rs1 => Sys2Proof.Machine.execEvclaim n rs1 s
  | .evdone n rs1 => Sys2Proof.Machine.execEvdone n rs1 s
  | .eventryWrite n rs1 => Sys2Proof.Machine.execEventryWrite n rs1 s
  | .setEn n rs1 => Sys2Proof.Machine.execSetEn n rs1 s
  | .clrEn n rs1 => Sys2Proof.Machine.execClrEn n rs1 s
  | .setPend n rs1 => Sys2Proof.Machine.execSetPend n rs1 s
  | .clrPend n rs1 => Sys2Proof.Machine.execClrPend n rs1 s
  | .rtLoCapture n rd => Sys2Proof.Machine.execRtLoCapture n rd s
  | .trapEntry n => Sys2Proof.Machine.execTrapEntry n s
  | .chaseHaltResponse n => Sys2Proof.Machine.execChaseHaltResponse n s
  | .haltPolicyReset n => Sys2Proof.Machine.execHaltPolicyReset n s
  | .dbgHalt w n => Sys2Proof.Machine.execDbgHalt w n s
  | .dbgResume w n => Sys2Proof.Machine.execDbgResume w n s
  | .dbgStep w n => Sys2Proof.Machine.execDbgStep w n s
  | .bpHit n => Sys2Proof.Machine.execBpHit n s
  | .regvalWrite w n v => Sys2Proof.Machine.execRegvalWrite w n v s
  | .d1DescriptorStart n => Sys2Proof.Machine.execD1DescriptorStart n s
  | .d1Burst n => Sys2Proof.Machine.execD1Burst n s
  | .d1DescriptorEnd n => Sys2Proof.Machine.execD1DescriptorEnd n s
  | .d1Kick w n => Sys2Proof.Machine.execD1Kick w n s
  | .d1Resume w n => Sys2Proof.Machine.execD1Resume w n s
  | .d1Abort w n => Sys2Proof.Machine.execD1Abort w n s
  | .d0SlugWrite n => Sys2Proof.Machine.execD0SlugWrite n s
  | .d0Resume w n => Sys2Proof.Machine.execD0Resume w n s
  | .galRelease w n v => Sys2Proof.Machine.execGalRelease w n v s
  | .galRun w n v => Sys2Proof.Machine.execGalRun w n v s
  | .svcGo k v => Sys2Proof.Machine.execSvcGo k v s
  | .monitorSvcGo n v => Sys2Proof.Machine.execMonitorSvcGo n v s
  | .programLoad => Sys2Proof.Machine.execProgramLoad s
  | .frisketRequest => Sys2Proof.Machine.execFrisketRequest s
  | .frisketRelease => Sys2Proof.Machine.execFrisketRelease s
  | .calWrite ok => Sys2Proof.Machine.execCalWrite ok s
  | .imageWrite ok => Sys2Proof.Machine.execImageWrite ok s
  | .rollbackAdvance => Sys2Proof.Machine.execRollbackAdvance s
  | .logNote => Sys2Proof.Machine.execLogNote s
  | .programEnd => Sys2Proof.Machine.execProgramEnd s
  | .engineEnd => Sys2Proof.Machine.execEngineEnd s
  | .pkeyLoad w words v => Sys2Proof.Machine.execPkeyLoad w words v s
  | .pkeyErase w v => Sys2Proof.Machine.execPkeyErase w v s
  | .ceilingWrite w n i' v => Sys2Proof.Machine.execCeilingWrite w n i' v s
  | .grantExpiry h n => Sys2Proof.Machine.execGrantExpiry h n s
  | .calendarSecond => Sys2Proof.Machine.execCalendarSecond s
  | .calSet w => Sys2Proof.Machine.execCalSet w s
  | .logEntry code lane origin detail => Sys2Proof.Machine.execLogEntry code lane origin detail s
  | .tokenRefill => Sys2Proof.Machine.execTokenRefill s
  | .logEraseStart => Sys2Proof.Machine.execLogEraseStart s
  | .logEraseComplete => Sys2Proof.Machine.execLogEraseComplete s
  | .wearNotice => Sys2Proof.Machine.execWearNotice s
  | .wearGrant w => Sys2Proof.Machine.execWearGrant w s
  | .wearForced => Sys2Proof.Machine.execWearForced s
  | .clearFault w key => Sys2Proof.Machine.execClearFault w key s
  | .clearGeneral w key => Sys2Proof.Machine.execClearGeneral w key s
  | .logFetch k v => Sys2Proof.Machine.execLogFetch k v s
  | .logFetchComplete k => Sys2Proof.Machine.execLogFetchComplete k s
  | .sbNop p arg => Sys2Proof.Machine.execSbNop p arg s
  | .sbStatus p arg => Sys2Proof.Machine.execSbStatus p arg s
  | .sbWake p arg => Sys2Proof.Machine.execSbWake p arg s
  | .sbRing p arg => Sys2Proof.Machine.execSbRing p arg s
  | .sbFormeReset p arg => Sys2Proof.Machine.execSbFormeReset p arg s
  | .sbCalRead p arg => Sys2Proof.Machine.execSbCalRead p arg s
  | .sbShelfRead p arg => Sys2Proof.Machine.execSbShelfRead p arg s
  | .sbLogRead p arg => Sys2Proof.Machine.execSbLogRead p arg s
  | .sbAlertClear p arg => Sys2Proof.Machine.execSbAlertClear p arg s
  | .sbSetCfg p arg => Sys2Proof.Machine.execSbSetCfg p arg s
  | .sbDataWr p arg => Sys2Proof.Machine.execSbDataWr p arg s
  | .sbDataRd p arg => Sys2Proof.Machine.execSbDataRd p arg s
  | .sbBufClear p arg => Sys2Proof.Machine.execSbBufClear p arg s
  | .sbChallenge p arg => Sys2Proof.Machine.execSbChallenge p arg s
  | .sbStewardKeyInstall arg => Sys2Proof.Machine.execSbStewardKeyInstall arg s
  | .sbStewardKeyErase arg => Sys2Proof.Machine.execSbStewardKeyErase arg s
  | .sbImageBegin p arg => Sys2Proof.Machine.execSbImageBegin p arg s
  | .sbImageChunk p arg ok => Sys2Proof.Machine.execSbImageChunk p arg ok s
  | .sbImageEnd p arg => Sys2Proof.Machine.execSbImageEnd p arg s
  | .sbPrepareReturn p arg => Sys2Proof.Machine.execSbPrepareReturn p arg s
  | .sbWorksToken p arg cut => Sys2Proof.Machine.execSbWorksToken p arg cut s
  | .sbCommandComplete => Sys2Proof.Machine.execSbCommandComplete s
  | .sbSleep => Sys2Proof.Machine.execSbSleep s
  | .sbAddressWake => Sys2Proof.Machine.execSbAddressWake s
  | .sbStretchAbort => Sys2Proof.Machine.execSbStretchAbort s
  | .sbBusTimeout => Sys2Proof.Machine.execSbBusTimeout s
  | .alertSet w v => Sys2Proof.Machine.execAlertSet w v s
  | .stewardLockoutEnd => Sys2Proof.Machine.execStewardLockoutEnd s
  | .worksLockoutEnd => Sys2Proof.Machine.execWorksLockoutEnd s
  | .fixRead w v => Sys2Proof.Machine.execFixRead w v s
  | .fixWrite w v => Sys2Proof.Machine.execFixWrite w v s
  | .fixProbe w v => Sys2Proof.Machine.execFixProbe w v s
  | .fixBusClear w v => Sys2Proof.Machine.execFixBusClear w v s
  | .fixReadRecord w v => Sys2Proof.Machine.execFixReadRecord w v s
  | .fixAttemptEnd r => Sys2Proof.Machine.execFixAttemptEnd r s
  | .fixDeadline lastGood => Sys2Proof.Machine.execFixDeadline lastGood s
  | .worksEraseResume => Sys2Proof.Machine.execWorksEraseResume s
  | .worksExit => Sys2Proof.Machine.execWorksExit s
  | .thermWarn base die => Sys2Proof.Machine.execThermWarn base die s
  | .thermWarnClear base die => Sys2Proof.Machine.execThermWarnClear base die s
  | .thermShed base die => Sys2Proof.Machine.execThermShed base die s
  | .shedEnd base die => Sys2Proof.Machine.execShedEnd base die s
  | .farSideOvertemp n t => Sys2Proof.Machine.execFarSideOvertemp n t s
  | .farSideCooled n t => Sys2Proof.Machine.execFarSideCooled n t s
  | .hdrCrc op h => Sys2Proof.Machine.execHdrCrc op h s
  | .ptpMessageDrop m => Sys2Proof.Machine.execPtpMessageDrop m s
  | .canBusError n lec dataPhase step8 => Sys2Proof.Machine.execCanBusError n lec dataPhase step8 s
  | .illegalInstruction n w => Sys2Proof.Machine.execIllegalInstruction n w s
  | .fetchPageFault n => Sys2Proof.Machine.execFetchPageFault n s
  | .sbPec word pec => Sys2Proof.Machine.execSbPec word pec s
  | .sbUnknownCommand op p arg => Sys2Proof.Machine.execSbUnknownCommand op p arg s
  | .islandPowerUp aux adr => Sys2Proof.Machine.execIslandPowerUp aux adr s
  | .dpFaultEnd n => Sys2Proof.Machine.execDpFaultEnd n s

end Sys2Proof.Machine
end

