-- ==== Sys2Proof/Machine/Tick.lean ====
section
/-! DEFINITION. What the block does while no command waits. -/

namespace Sys2Proof.Machine

/-- One tick of the system clock: registration time counts from the reset release on (R178); while it is held in reset, and in
DORMANT, the model's clock alone goes on; in OFF it stands. -/
def idleStep (s : State) : Out :=
  fin (if s.awake then s.oneTick else if s.pwr.mode = .off then s else { s with clock := s.clock + 1 })

end Sys2Proof.Machine
end

