-- ==== Sys2Proof/Safety.lean ====
section
/-! DEFINITION. What every state that a step answers has in common, what a safe run is, and the terms in which statements about single
commands are written: a write that every check accepts, and the state it leaves. -/

namespace Sys2Proof.Machine

/-- No compositor stays in IDLE while TOP of its target is valid or a trap is due (R172, R400), and each FIRQ line has followed TOP of its
target (R173). -/
def Settled (s : State) : Prop :=
  (∀ n : LaneId, (s.eng n).run = .idle → s.top (3 + n.val) = none ∧ s.asyncNow n = none)
    ∧ s.evg.firqA.lastTop = s.top 0 ∧ s.evg.firqB.lastTop = s.top 1

/-- A command is taken: it answers a next state, neither a fault nor a refusal. -/
def Answers (o : Host.Outcome State Fault Refusal) : Prop := ∃ t, o = .next t

/-- A run of `k` steps from `s` that neither faults nor is refused. -/
def SafeRun : Nat → State → Prop
  | 0, _ => True
  | k + 1, s => ∃ t, step s = .next t ∧ SafeRun k t

/-- Every lane's memory is in its canonical form. -/
def MemoriesOk (s : State) : Prop := ∀ n : LaneId, Memory.wf (s.lane n).mem = true

/-- No debug halt is due on any lane (R407): settling then moves run states out of IDLE, FIRQ lines and the count of steps, and nothing else. -/
def Quiet (s : State) : Prop := ∀ n : LaneId, s.haltDue n = false

/-! ### A write of one word -/

/-- The writer may write the word (R139, R388, R445), and no check of R5 and of the far side refuses it; `chk` is what the word's own
rules say. -/
def State.taken (s : State) (w : Writer) (p : Page) (off : Nat) (v : Word) (chk : Option Nat) : Prop :=
  s.writable w p off = true ∧ s.judge w p off v chk = none

/-- The state that an accepted word of the near side leaves, beside what settles: its effect, and PRESSED and APPLIED of its page (R128). -/
def State.nearDone (s : State) (p : Page) (eff : State → State) : State := (eff s).pressedOn p true

/-- The state that an accepted mirrored word leaves (R8, R24, R127, R128): the value is in the near-side image and on its way to the far side of
lane n as a press of its own, and PRESSED of its page has advanced. -/
def State.farSent (s : State) (n : LaneId) (w : Writer) (p : Page) (off : Nat) (v proof : Word) : State :=
  (((s.putImage p off v).carry n ⟨w, p, off, v, proof, s.stepNo⟩ 0 true).pressSent n).pressedOn p false

/-- The state that an accepted PG_CTL word of a mirrored page leaves: ERR_CLR clears PG_ERR at once, a word with KEEP has nothing to send, and
any other sets out (R122, R123). -/
def State.ctlTaken (s : State) (n : LaneId) (w : Writer) (p : Page) (v : Word) : State :=
  let t := if bitAt v 31 then s.setHw p 0xB 0 else s
  if bitAt v 30 then t.pressedOn p true else t.farSent n w p 2 v 0

/-- One write is all that the far side of lane n holds, its turn has come, and the far side takes writes (R24, R81). -/
def State.arrived (s : State) (n : LaneId) (x : FarWrite) (q : Nat) : Prop :=
  s.farTakes n = true ∧ (s.lane n).link.farHold = [.write (s.lane n).link.applySeq q x 0 true]

/-- Nothing is held on the far side any more, and the turn passes to the next press. -/
def State.turned (s : State) (n : LaneId) : State := s.upLink n fun l => { l with farHold := [], applySeq := l.applySeq + 1 }

/-- The state that the apply of one such write leaves: its effect, and the report of its apply on the way to the near side (R24, R128). -/
def State.farDone (s : State) (n : LaneId) (p : Page) (q : Nat) (eff : State → State) : State :=
  State.farApply 1 n ((eff (s.turned n)).sendUp n (.applied p q))

/-! ### The coarse path -/

/-- The coarse block that ends now has been taken, and the coarse CICs of V, I and AUX have these modulator bits behind them (R265). -/
def State.coarseTaken (s : State) (n : LaneId) (bv bi ba : Nat) : State :=
  let s := s.upLane n fun l => { l with coarseAt := s.blockEnd n }
  ((s.upChain n 0 fun x => { x with coarse := (coarseSum x.coarse bv).1 }).upChain n 1 fun x =>
    { x with coarse := (coarseSum x.coarse bi).1 }).upChain n 2 fun x => { x with coarse := (coarseSum x.coarse ba).1 }

/-! ### A service -/

/-- Chase runs and is awake, and the request at the head of its queue is one for service `op` (R447). -/
def State.serving (s : State) (op : Nat) (r : SvcReq) : Prop :=
  s.chase.queue.head? = some r ∧ r.op = op ∧ s.chaseUp = true ∧ s.awake = true

/-- The request at the head has been taken. -/
def State.popped (s : State) : State := s.upChase fun c => { c with queue := c.queue.tail }

/-- A request ends with an outcome and its results (R448), and requests behind it that name no service end as well. -/
def State.served (s : State) (r : SvcReq) (code : Nat) (res : List Word) : State :=
  (s.svcDone r code res).svcSkip (s.svcDone r code res).chase.queue.length

/-! ### A side-band command -/

/-- The side-band front end serves: the island has power, the front end is awake and past its wake NAK, no command is BUSY (R478,
R480, R489). -/
def State.sbFree (s : State) : Prop := s.pwr.islandOn = true ∧ s.on SB.STAT_AWAKE 0 = true ∧ s.sbMayNak = false ∧ s.sb.busy = none

end Sys2Proof.Machine
end

