-- ==== Sys2Proof/Certificates/Slice0/Obligations.lean ====
section
/-! DEFINITION. The statements about the TH16 model that are to be proved: what a step does, what each command does where the spec's rules
let it act, and rules of the whole machine. In the statements about single commands `t.settle` is the next state: `t` is what the command
leaves, and `State.settle` what settles after every command (statement SettleLeavesTheRestAlone). -/

set_option autoImplicit false

open Sys2Proof Sys2Proof.Machine


/-! ### Gutter links (spec/01_lanes_and_plane.md, spec/03_reset_and_bring_up.md) -/

/-- R6, R7, R8, R9, R16, R24, R69, R71: sending, receiving, resending, the safe state, telemetry, applying a press, discipline. -/
def Obligations.GutterLinkRowsComplete : Prop :=
  ∀ (s : State) (n : LaneId),
  -- GUTTER_FRAME_SEND, near side: a frame with FRAME of the side and RT as its time goes on its way, and FRAME advances (mod 4,096)
  (s.linkRuns n = true → ∃ t : State, exec (.gutterFrameSend n false) s = .next t.settle
    ∧ (t.lane n).link.near.frame = ((s.lane n).link.near.frame + 1) % 4096
    ∧ ∃ f : Frame, (t.lane n).link.down.getLast? = some f ∧ f.num = (s.lane n).link.near.frame ∧ f.time = s.rtLo
      ∧ f.ack = (s.lane n).link.near.rx.lastGood ∧ ((s.lane n).link.locked = false → f.items = [] ∧ f.kind = .idle))
  -- far side: the same with its safe bit and no time
  ∧ (s.linkRuns n = true → (s.lane n).link.locked = false → ∃ t : State, exec (.gutterFrameSend n true) s = .next t.settle
    ∧ (t.lane n).link.far.frame = ((s.lane n).link.far.frame + 1) % 4096
    ∧ ∃ f : Frame, (t.lane n).link.up.getLast? = some f ∧ f.num = (s.lane n).link.far.frame ∧ f.safe = (s.lane n).link.farSafe
      ∧ f.ack = (s.lane n).link.far.rx.lastGood ∧ f.items = [] ∧ f.kind = .idle)
  -- GUTTER_FRAME_RECEIVE: 1,024 bits that make the frame at a locked receiver's position whole; the frame is good, and its contents are taken
  ∧ (∀ (up : Bool) (b : BitVec 1024) (x : Rx), s.linkRuns n = true → x = (s.side n up).rx → x.locked = true → x.len = 992 → x.badRun = 0 →
      frameOk b.toNat = true →
    exec (.gutterFrameReceive n up b) s
      = .next (((s.setSide n up { s.side n up with rx := Rx.skip { x with bits := x.bits * 2 ^ 1024 + b.toNat, len := 2016 } 1024 }).goodFrame n up
          b.toNat).lockCheck n).settle)
  -- a frame that is not good is counted, breaks the run of acknowledgements, and leaves the lock
  ∧ (∀ (up : Bool) (b : BitVec 1024) (x : Rx), s.linkRuns n = true → x = (s.side n up).rx → x.locked = true → x.len = 992 → x.badRun = 0 →
      frameOk b.toNat = false →
    ∃ t : State, exec (.gutterFrameReceive n up b) s = .next (t.lockCheck n).settle
      ∧ t.g LANE.BAD_FRAMES n = min (s.g LANE.BAD_FRAMES n + 1) (2 ^ LANE.BAD_FRAMES.width - 1)
      ∧ (t.side n up).rx = { x with bits := x.bits * 2 ^ 1024 + b.toNat, len := 2016, badRun := 1, ackRun := 0 })
  -- ITEM_RESEND: the overdue item is sent again, and RESENDS counts it; at its 4th sending the lock is lost
  ∧ (∀ (up : Bool) (u : Sent), (s.lane n).link.locked = true → (s.side n (!up)).rx.locked = true → (s.side n (!up)).overdue = some u → u.sends < 4 →
    exec (.itemResend n up) s = .next ((s.bump LANE.RESENDS n).setSide n (!up) { s.side n (!up) with
      unacked := (s.side n (!up)).unacked.map fun v => if v.id = u.id then { v with due := true, sends := v.sends + 1 } else v }).settle)
  ∧ (∀ (up : Bool) (u : Sent), (s.lane n).link.locked = true → (s.side n (!up)).rx.locked = true → (s.side n (!up)).overdue = some u → 4 ≤ u.sends →
    exec (.itemResend n up) s = .next ((s.linkLost n).bothHunt n).settle)
  -- FAR_SIDE_SAFE: 100 us without a good frame; the far side has lost the link and enters its safe state with HV-off cause 5
  ∧ (s.farUp n = true → (s.lane n).link.farSafe = false → (s.lane n).link.goodAt + 20000 ≤ s.clock →
    exec (.farSideSafe n) s = .next (((s.linkLost n).enterSafe n 5).upLink n fun l => { l with far := { l.far with rx := l.far.rx.hunt } }).settle)
  -- TELEMETRY_DUE: the 64th frame after the last TELEMETRY frame is due to be one
  ∧ (63 ≤ (s.lane n).link.telemAge → exec (.telemetryDue n) s = .next (s.upLink n fun l => { l with telemDue := true }).settle)
  -- FAR_SIDE_APPLY: presses that have come whole take effect in their order; a single one has its effect, and its apply is reported
  ∧ (s.farTakes n = true → exec (.farSideApply n) s = .next (s.farApplyAll n).settle)
  ∧ (∀ (w : Writer) (k : LaneKind) (off : Nat) (v proof : Word) (since q : Nat) (x : FarWrite), x = ⟨w, .lane n k, off, v, proof, since⟩ →
      s.arrived n x q →
    exec (.farSideApply n) s
      = .next (s.farDone n (.lane n k) q fun s => farEffect w n k off v (s.proofNow n x) (if k = .smu then [off] else []) s).settle)
  -- LANE_DISCIPLINED
  ∧ (s.on LANE.STATE_LOCKED n = true → exec (.laneDisciplined n) s = .next (s.put LANE.STATE_DISCIPLINED n 1).settle)


/-! ### Supplies, fixture pins, interlocks, power and resets (spec/02_connectors_supplies_isolation.md, spec/03_reset_and_bring_up.md) -/

/-- R29, R31, R32, R35, R39 to R42, R56 and Table: Reset sources: what supplies and pins do where each of these commands acts. -/
def Obligations.SupplyRowsComplete : Prop :=
  ∀ (s : State),
  -- VIO_WINDOW_CHANGE: MOD.SUPPLY shows the window; with VIO in neither, MRST# no longer acts
  (∀ mv, s.pwr.mode ≠ .off →
    ∃ t : State, exec (.vioWindowChange mv) s = .next t.settle ∧ t.pwr.vio = mv ∧ t.g MOD.SUPPLY_VIO_LEVEL 0 = vioLevel mv
      ∧ t.pwr.mode = s.pwr.mode ∧ t.lanes = s.lanes ∧ (vioLevel mv = 0 → t.pwr.mrstLow = false) ∧ (vioLevel mv ≠ 0 → t.pwr.mrstLow = s.pwr.mrstLow))
  -- MRST_LOW: a falling edge while VIO is in a window takes a module-scope reset with cause 3; from DORMANT it wakes the module
  ∧ (vioLevel s.pwr.vio ≠ 0 → s.pwr.mrstLow = false → s.pwr.mode ≠ .off → s.pwr.mode ≠ .dormant →
    exec (.mrstLow true) s = .next (State.moduleReset { s with pwr := { s.pwr with mrstLow := true } } 3 5).settle)
  ∧ (vioLevel s.pwr.vio ≠ 0 → s.pwr.mrstLow = false → s.pwr.mode = .dormant →
    exec (.mrstLow true) s = .next (State.wakeDormant { s with pwr := { s.pwr with mrstLow := true } } 3 0 0 3).settle)
  -- its rising edge: the 100 us of the reset start
  ∧ (vioLevel s.pwr.vio ≠ 0 → s.pwr.mrstLow = true →
    exec (.mrstLow false) s = .next (State.settle { s with pwr := { s.pwr with mrstLow := false, heldFrom := s.clock } }))
  -- POWER_ON with +24V_IN above 17.5 V: the module is held in reset with cause 1, its straps sampled; with less, the island starts alone
  ∧ (∀ (vin aux : Nat) (adr : Fin 4), s.pwr.mode = .off → vinOk vin = true →
    exec (.powerOn vin aux adr) s
      = .next (State.moduleReset { (s.islandStart adr.val) with pwr := { (s.islandStart adr.val).pwr with vin := vin, aux := aux, brownout := false } } 1 5).settle)
  ∧ (∀ (vin aux : Nat) (adr : Fin 4), s.pwr.mode = .off → vinOk vin = false → islandFed vin aux = true →
    exec (.powerOn vin aux adr) s = .next (s.islandAlone vin aux adr.val).settle)
  ∧ (∀ (vin aux : Nat) (adr : Fin 4), s.pwr.mode = .dormant → vinOk vin = true → vinOk s.pwr.vin = false →
    exec (.powerOn vin aux adr) s
      = .next (State.wakeDormant { s with pwr := { s.pwr with vin := vin, aux := aux, brownout := false } } 4 0 0 1).settle)
  -- BROWNOUT: a module-scope reset, and the mark that holds the module in reset; in DORMANT the supply alone changes
  ∧ (∀ vin, s.awake = true → s.pwr.brownout = false → vin < 16500 →
    ∃ t : State, exec (.brownout vin) s = .next t.settle ∧ t.pwr.brownout = true ∧ t.pwr.mode = .inReset)
  ∧ (∀ vin, s.pwr.mode = .dormant → vin < 16500 → islandFed vin s.pwr.aux = true →
    exec (.brownout vin) s = .next (State.supplyShow { s with pwr := { s.pwr with vin := vin } }).settle)
  -- BROWNOUT_RECOVERY
  ∧ (∀ vin, s.pwr.brownout = true → vinOk vin = true →
    exec (.brownoutRecovery vin) s
      = .next ((State.supplyShow { s with pwr := { s.pwr with brownout := false, vin := vin } }).put MOD.PWR_BROWNOUT_SEEN 0 1).settle)
  -- AUX_SOURCE_CHANGE in RUN or QUIET: shown, and MOD.EV bit 4 when the presence changes
  ∧ (∀ aux, s.pwr.islandOn = true → s.awake = true → auxOk aux = true → s.on MOD.PWR_AUX_PRESENT 0 = false →
    exec (.auxSourceChange aux) s = .next ((State.supplyShow { s with pwr := { s.pwr with aux := aux } }).raiseMod 4).settle)
  ∧ (∀ aux, s.pwr.islandOn = true → s.awake = true → auxOk aux = true → s.on MOD.PWR_AUX_PRESENT 0 = true →
    exec (.auxSourceChange aux) s = .next (State.supplyShow { s with pwr := { s.pwr with aux := aux } }).settle)
  -- ISLAND_POWER_LOSS: everything the island held is gone, the fault shelf stays
  ∧ (s.pwr.mode ≠ .off → ∃ t : State, exec .islandPowerLoss s = .next t.settle ∧ t.pwr.mode = .off ∧ t.pwr.islandOn = false
      ∧ t.chase.islandSet = false ∧ t.chase.alarmArmed = false ∧ t.chase.calLost = true ∧ t.sb = Sb.reset ∧ t.evg.nwCopy = [])
  -- ISLAND_POWER_UP: AUX_5V alone brings the module to DORMANT
  ∧ (∀ (aux : Nat) (adr : Fin 4), s.pwr.mode = .off → auxOk aux = true →
    ∃ t : State, exec (.islandPowerUp aux adr) s = .next t.settle ∧ t.pwr.mode = .dormant ∧ t.pwr.islandOn = true ∧ t.pwr.vin = 0
      ∧ t.pwr.aux = aux ∧ t.pwr.adrSampled = adr.val ∧ t.sb = Sb.reset ∧ t.g MOD.PWR_STATE 0 = 2)
  -- FX_PRESENT_CHANGE: FIX.PRESENT and MOD.SUPPLY follow the pin, MOD.EV bit 5; a fixture that leaves takes its record and its operation with it
  ∧ (s.awake = true → s.on FIX.PRESENT 0 = false →
    exec (.fxPresentChange true) s
      = .next ((((s.put FIX.PRESENT 0 1).put MOD.SUPPLY_FX_PRESENT 0 1).raiseMod 5).fixAuto).settle)
  ∧ (s.awake = true → s.on FIX.PRESENT 0 = true →
    exec (.fxPresentChange false) s
      = .next ((((((s.put FIX.PRESENT 0 0).put MOD.SUPPLY_FX_PRESENT 0 0).raiseMod 5).put FIX.REC_VALID 0 0).fixStore 0x80
          (List.replicate 256 0)).fixDone fxNone).settle)
  -- FX_CURRENT_LIMIT
  ∧ (s.awake = true → s.on MOD.SUPPLY_FX_FAULT 0 = false →
    exec (.fxCurrentLimit true) s = .next (((s.put MOD.SUPPLY_FX_FAULT 0 1).raiseMod 5).fixDone fxNone).settle)
  ∧ (s.awake = true → s.on MOD.SUPPLY_FX_FAULT 0 = true →
    exec (.fxCurrentLimit false) s = .next ((s.put MOD.SUPPLY_FX_FAULT 0 0).raiseMod 5).settle)

/-- R44, R49 to R53: interlock loops, the permit pair and the isolated converter, where these commands act. -/
def Obligations.InterlockRowsComplete : Prop :=
  ∀ (s : State) (n : LaneId),
  -- INTERLOCK_OPENING: loop A of a lane above 8 V for 1.5 ms and more while B is closed: ILK counts it, ILK_OPEN is raised, HV goes off with cause 1
  (∀ (mvA mvB : Int) (us : Nat) (x : Ilk), s.monitored (.loop n) = true → s.awake = true → 8000 < mvA → mvB < 2000 → 1500 ≤ us →
      (s.lane n).ilk.a = true → x = { (s.lane n).ilk with
        readA := false, readB := true, a := false, counted := false, bothClosed := false,
        bothOpened := (s.lane n).ilk.bothOpened || !(s.lane n).ilk.b } →
    exec (.interlockOpening (.loop n) mvA mvB us) s
      = .next ((((((s.setIlk (.loop n) { (s.lane n).ilk with readA := false, readB := true }).setIlk (.loop n) x).bump LANE.ILK_OPENS n).farRaise n
          .lane 3)).pairEval (.loop n) 1).settle)
  -- a permit input below 5 V: MOD.PERMIT counts it, and HV goes off with cause 4 where the pair permitted it
  ∧ (∀ (mvA mvB : Int) (us : Nat) (x : Ilk), s.monitored .permit = true → 15000 ≤ mvA → mvB < 5000 → 1500 ≤ us → s.pwr.permits.b = true →
      x = { s.pwr.permits with
        readA := true, readB := false, b := false, counted := false, bothClosed := false,
        bothOpened := s.pwr.permits.bothOpened || !s.pwr.permits.a } →
    exec (.interlockOpening .permit mvA mvB us) s
      = .next ((((s.setIlk .permit { s.pwr.permits with readA := true, readB := false }).setIlk .permit x).bump MOD.PERMIT_OPENS_COUNT 0).pairEval
          .permit 4).settle)
  -- up to 1.0 ms nothing opens
  ∧ (∀ (p : IlkPair) (mvA mvB : Int) (us : Nat), s.monitored p = true → us ≤ 1000 →
    exec (.interlockOpening p mvA mvB us) s = .next (s.setIlk p (s.readPair p mvA mvB)).settle)
  -- PERMIT_CHANNEL_SILENT
  ∧ (s.farUp n = true →
    exec (.permitChannelSilent n) s = .next ((s.upLane n fun l => { l with permitAlive := false }).hwEval n 5).settle)
  -- CHANNEL_DISCREPANCY: for more than 50 ms; DISCREPANCY sets once, with its event; the pair counts as open with cause 3
  ∧ (∀ (mvA mvB : Int) (us : Nat) (x : Ilk), s.monitored (.loop n) = true → s.awake = true → 8000 < mvA → mvB < 2000 → 50000 < us →
      s.on LANE.ILK_DISCREPANCY n = false → x = ⟨false, true, false, false, false, false, true⟩ →
    exec (.channelDiscrepancy (.loop n) mvA mvB us) s
      = .next ((((s.setIlk (.loop n) x).setW1c LANE.ILK_DISCREPANCY n 0 1).farRaise n .lane 7).pairEval (.loop n) 3).settle)
  ∧ (∀ (mvA mvB : Int) (us : Nat) (x : Ilk), s.monitored .permit = true → mvA < 5000 → 15000 ≤ mvB → 50000 < us →
      s.on MOD.PERMIT_DISCREPANCY 0 = false → x = ⟨false, true, false, false, false, false, true⟩ →
    exec (.channelDiscrepancy .permit mvA mvB us) s
      = .next (((((s.setIlk .permit x).strike (MOD.PERMIT_DISCREPANCY.addr 0 0) 8).put MOD.PERMIT_DISCREPANCY 0 1).raiseMod 3).pairEval .permit
          4).settle)
  -- CHANNEL_CLOSING: both channels closed for 20 ms count as a closing; before that they read closed
  ∧ (∀ (p : IlkPair) (mvA mvB : Int) (us : Nat) (x : Ilk), s.monitored p = true → x = s.readPair p mvA mvB → x.readA = true → x.readB = true →
      20000 ≤ us →
    exec (.channelClosing p mvA mvB us) s
      = .next ((s.setIlk p { x with a := true, b := true, counted := true, bothClosed := x.bothOpened }).pairEval p 0).settle)
  ∧ (∀ (p : IlkPair) (mvA mvB : Int) (us : Nat) (x : Ilk), s.monitored p = true → x = s.readPair p mvA mvB → us < 20000 →
    exec (.channelClosing p mvA mvB us) s = .next (s.setIlk p { x with a := x.a || x.readA, b := x.b || x.readB }).settle)
  -- DISCREPANCY_CLEAR: an accepted write of 1 over a bit that was seen set clears DISCREPANCY once both channels have opened together and closed again
  ∧ (∀ w, s.taken w .mod 0x15 8 none →
    exec (.discrepancyClear w .permit true) s = .next (s.nearDone .mod fun s => s.discrepancyClear .permit).settle)
  ∧ (∀ w, s.taken w (.lane n .lane) 0x16 0x10 none →
    exec (.discrepancyClear w (.loop n) true) s = .next (s.farSent n w (.lane n .lane) 0x16 0x10 0x10).settle)
  ∧ (∀ w since q, s.arrived n ⟨w, .lane n .lane, 0x16, 0x10, 0x10, since⟩ q →
      bitAt (s.proofNow n ⟨w, .lane n .lane, 0x16, 0x10, 0x10, since⟩) 4 = true →
    exec (.farSideApply n) s = .next (s.farDone n (.lane n .lane) q fun s => s.discrepancyClear (.loop n)).settle)
  -- CONVERTER_TRIP
  ∧ (s.farUp n = true → s.on LANE.ISO_TRIPPED n = false →
    exec (.converterTrip n) s
      = .next (((((((s.put LANE.ISO_TRIPPED n 1).bump LANE.ISO_TRIPS n).farRaise n .lane 4).enterSafe n 6).lineTrip n).logIt 0x036 n.val 0x20)).settle)
  -- REARM
  ∧ (∀ w, s.taken w (.lane n .lane) 0x17 1 none → exec (.rearm w n) s = .next (s.farSent n w (.lane n .lane) 0x17 1 0).settle)
  ∧ (∀ w since q, s.arrived n ⟨w, .lane n .lane, 0x17, 1, 0, since⟩ q →
    exec (.farSideApply n) s = .next (s.farDone n (.lane n .lane) q fun s => s.rearm n).settle)

/-- R27, R57 to R62, R66, R78, R82, R413: power states and the resets of every scope, where these commands act. -/
def Obligations.ResetRowsComplete : Prop :=
  ∀ (s : State) (n : LaneId) (w : Writer),
  -- PWR_REQ: an accepted request is stored
  (∀ v, s.taken w .mod 0x12 v (modChk 0x12 v (s.staged .mod 0x12 v)) →
    exec (.pwrReq w v) s = .next (s.nearDone .mod (storeEff .mod 0x12 v 0)).settle)
  -- POWER_STATE_CHANGE: QUIET, DORMANT and the return to RUN
  ∧ (s.pwr.mode = .run → s.g MOD.PWR_REQ 0 = 1 →
    exec .powerStateChange s
      = .next ((s.forLanes allLanes fun m s => if s.farUp m then s.powerDown m 5 else s).toPower .quiet 1).settle)
  ∧ (s.awake = true → s.g MOD.PWR_REQ 0 = 2 → exec .powerStateChange s = .next s.toDormant.settle)
  ∧ (s.pwr.mode = .quiet → s.g MOD.PWR_REQ 0 = 0 → (s.toPower .run 0).on THERM.STAT_SHED 0 = true →
    exec .powerStateChange s = .next (s.toPower .run 0).settle)
  ∧ (s.pwr.mode = .quiet → s.g MOD.PWR_REQ 0 = 0 → (s.toPower .run 0).on THERM.STAT_SHED 0 = false →
    exec .powerStateChange s
      = .next ((s.toPower .run 0).forLanes allLanes fun m s =>
          if s.fitted m && !(s.lane m).link.farPowered then s.powerUp m else s).settle)
  -- RESET_RELEASE of the module: it leaves reset once MRST# is high, no brown-out stands, +24 V is there and the reset has been held long enough
  ∧ (s.pwr.mode = .inReset → s.pwr.mrstLow = false → s.pwr.brownout = false → vinOk s.pwr.vin = true →
      s.pwr.heldFrom + holdTicks (s.g MOD.RESET_CAUSE_CAUSE 0) ≤ s.clock →
    exec (.resetRelease none) s = .next s.release.settle)
  -- of a lane after its 1 ms: its far side is powered, or stays OFF in QUIET and while shed
  ∧ (s.pwr.mode = .run → s.fitted n = true → s.phase n = phReset → s.on THERM.STAT_SHED 0 = false → (s.lane n).link.huntFrom + msTicks ≤ s.clock →
    exec (.resetRelease (some n)) s = .next ((s.upLink n fun l => { l with huntFrom := s.clock }).powerUp n).settle)
  ∧ (s.pwr.mode = .quiet → s.fitted n = true → s.phase n = phReset → (s.lane n).link.huntFrom + msTicks ≤ s.clock →
    exec (.resetRelease (some n)) s = .next ((s.upLink n fun l => { l with huntFrom := s.clock }).setPhase n phOff).settle)
  -- of an engine after its 100 us: the monitor starts
  ∧ (s.awake = true → s.fitted n = true → s.phase n ≠ phReset → (s.eng n).run = .reset → (s.gal n).d0Paused = true → s.chaseUp = true →
      (s.eng n).since + 20000 ≤ s.clock →
    exec (.resetRelease (some n)) s = .next (s.startMonitor n).settle)
  -- SOFT_RESET: the key is stored nowhere; the reset is taken with cause 4 once the press has ended
  ∧ (∀ v, s.taken w .mod 0x1C v (modChk 0x1C v (s.staged .mod 0x1C v)) → bitAt v 0 = true →
    exec (.softReset w v) s
      = .next ((s.nearDone .mod fun s => { s with pwr := { s.pwr with softReset := true } }).moduleReset 4 5).settle)
  -- WATCHDOG_EXPIRY: 250 ms without service; a module-scope reset is taken
  ∧ (∀ pc, s.awake = true → s.pwr.t0 + 250 * msTicks ≤ s.clock →
    ∃ t : State, exec (.watchdogExpiry pc) s = .next t.settle ∧ t.pwr.mode = .inReset ∧ t.pwr.watchdog = true)
  -- LANE_RESET and ENGINE_RESET with the key 0x5AA5
  ∧ (∀ v, bitAt v 0 = true → s.taken w (.lane n .lane) 0x1A v (rstChk v s) → exec (.laneReset w n v) s = .next (State.laneResetNow s n w.holder).settle)
  ∧ (∀ v, bitAt v 0 = false → bitAt v 1 = true → s.taken w (.lane n .lane) 0x1A v (rstChk v s) →
    exec (.engineReset w n v) s
      = .next (State.retryFreed s (s.nearDone (.lane n .lane) fun s => (s.engineReset n w.holder).doneAll (3 + n.val))).settle)

/-- R64 to R68, R76 to R79, R81: boot and readiness, where these commands act. -/
def Obligations.BootRowsComplete : Prop :=
  ∀ (s : State) (n : LaneId),
  -- BOOT_IMAGE_CHECK: the accepted slot boots; a refused one is marked, and the other is checked; where both are refused, NO_IMAGE
  (s.pwr.mode = .run → s.g MOD.BOOT_STAGE 0 = stageCheckA → s.acceptsSlot false = true →
    exec .bootImageCheck s
      = .next (((s.put MOD.BOOT_IMAGE 0 1).put MOD.BOOT_FALLBACK 0 (b2n (s.on MOD.BOOT_B_BAD 0))).put MOD.BOOT_STAGE 0 stageInit).settle)
  ∧ (s.pwr.mode = .run → s.g MOD.BOOT_STAGE 0 = stageCheckA → s.acceptsSlot false = false → s.on MOD.BOOT_B_BAD 0 = false →
    exec .bootImageCheck s = .next ((s.put MOD.BOOT_A_BAD 0 1).put MOD.BOOT_STAGE 0 stageCheckB).settle)
  ∧ (s.pwr.mode = .run → s.g MOD.BOOT_STAGE 0 = stageCheckB → s.acceptsSlot true = true →
    exec .bootImageCheck s
      = .next (((s.put MOD.BOOT_IMAGE 0 2).put MOD.BOOT_FALLBACK 0 (b2n (s.on MOD.BOOT_A_BAD 0))).put MOD.BOOT_STAGE 0 stageInit).settle)
  ∧ (s.pwr.mode = .run → s.g MOD.BOOT_STAGE 0 = stageCheckB → s.acceptsSlot true = false → s.on MOD.BOOT_A_BAD 0 = true →
    ∃ t : State, exec .bootImageCheck s = .next t.settle ∧ t.pwr.bootFailed = true)
  -- CHASE_RUNNING
  ∧ (s.awake = true → s.g MOD.BOOT_STAGE 0 = stageInit → s.chase.worksDue = false → exec .chaseRunning s = .next s.chaseStart.settle)
  -- BOOT_CONFIRMED: 60 s after RUNNING
  ∧ (s.chaseUp = true → s.awake = true → s.pwr.runAt + confirmTicks ≤ s.clock →
    ∃ t : State, exec .bootConfirmed s = .next t.settle ∧ t.g MOD.BOOT_CONFIRMED 0 = 1 ∧ t.g MOD.BOOT_TRIES 0 = 0 ∧ t.pwr.failedSlot = none)
  -- SELFTEST_COMPLETE with nothing failed
  ∧ (s.farUp n = true → s.phase n = phSelftest → (s.lane n).link.locked = true → s.chaseUp = true → s.calRec n ≠ none →
      (s.eng n).run ≠ .reset →
    exec (.selftestComplete n 0) s = .next ((s.put LANE.SELFTEST_DONE n 1).put LANE.SELFTEST_PASS n 1).settle)
  -- with a failed check: SELFTEST names it, and the lane is SAFE
  ∧ (∀ failed : BitVec 12, s.farUp n = true → s.phase n = phSelftest → (s.lane n).link.locked = true → s.chaseUp = true → s.calRec n ≠ none →
      (s.eng n).run ≠ .reset → failed.toNat &&& 0xBFF ≠ 0 →
    exec (.selftestComplete n failed) s
      = .next (((s.put LANE.SELFTEST_DONE n 1).laneFails n (failed.toNat &&& 0xBFF) 0x031).lanesCheck).settle)
  -- LANE_READY
  ∧ (s.farUp n = true → s.phase n = phSelftest → (s.lane n).link.locked = true → s.on LANE.SELFTEST_PASS n = true →
      s.on LANE.STATE_DISCIPLINED n = true →
    exec (.laneReady n) s = .next (s.becomeReady n).settle)


/-! ### The Forme port (spec/04_forme_port.md) and the registers every page has (spec/05_register_pages.md) -/

/-- R92, R96, R99, R100, R103, R104, R134: a read-type transaction that passes every check answers OK with its data, keeps the session's record, and
moves no block of the part. -/
def Obligations.FormeReadsComplete : Prop :=
  ∀ (s : State) (h : Hdr), s.formeAnswers = true → (s.session h.session).isOpen = true → s.pwr.softReset = false → s.forme.started = none →
    h.part = .whole →
  -- READ and READ_LIST: the words in order
  (s.formeStatus opRd h [] 0 = 0 → ∀ c : Instr, c = .read h ∨ c = .readList h →
    ∃ t : State, exec c s = .next t.settle ∧ t.forme.status = 0
      ∧ t.forme.data = (s.readAddrs h).map (fun a => s.readAddr (some h.session) a)
      ∧ (t.session h.session).record = some ⟨hdrBytes opRd h, 0, 3⟩
      ∧ t.lanes = s.lanes ∧ t.evg = s.evg ∧ t.quoins = s.quoins ∧ (∀ a, a ≠ FORME.CFG_MODE_SEEN.addr 0 0 → t.wd a = s.wd a))
  -- NOP
  ∧ (s.formeStatus opNop h [] 0 = 0 →
    ∃ t : State, exec (.nop h) s = .next t.settle ∧ t.forme.status = 0 ∧ t.forme.data = []
      ∧ t.lanes = s.lanes ∧ t.evg = s.evg ∧ t.quoins = s.quoins ∧ (∀ a, a ≠ FORME.CFG_MODE_SEEN.addr 0 0 → t.wd a = s.wd a))
  -- SESSION_OPEN_CHALLENGE: the session's challenge, most significant word first
  ∧ (s.formeStatus opOpen h [] 0 = 0 → Hdr.flag h 0 = true → winLane h = none →
    ∃ t : State, exec (.sessionOpenChallenge h) s = .next t.settle ∧ t.forme.status = 0
      ∧ t.forme.data = (List.range 8).map (fun i => (s.session h.session).challenge.extractLsb' (224 - 32 * i) 32)
      ∧ t.lanes = s.lanes ∧ t.evg = s.evg ∧ t.quoins = s.quoins)
  -- GALLEY_READ: the slugs from RCOUNT on, and GAL_RSTART of the session; STORE_READ: the words behind WIN_BASE
  ∧ (∀ n : LaneId, winLane h = some n → s.formeStatus opGalley h [] 0 = 0 →
    ∃ t : State, exec (.galleyRead h) s = .next t.settle ∧ t.forme.status = 0 ∧ t.lanes = s.lanes ∧ t.evg = s.evg
      ∧ t.forme.data = (s.burstAddrs opGalley n (s.gal n).rcount (Hdr.len h)).map (fun x => match x with | some a => s.d2Word n a | none => 0)
      ∧ sget (fun _ => 0) (t.session h.session).galRstart n.val = BitVec.ofNat 32 (s.gal n).rcount)
  ∧ (∀ n : LaneId, winLane h = some n → s.formeStatus opStoreRd h [] 0 = 0 →
    ∃ t : State, exec (.storeRead h) s = .next t.settle ∧ t.forme.status = 0 ∧ t.lanes = s.lanes ∧ t.evg = s.evg
      ∧ t.forme.data = (List.range (Hdr.len h)).map (fun i => s.d2Word n (s.winBase n + 4 * i)))

/-- R92, R93, R96, R100, R105, R107, R108, R134, R138, R159: a write-type transaction that passes every check is pressed, and one that fails, is cut off
or still waits for its data is not. -/
def Obligations.FormeWritesComplete : Prop :=
  ∀ (s : State) (h : Hdr) (data : List Word) (dcrc : BitVec 16), s.formeAnswers = true → s.pwr.softReset = false → s.forme.started = none →
    h.part = .whole →
  -- WRITE and WRITE_SCATTER press their words together, by what the proof saw
  (s.formeStatus opWr h data dcrc = 0 → ∀ c : Instr, c = .write h data dcrc ∨ c = .writeScatter h data dcrc →
    ∃ t : State, exec c s = .next t.settle ∧ t.forme.status = 0 ∧ t.forme.data = []
      ∧ { t with forme := s.forme }
        = { ((((s.formeRecord opWr h 0 1).modeSeen h).pressWith (.host h.session) (pressList (writePairs h data)) (s.begin_ opWr h data).proof
              s.stepNo).softResetDue) with forme := s.forme })
  -- one that stops in its midst waits, and nothing is pressed
  ∧ (∀ k : Nat, ∃ t : State, exec (.write { h with part := .begin k } data dcrc) s = .next t.settle
      ∧ t = { s with forme := { s.forme with started := t.forme.started } } ∧ t.forme.started.isSome = true)
  -- STORE_WRITE takes its data into the window's buffer, after an earlier one has landed
  ∧ (∀ n : LaneId, winLane h = some n → s.formeStatus opStoreWr h data dcrc = 0 →
    ∃ t : State, exec (.storeWrite h data dcrc) s = .next t.settle ∧ t.forme.status = 0
      ∧ (t.lane n).storeWrite = some ⟨s.winBase n, fitData h data⟩)
  -- STORE_WRITE_COMPLETE: they land in lane store, word by word
  ∧ (∀ (n : LaneId) (x : StoreWrite), (s.lane n).storeWrite = some x →
    exec (.storeWriteComplete n) s
      = .next (((x.words.zip (List.range x.words.length)).foldl (fun s e => s.putWord n (x.addr + 4 * e.2) e.1) s).upLane n
          fun l => { l with storeWrite := none }).settle)
  -- SESSION_OPEN_RESPONSE: the response is delivered to Chase behind those that wait, outcome PENDING
  ∧ (s.formeStatus opOpen h data dcrc = 0 → Hdr.flag h 0 = false →
    ∃ t : State, exec (.sessionOpenResponse h data dcrc) s = .next t.settle ∧ t.forme.status = 0
      ∧ (t.session h.session).responses
        = (s.session h.session).responses ++ [(BitVec.ofNat 256 (wordsNat (fitData h data)), (s.session h.session).lockout)]
      ∧ t.g SESS.OUTCOME 0 h.session.val = soPending ∧ t.lanes = s.lanes ∧ t.quoins = s.quoins)
  -- SESSION_CLOSE
  ∧ (s.formeStatus opClose h [] 0 = 0 →
    ∃ t : State, exec (.sessionClose h) s = .next t.settle ∧ t.forme.status = 0 ∧ (t.session h.session).isOpen = false)
  -- RING
  ∧ (s.formeStatus opRing h [] 0 = 0 → winLane h = none →
    ∃ t : State, exec (.ring h) s = .next t.settle ∧ t.forme.status = 0 ∧ t.lanes = s.lanes ∧ t.quoins = s.quoins
      ∧ t.evg = (s.ring (Hdr.at_ h)).evg)
  -- HDR_CRC: a header that fails its CRC is counted, and nothing is pressed
  ∧ (∀ op : BitVec 8, hdrCrc op.toNat h ≠ h.hcrc.toNat →
    ∃ t : State, exec (.hdrCrc op h) s = .next t.settle ∧ t.forme.status = 1 ∧ t.forme.data = []
      ∧ t.g FORME.ERRS_HDR 0 = min (s.g FORME.ERRS_HDR 0 + 1) (2 ^ FORME.ERRS_HDR.width - 1)
      ∧ t.sess = s.sess ∧ t.lanes = s.lanes ∧ t.evg = s.evg ∧ t.quoins = s.quoins)
  -- FCS_EARLY_RISE: before the header is whole there was no transaction; a write-type one cut off in its data is counted in UNPRESSED
  ∧ (∀ op : BitVec 8, exec (.fcsEarlyRise op h data dcrc .inHeader) s = .next s.settle)
  ∧ (∀ op : BitVec 8, writeType op.toNat h = true → s.formeStatus op.toNat h data dcrc = 0 →
    ∃ t : State, exec (.fcsEarlyRise op h data dcrc .inData) s = .next t.settle
      ∧ t.g FORME.ERRS_UNPRESSED 0 = min (s.g FORME.ERRS_UNPRESSED 0 + 1) (2 ^ FORME.ERRS_UNPRESSED.width - 1)
      ∧ t.lanes = s.lanes ∧ t.evg = s.evg ∧ t.quoins = s.quoins)

/-- R117, R118, R122, R126, R2: an accepted write of an event register, of PG_CTL with ERR_CLR, of a counter and of any other word. -/
def Obligations.HeaderRowsComplete : Prop :=
  ∀ (s : State) (w : Writer) (p : Page), Machine.Page.hasHeader p = true →
  -- EV_CLR clears the pending bits written as 1 that the proof saw set
  (∀ v proof, s.taken w p 5 v none →
    exec (.evClr w p v proof) s = .next (s.nearDone p fun s => s.setHw p 4 (s.hw p 4 &&& ~~~(v &&& proof))).settle)
  -- EV_SET: every defined bit written as 1 is an occurrence
  ∧ (∀ v, s.taken w p 6 v none →
    exec (.evSet w p v) s = .next (s.nearDone p fun s => (bitList (v &&& p.evBits)).foldl (fun s b => s.raise p b) s).settle)
  -- EV_MASK_SET and EV_MASK_CLR
  ∧ (∀ v, s.taken w p 8 v none →
    exec (.evMaskSet w p v) s = .next (s.nearDone p fun s => s.setHw p 7 (s.hw p 7 ||| (v &&& p.evBits))).settle)
  ∧ (∀ v, s.taken w p 9 v none → s.hw p 4 &&& s.hw p 7 &&& v &&& p.evBits = 0 →
    exec (.evMaskClr w p v) s = .next (s.nearDone p fun s => s.setHw p 7 (s.hw p 7 &&& ~~~(v &&& p.evBits))).settle)
  -- unmasking a pending bit counts as one occurrence at its source
  ∧ (∀ v b, s.taken w p 9 v none → bitList (s.hw p 4 &&& s.hw p 7 &&& v &&& p.evBits) = [b] → s.route p b ≠ 0xF →
    exec (.evMaskClr w p v) s
      = .next (s.nearDone p fun s => (s.setHw p 7 (s.hw p 7 &&& ~~~(v &&& p.evBits))).occur (pageBase p + s.route p b)).settle)
  -- EV_SOURCE
  ∧ (∀ v, s.taken w p 0xA v (evSourceChk p v) → s.hw p 4 = 0 →
    exec (.evSource w p v) s = .next (s.nearDone p fun s => s.setHw p 0xA v).settle)
  -- ERR_CLR and REGISTER_WRITE: a press of that word alone
  ∧ (∀ v, s.writable w p 2 = true →
    exec (.errClr w p v) s = .next (s.pressWords w [⟨p, 2, v ||| 0x80000000⟩]).settle)
  ∧ (∀ off v, off < 256 → s.writable w p off = true → (p = .quoin → off = 0x10 → s.quoinBarred w v = false) →
    exec (.registerWrite w p off v) s = .next (s.pressWords w [⟨p, off, v⟩]).softResetDue.settle)
  -- COUNTER_CLEAR of a near-side counter
  ∧ (∀ off v proof, off < 256 → 0x10 ≤ off → accMask p off .ctr ≠ 0 → p.mirrorAt off = false →
      s.taken w p off v (wordChk s w [] ⟨p, off, v⟩ (s.staged p off v)) →
    exec (.counterClear w p off v proof) s = .next (s.nearDone p (wordEff w ⟨p, off, v⟩ proof)).settle)
  -- of a mirrored counter: the write sets out for its far side, with the count that the proof saw
  ∧ (∀ n off v proof, off < 256 → 0x10 ≤ off → accMask p off .ctr ≠ 0 → p.lane? = some n → p.mirrorAt off = true →
      s.taken w p off v (wordChk s w [] ⟨p, off, v⟩ (s.staged p off v)) →
    exec (.counterClear w p off v proof) s = .next (s.farSent n w p off v proof).settle)


/-! ### Sessions, quoins and the event gatherer (spec/06_sessions_and_quoins.md, spec/07_event_gatherer.md) -/

/-- R133 to R138: a delivered response is judged, and keys, lockouts and forced closes act. -/
def Obligations.SessionRowsComplete : Prop :=
  ∀ (s : State) (k : SessId) (w : Writer),
  -- RESPONSE_JUDGEMENT, the good response of a closed session: it opens
  (∀ r rest key, s.chaseUp = true → (s.session k).responses = (r, false) :: rest → (s.session k).lockout = false → (s.session k).key = some key →
      (s.session k).isOpen = false → s.goodResponse k key = beBytes 32 r.toNat →
    ∃ t : State, exec (.responseJudgement k) s = .next t.settle ∧ (t.session k).isOpen = true ∧ (t.session k).responses = rest
      ∧ t.g SESS.OUTCOME 0 k.val = soOpened ∧ t.g SESS.FAILS 0 k.val = 0
      ∧ t.g SESS.ATTEMPTS 0 k.val = (s.g SESS.ATTEMPTS 0 k.val + 1) % 256)
  -- a wrong one: it counts in FAILS, and the session stays as it is
  ∧ (∀ r rest key, s.chaseUp = true → (s.session k).responses = (r, false) :: rest → (s.session k).lockout = false → (s.session k).key = some key →
      s.goodResponse k key ≠ beBytes 32 r.toNat → s.g SESS.FAILS 0 k.val < 2 →
    ∃ t : State, exec (.responseJudgement k) s = .next t.settle ∧ (t.session k).isOpen = (s.session k).isOpen
      ∧ t.g SESS.OUTCOME 0 k.val = soBadResponse ∧ t.g SESS.FAILS 0 k.val = s.g SESS.FAILS 0 k.val + 1 ∧ (t.session k).lockout = false)
  -- the third in a row locks the session out
  ∧ (∀ r rest key, s.chaseUp = true → (s.session k).responses = (r, false) :: rest → (s.session k).lockout = false → (s.session k).key = some key →
      s.goodResponse k key ≠ beBytes 32 r.toNat → s.g SESS.FAILS 0 k.val = 2 →
    ∃ t : State, exec (.responseJudgement k) s = .next t.settle ∧ (t.session k).lockout = true ∧ t.g SESS.OUTCOME 0 k.val = soBadResponse)
  -- one delivered during a lockout: LOCKED_OUT, and nothing of the session changes
  ∧ (∀ r rest, s.chaseUp = true → (s.session k).responses = (r, true) :: rest →
    ∃ t : State, exec (.responseJudgement k) s = .next t.settle ∧ (t.session k).isOpen = (s.session k).isOpen ∧ (t.session k).responses = rest
      ∧ t.g SESS.OUTCOME 0 k.val = soLockedOut ∧ t.g SESS.FAILS 0 k.val = s.g SESS.FAILS 0 k.val)
  -- LOCKOUT_END: 10 s have passed
  ∧ ((s.session k).lockout = true → (s.session k).lockAt + lockoutTicks ≤ s.clock →
    exec (.lockoutEnd k) s = .next ((s.upSess k fun x => { x with lockout := false }).p SESS.FAILS 0 k.val 0).settle)
  -- FORCE_CLOSE: every session that the word names is closed, in rising order, and engines try the quoins that this frees
  ∧ (∀ v, s.taken w .sess 0x12 v none →
    exec (.forceClose w v) s = .next (State.retryFreed s (s.nearDone .sess fun s => s.forceClose v.toNat)).settle)
  -- KEY_LOAD with all eight words, and KEY_ERASE
  ∧ (∀ words v x, x = withBits (withBits v 8 8 1) 9 9 0 → s.taken w .sess 0x28 x (keyChk words x) →
    exec (.keyLoad w words v) s = .next (s.nearDone .sess (keyEff w.holder words x)).settle)
  ∧ (∀ v x, x = withBits (withBits v 9 9 1) 8 8 0 → s.taken w .sess 0x28 x (keyChk [] x) →
    exec (.keyErase w v) s = .next (s.nearDone .sess (keyEff w.holder [] x)).settle)

/-- R143 to R153: the operations of QUOIN.OP where they succeed, hold limits, configuration, and the end of an engine's wait. -/
def Obligations.QuoinRowsComplete : Prop :=
  ∀ (s : State) (k : SessId) (v : Word) (q : Nat), q < 96 → s.quoinAbsent q = false →
  -- TAKE of a free quoin that the session may take, with no rank in the way: TAKEN
  (∀ x, x = withBits v 11 8 1 → bitsOf x 7 0 = q → s.taken (.host k) .quoin 0x10 x (quoinOpChk x) → s.quoinRight k.val q = true →
      (s.quoin q).holder = noHolder → s.outOfOrder k.val q = false → (s.quoin q).broken = false →
    ∃ t : State, exec (.take (.host k) v) s = .next t.settle ∧ (t.quoin q).holder = k.val ∧ (t.quoin q).gen = (s.quoin q).gen
      ∧ (t.session k).result = BitVec.ofNat 32 ((s.quoin q).gen * 65536 + q * 256 + qTaken)
      ∧ t.lanes = s.lanes ∧ (∀ j, j ≠ q → t.quoin j = s.quoin j))
  -- by Chase as well
  ∧ (∀ x, x = withBits v 11 8 1 → bitsOf x 7 0 = q → s.taken .chase .quoin 0x10 x (quoinOpChk x) →
      (s.quoin q).holder = noHolder → s.outOfOrder 0x20 q = false →
    ∃ t : State, exec (.take .chase v) s = .next t.settle ∧ (t.quoin q).holder = 0x20 ∧ t.sess = s.sess ∧ t.lanes = s.lanes
      ∧ (∀ j, j ≠ q → t.quoin j = s.quoin j))
  -- GIVE by its holder, for which nobody waits: free again
  ∧ (∀ x, x = withBits v 11 8 2 → bitsOf x 7 0 = q → bitAt x 13 = false → s.taken (.host k) .quoin 0x10 x (quoinOpChk x) →
      (s.quoin q).holder = k.val → (∀ j : SessId, (s.session j).wait ≠ some q) → (∀ n : LaneId, (s.eng n).qwait = none) →
    ∃ t : State, exec (.give (.host k) v) s = .next t.settle ∧ (t.quoin q).holder = noHolder ∧ (t.quoin q).gen = (s.quoin q).gen
      ∧ (t.session k).result = BitVec.ofNat 32 ((s.quoin q).gen * 65536 + q * 256 + qGiven)
      ∧ t.lanes = s.lanes ∧ (∀ j, j ≠ q → t.quoin j = s.quoin j))
  -- CLEAR_BROKEN by its holder
  ∧ (∀ x, x = withBits v 11 8 3 → bitsOf x 7 0 = q → bitAt x 13 = false → s.taken (.host k) .quoin 0x10 x (quoinOpChk x) →
      (s.quoin q).holder = k.val →
    ∃ t : State, exec (.clearBroken (.host k) v) s = .next t.settle ∧ (t.quoin q).broken = false ∧ (t.quoin q).holder = k.val
      ∧ (t.session k).result = BitVec.ofNat 32 ((s.quoin q).gen * 65536 + q * 256 + qCleared)
      ∧ t.lanes = s.lanes ∧ (∀ j, j ≠ q → t.quoin j = s.quoin j))
  -- DRAW by the steward of a held quoin
  ∧ (∀ x, k = 0 → x = withBits v 11 8 4 → bitsOf x 7 0 = q → s.taken (.host k) .quoin 0x10 x (quoinOpChk x) →
      (s.quoin q).holder ≠ noHolder → (∀ j : SessId, (s.session j).wait ≠ some q) → (∀ n : LaneId, (s.eng n).qwait = none) →
    ∃ t : State, exec (.draw (.host k) v) s = .next t.settle ∧ (t.quoin q).holder = noHolder ∧ (t.quoin q).broken = true
      ∧ (t.quoin q).gen = ((s.quoin q).gen + 1) % 65536
      ∧ (t.session k).result = BitVec.ofNat 32 ((t.quoin q).gen * 65536 + q * 256 + qDrawn)
      ∧ t.lanes = s.lanes ∧ (∀ j, j ≠ q → t.quoin j = s.quoin j))
  -- CANCEL_WAIT of a registered wait
  ∧ (∀ x, x = withBits v 11 8 5 → bitsOf x 7 0 = q → s.taken (.host k) .quoin 0x10 x (quoinOpChk x) → (s.session k).wait = some q →
    ∃ t : State, exec (.cancelWait (.host k) v) s = .next t.settle ∧ (t.session k).wait = none
      ∧ (t.session k).result = BitVec.ofNat 32 ((s.quoin q).gen * 65536 + q * 256 + qWaitCancelled)
      ∧ t.quoins = s.quoins ∧ t.lanes = s.lanes)
  -- HOLD_LIMIT_EXPIRY of a quoin held past its limit: drawn, as by Chase
  ∧ ((s.quoin q).holder ≠ noHolder → (s.quoin q).since + (s.quoin q).limit * 200000 < s.clock → exec (.holdLimitExpiry q) s = .next (s.drawQuoin q 0x20).settle)
  -- QUOIN_CFG
  ∧ (∀ w v, s.taken w .quoin (0x80 + q) v (quoinCfgChk q v (s.staged .quoin (0x80 + q) v)) →
    exec (.quoinCfg w q v) s = .next (s.nearDone .quoin (quoinCfgEff q v)).settle)
  -- TAKEQ_TIMEOUT: the wait ends with TIMEOUT in its register
  ∧ (∀ (n : LaneId) (x : QWait), (s.eng n).qwait = some x → x.until_ ≤ s.clock → (s.takeQuoin (0x10 + n.val) x.quoin).1 = qBusy →
    exec (.takeqTimeout n) s = .next (s.endWait n qTimeout).settle)

/-- R159 to R173, R28, R175, R176: bitmaps, claim and completion, source entries, coalescers, FIRQ gaps and the night watch. -/
def Obligations.GathererRowsComplete : Prop :=
  ∀ (s : State) (w : Writer) (i : Nat) (v : Word),
  -- EN_SET, EN_CLR, PEND_SET, PEND_CLR of bitmap word i
  (i < 32 → s.taken w .evg (0x80 + i) v none →
    exec (.enSet w i v) s = .next (s.nearDone .evg fun s => (bitList v).foldl (fun s b => s.enSet (32 * i + b)) s).settle)
  ∧ (∀ proof, i < 32 → s.taken w .evg (0xA0 + i) v none →
    exec (.enClr w i v proof) s = .next (s.nearDone .evg fun s => (bitList (v &&& proof)).foldl (fun s b => s.enClr (32 * i + b)) s).settle)
  ∧ (i < 32 → s.taken w .evg (0xC0 + i) v none →
    exec (.pendSet w i v) s = .next (s.nearDone .evg fun s => (bitList v).foldl (fun s b => s.pendSet (32 * i + b)) s).settle)
  ∧ (∀ proof, i < 32 → s.taken w .evg (0xE0 + i) v none →
    exec (.pendClr w i v proof) s = .next (s.nearDone .evg fun s => (bitList (v &&& proof)).foldl (fun s b => s.pendClr (32 * i + b)) s).settle)
  -- CLAIM and DONE at FIRQ_A (false) and FIRQ_B (true)
  ∧ (∀ t : Bool, s.taken w .evg (0x11 + 2 * b2n t) v none → bitAt v 31 = true →
    exec (.claim w t v) s = .next (s.nearDone .evg fun s => s.claim (b2n t) (bitsOf v 9 0)).settle)
  ∧ (∀ t : Bool, s.taken w .evg (0x12 + 2 * b2n t) v none → bitAt v 31 = true →
    exec (.done w t v) s = .next (s.nearDone .evg fun s => s.complete (b2n t) (bitsOf v 9 0)).settle)
  -- FORCE_DONE at the target it names
  ∧ (s.taken w .evg 0x15 v (forceDoneChk v) → bitAt v 31 = true →
    exec (.forceDone w v) s = .next (s.nearDone .evg fun s => s.complete (bitsOf v 20 16) (bitsOf v 9 0)).settle)
  -- SOURCE_ENTRY_WRITE
  ∧ (∀ j : Fin 4, i < 1024 → j.val = i / 256 → s.taken w (.table j) (i % 256) v ((s.staged (.table j) (i % 256) v).entryChk i v) →
    ∃ t : State, exec (.sourceEntryWrite w i v) s = .next t.settle ∧ (t.src i).target = bitsOf v 31 27 ∧ (t.src i).prio = bitsOf v 26 24
      ∧ (t.src i).coal = bitsOf v 23 20 ∧ (t.src i).en = (s.src i).en ∧ (∀ m, m ≠ i → t.src m = s.src m)
      ∧ t.regs = s.regs ∧ t.lanes = s.lanes)
  -- COAL_WRITE
  ∧ (1 ≤ i → i < 16 → s.taken w .evg (0x70 + i) v (coalChk v) →
    exec (.coalWrite w i v) s = .next (s.nearDone .evg (coalEff i v)).settle)
  -- COALESCER_TIME_FIRE, TIME after the first held occurrence: every held member becomes pending
  ∧ (∀ at_, (s.coal i).firstHeld = some at_ → at_ + s.g EVG.COAL_TIME 0 i * 200 ≤ s.clock → exec (.coalescerTimeFire i) s = .next (s.fire i).settle)
  -- FIRQ_EDGE_REASSERT ends the gap of a line after 200 ns
  ∧ (s.evg.firqA.gapAt + 40 ≤ s.clock → exec (.firqEdgeReassert false) s = .next (State.settle { s with evg := { s.evg with firqA := { s.evg.firqA with gap := false } } }))
  ∧ (s.evg.firqB.gapAt + 40 ≤ s.clock → exec (.firqEdgeReassert true) s = .next (State.settle { s with evg := { s.evg with firqB := { s.evg.firqB with gap := false } } }))
  -- NIGHT_WATCH_WAKE from DORMANT
  ∧ (∀ x : NwWatch, s.pwr.mode = .dormant → s.evg.nwCopy.find? (fun y => y.entry == i) = some x → x.alarm = false →
    exec (.nightWatchWake i) s = .next (s.nwWake x).settle)

/-! ### Registration, PTP and the Ethernet port (spec/08_registration.md) -/

/-- R178 to R185, R193, R195, R198, R199: the counter, its extension, RT_INC, steps, the switch and UTC. -/
def Obligations.RegistrationRowsComplete : Prop :=
  ∀ (s : State) (w : Writer),
  -- RT_WRAP: the counter runs to its pass through zero, and the seconds on the way bring what they bring
  (s.awake = true → s.on REG.WRAP_PENDING 0 = false → exec .rtWrap s = .next (s.passTo ((s.rt64 / 2 ^ 32 + 1) * 2 ^ 32)).settle)
  -- RT_HI_INCREMENT: RT_HI + 1, WRAP_PENDING clears, REG.EV bit 0
  ∧ (s.on REG.WRAP_PENDING 0 = true →
    ∃ t : State, exec .rtHiIncrement s = .next t.settle ∧ t.g REG.RT_HI 0 = (s.g REG.RT_HI 0 + 1) % 2 ^ 32 ∧ t.g REG.WRAP_PENDING 0 = 0
      ∧ t.g REG.RT_LO 0 = s.g REG.RT_LO 0 ∧ bitAt (t.hw .reg 4) 0 = true ∧ t.lanes = s.lanes ∧ t.clock = s.clock)
  -- RT_SECOND: the counter runs to the whole second, and what a second brings follows
  ∧ (s.awake = true → exec .rtSecond s = .next ((s.runTo ((s.rt64 / second + 1) * second)).secondPassed.settleTime).settle)
  -- RT_INC_WRITE
  ∧ (∀ v, s.taken w .reg 0x13 v (regChk s 0x13 v (s.staged .reg 0x13 v)) →
    exec (.rtIncWrite w v) s = .next (s.nearDone .reg fun s => State.setInc { s with ru := { s.ru with baseInc := v } } v.toNat).settle)
  -- STEP_GO: an absolute step to STEP_HI:STEP_LO is decided
  ∧ (s.taken w .reg 0x20 1 (regChk s 0x20 1 (s.staged .reg 0x20 1)) →
    exec (.stepGo w) s
      = .next (s.nearDone .reg fun s => s.decideStep ⟨0, some (s.g REG.STEP_HI 0 * 2 ^ 32 + s.g REG.STEP_LO 0), false⟩).settle)
  -- STEP_ANNOUNCE: the instant lies at least 100 µs ahead
  ∧ (∀ ahead r, s.ru.decided = some r → s.ru.announced = none → s.g REG.STEP_POLICY 0 = 1 →
    ∃ t : State, exec (.stepAnnounce ahead) s = .next t.settle ∧ t.ru.decided = none ∧ t.ru.announced = some (r, s.rt64 + max ahead 100000)
      ∧ t.regs = s.regs)
  -- STEP_INSTANT: at its instant RT takes its new value
  ∧ (∀ r at_, s.awake = true → s.ru.announced = some (r, at_) → exec .stepInstant s = .next ((s.passTo at_).stepNow r).settle)
  -- LANE_STEP_APPLY: the lane's own time moves, its slug stream carries a STEP folio, its chains and its coarse path restart
  ∧ (∀ (n : LaneId) d at_, s.farUp n = true → (s.lane n).stepAt = some (d, at_) → at_ ≤ s.laneTime n →
    exec (.laneStepApply n) s
      = .next ((((s.upLane n fun l => { l with stepAt := none, timeOff := l.timeOff + d }).pushSlug n
          (folioMark 6 0 (BitVec.ofNat 32 (((at_ : Int) + d).toNat % 2 ^ 32)) (BitVec.ofNat 32 (((at_ : Int) + d).toNat / 2 ^ 32)))).chainsDue n).coarseRestart n).settle)
  -- SELECT_WRITE, MODE_WRITE: the word REG.CFG
  ∧ (∀ v, s.taken w .reg 0x14 v (regChk s 0x14 v (s.staged .reg 0x14 v)) → ∀ c : Instr, c = .selectWrite w v ∨ c = .modeWrite w v →
    exec c s = .next (s.nearDone .reg (regCfgEff v)).settle)
  -- SWITCH_COMPLETE: the remaining slew lies within LOCK_NS
  ∧ (s.ru.switching = true → absInt s.slewLeft ≤ (s.g REG.LOCK_NS 0 : Int) →
    ∃ t : State, exec .switchComplete s = .next t.settle ∧ t.ru.switching = false ∧ bitAt (t.hw .reg 4) 4 = true)
  -- UTC_WRITE: REG.EV bit 5 when the word changes
  ∧ (∀ v, s.taken w .reg 0x21 v (regChk s 0x21 v (s.staged .reg 0x21 v)) →
    exec (.utcWrite w v) s = .next (s.nearDone .reg fun s =>
      if s.wd (REG.UTC_VALID.addr 0 0) = (storeEff .reg 0x21 v 0 s).wd (REG.UTC_VALID.addr 0 0) then storeEff .reg 0x21 v 0 s
      else (storeEff .reg 0x21 v 0 s).raise .reg 5).settle)
  -- LANE_ERR_UPDATE
  ∧ (∀ (n : LaneId) (err : BitVec 16), s.live n = true → (s.lane n).link.stale = false →
    ∃ t : State, exec (.laneErrUpdate n err) s = .next t.settle ∧ t.g REG.LANE_ERR 0 n.val = err.toNat ∧ t.g REG.LANE_ERR_VALID 0 n.val = 1
      ∧ t.lanes = s.lanes ∧ t.evg = s.evg)

/-- R186 to R191, R196, R197: PTP messages, timeouts and the Ethernet port, where they act. -/
def Obligations.PtpAndNetRowsComplete : Prop :=
  ∀ (s : State) (m : PtpMsg) (b : Bool) (h : EthHead), s.hears = true → s.accepts m.head = true → s.accepts h = true →
  -- PTP_SYNC_RX, two-step, of the parent: it waits for its Follow_Up
  (∀ t2, m.kind = 0 → s.msgDomain m = some b → (s.bump NET.RX_FRAMES 0).msgDropped b m = false → s.fromParent b m = true → s.rxStamp m = some t2 →
      m.twoStep = true →
    ∃ t : State, exec (.ptpSyncRx m) s = .next t.settle ∧ (t.dom b).sync = some (m.seq, t2, m.corr) ∧ (t.dom b).msgs = (s.dom b).msgs + 1
      ∧ t.g PTP.ONE_STEP 0 (b2n b) = 0 ∧ t.lanes = s.lanes)
  -- PTP_FOLLOW_UP_RX of the Sync that waits: t2 - t1 less correction is known
  ∧ (∀ t2 c, m.kind = 8 → s.msgDomain m = some b → (s.bump NET.RX_FRAMES 0).msgDropped b m = false → s.fromParent b m = true →
      (s.dom b).sync = some (m.seq, t2, c) → (s.dom b).delay = none →
    ∃ t : State, exec (.ptpFollowUpRx m) s = .next t.settle ∧ (t.dom b).sync = none ∧ (t.dom b).ms = some (t2 - m.origin - m.corr - c)
      ∧ t.lanes = s.lanes)
  -- PTP_DELAY_RESP_RX: the mean path delay
  ∧ (∀ t3 x, m.kind = 9 → s.msgDomain m = some b → (s.bump NET.RX_FRAMES 0).msgDropped b m = false → s.fromParent b m = true →
      (s.dom b).req = some m.seq → (s.dom b).t3 = some t3 → (s.dom b).ms = some x →
    ∃ t : State, exec (.ptpDelayRespRx m) s = .next t.settle ∧ (t.dom b).req = none ∧ (t.dom b).delay = some (halfUp (x + (m.origin - m.corr - t3)))
      ∧ t.g PTP.PATH_DELAY 0 (b2n b) = wrapInt 32 (halfUp (x + (m.origin - m.corr - t3))) ∧ t.lanes = s.lanes)
  -- PTP_ANNOUNCE_RX of a master that is not the best: it enters the list of foreign masters
  ∧ (∀ l, m.kind = 0xB → s.msgDomain m = some b → (s.bump NET.RX_FRAMES 0).msgDropped b m = false →
      l = enterMaster (s.dom b).foreign ⟨m.clockId, m.port, m.set⟩ →
      (match bestMaster l with | some f => f.clock == m.clockId && f.port == m.port | none => false) = false →
    ∃ t : State, exec (.ptpAnnounceRx m) s = .next t.settle ∧ (t.dom b).foreign = l ∧ (t.dom b).parent = bestMaster l ∧ t.lanes = s.lanes)
  -- PTP_TIMESTAMP_CAPTURE of a received frame: the newest of at most 16 captures
  ∧ (exec (.ptpTimestampCapture none) s
      = .next (State.settle { s with ru := { s.ru with captures := ((true, s.rt64) :: s.ru.captures).take 16 } }))
  -- PTP_MESSAGE_DROP
  ∧ (s.msgDomain m = some b → (s.bump NET.RX_FRAMES 0).msgDropped b m = true →
    ∃ t : State, exec (.ptpMessageDrop m) s = .next t.settle ∧ bitAt (t.hw .ptp 4) 4 = true
      ∧ t.g PTP.DROPPED 0 (b2n b) = min (s.g PTP.DROPPED 0 (b2n b) + 1) (2 ^ PTP.DROPPED.width - 1) ∧ t.lanes = s.lanes)
  -- DELAY_REQ_SEND: with a parent, after the random interval, at most 128 a second
  ∧ (∀ seq : BitVec 16, s.on PTP.EN 0 (b2n b) = true → (s.dom b).parent ≠ none → (s.dom b).reqDue ≤ s.clock →
      (∀ at_, (s.dom b).reqAt = some at_ → at_ + 1562500 ≤ s.clock) → s.g PTP.TRANSPORT 0 (b2n b) ≠ 1 →
    ∃ t : State, exec (.delayReqSend b seq) s = .next t.settle ∧ (t.dom b).req = some seq.toNat ∧ (t.dom b).t3 = none
      ∧ (t.dom b).reqAt = some s.clock ∧ (t.dom b).parent = (s.dom b).parent ∧ t.lanes = s.lanes)
  -- ANNOUNCE_TIMEOUT: the parent leaves the list; SYNC_OFFSET_TIMEOUT: holdover; HOLDOVER_EXPIRY: free
  ∧ (∀ f l, (s.dom b).parent = some f → l = (s.dom b).foreign.filter (· != f) →
      (s.dom b).annAt + s.g PTP.ANN_TIMEOUT 0 (b2n b) * logTicks (s.dom b).annLog ≤ s.clock →
    exec (.announceTimeout b) s
      = .next ((((s.takeMasters b l).upDom b fun p => { p with told := false }).p PTP.FOREIGN 0 (b2n b) l.length).holdover b).settle)
  ∧ ((s.dom b).offAt + 16 * logTicks (signedOf 8 (s.g PTP.LOG_SYNC 0 (b2n b))) ≤ s.clock →
    exec (.syncOffsetTimeout b) s = .next (s.holdover b).settle)
  ∧ (s.g PTP.STATE 0 (b2n b) = domHoldover → (s.dom b).holdAt + s.g REG.HOLDOVER_S 0 * 200000000 ≤ s.clock →
    exec (.holdoverExpiry b) s = .next (s.setDomState b domFree).settle)
  -- ETH_LINK_CHANGE: the link goes down, without the partner's signal or with a partner that does not offer 100BASE-TX full duplex
  ∧ (∀ signal aneg full mdix, s.on NET.UP 0 = true → (signal && aneg && full) = false →
    exec (.ethLinkChange signal aneg full mdix) s
      = .next ((((s.put NET.UP 0 0).put NET.ANEG_DONE 0 (b2n (signal && aneg))).put NET.MDIX 0 (b2n mdix)).raise .net 1).settle)
  -- ARP_RX and ICMP_ECHO for the module's own address are answered
  ∧ (∀ sip ip, s.isMine ip = true →
    exec (.arpRx h sip ip) s = .next ((s.bump NET.RX_FRAMES 0).netSend false h.src.toNat 0x0806 ([0, 1, 8, 0, 6, 4, 0, 2]
      ++ beBytes 6 Config.mac.toNat ++ beBytes 4 ip.toNat ++ beBytes 6 h.src.toNat ++ beBytes 4 sip.toNat)).settle)
  ∧ (∀ sip ip ident payload, s.isMine ip = true →
    ∃ t : State, exec (.icmpEcho h sip ip ident payload false) s = .next t.settle ∧ t.ru.echo = payload.take 64 ∧ t.lanes = s.lanes
      ∧ t.evg = s.evg)
  -- ETH_FRAME_DROP
  ∧ (exec (.ethFrameDrop true) s = .next (((s.bump NET.RX_FRAMES 0).bump NET.RX_DROPPED 0).raise .net 2).settle)
  ∧ (exec (.ethFrameDrop false) s = .next (s.bump NET.FCS_ERRS 0).settle)


/-! ### Impositions and SYNC (spec/09_impositions.md) -/

/-- R203, R206 to R209, R212, R216 to R220, R222 to R225, R538, Table: Action codes: the commands of impositions and of the SYNC page, where
they act. -/
def Obligations.ImpositionRowsComplete : Prop :=
  ∀ (s : State) (w : Writer) (n : LaneId) (m : Nat) (x : Impression),
  -- IMP_POST: all five checks pass, and the impression stands on its sheet with the writer as its poster
  (∀ (k : SessId) (p : Fin 32) (w0 w1 w2 w3 : Word) (s1 : State), s.writable (.host k) .imp (0x80 + 4 * p.val) = true →
      s1 = State.pressedOn ((([w0, w1, w2, w3] : List Word).zip (List.range 4)).foldl
        (fun s e => storeEff .imp (0x80 + 4 * p.val + e.2) e.1 0 s) s) .imp true →
      impAction (s1.slotWord p.val 2) ≠ 0 →
      s1.postChk k.val ((s1.slotWord p.val 0).toNat * 2 ^ 32 + (s1.slotWord p.val 1).toNat) (s1.slotWord p.val 2) (s1.slotWord p.val 3) = none →
    exec (.impPost k p w0 w1 w2 w3) s
      = .next ((s1.putImpression k.val ((s1.slotWord p.val 0).toNat * 2 ^ 32 + (s1.slotWord p.val 1).toNat) (s1.slotWord p.val 2)
          (s1.slotWord p.val 3)).notePost (.host k) (bitMask p.val p.val)).settle)
  -- IMP_DISARM: every armed impression returns to its sheet
  ∧ (s.taken w .imp 0x11 1 (impChk w 0x11 1 (s.staged .imp 0x11 1)) →
    exec (.impDisarm w) s = .next (s.nearDone .imp fun s => s.unarmAll).settle)
  -- IMP_CANCEL of a TAG on a sheet; RESULT holds what went and what had launched already
  ∧ (∀ v, bitAt v 31 = true → s.taken w .imp 0x12 v (impChk w 0x12 v (s.staged .imp 0x12 v)) →
    exec (.impCancel w v) s = .next (s.nearDone .imp fun s =>
      (((s.cancelTag (bitsOf v 20 16) (bitsOf v 11 0)).2.2).put IMP.RES_CANCELLED 0 (s.cancelTag (bitsOf v 20 16) (bitsOf v 11 0)).1).put
        IMP.RES_TOO_LATE 0 (s.cancelTag (bitsOf v 20 16) (bitsOf v 11 0)).2.1).settle)
  -- IMP_RUN: RUN takes bit 0; where it is 0 every armed impression returns to its sheet and no switch stays announced
  ∧ (∀ v, s.taken w .imp 2 v (impChk w 2 v (s.staged .imp 2 v)) →
    exec (.impRun w v) s
      = .next (s.nearDone .imp fun s => (storeEff .imp 2 v 0 (if bitAt v 31 then s.setHw .imp 0xB 0 else s)).impStopped).settle)
  -- FEEDER_ARM: the first waiting impression of the sheet is armed in the group, and the arming goes to its slots
  ∧ (∀ sh, s.firstWaiting sh m = some x → s.run .imp = true → x.time ≤ s.rt64 + 1000000000 → (s.armedIn m).length < 16 →
      s.groupReady m = true → s.ru.announced = none →
    exec (.feederArm sh m) s = .next (((s.setImpression { x with armed := x.armed ++ [m] }).sendArm m x.id)).settle)
  -- MARK, IMP_RING, SYNC_OUT and ETH_LAUNCH: what the impression that is next does, at its TIME or within LATE_TOL of it
  ∧ (s.farUp n = true → s.nextDue n.val = some x → impAction x.w2 = 0xA → s.slotDiff n.val x ≤ s.lateTol →
    exec (.mark n) s = .next ((s.slug n 0x3E 0 (BitVec.ofNat 32 x.time) (BitVec.ofNat 32 (impTag x.w2)) x.arg).slotDone n.val x .onTime).settle)
  ∧ (s.nextDue 16 = some x → impAction x.w2 = 0xB → s.slotDiff 16 x ≤ s.lateTol →
    exec (.impRing 16) s = .next ((s.ring (bitsOf x.arg 9 0)).slotDone 16 x .onTime).settle)
  ∧ (s.farUp n = true → s.nextDue n.val = some x → impAction x.w2 = 0xB → s.slotDiff n.val x ≤ s.lateTol →
    exec (.impRing n.val) s = .next ((s.ring (bitsOf x.arg 9 0)).slotDone n.val x .onTime).settle)
  ∧ (s.nextDue 16 = some x → impAction x.w2 = 0x20 → s.slotDiff 16 x ≤ s.lateTol →
    exec .syncOut s
      = .next ((State.put { s with imp := { s.imp with pulse := if bitsOf x.arg 1 0 = 2 then some (s.clock + bitsOf x.arg 31 16 * 20) else none } }
          SYNC.OUT_LEVEL 0 (b2n (bitsOf x.arg 1 0 != 0))).slotDone 16 x .onTime).settle)
  ∧ (∀ f : TrigFrame, s.on NET.UP 0 = true → s.nextDue 16 = some x → impAction x.w2 = 0x21 → s.slotDiff 16 x ≤ s.lateTol →
      f = ⟨bitsOf x.arg 15 0, impTag x.w2, (x.time + bitsOf x.arg 31 16 * 1000000) % 2 ^ 64, x.time⟩ →
    exec .ethLaunch s
      = .next ((State.netSend { s with imp := { s.imp with trigSent := some f } } true 0x0300C07E0001 0x88B5
          ([1, 1] ++ beBytes 2 f.group ++ beBytes 2 f.tag ++ beBytes 8 f.launch ++ beBytes 8 f.issued ++ List.replicate 24 0)).slotDone
            16 x .onTime).settle)
  -- SYNC_OUT_PULSE_END
  ∧ (∀ t, s.imp.pulse = some t → t ≤ s.clock →
    exec .syncOutPulseEnd s = .next (State.put { s with imp := { s.imp with pulse := none } } SYNC.OUT_LEVEL 0 0).settle)
  -- IMPRESSION_SKIP and IMPRESSION_EXPIRED of an impression that no slot holds; one whose arming is on its way is left to the slot
  ∧ (∀ sh, s.firstTodo sh m (fun x => s.impSkips x && !(x.armed.contains m && !x.slots.contains m) && decide ((s.lateTol : Int) < s.lateness m x))
        = some x → m ∉ x.slots →
    exec (.impressionSkip sh m) s
      = .next ((s.setImpression { x with todo := x.todo.filter (· != m) }).countLaunch ⟨x.sheet, x.w2, x.arg, .skipped, []⟩).settle)
  ∧ (∀ sh, s.firstTodo sh m (fun x => !(x.armed.contains m && !x.slots.contains m) && decide (2000000000 ≤ s.lateness m x)) = some x → m ∉ x.slots →
    exec (.impressionExpired sh m) s
      = .next ((s.setImpression { x with todo := x.todo.filter (· != m) }).countLaunch ⟨x.sheet, x.w2, x.arg, .expired, []⟩).settle)
  -- LAUNCH_REPORT of a launch on time: the near-side image follows, and LAUNCHED counts
  ∧ (∀ r rest, (s.lane n).reports = r :: rest → r.kind = .onTime → s.live n = true →
    exec (.launchReport n) s = .next ((((s.upLane n fun l => { l with reports := rest }).imageLaunch n r).bump IMP.LAUNCHED 0)).settle)
  -- SYNC_IN_EDGE, with VIO in one of its windows: the newest entry of the FIFO, SYNC.EV bit 0, and the rules that wait for it
  ∧ (∀ rising : Bool, s.awake = true → vioLevel s.pwr.vio ≠ 0 → s.g SYNC.IN_CFG 0 = 3 → s.imp.lastEdge = none → s.imp.syncFifo.length < 16 →
    exec (.syncInEdge rising) s
      = .next (((State.syncShow { s with imp := { s.imp with syncFifo := s.imp.syncFifo ++ [(rising, s.rt64)], lastEdge := some s.rt64 } }).raise
          .sync 0).fireRules (if rising then 0 else 1) 0 s.rt64).settle)
  -- IN_RELEASE
  ∧ (∀ v, s.taken w .sync 0x14 v (syncChk 0x14 v (s.staged .sync 0x14 v)) →
    exec (.inRelease w v) s = .next (s.nearDone .sync fun s =>
      State.syncShow { s with imp := { s.imp with syncFifo := s.imp.syncFifo.drop (bitsOf v 4 0) } }).settle)
  -- PPS_PULSE_END
  ∧ (s.imp.ppsHigh = true → s.imp.ppsAt + s.g SYNC.PPS_WIDTH_MS 0 * 200000 ≤ s.clock →
    exec .ppsPulseEnd s = .next (State.settle { s with imp := { s.imp with ppsHigh := false } }))
  -- TRIGGER_FRAME_RX of a frame of at most 1,522 bytes that carries the Ethertype, VERSION 1 and KIND 1: the trigger words, IMP.EV bit 7, and the rules of its GROUP
  ∧ (∀ (h : EthHead) (group tag : BitVec 16) (launch : BitVec 64) (rest : List Byte), s.awake = true → s.on NET.UP 0 = true →
      s.accepts h = true →
    exec (.triggerFrameRx h ([0x88, 0xB5, 1, 1] ++ beBytes 2 group.toNat ++ beBytes 2 tag.toNat ++ beBytes 8 launch.toNat ++ rest)) s
      = .next (((((((((s.bump NET.RX_FRAMES 0).put IMP.TRIG_GROUP 0 group.toNat).put IMP.TRIG_TAG 0 tag.toNat).put IMP.TRIG_LAUNCH_HI 0
          (launch.toNat / 2 ^ 32)).put IMP.TRIG_LAUNCH_LO 0 (launch.toNat % 2 ^ 32)).bump IMP.TRIG_RX 0).raise .imp 7).fireRules 2 group.toNat
          launch.toNat)).settle)

/-! ### The source-measure unit (spec/10_source_measure.md) -/

/-- R24, R227 to R230, R234 to R236, R239, R241, R243, R247: writes of the SMU page that every check accepts, by a writer to whom the word is
open: the word sets out for the far side, and does there what it does. -/
def Obligations.SmuPressesComplete : Prop :=
  ∀ (s : State) (w : Writer) (n : LaneId),
  -- SMU_START, SMU_STOP, SMU_ABORT, SMU_MEASURE, AZ_GRANT: the word CMD sets out, and acts where the far side applies it
  (∀ (c : Instr) (v : Word), (c, v) ∈ ([(.smuStart w n, 1), (.smuStop w n, 2), (.smuAbort w n, 4), (.smuMeasure w n, 8), (.azGrant w n, 16)] :
      List (Instr × Word)) →
      s.taken w (.lane n .smu) 0x10 v (smuChk w n 0x10 v (s.staged (.lane n .smu) 0x10 v)) →
    exec c s = .next (s.farSent n w (.lane n .smu) 0x10 v 0).settle)
  ∧ (∀ v since q, s.arrived n ⟨w, .lane n .smu, 0x10, v, 0, since⟩ q →
    exec (.farSideApply n) s = .next (s.farDone n (.lane n .smu) q fun s => s.smuCmd n w.holder v).settle)
  -- a STOP in RAMP starts RAMP_DOWN with cause 0; an ABORT in ARMING to RAMP_DOWN starts DISCHARGE with cause 8
  ∧ (∀ t : State, t.g SMU.STAT_STATE n = 2 → t.smuCmd n w.holder 2 = ((t.markEnd n).put SMU.STAT_CAUSE n 0).setHv n 4)
  ∧ (∀ t : State, t.inCycle n = true → t.smuCmd n w.holder 4
      = ((((((t.markEnd n).put SMU.STAT_CAUSE n 8).setHv n 5).put SMU.RES_STAT_VALID n 0).put SMU.RES_STAT_VERDICT n 3).upSmu n fun x =>
          { x with resultDue := false }))
  -- a START from OFF with no HV-off enters ARMING with the starter's frisket, E_USED 0 and HV_CYCLES counted
  ∧ (∀ t : State, t.g SMU.STAT_STATE n = 0 → t.on LANE.ILK_HW_OFF n = false →
      (t.smuCmd n w.holder 1).g SMU.STAT_STATE n = 1 ∧ (t.smuCmd n w.holder 1).g SMU.E_USED n = 0
      ∧ (t.smuCmd n w.holder 1).fw SMU.F_VMAX n = (t.frisket w.holder n).v ∧ (t.smuCmd n w.holder 1).fw SMU.F_IMAX n = (t.frisket w.holder n).i
      ∧ (t.smuCmd n w.holder 1).fw SMU.F_EMAX n = (t.frisket w.holder n).e
      ∧ (t.smuCmd n w.holder 1).g SMU.HV_CYCLES n = min (t.g SMU.HV_CYCLES n + 1) (2 ^ SMU.HV_CYCLES.width - 1))
  -- SMU_CFG_WRITE of the CFG that stands sets out, and nothing is reset; with another CFG the other words of the configuration return to
  -- their reset values, in the near-side image at once, and in force where the far side applies it
  ∧ (∀ v, s.taken w (.lane n .smu) 0x14 v (smuChk w n 0x14 v (s.staged (.lane n .smu) 0x14 v)) →
      (s.farSent n w (.lane n .smu) 0x14 v 0).imageWd (.lane n .smu) 0x14 = s.imageWd (.lane n .smu) 0x14 →
    exec (.smuCfgWrite w n v) s = .next (s.farSent n w (.lane n .smu) 0x14 v 0).settle)
  ∧ (∀ v, s.taken w (.lane n .smu) 0x14 v (smuChk w n 0x14 v (s.staged (.lane n .smu) 0x14 v)) →
      (s.farSent n w (.lane n .smu) 0x14 v 0).imageWd (.lane n .smu) 0x14 ≠ s.imageWd (.lane n .smu) 0x14 →
    exec (.smuCfgWrite w n v) s = .next ((s.farSent n w (.lane n .smu) 0x14 v 0).cfgResetImage n []).settle)
  ∧ (∀ v since q, s.arrived n ⟨w, .lane n .smu, 0x14, v, 0, since⟩ q →
    exec (.farSideApply n) s = .next (s.farDone n (.lane n .smu) q (smuCfgEff n v [0x14])).settle)
  ∧ (∀ (v : Word) (t : State), (storeEff (.lane n .smu) 0x14 v 0 t).wd ((Page.lane n .smu).at_ 0x14) ≠ t.wd ((Page.lane n .smu).at_ 0x14) →
      smuCfgEff n v [0x14] t = ((storeEff (.lane n .smu) 0x14 v 0 t).cfgReset n [0x14]).rangeChanged n)
  -- SMU_LEVEL_WRITE within the writer's frisket, and past it: the clamped value sets out, LAST_REQ shows the value asked for (that it does
  -- so within the frisket too is the model's reading, log 110)
  ∧ (∀ v, s.taken w (.lane n .smu) 0x16 v (smuChk w n 0x16 v (s.staged (.lane n .smu) 0x16 v)) →
      (s.staged (.lane n .smu) 0x16 v).smuAdj w.holder n 0x16 v = v →
    exec (.smuLevelWrite w n v) s
      = .next ((((s.farSent n w (.lane n .smu) 0x16 v 0).upSmu n fun x => { x with clampLevel := false }).showClamp n).put
          SMU.LAST_REQ_LEVEL n v.toNat).settle)
  ∧ (∀ v a : Word, s.taken w (.lane n .smu) 0x16 v (smuChk w n 0x16 v (s.staged (.lane n .smu) 0x16 v)) →
      (s.staged (.lane n .smu) 0x16 v).smuAdj w.holder n 0x16 v = a → v ≠ a →
    exec (.smuLevelWrite w n v) s
      = .next ((((((s.farSent n w (.lane n .smu) 0x16 a 0).upSmu n fun x => { x with clampLevel := true }).showClamp n).put
          SMU.LAST_REQ_LEVEL n v.toNat).farSmu n 5).frisketTrap w n 0x16 false).settle)
  ∧ (∀ a since q, s.arrived n ⟨w, .lane n .smu, 0x16, a, 0, since⟩ q →
    exec (.farSideApply n) s = .next (s.farDone n (.lane n .smu) q (smuLevelEff n a)).settle)
  -- SMU_IRANGE_WRITE
  ∧ (∀ v, s.taken w (.lane n .smu) 0x15 v (smuChk w n 0x15 v (s.staged (.lane n .smu) 0x15 v)) →
    exec (.smuIrangeWrite w n v) s = .next (s.farSent n w (.lane n .smu) 0x15 v 0).settle)
  ∧ (∀ v since q, s.arrived n ⟨w, .lane n .smu, 0x15, v, 0, since⟩ q →
    exec (.farSideApply n) s = .next (s.farDone n (.lane n .smu) q (smuIrangeEff n v)).settle)
  -- SMU_RUN: PG_CTL, with or without KEEP and ERR_CLR
  ∧ (∀ v, s.taken w (.lane n .smu) 2 v (smuChk w n 2 v (s.staged (.lane n .smu) 2 v)) →
    exec (.smuRun w n v) s = .next (s.ctlTaken n w (.lane n .smu) v).settle)
  ∧ (∀ v since q, bitAt v 30 = false → s.arrived n ⟨w, .lane n .smu, 2, v, 0, since⟩ q →
    exec (.farSideApply n) s = .next (s.farDone n (.lane n .smu) q (smuRunEff n v)).settle)

/-- R230, R231, R236, R238 to R242, R245 to R248, R251, R507 to R510: what the SMU does in time, where these commands act. -/
def Obligations.SmuRunsComplete : Prop :=
  ∀ (s : State) (n : LaneId), s.farUp n = true →
  -- HV_ARMING_COMPLETE within 2 ms with no HV-off held: RAMP, and an auto-zero run that is neither forced nor granted is abandoned
  (s.g SMU.STAT_STATE n = 1 → s.on LANE.ILK_HW_OFF n = false → s.hvFor n ≤ 400000 →
    exec (.hvArmingComplete n) s = .next ((s.setHv n 2).azForeground n).settle)
  -- HV_ARMING_TIMEOUT after 2 ms, and RAMP_TIMEOUT: DISCHARGE with cause 11
  ∧ (∀ (c : Instr) (st : Nat), (c, st) ∈ ([(.hvArmingTimeout n, 1), (.rampTimeout n, 2)] : List (Instr × Nat)) → s.g SMU.STAT_STATE n = st →
      (if st = 1 then 400000 ≤ s.hvFor n else s.rampOver n = true) →
    exec c s = .next ((((((s.markEnd n).put SMU.STAT_CAUSE n 11).setHv n 5).put SMU.RES_STAT_VALID n 0).put SMU.RES_STAT_VERDICT n 3).upSmu n fun x =>
      { x with resultDue := false }).settle)
  -- DWELL_ELAPSED, after DWELL_MS: RAMP_DOWN with cause 0
  ∧ (s.g SMU.STAT_STATE n = 3 → s.g SMU.DWELL_MS n ≠ 0 → s.g SMU.DWELL_MS n * 200000 ≤ s.hvFor n →
    exec (.dwellElapsed n) s = .next ((((s.dwellEnds n).markEnd n).put SMU.STAT_CAUSE n 0).setHv n 4).settle)
  -- DISCHARGE_FAULT, after 300 ms in DISCHARGE: FAULT, DISCHARGE_FAIL, the lane fails safe
  ∧ (s.g SMU.STAT_STATE n = 5 → 60000000 ≤ s.hvFor n → s.phase n = 3 →
    exec (.dischargeFault n) s = .next (((s.setHv n 6).farSmu n 10).laneFails n 0x10 0x032).settle)
  -- SMU_RESULT
  ∧ (∀ v i v2 i2 stamp, s.resultReady n = true → exec (.smuResult n v i v2 i2 stamp) s = .next (s.result n v i v2 i2 stamp).settle)
  -- ARC_EXCURSION_END after 100 µs below ARC_I, RANGE_CHANGE_END after 1 ms
  ∧ ((s.smu n).arcAt + 20000 ≤ s.clock → exec (.arcExcursionEnd n) s = .next (s.upSmu n fun x => { x with inArc := false }).settle)
  ∧ ((s.smu n).rangeAt + 200000 ≤ s.clock → exec (.rangeChangeEnd n) s = .next (s.upSmu n fun x => { x with rangeChange := false }).settle)
  -- AZ_DUE: 60 s after the last run, or more than 2 °C from it
  ∧ (∀ t : BitVec 16, 60 ≤ s.g SMU.AZ_AGE_S n ∨ 20 < (t.toInt - (s.smu n).azTemp).natAbs →
    exec (.azDue n t) s = .next (s.put SMU.STAT_AZ_DUE n 1).settle)
  -- AZ_RUN_START, AZ_RUN_COMPLETE after 4 ms
  ∧ (s.on SMU.STAT_AZ_DUE n = true → s.on SMU.STAT_AZ_RUNNING n = false → s.azFree n = true → s.azSoon n = false →
    exec (.azRunStart n) s
      = .next ((s.put SMU.STAT_AZ_RUNNING n 1).upSmu n fun x => { x with azForced := false, azGranted := false, azFrom := s.clock }).settle)
  ∧ (∀ t : BitVec 16, s.on SMU.STAT_AZ_RUNNING n = true → (s.smu n).azFrom + 800000 ≤ s.clock →
    exec (.azRunComplete n t) s
      = .next (((((((((s.flagResult n (s.senseFlags n)).put SMU.STAT_AZ_RUNNING n 0).put SMU.STAT_AZ_DUE n 0).put SMU.AZ_AGE_S n 0).put
          SMU.AZ_OVERDUE_S n 0).upSmu n fun x => { x with azForced := false, azGranted := false, azNoticed := false, azTemp := t.toInt }).bgFollow
            n).farSmu n 9)).settle)
  -- AZ_NOTICE 1 s before the 600 s are over, AZ_FORCED at 600 s
  ∧ (s.on SMU.STAT_AZ_DUE n = true → 599 ≤ s.g SMU.AZ_OVERDUE_S n →
    exec (.azNotice n) s = .next (((s.upSmu n fun x => { x with azNoticed := true }).bgFollow n).farSmu n 8).settle)
  ∧ (s.on SMU.STAT_AZ_DUE n = true → s.on SMU.STAT_AZ_RUNNING n = false → 600 ≤ s.g SMU.AZ_OVERDUE_S n →
    ∃ t : State, exec (.azForced n) s = .next t.settle ∧ t.g SMU.STAT_AZ_RUNNING n = 1 ∧ (t.smu n).azForced = true
      ∧ t.g SMU.AZ_PREEMPTS n = min (s.g SMU.AZ_PREEMPTS n + 1) (2 ^ SMU.AZ_PREEMPTS.width - 1) ∧ t.evg = s.evg)
  -- SMU_STEP and SMU_OFF: the launches, on time and refused
  ∧ (∀ x t, s.nextDue n.val = some x → impAction x.w2 = 1 → s.slotDiff n.val x ≤ s.lateTol →
      s.smuStep n x.poster (bitsOf x.arg 3 0) = (none, t) →
    exec (.smuStep n) s = .next (t.slotDone n.val x .onTime).settle)
  ∧ (∀ x t c, s.nextDue n.val = some x → impAction x.w2 = 1 → s.smuStep n x.poster (bitsOf x.arg 3 0) = (some c, t) →
    exec (.smuStep n) s = .next (t.slotDone n.val x (.refused c)).settle)
  ∧ (∀ x, s.nextDue n.val = some x → impAction x.w2 = 2 → s.slotDiff n.val x ≤ s.lateTol →
    exec (.smuOff n) s = .next ((if s.run (.lane n .smu) then s.smuRunOff n else s).slotDone n.val x .onTime).settle)

/-! ### The measurement chains (spec/11_filter_chains.md) -/

/-- R24, R215, R255 to R273 and R242, R245: writes of the CHAIN page, launches, restarts, outputs and coarse samples, where they act. -/
def Obligations.ChainRowsComplete : Prop :=
  ∀ (s : State) (w : Writer) (n : LaneId),
  -- CHAIN_CTL_WRITE of PG_CTL, with or without KEEP and ERR_CLR; RUN where the far side applies it
  (∀ v, s.taken w (.lane n .chain) 2 v (chainChk s n 2 v (s.staged (.lane n .chain) 2 v)) →
    exec (.chainCtlWrite w n false v) s = .next (s.ctlTaken n w (.lane n .chain) v).settle)
  ∧ (∀ v since q, bitAt v 30 = false → s.arrived n ⟨w, .lane n .chain, 2, v, 0, since⟩ q →
    exec (.farSideApply n) s
      = .next (s.farDone n (.lane n .chain) q fun s => (s.setRun (.lane n .chain) (bitAt v 0)).chainFollow n).settle)
  -- of EN and WIN
  ∧ (∀ v, s.taken w (.lane n .chain) 0x10 v (chainChk s n 0x10 v (s.staged (.lane n .chain) 0x10 v)) →
    exec (.chainCtlWrite w n true v) s = .next (s.farSent n w (.lane n .chain) 0x10 v 0).settle)
  ∧ (∀ v since q, s.arrived n ⟨w, .lane n .chain, 0x10, v, 0, since⟩ q →
    exec (.farSideApply n) s = .next (s.farDone n (.lane n .chain) q fun s =>
      ((s.put CHAIN.EN n (bitsOf v 3 0)).setWin n (bitsOf v 11 8) (64 * s.laneTime n)).chainFollow n).settle)
  -- CHAIN_TAP_WRITE: the taps are stored, and each chain whose tap differs remembers since when
  ∧ (∀ v, s.taken w (.lane n .chain) 0x11 v (chainChk s n 0x11 v (s.staged (.lane n .chain) 0x11 v)) →
    exec (.chainTapWrite w n v) s = .next (s.farSent n w (.lane n .chain) 0x11 v 0).settle)
  ∧ (∀ v since q, s.arrived n ⟨w, .lane n .chain, 0x11, v, 0, since⟩ q →
    exec (.farSideApply n) s = .next (s.farDone n (.lane n .chain) q fun s =>
      allChains.foldl (fun s (c : Fin 4) => if (s.chain n c).tap = s.g (tapFld c) n then s
        else s.upChain n c fun x => { x with since := s.tapFrom n c }) (storeEff (.lane n .chain) 0x11 v 0 s)).settle)
  -- M_SRC_WRITE: another source empties what waits of M
  ∧ (∀ v, s.taken w (.lane n .chain) 0x13 v (chainChk s n 0x13 v (s.staged (.lane n .chain) 0x13 v)) →
    exec (.mSrcWrite w n v) s = .next (s.farSent n w (.lane n .chain) 0x13 v 0).settle)
  ∧ (∀ v since q, s.arrived n ⟨w, .lane n .chain, 0x13, v, 0, since⟩ q →
    exec (.farSideApply n) s = .next (s.farDone n (.lane n .chain) q (chainEff n 0x13 v 0)).settle)
  -- COEF_WRITE: the word of the window is stored, and GROWTH of the bank follows
  ∧ (∀ (i : Fin 64) v, s.taken w (.lane n .chain) (0x80 + i.val) v (chainChk s n (0x80 + i.val) v (s.staged (.lane n .chain) (0x80 + i.val) v)) →
    exec (.coefWrite w n i v) s = .next (s.farSent n w (.lane n .chain) (0x80 + i.val) v 0).settle)
  ∧ (∀ (i : Fin 64) v since q, s.arrived n ⟨w, .lane n .chain, 0x80 + i.val, v, 0, since⟩ q →
    exec (.farSideApply n) s
      = .next (s.farDone n (.lane n .chain) q fun s => (storeEff (.lane n .chain) (0x80 + i.val) v 0 s).setGrowth n).settle)
  -- COEF_SEL_WRITE
  ∧ (∀ v, s.taken w (.lane n .chain) 0x25 v (chainChk s n 0x25 v (s.staged (.lane n .chain) 0x25 v)) →
    exec (.coefSelWrite w n v) s = .next (s.farSent n w (.lane n .chain) 0x25 v 0).settle)
  ∧ (∀ v since q, s.arrived n ⟨w, .lane n .chain, 0x25, v, 0, since⟩ q →
    exec (.farSideApply n) s = .next (s.farDone n (.lane n .chain) q (storeEff (.lane n .chain) 0x25 v 0)).settle)
  -- SWAP: the near side shows the other bank, and the chains of the mask show SWAP_PENDING where the far side applies it
  ∧ (∀ v, s.taken w (.lane n .chain) 0x24 v (chainChk s n 0x24 v (s.staged (.lane n .chain) 0x24 v)) →
    exec (.swap w n v) s = .next ((s.farSent n w (.lane n .chain) 0x24 v 0).chainNear n 0x24 v).settle)
  ∧ (∀ v since q, s.arrived n ⟨w, .lane n .chain, 0x24, v, 0, since⟩ q →
    exec (.farSideApply n) s = .next (s.farDone n (.lane n .chain) q fun s => (List.range 3).foldl (fun s c =>
      if bitAt v c then s.p CHAIN.STAT_SWAP_PENDING n c 1 else s) s).settle)
  -- WINDOW_OPEN and WINDOW_CLOSE: the mask of ARG, at TIME
  ∧ (∀ x, s.farUp n = true → s.nextDue n.val = some x → impAction x.w2 = 3 → s.slotDiff n.val x ≤ s.lateTol →
    exec (.windowOpen n) s = .next ((s.setWin n (s.g CHAIN.WIN n ||| bitsOf x.arg 3 0) (64 * x.time)).slotDone n.val x .onTime).settle)
  ∧ (∀ x, s.farUp n = true → s.nextDue n.val = some x → impAction x.w2 = 4 → s.slotDiff n.val x ≤ s.lateTol →
    exec (.windowClose n) s
      = .next ((s.setWin n (s.g CHAIN.WIN n &&& (15 - bitsOf x.arg 3 0)) (64 * x.time)).slotDone n.val x .onTime).settle)
  -- SYNC_RESET: every running chain of the mask restarts on the edge nearest TIME, once
  ∧ (∀ x, s.farUp n = true → s.nextDue n.val = some x → impAction x.w2 = 6 → s.slotDiff n.val x ≤ s.lateTol →
    exec (.syncReset n) s
      = .next ((allChains.foldl (fun s (c : Fin 4) => if bitAt x.arg c && s.on CHAIN.STAT_RUNNING n c then
          s.restartOnce n c (gridEdge x.time) else s) s).slotDone n.val x .onTime).settle)
  -- CHAIN_RESTART on the edge that is due
  ∧ (∀ (c : Fin 4) e, (s.chain n c).due = some e → s.farRuns n = true → s.chainWanted n c = true → e ≤ 64 * s.laneTime n →
    exec (.chainRestart n c) s = .next (s.chainRestart n c e).settle)
  -- CHAIN_OUTPUT of V, I or AUX at its instant, and of M
  ∧ (∀ (c : Fin 4) bits, c.val ≠ 3 → s.farRuns n = true → s.on CHAIN.STAT_RUNNING n c = true → (s.nextOutput n c).1 ≤ 64 * s.laneTime n →
    exec (.chainOutput n c bits) s = .next (s.chainOut n c bits).settle)
  ∧ (∀ bits, s.farRuns n = true → s.on CHAIN.STAT_RUNNING n 3 = true →
    exec (.chainOutput n 3 bits) s = .next (s.mOut n).settle)
  -- COARSE_SAMPLE at the end of a block with V and I valid, and of one that a change of range disturbs
  ∧ (∀ bv bi ba e v i comp plim, s.farUp n = true → s.phase n = 3 → e = s.laneTime n / 25000 * 25000 → (s.lane n).coarseAt < e →
      s.loop n (s.coarseValue n 0 bv) (s.coarseValue n 1 bi) = (v, i, comp, plim) →
      ((s.lane n).coarseFrom + 29500 ≤ e → (s.lane n).rangeFrom + 29500 ≤ e →
        exec (.coarseSample n bv bi ba) s
          = .next (((s.coarseTaken n bv bi ba).coarseRegs n v i (s.coarseValue n 2 ba) (BitVec.ofNat 32 e) 7).coarse n v i (BitVec.ofNat 32 e)
              comp plim).settle)
      ∧ (∀ t u, (s.lane n).coarseFrom + 29500 ≤ e → e < (s.lane n).rangeFrom + 29500 →
          u = (s.coarseTaken n bv bi ba).coarseRegs n v i (s.coarseValue n 2 ba) (BitVec.ofNat 32 e) 4 →
          u.energyAdd n (u.smu n).lastPower = (false, t) →
        exec (.coarseSample n bv bi ba) s = .next t.settle))

/-! ### The ultrasonic flow meter (spec/12_ultrasonic_flow.md) -/

/-- R24, R276, R277, R279 to R295, R507, R509, R510: writes of the USND page, pairs and electronic zeros, where they act. -/
def Obligations.UltrasonicRowsComplete : Prop :=
  ∀ (s : State) (w : Writer) (n : LaneId),
  -- USND_RUN: PG_CTL, with or without KEEP and ERR_CLR; RUN rises and falls where the far side applies it
  (∀ v, s.taken w (.lane n .usnd) 2 v (usndChk s n 2 v (s.staged (.lane n .usnd) 2 v)) →
    exec (.usndRun w n v) s = .next (s.ctlTaken n w (.lane n .usnd) v).settle)
  ∧ (∀ v since q, bitAt v 30 = false → s.arrived n ⟨w, .lane n .usnd, 2, v, 0, since⟩ q →
    exec (.farSideApply n) s = .next (s.farDone n (.lane n .usnd) q fun s =>
      if bitAt v 0 then (if s.run (.lane n .usnd) then s else s.usStart n) else if s.run (.lane n .usnd) then s.usHalt n else s).settle)
  -- CADENCE_WRITE
  ∧ (∀ v, s.taken w (.lane n .usnd) 0x18 v (usndChk s n 0x18 v (s.staged (.lane n .usnd) 0x18 v)) →
    exec (.cadenceWrite w n v) s = .next (s.farSent n w (.lane n .usnd) 0x18 v 0).settle)
  ∧ (∀ v since q, s.arrived n ⟨w, .lane n .usnd, 0x18, v, 0, since⟩ q →
    exec (.farSideApply n) s = .next (s.farDone n (.lane n .usnd) q (usndEff n 0x18 v 0)).settle)
  -- SHOT, ZERO, RESEED, ZC_GRANT: the bits of CMD set out, and act where the far side applies them
  ∧ (∀ (c : Instr) (v : Word), (c, v) ∈ ([(.shot w n, 2), (.zero w n, 4), (.reseed w n, 8), (.zcGrant w n, 16)] : List (Instr × Word)) →
      s.taken w (.lane n .usnd) 0x10 v (usndChk s n 0x10 v (s.staged (.lane n .usnd) 0x10 v)) →
    exec c s = .next (s.farSent n w (.lane n .usnd) 0x10 v 0).settle)
  ∧ (∀ v since q, s.arrived n ⟨w, .lane n .usnd, 0x10, v, 0, since⟩ q →
    exec (.farSideApply n) s = .next (s.farDone n (.lane n .usnd) q fun s => s.usCmd n v).settle)
  ∧ (∀ t : State, t.usCmd n 2 = t.usShot n (t.laneTime n) ∧ t.usCmd n 4 = t.zeroStart n
      ∧ t.usCmd n 8 = (if t.run (.lane n .usnd) then t.seed n else t)
      ∧ t.usCmd n 16 = if t.on USND.STAT_ZC_DUE n then t.zcBound n else t)
  -- a true zero starts in VALID only; from any other STATE it is abandoned at once with ZERO_FAIL
  ∧ (∀ t : State, t.g USND.STAT_STATE n ≠ 2 → t.zeroStart n = (t.put USND.STAT_ZERO_RUNNING n 0).farUsnd n 4)
  -- a launched pair while another pair is in progress waits for its end, and counts (R282)
  ∧ (∀ t : State, t.run (.lane n .usnd) = true → t.farRuns n = true → (t.us n).pair ≠ none →
      t.usShot n (t.laneTime n) = (((t.upUs n fun u => { u with shotWaits := u.shotWaits + 1 }).bump USND.LAUNCH_DELAYS n).farUsnd n 8))
  -- CADENCE_PAIR_START with nothing in progress; while a launched pair is in progress the cadence pair is skipped and counted (R282)
  ∧ (∀ d, s.farRuns n = true → s.run (.lane n .usnd) = true → (s.us n).zcInitial = false → (s.us n).cadDue = some d → d ≤ s.laneTime n →
      (s.us n).shotWaits = 0 →
      ((s.us n).pair = none → (s.us n).tail = none → (s.us n).cadWaits = false → s.on USND.STAT_ZC_RUNNING n = false →
        exec (.cadencePairStart n) s = .next ((s.cadStep n d).startPair n (max d (s.us n).earliest) false).settle)
      ∧ (∀ p, (s.us n).pair = some p → p.launched = true → (s.us n).zcForced = false →
        exec (.cadencePairStart n) s = .next (((s.cadStep n d).skipPair n).upUs n fun u =>
          { u with cadBase := u.lastStart, cadDue := cadNext (s.g USND.STAT_CADENCE n) u.lastStart (s.laneTime n) }).settle))
  -- USND_SHOT of an impression on time
  ∧ (∀ x, s.farRuns n = true → s.nextDue n.val = some x → impAction x.w2 = 8 → s.slotDiff n.val x ≤ s.lateTol →
    exec (.usndShot n) s = .next ((s.usShot n x.time).slotDone n.val x .onTime).settle)
  -- PAIR_END at the end of the up window: both signals there, or one of them missing; the amplitude of a shot without a first wave is
  -- a free value
  ∧ (∀ (down up : Shot) p au ad s1 s2 t, s.farUp n = true → (s.us n).pair = some p → s.upWindowOver n = true →
      s.someAmp n up = (au, s1) → s1.someAmp n down = (ad, s2) → t = (s2.put USND.AMP_UP n au).put USND.AMP_DN n ad →
      (∀ tu td, t.signal n up = some tu → t.signal n down = some td →
        exec (.pairEnd n down up) s
          = .next ((((t.pairSeen n p tu td (b2n p.preempted * 0x40 + b2n p.flow * 0x80)).upUs n fun u => { u with pair := none }).agc n
              (min au ad)).usPass n).settle)
      ∧ (t.signal n up = none ∨ t.signal n down = none →
        exec (.pairEnd n down up) s
          = .next ((((t.pairQuiet n p down up (b2n p.preempted * 0x40 + b2n p.flow * 0x80)).upUs n fun u => { u with pair := none }).agc n
              (min au ad)).usPass n).settle))
  -- AUTO_IDLE_RETURN after 2 s
  ∧ (s.farUp n = true → s.run (.lane n .usnd) = true → s.g USND.CAD_CADENCE n = 0 → s.g USND.STAT_CADENCE n = 2 →
      (s.us n).offAt + 2000000000 ≤ s.laneTime n →
    exec (.autoIdleReturn n) s = .next ((s.upUs n fun u => { u with onRun := 0 }).usCadence n 1).settle)
  -- ZC_DUE: 300 s after the last run, or more than 2 °C from it
  ∧ (∀ t : BitVec 16, s.farUp n = true → s.run (.lane n .usnd) = true →
      300 ≤ s.g USND.ZC_AGE_S n ∨ 20 < (t.toInt - (s.us n).zcTemp).natAbs →
    exec (.zcDue n t) s = .next (s.put USND.STAT_ZC_DUE n 1).settle)
  -- ZC_RUN_START, ZC_RUN_COMPLETE after 32 reference pairs
  ∧ (s.farRuns n = true → s.run (.lane n .usnd) = true → s.on USND.STAT_ZC_DUE n = true → s.on USND.STAT_ZC_RUNNING n = false → s.zcFree n = true →
    exec (.zcRunStart n) s
      = .next ((s.put USND.STAT_ZC_RUNNING n 1).upUs n fun u => { u with zcForced := false, zcInitial := false, zcFrom := s.laneTime n }).settle)
  ∧ (∀ (dtEl : Int) (t : BitVec 16), s.farUp n = true → s.on USND.STAT_ZC_RUNNING n = true → (s.us n).zcFrom + 3200000 ≤ s.laneTime n →
      (s.us n).zcInitial = false →
    exec (.zcRunComplete n dtEl t) s
      = .next ((((((((((s.put USND.DT_EL n (wrapInt 32 dtEl)).dtOffSet n).put USND.STAT_ZC_RUNNING n 0).put USND.STAT_ZC_DUE n 0).put
          USND.ZC_AGE_S n 0).put USND.ZC_OVERDUE_S n 0).upUs n fun u =>
            { u with zcInitial := false, zcForced := false, zcNoticed := false, zcTemp := t.toInt, zcFrom := s.laneTime n }).bgFollow n).farUsnd
              n 6).usNext n).settle)
  -- the first pair after a start follows the electronic zero before it (R280)
  ∧ (∀ (dtEl : Int) (t : BitVec 16), s.farUp n = true → s.on USND.STAT_ZC_RUNNING n = true → (s.us n).zcFrom + 3200000 ≤ s.laneTime n →
      (s.us n).zcInitial = true → s.g USND.STAT_CADENCE n = 1 ∨ s.g USND.STAT_CADENCE n = 2 →
    exec (.zcRunComplete n dtEl t) s
      = .next ((((((((((s.put USND.DT_EL n (wrapInt 32 dtEl)).dtOffSet n).put USND.STAT_ZC_RUNNING n 0).put USND.STAT_ZC_DUE n 0).put
          USND.ZC_AGE_S n 0).put USND.ZC_OVERDUE_S n 0).upUs n fun u =>
            { u with zcInitial := false, zcForced := false, zcNoticed := false, zcTemp := t.toInt, zcFrom := s.laneTime n,
                     cadDue := some (s.laneTime n) }).bgFollow n).farUsnd n 6).usNext n).settle)
  -- ZC_NOTICE 1 s before the 300 s are over, ZC_FORCED at 300 s
  ∧ (s.farUp n = true → s.on USND.STAT_ZC_DUE n = true → 299 ≤ s.g USND.ZC_OVERDUE_S n →
    exec (.zcNotice n) s = .next (((s.upUs n fun u => { u with zcNoticed := true }).bgFollow n).farUsnd n 5).settle)
  ∧ (s.farUp n = true → s.run (.lane n .usnd) = true → s.on USND.STAT_ZC_DUE n = true → 300 ≤ s.g USND.ZC_OVERDUE_S n →
    exec (.zcForced n) s = .next (((s.bump USND.ZC_PREEMPTS n).upUs n fun u => { u with firstForced := true }).zcBound n).settle)

/-! ### The Duncol line and its pods (spec/13_duncol_line.md, spec/14_efana_pods.md) -/

/-- R24, R297 to R328, R333, R336 to R339, R351: the commands of the line, where they act. -/
def Obligations.DuncolRowsComplete : Prop :=
  ∀ (s : State) (w : Writer) (n : LaneId),
  -- LINE_START: every present entry becomes remembered, and a broadcast UNASSIGN falls due
  (s.lineUp n = true → (s.line n).startDue = true → exec (.lineStart n) s = .next (s.lineStart n).settle)
  -- CENSUS_DUE: a whole multiple of 250 ms of lane time has passed
  ∧ (s.lineUp n = true → (s.line n).startDue = false → (s.line n).censusAt / 250000000 < s.laneTime n / 250000000 →
    exec (.censusDue n) s = .next (s.upLine n fun l => { l with censusDue := true, censusAt := s.laneTime n }).settle)
  -- ROLLCALL, TICKS; a frame that DL stuck low ends is the line fault
  ∧ (∀ e : Wire, s.lineUp n = true → (s.line n).censusDue = true → (s.line n).startDue = false → (s.line n).bcastDue = false →
    exec (.rollcall n e) s = .next (if e.stuck then (s.attempt n false e).lineStuck n else s.rollcall n e).settle)
  ∧ (∀ turns (e : Wire), s.lineUp n = true → (s.line n).ticksDue = true → (s.line n).censusDue = false →
    exec (.ticks n turns e) s = .next (if e.stuck then (s.attempt n false e).lineStuck n else s.ticksFrame n turns e).settle)
  -- POLL_DUE: a whole multiple of POLL_US since the arrival has passed
  ∧ (∀ (k : Fin 24) (g : Bool) (i : Fin 2) p, i = (if g then 1 else 0) → p = 200 * max (s.g DUNC.STREAM_POLL_US n k) 1 →
      s.lineUp n = true → s.streamLive n k g = true →
      ((s.la n k).polledAt[i] - (s.la n k).arrived) / p < (s.clock - (s.la n k).arrived) / p → (s.la n k).due[streamIx g] = none →
    exec (.pollDue n k g) s = .next (s.upLa n k fun a =>
      { a with polledAt := a.polledAt.set i s.clock,
               due := a.due.set (streamIx g) (some (a.arrived + (s.clock - a.arrived) / p * p)) }).settle)
  -- POLL, EVENT, ATTN and the frames to one pod, each where it is the frame that the lane sends next
  ∧ (∀ (k : Fin 24) g e, s.sends n (.poll k.val g) = true → exec (.poll n k g e) s = .next (s.pollFrame n k g e).settle)
  ∧ (s.lineUp n = true → (s.line n).attnDue = none → (s.line n).attnAt + 200 * max (s.g DUNC.CFG_ATTN_US n) 1 ≤ s.clock →
    exec (.attnDue n) s = .next (s.upLine n fun l =>
      { l with attnDue := some (l.attnAt + 200 * max (s.g DUNC.CFG_ATTN_US n) 1),
               attnAt := l.attnAt + (s.clock - l.attnAt) / (200 * max (s.g DUNC.CFG_ATTN_US n) 1) * (200 * max (s.g DUNC.CFG_ATTN_US n) 1) }).settle)
  ∧ (∀ e : Wire, s.sends n .attn = true →
    exec (.attn n e) s = .next (if e.stuck then (s.attempt n false e).lineStuck n else s.attnFrame n e).settle)
  ∧ (∀ (k : Fin 24) e, s.sends n (.event k.val) = true → exec (.event n k e) s = .next (s.eventFrame n k e).settle)
  ∧ (∀ (k : Fin 24) e, s.sends n (.own k.val) = true → (s.la n k).own.head? = some .readCfg →
    exec (.podRead n k true e) s = .next (s.readFrame n k true e).settle)
  ∧ (∀ (k : Fin 24) e, s.sends n .request = true → s.reqIs n 1 k = true →
    exec (.podRead n k false e) s = .next (s.readFrame n k false e).settle)
  ∧ (∀ (k : Fin 24) e, s.sends n .request = true → s.reqIs n 2 k = true →
    exec (.podWrite n k false e) s = .next (s.writeFrame n k false e).settle)
  ∧ (∀ (k : Fin 24) e f, s.sends n (.own k.val) = true → (s.la n k).own.head? = some f → f ≠ .readCfg →
    exec (.podWrite n k true e) s = .next (s.writeFrame n k true e).settle)
  ∧ (∀ (k : Fin 24) e, s.sends n .request = true → s.g DUNC.REQ_ADDR n = k.val → s.reqIs n 3 k = true →
    exec (.identify n e) s = .next (s.identifyFrame n k e).settle)
  -- an attempt that no pod answers counts in NO_ACKS, and a frame that repeats one in RETRIES
  ∧ (∀ (k op : Nat) args again len (e : Wire) t rs, e.stuck = false → e.ack = false →
      (s.attempt n again e).podsAct n (parseCmd (flipBytes (duncCmd k op args) e.cmd)) = (t, rs) → rs = [] →
    s.ask n k op args again len e = (.noAck, t.bump DUNC.NO_ACKS n))
  -- SEARCH: a pass, when one may run; UNASSIGN of every pod at a start of the line, and of the pod at an address whose turn it is
  ∧ (∀ e : Wire, s.mayPass n = true →
    exec (.search n e) s = .next (if e.stuck then (s.attempt n false e).lineStuck n else s.searchPass n e).settle)
  ∧ (∀ e : Wire, s.lineUp n = true → (s.line n).bcastDue = true → e.stuck = false → heardAll 7 0x1F [2] e = true →
    exec (.unassign n none e) s = .next ((s.frameSeen n).upLine n fun l =>
        { l with bcastDue := false, pods := l.pods.map fun p => if p.powered then { p with addr := none, answered := false } else p }).settle)
  ∧ (∀ (k : Fin 24) e, s.lineFree n = true → (s.line n).unassign.head? = some k.val →
    exec (.unassign n (some k) e) s = .next (s.unassignOne n k e).settle)
  -- SEARCH_NOTICE after 1 s, SEARCH_FORCED after 2 s
  ∧ (s.lineUp n = true → s.on DUNC.STAT_SEARCH_DUE n = true → (s.line n).searchAt + 200000000 ≤ s.clock → (s.line n).noticed = false →
    exec (.searchNotice n) s = .next (((s.upLine n fun l => { l with noticed := true }).bgFollow n).farDunc n 5).settle)
  ∧ (s.lineUp n = true → s.on DUNC.STAT_SEARCH_DUE n = true → (s.line n).searchAt + 400000000 ≤ s.clock → (s.line n).searchForced = false →
    exec (.searchForced n) s = .next ((s.upLine n fun l => { l with searchForced := true }).bump DUNC.SEARCH_PREEMPTS n).settle)
  -- DUNCOL_DEADLINE
  ∧ (∀ job late, s.lineUp n = true → s.deadlineDue n job = true → exec (.duncolDeadline n job late) s = .next (s.deadline n job late).settle)
  -- LINE_FAULT_RECOVERY after 10 ms, DP_FAULT, DP_FAULT_END
  ∧ (s.farUp n = true → s.on DUNC.STAT_LINE_FAULT n = true → (s.line n).faultAt + 2000000 ≤ s.clock →
    exec (.lineFaultRecovery n) s = .next (((s.put DUNC.STAT_LINE_FAULT n 0).upLine n fun l => { l with startDue := true }).lineStat n).settle)
  ∧ (s.farUp n = true → s.on DUNC.STAT_DP_FAULT n = false → exec (.dpFault n) s = .next ((s.put DUNC.STAT_DP_FAULT n 1).farDunc n 6).settle)
  ∧ (s.farUp n = true → exec (.dpFaultEnd n) s = .next (s.put DUNC.STAT_DP_FAULT n 0).settle)
  -- REQ_GO, SEARCH_GRANT, FORGET and STREAM_WRITE: accepted writes of the DUNC page set out, and act where the far side applies them
  ∧ (∀ v v' : Word, v' = v ||| 0x80000000 → s.taken w (.lane n .dunc) 0x28 v' (duncChk s n 0x28 v' (s.staged (.lane n .dunc) 0x28 v')) →
    exec (.reqGo w n v) s = .next (s.farSent n w (.lane n .dunc) 0x28 v' 0).settle)
  ∧ (∀ v since q, bitAt v 31 = true → s.arrived n ⟨w, .lane n .dunc, 0x28, v, 0, since⟩ q →
    exec (.farSideApply n) s
      = .next (s.farDone n (.lane n .dunc) q fun s => (storeEff (.lane n .dunc) 0x28 v 0 s).reqStart n).settle)
  ∧ (s.taken w (.lane n .dunc) 0x10 1 (duncChk s n 0x10 1 (s.staged (.lane n .dunc) 0x10 1)) →
    exec (.searchGrant w n) s = .next (s.farSent n w (.lane n .dunc) 0x10 1 0).settle)
  ∧ (∀ since q, s.arrived n ⟨w, .lane n .dunc, 0x10, 1, 0, since⟩ q →
    exec (.farSideApply n) s = .next (s.farDone n (.lane n .dunc) q fun s =>
      if s.on DUNC.STAT_SEARCH_DUE n then s.upLine n fun l => { l with searchFree := true } else s).settle)
  ∧ (s.taken w (.lane n .dunc) 0x10 2 (duncChk s n 0x10 2 (s.staged (.lane n .dunc) 0x10 2)) →
    exec (.forget w n) s = .next (s.farSent n w (.lane n .dunc) 0x10 2 0).settle)
  ∧ (∀ since q, s.arrived n ⟨w, .lane n .dunc, 0x10, 2, 0, since⟩ q →
    exec (.farSideApply n) s = .next (s.farDone n (.lane n .dunc) q fun s => (List.range 24).foldl (fun s k =>
      if s.bind n k = 1 ∧ s.on DUNC.BIND_CTL_PIN n k = false then (s.setBindId n k 0).setBind n k 0 else s) s).settle)
  ∧ (∀ (k : Fin 24) v, s.taken w (.lane n .dunc) (0x40 + k.val) v (duncChk s n (0x40 + k.val) v (s.staged (.lane n .dunc) (0x40 + k.val) v)) →
    exec (.streamWrite w n k v) s = .next (s.farSent n w (.lane n .dunc) (0x40 + k.val) v 0).settle)
  ∧ (∀ (k : Fin 24) v since q, s.arrived n ⟨w, .lane n .dunc, 0x40 + k.val, v, 0, since⟩ q →
    exec (.farSideApply n) s = .next (s.farDone n (.lane n .dunc) q fun s =>
      ((storeEff (.lane n .dunc) (0x40 + k.val) v 0 s).put DUNC.LOAD n
        ((storeEff (.lane n .dunc) (0x40 + k.val) v 0 s).load6 n / 1000000)).restream n k).settle)
  -- a command, as the lane writes it, is what a pod reads; a CRC-8 that does not check is no command (R302, R304)
  ∧ (∀ (a op : Nat) (args : List Byte), a < 32 → op < 8 → argCount op args = some args.length →
      parseCmd (duncCmd a op args) = some ⟨a, op, args⟩)
  ∧ (∀ (b c : Byte) (args : List Byte), c ≠ crc8 (b :: args) → parseCmd (b :: args ++ [c]) = none)
  -- records cross the line unchanged (R338, R350)
  ∧ (∀ r : PodRec, recOfBytes (PodRec.bytes r) = r)
  ∧ (∀ r : PodEvt, r.kind < 256 → r.info < 256 → evtOfBytes (PodEvt.bytes r) = r)

/-- R332, R335, R341, R343 to R349, R353: what becomes of the pod at place p of lane n: it powers up while the line is powered, and once powered
each of its commands has its effect. -/
def Obligations.PodRowsComplete : Prop :=
  ∀ (s : State) (n : LaneId) (p : Fin 24),
  -- POD_POWER_UP on a powered line, in any state of the place
  (∀ id fw fail, s.linePower n = true →
    exec (.podPowerUp n p id fw fail) s = .next (s.upPod n p fun q => q.powerUp id fw fail (s.dpWithin n) s.clock).settle)
  -- POD_INTERNAL_SAMPLE
  ∧ (∀ tick x y z gyro recA recG, s.fitted n = true → (s.pod n p).powered = true →
    exec (.podInternalSample n p tick x y z gyro recA recG) s = .next (s.upPod n p fun q => q.sample tick x y z gyro recA recG).settle)
  -- POD_JOIN after two frames, POD_ADDRESS_TIMEOUT after 2 s without a correct ROLLCALL
  ∧ (s.fitted n = true → (s.pod n p).powered = true → (s.pod n p).joined = false → 2 ≤ (s.pod n p).frames →
    exec (.podJoin n p) s = .next (s.upPod n p fun q => { q with joined := true, answered := false }).settle)
  ∧ (s.fitted n = true → (s.pod n p).powered = true → (s.pod n p).addr.isSome = true → (s.pod n p).lastRoll + 400000000 ≤ s.clock →
    exec (.podAddressTimeout n p) s = .next (s.upPod n p fun q => { q with addr := none, answered := false }).settle)
  -- POD_WRITE_APPLY
  ∧ (∀ a bs, s.fitted n = true → (s.pod n p).powered = true → (s.pod n p).write = some (a, bs) →
    exec (.podWriteApply n p) s = .next (s.upPod n p fun q => { q.apply a bs with write := none }).settle)
  -- SAVE, SAVE_COMPLETE, DEFAULTS, CAP_ARM, CAP_RELEASE, TILT_REF: the bits of CTRL, while no store is being written
  ∧ (s.fitted n = true → (s.pod n p).powered = true → (s.pod n p).saving = false →
      exec (.save n p) s = .next (s.upPod n p Pod.save).settle
      ∧ exec (.defaults n p) s = .next (s.upPod n p Pod.defaults).settle
      ∧ exec (.capArm n p) s = .next (s.upPod n p Pod.arm).settle
      ∧ exec (.capRelease n p) s = .next (s.upPod n p Pod.capIdle).settle
      ∧ exec (.tiltRef n p) s = .next (s.upPod n p Pod.tiltRef).settle)
  ∧ (s.fitted n = true → (s.pod n p).powered = true → (s.pod n p).saving = true →
    exec (.saveComplete n p) s = .next (s.upPod n p fun q =>
      { q with saving := false, profile := some (profileRegs q.regs, q.prog), saves := min (q.saves + 1) 0xFFFF }).settle)
  -- GYRO_LOST while DP is not within range, and GYRO_READY while it is, of a pod with a gyroscope
  ∧ (∀ tick, s.fitted n = true → (s.pod n p).powered = true → (s.pod n p).m6 = true → (s.pod n p).gReady = true → s.dpWithin n = false →
    exec (.gyroLost n p tick) s = .next (s.upPod n p fun q => Pod.event { q with gReady := false } tick 0x21 0 0).settle)
  ∧ (∀ tick, s.fitted n = true → (s.pod n p).powered = true → (s.pod n p).m6 = true → (s.pod n p).gReady = false → s.dpWithin n = true →
    exec (.gyroReady n p tick) s = .next (s.upPod n p fun q => Pod.event { q with gReady := true } tick 0x22 0 0).settle)
  -- SM_TIMEOUT
  ∧ (∀ m : Fin 4, s.fitted n = true → (s.pod n p).powered = true →
    exec (.smTimeout n p m) s = .next (s.upPod n p fun q => q.smTimeout m).settle)
  -- what a pod does leaves every other pod and the registers as they are
  ∧ (∀ (f : Pod → Pod) (q : Fin 24), q ≠ p → (s.upPod n p f).pod n q = s.pod n q ∧ (s.upPod n p f).regs = s.regs)

/-! ### Timers, DIO and CAN (spec/15_timers_and_can.md) -/

/-- R24, R205, R354 to R361, R363, R365 to R368, R385: timers and DIO pins, where they act. -/
def Obligations.TimerRowsComplete : Prop :=
  ∀ (s : State) (w : Writer) (n : LaneId) (t : Fin 4),
  -- TIMER_START and TIMER_STOP of a mask set out, and act where the far side applies them
  (∀ (m : BitVec 4) v, v = m.zeroExtend 32 → s.taken w (.lane n .tmr) 0x10 v (tmrChk s n 0x10 v (s.staged (.lane n .tmr) 0x10 v)) →
    exec (.timerStart w n m) s = .next (s.farSent n w (.lane n .tmr) 0x10 v 0).settle)
  ∧ (∀ (m : BitVec 4) (v : Word), v = m.zeroExtend 32 <<< 8 → s.taken w (.lane n .tmr) 0x10 v (tmrChk s n 0x10 v (s.staged (.lane n .tmr) 0x10 v)) →
    exec (.timerStop w n m) s = .next (s.farSent n w (.lane n .tmr) 0x10 v 0).settle)
  ∧ (∀ v since q, s.arrived n ⟨w, .lane n .tmr, 0x10, v, 0, since⟩ q →
    exec (.farSideApply n) s = .next (s.farDone n (.lane n .tmr) q fun s => s.tStrobe n (bitsOf v 3 0) (bitsOf v 11 8)).settle)
  -- TIMER_RELOAD once TOP + 1 counts have passed, after the match of the same period, and COMPARE_MATCH once CMP has been reached
  ∧ (s.farUp n = true → s.tFree n t = true → s.tInstant n t (s.tMax n t + 1) ≤ s.laneClk →
    exec (.timerReload n t) s
      = .next (((s.tMatch n t).tWrap n t ((s.tMatch n t).tInstant n t ((s.tMatch n t).tMax n t + 1))).cueRun n).settle)
  ∧ (s.farUp n = true → s.tFree n t = true → (s.tmr n t).hit = false → (s.tmr n t).cmp ≤ s.tMax n t →
      s.tInstant n t (s.tmr n t).cmp ≤ s.laneClk →
    exec (.compareMatch n t) s = .next ((s.tHit n t (s.tInstant n t (s.tmr n t).cmp)).cueRun n).settle)
  -- CAPTURE_LEADING_EDGE, CAPTURE_TRAILING_EDGE
  ∧ (s.farUp n = true → s.captures n t = true → s.capHigh n t = true →
    exec (.captureLeadingEdge n t) s = .next (s.capLead n t (s.tTotal n t (s.capBack n t)) (s.capStamp n t)).settle)
  ∧ (s.farUp n = true → s.captures n t = true → s.capHigh n t = false → (s.tmr n t).lead.isSome = true → (s.tmr n t).trail = none →
    exec (.captureTrailingEdge n t) s = .next (s.upTmr n t fun x => { x with trail := some (s.tTotal n t (s.capBack n t)) }).settle)
  -- DIO_EDGE, DIO_OVERCURRENT in a pin that is driven, DIO_FAULT_CLEAR
  ∧ (∀ (p : Fin 8) rising, s.farUp n = true → s.dioHigh n p ≠ rising → exec (.dioEdge n p rising) s = .next (s.dioEdge n p rising).settle)
  ∧ (∀ p : Fin 8, s.dioDrives n p = true →
    exec (.dioOvercurrent n p) s = .next (((s.setW1c TMR.DIO_FAULT n 0 (2 ^ p.val)).bump TMR.DIO_FAULTS n).farTmr n 5).settle)
  ∧ (∀ v proof, s.taken w (.lane n .tmr) 0x15 v (tmrChk s n 0x15 v (s.staged (.lane n .tmr) 0x15 v)) →
    exec (.dioFaultClear w n v proof) s = .next (s.farSent n w (.lane n .tmr) 0x15 v proof).settle)
  ∧ (∀ v proof since q x, x = ⟨w, .lane n .tmr, 0x15, v, proof, since⟩ → s.arrived n x q →
    exec (.farSideApply n) s = .next (s.farDone n (.lane n .tmr) q fun t => storeEff (.lane n .tmr) 0x15 v (t.proofNow n x) t).settle)
  -- TIMER_FREEZE and TIMER_UNFREEZE
  ∧ (s.farUp n = true → (s.eng n).run = .halted → s.freezers n ≠ 0 → s.g TMR.STAT_FROZEN n = 0 →
    exec (.timerFreeze n) s = .next (((s.tHold n).put TMR.STAT_FROZEN n (s.freezers n)).farTmr n 6).settle)
  ∧ (s.farUp n = true → (s.eng n).run ≠ .halted → s.g TMR.STAT_FROZEN n ≠ 0 →
    exec (.timerUnfreeze n) s
      = .next (((allTmrs.foldl (fun s (t : Fin 4) => if s.tFrozen n t then
          s.upTmr n t fun x => { x with lead := none, trail := none, gap := true } else s) (s.tHold n)).put TMR.STAT_FROZEN n 0).farTmr n 6).settle)
  -- DIO_SET and TMR_CTL: the launches, on time
  ∧ (∀ x, s.farUp n = true → s.nextDue n.val = some x → impAction x.w2 = 5 → s.slotDiff n.val x ≤ s.lateTol →
    exec (.dioSet n) s
      = .next ((s.put TMR.DIO_OUT n ((s.g TMR.DIO_OUT n &&& (255 - bitsOf x.arg 7 0)) ||| (bitsOf x.arg 15 8 &&& bitsOf x.arg 7 0))).slotDone n.val x
          .onTime).settle)
  ∧ (∀ x, s.farUp n = true → s.nextDue n.val = some x → impAction x.w2 = 9 → s.slotDiff n.val x ≤ s.lateTol →
    exec (.tmrCtl n) s = .next ((s.tStrobe n (bitsOf x.arg 3 0) (bitsOf x.arg 7 4)).slotDone n.val x .onTime).settle)

/-- R24, R221, R371 to R384: the CAN port, where its commands act. -/
def Obligations.CanRowsComplete : Prop :=
  ∀ (s : State) (w : Writer) (n : LaneId),
  -- CAN_RUN: PG_CTL, with or without KEEP and ERR_CLR; RUN where the far side applies it
  (∀ v, s.taken w (.lane n .can) 2 v (canChk s n 2 v (s.staged (.lane n .can) 2 v)) →
    exec (.canRun w n v) s = .next (s.ctlTaken n w (.lane n .can) v).settle)
  ∧ (∀ v since q, bitAt v 30 = false → s.arrived n ⟨w, .lane n .can, 2, v, 0, since⟩ q →
    exec (.farSideApply n) s = .next (s.farDone n (.lane n .can) q fun s => s.canRunSet n (bitAt v 0)).settle)
  -- TXB_REQ, TXB_CANCEL, RX_RELEASE, RECOVER: accepted writes of the CAN page set out, and act where the far side applies them
  ∧ (∀ v, s.taken w (.lane n .can) 0x18 v (canChk s n 0x18 v (s.staged (.lane n .can) 0x18 v)) →
    exec (.txbReq w n v) s = .next (s.farSent n w (.lane n .can) 0x18 v 0).settle)
  ∧ (∀ v since q, s.arrived n ⟨w, .lane n .can, 0x18, v, 0, since⟩ q →
    exec (.farSideApply n) s = .next (s.farDone n (.lane n .can) q fun s => s.txbReq n v).settle)
  ∧ (∀ v, s.taken w (.lane n .can) 0x19 v (canChk s n 0x19 v (s.staged (.lane n .can) 0x19 v)) →
    exec (.txbCancel w n v) s = .next (s.farSent n w (.lane n .can) 0x19 v 0).settle)
  ∧ (∀ v since q, s.arrived n ⟨w, .lane n .can, 0x19, v, 0, since⟩ q →
    exec (.farSideApply n) s = .next (s.farDone n (.lane n .can) q fun s => s.txbCancel n v).settle)
  ∧ (∀ v, s.taken w (.lane n .can) 0x11 v (canChk s n 0x11 v (s.staged (.lane n .can) 0x11 v)) →
    exec (.rxRelease w n v) s = .next (s.farSent n w (.lane n .can) 0x11 v 0).settle)
  ∧ (∀ v since q, s.arrived n ⟨w, .lane n .can, 0x11, v, 0, since⟩ q →
    exec (.farSideApply n) s = .next (s.farDone n (.lane n .can) q fun s => s.rxRelease n (bitsOf v 6 0)).settle)
  ∧ (s.taken w (.lane n .can) 0x10 1 (canChk s n 0x10 1 (s.staged (.lane n .can) 0x10 1)) →
    exec (.recover w n) s = .next (s.farSent n w (.lane n .can) 0x10 1 0).settle)
  ∧ (∀ since q, s.arrived n ⟨w, .lane n .can, 0x10, 1, 0, since⟩ q →
    exec (.farSideApply n) s = .next (s.farDone n (.lane n .can) q fun s => if s.canState n = 4 then s.setCan n 5 else s).settle)
  -- a refused TXB_REQ leaves WORST_NS of its buffers computed (R372)
  ∧ (∀ v c, s.writable w (.lane n .can) 0x18 = true →
      s.judge w (.lane n .can) 0x18 v (canChk s n 0x18 v (s.staged (.lane n .can) 0x18 v)) = some c →
    exec (.txbReq w n v) s = .next (canWorst n v s (s.recordErr w (.lane n .can) 0x18 c false)).settle)
  -- CAN_INTEGRATION, BUSOFF_DELAY_EXPIRY, RECOVERY_COMPLETE
  ∧ (s.farRuns n = true → s.canState n = 1 → s.run (.lane n .can) = true → exec (.canIntegration n) s = .next ((s.setCan n 2).confine n).settle)
  ∧ (s.farUp n = true → s.canState n = 4 → s.on CAN.MODE_BUSOFF_AUTO n = true →
      (s.canSt n).offAt + s.g CAN.BUSOFF_DELAY_MS n * 200000 ≤ s.clock →
    exec (.busoffDelayExpiry n) s = .next (s.setCan n 5).settle)
  ∧ (s.farRuns n = true → s.canState n = 5 →
    exec (.recoveryComplete n) s = .next ((((s.put CAN.STAT_TEC n 0).put CAN.STAT_REC n 0).setCan n
      (if ((s.put CAN.STAT_TEC n 0).put CAN.STAT_REC n 0).run (.lane n .can) then 2 else 0)).farCan n 5).settle)
  -- CAN_ATTEMPT_START of the buffer that wins, CAN_ATTEMPT_END, CAN_DEADLINE of a buffer that no longer fits
  ∧ (∀ b, s.canSends n = true → s.txWinner n = some b →
    exec (.canAttemptStart n) s
      = .next ((s.setTxb n b 18 (withBits (s.txb n b 18) 15 8 (min (s.txAttempts n b + 1) 255))).upCan n fun x =>
          { x with attempt := some b, cancel := false, sof := BitVec.ofNat 32 (s.laneTime n) }).settle)
  ∧ (∀ ok (lec : BitVec 3) dataPhase, s.farUp n = true →
    exec (.canAttemptEnd n ok lec dataPhase) s = .next (s.attemptEnd n ok lec.toNat dataPhase).settle)
  ∧ (∀ b : Fin 32, s.farUp n = true → s.txOutcome n b = 1 → s.txFits n b = false → (s.canSt n).attempt ≠ some b.val →
    exec (.canDeadline n b) s = .next (((s.txDone n b 5).bump CAN.LOWER_ABORTED n).farCan n 6).settle)
  -- CAN_FRAME_RX of a frame the controller takes, CAN_BUS_ERROR
  ∧ (∀ hdr0 (dlc : BitVec 4) rtr esi data stamp, s.farUp n = true → s.canOn n = true → s.g CAN.MODE_OP n ≠ 2 →
      bitAt hdr0 30 = false ∨ s.on CAN.MODE_FD_EN n = true →
    exec (.canFrameRx n hdr0 dlc rtr esi data stamp) s = .next (s.canRx n hdr0 dlc.toNat rtr esi data stamp).settle)
  ∧ (∀ (lec : BitVec 3) dataPhase step8, s.farUp n = true → s.canOn n = true → s.g CAN.MODE_OP n ≠ 2 →
    exec (.canBusError n lec dataPhase step8) s
      = .next (((s.lec n lec.toNat dataPhase).put CAN.STAT_REC n (min ((s.lec n lec.toNat dataPhase).g CAN.STAT_REC n
          + if step8 then 8 else 1) 255)).confine n).settle)
  -- CAN_LAUNCH with a frame in its queue, and with none: refused ABSENT
  ∧ (∀ x b r, s.farUp n = true → s.nextDue n.val = some x → impAction x.w2 = 7 → s.slotDiff n.val x ≤ s.lateTol →
      (s.canSt n).queues[bitsOf x.arg 1 0]?.getD [] = b :: r →
    exec (.canLaunch n) s
      = .next (((((s.upCan n fun c => { c with queues := c.queues.setIfInBounds (bitsOf x.arg 1 0) r }).txPend n b).canQueues n).slotDone n.val x .onTime)).settle)
  ∧ (∀ x, s.farUp n = true → s.nextDue n.val = some x → impAction x.w2 = 7 → (s.canSt n).queues[bitsOf x.arg 1 0]?.getD [] = [] →
    exec (.canLaunch n) s = .next (s.slotDone n.val x (.refused errAbsent)).settle)

/-! ### The galley and the DMA channels (spec/17_traps_memory_dma.md) -/

/-- R434 to R443: what D0 and D1 do at each of their steps, and the words of the LANE page that command them. -/
def Obligations.GalleyAndDmaRowsComplete : Prop :=
  ∀ (s : State) (n : LaneId) (w : Writer),
  -- D0_SLUG_WRITE: the slug goes to slot WCOUNT mod GAL_SIZE of a galley that is not full, and only then does WCOUNT advance (R436)
  (∀ x rest va pa t, s.on LANE.GAL_STAT_RUNNING n = true → (s.gal n).d0Faulted = false → (s.gal n).d0Paused = false → s.g LANE.GAL_SIZE n ≠ 0 →
      (s.gal n).buf = x :: rest → (s.gal n).resumeFolio = false → (s.gal n).wcount - (s.gal n).rcount < s.g LANE.GAL_SIZE n → x.isFolio = false →
      va = (s.g LANE.GAL_VBASE n * 4096 + 16 * ((s.gal n).wcount % s.g LANE.GAL_SIZE n)) % 2 ^ 32 →
      pa = s.g LANE.GAL_PBASE n * 4096 + 16 * ((s.gal n).wcount % s.g LANE.GAL_SIZE n) →
      s.translate n va ⟨.store, true, true, false⟩ = (.ok pa, t) →
    exec (.d0SlugWrite n) s
      = .next (State.galShow (((t.putMem n pa (leBytes 4 x.w0.toNat ++ leBytes 4 x.w1.toNat ++ leBytes 4 x.w2.toNat ++ leBytes 4 x.w3.toNat)).galWritten n x).upGal n
          fun g => { g with buf := rest }) n).settle)
  -- a translation that fails is a fault of D0: the slug waits, D0_FAULTED (R437)
  ∧ (∀ x rest f t, s.on LANE.GAL_STAT_RUNNING n = true → (s.gal n).d0Faulted = false → (s.gal n).d0Paused = false → s.g LANE.GAL_SIZE n ≠ 0 →
      (s.gal n).buf = x :: rest → (s.gal n).resumeFolio = false → (s.gal n).wcount - (s.gal n).rcount < s.g LANE.GAL_SIZE n →
      s.translate n ((s.g LANE.GAL_VBASE n * 4096 + 16 * ((s.gal n).wcount % s.g LANE.GAL_SIZE n)) % 2 ^ 32) ⟨.store, true, true, false⟩ = (.error f, t) →
    exec (.d0SlugWrite n) s
      = .next ((t.d0Fault n ((s.g LANE.GAL_VBASE n * 4096 + 16 * ((s.gal n).wcount % s.g LANE.GAL_SIZE n)) % 2 ^ 32) f).galShow n).settle)
  -- so is one that names another place than the slot: MISMATCH
  ∧ (∀ x rest pa t, s.on LANE.GAL_STAT_RUNNING n = true → (s.gal n).d0Faulted = false → (s.gal n).d0Paused = false → s.g LANE.GAL_SIZE n ≠ 0 →
      (s.gal n).buf = x :: rest → (s.gal n).resumeFolio = false → (s.gal n).wcount - (s.gal n).rcount < s.g LANE.GAL_SIZE n →
      pa ≠ s.g LANE.GAL_PBASE n * 4096 + 16 * ((s.gal n).wcount % s.g LANE.GAL_SIZE n) →
      s.translate n ((s.g LANE.GAL_VBASE n * 4096 + 16 * ((s.gal n).wcount % s.g LANE.GAL_SIZE n)) % 2 ^ 32) ⟨.store, true, true, false⟩ = (.ok pa, t) →
    exec (.d0SlugWrite n) s
      = .next ((t.d0Fault n ((s.g LANE.GAL_VBASE n * 4096 + 16 * ((s.gal n).wcount % s.g LANE.GAL_SIZE n)) % 2 ^ 32) ⟨fkMismatch, 0⟩).galShow n).settle)
  -- a full galley in STOP_WHEN_FULL: the slug is discarded, GAL_LOSS, and a RESUME folio is owed (R440, R443)
  ∧ (∀ x rest, s.on LANE.GAL_STAT_RUNNING n = true → (s.gal n).d0Faulted = false → (s.gal n).d0Paused = false → s.g LANE.GAL_SIZE n ≠ 0 →
      (s.gal n).buf = x :: rest → s.on LANE.GAL_CTL_MODE n = true → s.g LANE.GAL_SIZE n ≤ (s.gal n).wcount - (s.gal n).rcount →
    exec (.d0SlugWrite n) s
      = .next (((((s.upGal n fun g => { g with buf := rest, resumeFolio := true }).galDiscard n).galLoss n).galShow n)).settle)
  -- an owed RESUME folio goes first, and the slug waits (R440)
  ∧ (∀ x rest pa t, s.on LANE.GAL_STAT_RUNNING n = true → (s.gal n).d0Faulted = false → (s.gal n).d0Paused = false → s.g LANE.GAL_SIZE n ≠ 0 →
      (s.gal n).buf = x :: rest → (s.gal n).resumeFolio = true → (s.gal n).wcount - (s.gal n).rcount < s.g LANE.GAL_SIZE n →
      pa = s.g LANE.GAL_PBASE n * 4096 + 16 * ((s.gal n).wcount % s.g LANE.GAL_SIZE n) →
      s.translate n ((s.g LANE.GAL_VBASE n * 4096 + 16 * ((s.gal n).wcount % s.g LANE.GAL_SIZE n)) % 2 ^ 32) ⟨.store, true, true, false⟩ = (.ok pa, t) →
    exec (.d0SlugWrite n) s
      = .next (State.galShow ((s.galPut n (folioMark 5 0 s.rtLo (BitVec.ofNat 32 (s.rt64 / 2 ^ 32)))).2.upGal n
          fun g => { g with resumeFolio := false }) n).settle)
  -- D0_RESUME: D0 is neither faulted nor paused any more, owes its RESUME folio, and writes it and the waiting slug (R437, R440)
  ∧ ((s.gal n).d0Faulted = true ∨ (s.gal n).d0Paused = true → s.taken w (.lane n .lane) 0x2F 1 (galChk s n 0x2F 1 (s.staged (.lane n .lane) 0x2F 1)) →
    exec (.d0Resume w n) s
      = .next (s.nearDone (.lane n .lane) fun s =>
          (((s.upGal n fun g => { g with d0Faulted := false, d0Paused := false, resumeFolio := true }).d0Write n).d0Write n).galShow n).settle)
  -- GAL_RUN, and the folio and the emptying that its rise brings (R438)
  ∧ (∀ v, s.taken w (.lane n .lane) 0x20 v (galChk s n 0x20 v (s.staged (.lane n .lane) 0x20 v)) →
    exec (.galRun w n v) s = .next (s.nearDone (.lane n .lane) (galCtlEff n v)).settle)
  -- GAL_RELEASE of a value above RCOUNT and at most WCOUNT: RCOUNT takes it (R442)
  ∧ (∀ v : Word, s.taken w (.lane n .lane) 0x29 v (galChk s n 0x29 v (s.staged (.lane n .lane) 0x29 v)) → (s.gal n).wcount < 2 ^ 32 → (s.gal n).rcount < v.toNat → v.toNat ≤ (s.gal n).wcount →
    exec (.galRelease w n v) s
      = .next (s.nearDone (.lane n .lane) fun s => (s.upGal n fun g =>
          { g with rcount := v.toNat, lossNoted := g.lossNoted && decide (s.g LANE.GAL_SIZE n ≤ g.wcount - v.toNat) }).galShow n).settle)
  -- D1_DESCRIPTOR_START of a valid descriptor: SRC, DST, LENGTH and TAG are taken, BUSY (R434)
  ∧ (∀ pa t, s.on LANE.D1_CTL_RUN n = true → s.on LANE.D1_STAT_BUSY n = false → s.on LANE.D1_STAT_FAULTED n = false → (s.gal n).d1Idle = false →
      s.fatalHalt n = false → s.translate n (s.d1Desc n) (ringAccess .load) = (.ok pa, t) → t.eccHit n pa 16 = false →
      bitAt (t.memWord n (pa + 12)) 31 = true → d1Reserved (t.memWord n (pa + 8)) (t.memWord n (pa + 12)) = false →
      bitsOf (t.memWord n (pa + 8)) 23 0 ≠ 0 →
    exec (.d1DescriptorStart n) s
      = .next ((((((t.upGal n fun g => { g with d1Left := bitsOf (t.memWord n (pa + 8)) 23 0, d1Word3 := t.memWord n (pa + 12), d1End := 0 }).put
          LANE.D1_CUR_SRC n (t.memWord n pa).toNat).put LANE.D1_CUR_DST n (t.memWord n (pa + 4)).toNat).put
          LANE.D1_CUR_LEN n (bitsOf (t.memWord n (pa + 8)) 23 0)).put LANE.D1_STAT_TAG n (bitsOf (t.memWord n (pa + 12)) 15 0)).put
          LANE.D1_STAT_BUSY n 1).settle)
  -- D1_BURST: both sides translated, all read before any is written, and the restart point moves by the burst (R435)
  ∧ (∀ src dst k ps pd t1 t2, s.on LANE.D1_CTL_RUN n = true → s.on LANE.D1_STAT_BUSY n = true → s.on LANE.D1_STAT_FAULTED n = false →
      (s.gal n).d1Left ≠ 0 → s.fatalHalt n = false → src = s.g LANE.D1_CUR_SRC n → dst = s.g LANE.D1_CUR_DST n →
      k = burstLen src dst (s.gal n).d1Left →
      s.translate n src ⟨.load, !bitAt (s.gal n).d1Word3 29, true, false⟩ = (.ok ps, t1) →
      t1.translate n dst ⟨.store, !bitAt (s.gal n).d1Word3 29, true, false⟩ = (.ok pd, t2) → t2.eccHit n ps k = false →
    exec (.d1Burst n) s
      = .next ((((((t2.putMem n pd (Memory.bytes (t2.lane n).mem ps k)).upGal n fun g => { g with d1Left := g.d1Left - k }).put
          LANE.D1_CUR_SRC n ((src + k) % 2 ^ 32)).put LANE.D1_CUR_DST n ((dst + k) % 2 ^ 32)).put
          LANE.D1_CUR_LEN n ((s.gal n).d1Left - k))).settle)
  -- a burst whose source does not translate is undone: D1 is faulted at that address (R435)
  ∧ (∀ f t, s.on LANE.D1_CTL_RUN n = true → s.on LANE.D1_STAT_BUSY n = true → s.on LANE.D1_STAT_FAULTED n = false →
      (s.gal n).d1Left ≠ 0 → s.fatalHalt n = false →
      s.translate n (s.g LANE.D1_CUR_SRC n) ⟨.load, !bitAt (s.gal n).d1Word3 29, true, false⟩ = (.error f, t) →
    exec (.d1Burst n) s = .next (t.d1Fault n (s.g LANE.D1_CUR_SRC n) f false (!bitAt (s.gal n).d1Word3 29)).settle)
  -- D1_DESCRIPTOR_END: word 3 is written back with V clear and STATUS, HEAD advances, BUSY clears, and D1_DONE follows IRQ (R434)
  ∧ (∀ pa t, s.on LANE.D1_STAT_BUSY n = true → s.on LANE.D1_STAT_FAULTED n = false → (s.gal n).d1Left = 0 → bitAt (s.gal n).d1Word3 30 = false → s.fatalHalt n = false →
      s.translate n ((s.d1Desc n + 12) % 2 ^ 32) (ringAccess .store) = (.ok pa, t) →
    exec (.d1DescriptorEnd n) s
      = .next (((t.putWord n pa (withBits (withBits (s.gal n).d1Word3 31 31 0) 27 24 (s.gal n).d1End)).put LANE.D1_HEAD n
          ((s.g LANE.D1_HEAD n + 1) % max 1 (s.g LANE.D1_CTL_RING_LEN n))).put LANE.D1_STAT_BUSY n 0).settle)
  -- D1_KICK, D1_RESUME, D1_ABORT: one strobe, with RUN and RING_LEN as they are
  ∧ (∀ v, v = s.d1Strobe n 16 → s.taken w (.lane n .lane) 0x35 v (galChk s n 0x35 v (s.staged (.lane n .lane) 0x35 v)) →
    exec (.d1Kick w n) s = .next (s.nearDone (.lane n .lane) (d1CtlEff n v)).settle)
  ∧ (∀ v, v = s.d1Strobe n 17 → s.taken w (.lane n .lane) 0x35 v (galChk s n 0x35 v (s.staged (.lane n .lane) 0x35 v)) →
    exec (.d1Resume w n) s = .next (s.nearDone (.lane n .lane) (d1CtlEff n v)).settle)
  ∧ (∀ v, v = s.d1Strobe n 18 → s.taken w (.lane n .lane) 0x35 v (galChk s n 0x35 v (s.staged (.lane n .lane) 0x35 v)) →
    exec (.d1Abort w n) s = .next (s.nearDone (.lane n .lane) (d1CtlEff n v)).settle)

/-! ### The compositor (spec/16_compositor.md, spec/17_traps_memory_dma.md). In these statements `afterInstr` is what follows every instruction:
nothing at monitor privilege; at user privilege the breakpoint mark clears, and a single step ends (statement CompositorStepEnds). -/

/-- R389, R395 to R397, Table: Opcodes of the compositor, Table: ALU and floating-point functs: the result of every register and immediate
operation, for every register code; x0 keeps 0, the PC moves on by 4, and nothing else changes. -/
def Obligations.CompositorArithmeticCompletes : Prop :=
  ∀ (s : State) (n : LaneId) (rd rs1 rs2 : BitVec 5) (a b : Word), s.engReady n = true → rd.toNat < 24 → rs1.toNat < 24 →
    a = (s.eng n).r rs1.toNat → b = (s.eng n).r rs2.toNat →
  -- two registers
  (∀ (c : Instr) (v : Word), rs2.toNat < 24 →
      (c, v) ∈ ([(.addR n rd rs1 rs2, a + b), (.subR n rd rs1 rs2, a - b), (.andR n rd rs1 rs2, a &&& b), (.orR n rd rs1 rs2, a ||| b),
        (.xorR n rd rs1 rs2, a ^^^ b), (.sll n rd rs1 rs2, a <<< bitsOf b 4 0), (.srl n rd rs1 rs2, a >>> bitsOf b 4 0),
        (.sra n rd rs1 rs2, a.sshiftRight (bitsOf b 4 0)), (.slt n rd rs1 rs2, if a.toInt < b.toInt then 1 else 0),
        (.sltu n rd rs1 rs2, if a.toNat < b.toNat then 1 else 0), (.mul n rd rs1 rs2, a * b),
        (.mulh n rd rs1 rs2, BitVec.ofInt 32 (a.toInt * b.toInt / 2 ^ 32)),
        (.mulhu n rd rs1 rs2, BitVec.ofNat 32 (a.toNat * b.toNat / 2 ^ 32)),
        (.fadd n rd rs1 rs2, f32Add a b), (.fsub n rd rs1 rs2, f32Sub a b), (.fmul n rd rs1 rs2, f32Mul a b), (.fdiv n rd rs1 rs2, f32Div a b),
        (.fmin n rd rs1 rs2, f32Min a b), (.fmax n rd rs1 rs2, f32Max a b), (.feq n rd rs1 rs2, wordOf (f32Eq a b)),
        (.flt n rd rs1 rs2, wordOf (f32Lt a b)), (.fle n rd rs1 rs2, wordOf (f32Le a b))] : List (Instr × Word)) →
    exec c s = .next ((s.ret n rd.toNat v).afterInstr n (!(s.eng n).sp.psr.mon)).settle)
  -- divisions by anything but zero
  ∧ (∀ (c : Instr) (v : Word), rs2.toNat < 24 → b ≠ 0 →
      (c, v) ∈ ([(.div n rd rs1 rs2, a.sdiv b), (.divu n rd rs1 rs2, a / b), (.rem n rd rs1 rs2, a.srem b), (.remu n rd rs1 rs2, a % b)] :
        List (Instr × Word)) →
    exec c s = .next ((s.ret n rd.toNat v).afterInstr n (!(s.eng n).sp.psr.mon)).settle)
  -- a division by zero raises trap 0x0C and leaves rd
  ∧ (∀ c : Instr, rs2.toNat < 24 → b = 0 → c ∈ ([.div n rd rs1 rs2, .divu n rd rs1 rs2, .rem n rd rs1 rs2, .remu n rd rs1 rs2] : List Instr) →
    exec c s = .next ((s.syncTrap n ⟨0xC, (s.eng n).pc, 0, 0⟩).afterInstr n (!(s.eng n).sp.psr.mon)).settle)
  -- shifts by the rs2 field, and the operations on one register
  ∧ (∀ (sh : BitVec 5) (c : Instr) (v : Word),
      (c, v) ∈ ([(.slli n rd rs1 sh, a <<< sh.toNat), (.srli n rd rs1 sh, a >>> sh.toNat), (.srai n rd rs1 sh, a.sshiftRight sh.toNat),
        (.clz n rd rs1, BitVec.ofNat 32 (clzFrom 32 a)), (.fcvtsw n rd rs1, f32OfInt a.toInt), (.fcvtws n rd rs1, f32ToInt a),
        (.fsqrt n rd rs1, f32Sqrt a)] : List (Instr × Word)) →
    exec c s = .next ((s.ret n rd.toNat v).afterInstr n (!(s.eng n).sp.psr.mon)).settle)
  -- immediates: sign extended for ADDI, SLTI and SLTIU, zero extended for ANDI, ORI, XORI and LUI
  ∧ (∀ (imm : BitVec 16) (c : Instr) (v : Word),
      (c, v) ∈ ([(.addi n rd rs1 imm, a + imm.signExtend 32), (.andi n rd rs1 imm, a &&& imm.zeroExtend 32),
        (.ori n rd rs1 imm, a ||| imm.zeroExtend 32), (.xori n rd rs1 imm, a ^^^ imm.zeroExtend 32),
        (.slti n rd rs1 imm, if a.toInt < (imm.signExtend 32).toInt then 1 else 0),
        (.sltiu n rd rs1 imm, if a.toNat < (imm.signExtend 32).toNat then 1 else 0), (.lui n rd imm, imm.zeroExtend 32 <<< 16)] :
        List (Instr × Word)) →
    exec c s = .next ((s.ret n rd.toNat v).afterInstr n (!(s.eng n).sp.psr.mon)).settle)
  -- a code that names no register: illegal, with the word as TVAL
  ∧ (24 ≤ rs2.toNat →
    exec (.addR n rd rs1 rs2) s
      = .next ((s.syncTrap n ⟨1, (s.eng n).pc, encR 0 rd.toNat rs1.toNat rs2.toNat 0, 0⟩).afterInstr n (!(s.eng n).sp.psr.mon)).settle)

/-- R396, R398, R400, R410, R415, R418, Table: Opcodes of the compositor: branches, jumps, calls, returns, TRAP, RTT, IDLE and BRK. -/
def Obligations.CompositorFlowCompletes : Prop :=
  ∀ (s : State) (n : LaneId) (e : Eng) (rs1 rs2 : BitVec 5) (a b : Word), s.engReady n = true → e = s.eng n → rs1.toNat < 24 →
    a = e.r rs1.toNat → b = e.r rs2.toNat →
  -- a branch goes to PC + 4 × sext(off) when its condition holds, else on
  (∀ (off : BitVec 16) (c : Instr) (taken : Bool), rs2.toNat < 24 →
      (c, taken) ∈ ([(.beq n rs1 rs2 off, a == b), (.bne n rs1 rs2 off, a != b), (.blt n rs1 rs2 off, decide (a.toInt < b.toInt)),
        (.bge n rs1 rs2 off, !decide (a.toInt < b.toInt)), (.bltu n rs1 rs2 off, decide (a.toNat < b.toNat)),
        (.bgeu n rs1 rs2 off, !decide (a.toNat < b.toNat))] : List (Instr × Bool)) →
    exec c s = .next ((s.upEng n fun e => { e with pc := if taken then e.pc + disp16 off else e.pc + 4 }).afterInstr n (!e.sp.psr.mon)).settle)
  -- JMP, JR
  ∧ (∀ off : BitVec 26, exec (.jmp n off) s = .next ((s.upEng n fun e => { e with pc := e.pc + disp26 off }).afterInstr n (!e.sp.psr.mon)).settle)
  ∧ (∀ imm : BitVec 16, aligned4 (a + imm.signExtend 32) = true →
    exec (.jr n rs1 imm) s = .next ((s.upEng n fun e => { e with pc := a + imm.signExtend 32 }).afterInstr n (!e.sp.psr.mon)).settle)
  -- CALLW and CALLWR with fewer than 11 resident windows and an aligned target
  ∧ (∀ off : BitVec 26, e.regs.wres < 11 → aligned4 (e.pc + disp26 off) = true →
    exec (.callw n off) s = .next ((s.upEng n fun e => e.call (e.pc + disp26 off)).afterInstr n (!e.sp.psr.mon)).settle)
  ∧ (∀ imm : BitVec 16, e.regs.wres < 11 → aligned4 (a + imm.signExtend 32) = true →
    exec (.callwr n rs1 imm) s = .next ((s.upEng n fun e => e.call (a + imm.signExtend 32)).afterInstr n (!e.sp.psr.mon)).settle)
  -- an overflow raises 0x07, an underflow 0x08, and changes nothing before the entry
  ∧ (∀ off : BitVec 26, 11 ≤ e.regs.wres →
    exec (.callw n off) s = .next ((s.syncTrap n ⟨7, e.pc, 0, 0⟩).afterInstr n (!e.sp.psr.mon)).settle)
  ∧ (e.regs.cwp = e.regs.wold → exec (.retw n) s = .next ((s.syncTrap n ⟨8, e.pc, 0, 0⟩).afterInstr n (!e.sp.psr.mon)).settle)
  -- RETW
  ∧ (e.regs.cwp ≠ e.regs.wold → aligned4 (e.r 19) = true →
    exec (.retw n) s
      = .next ((s.upEng n fun e => { e with regs := { e.regs.passUp e.regs.cwp e.regs.prev with cwp := e.regs.prev }, pc := e.r 19 }).afterInstr n (!e.sp.psr.mon)).settle)
  -- TRAP: cause 0x0D, EPC behind it, TVAL the immediate
  ∧ (∀ imm : BitVec 16, exec (.trap n imm) s
      = .next ((s.syncTrap n ⟨0xD, e.pc + 4, imm.zeroExtend 32, 0⟩).afterInstr n (!e.sp.psr.mon) true).settle)
  -- RTT at monitor privilege with nothing pending that EPSR would allow
  ∧ (e.sp.psr.mon = true → e.regs.cwp ≠ e.regs.wold → s.asyncFor n e.sp.epsr = none →
    exec (.rtt n) s
      = .next (s.upEng n fun e => { e with regs := { e.regs.passUp e.regs.cwp e.regs.prev with cwp := e.regs.prev }, sp := { e.sp with psr := e.sp.epsr }, pc := e.sp.epc }).settle)
  -- with CWP equal to WOLD: MONITOR_FAULT; at user privilege: the privilege trap
  ∧ (e.sp.psr.mon = true → e.regs.cwp = e.regs.wold → exec (.rtt n) s = .next (s.halt n 4).settle)
  ∧ (e.sp.psr.mon = false →
    exec (.rtt n) s = .next ((s.syncTrap n ⟨2, e.pc, encR 0x30 0 0 0 2, 0⟩).afterInstr n true).settle)
  -- IDLE
  ∧ (exec (.idle n) s = .next ((s.upEng n fun e => { e with run := .idle, pc := e.pc + 4 }).afterInstr n (!e.sp.psr.mon)).settle)
  -- BRK at user privilege with ATTACH: a DEBUG halt behind it, BP_HIT
  ∧ (e.sp.psr.mon = false → s.on ENG.DBG_ATTACH n = true →
    exec (.brk n) s = .next ((((s.nextPc n).debugHalt n e.stepReq).raise (.lane n .eng) 1).afterInstr n true).settle)

/-- R386 to R388, R396, R399, R404, R405, R416, R423 to R425: loads, stores, spills, fills, SWAPW, CASW and MOVB, where the address
translates; their faults. -/
def Obligations.CompositorMemoryCompletes : Prop :=
  ∀ (s s1 : State) (n : LaneId) (rd rs1 rs2 : BitVec 5) (imm : BitVec 16) (va pa : Nat), s.engReady n = true → rd.toNat < 24 → rs1.toNat < 24 →
    rs2.toNat < 24 →
  -- a load of k bytes from memory
  (∀ (c : Instr) (k : Nat) (sg : Bool), (c, k, sg) ∈ ([(.lw n rd rs1 imm, 4, false), (.lh n rd rs1 imm, 2, true), (.lhu n rd rs1 imm, 2, false),
        (.lb n rd rs1 imm, 1, true), (.lbu n rd rs1 imm, 1, false)] : List (Instr × Nat × Bool)) →
      va = s.effAddr n rs1.toNat imm → va % k = 0 → s.engXlate n va .load = (.ok pa, s1) → regionOf pa ≠ .regs → s1.eccHit n pa k = false →
    exec c s = .next ((s1.ret n rd.toNat (loadValue k sg (s1.memNat n pa k))).afterInstr n (!(s.eng n).sp.psr.mon)).settle)
  -- misaligned: trap 0x03; a translation that fails: the data page fault of a load, 0x05
  ∧ (va = s.effAddr n rs1.toNat imm → va % 4 ≠ 0 →
    exec (.lw n rd rs1 imm) s = .next ((s.misaligned n va false).afterInstr n (!(s.eng n).sp.psr.mon)).settle)
  ∧ (∀ f, va = s.effAddr n rs1.toNat imm → va % 4 = 0 → s.engXlate n va .load = (.error f, s1) →
    exec (.lw n rd rs1 imm) s = .next ((s1.loadFault n va f).afterInstr n (!(s.eng n).sp.psr.mon)).settle)
  -- a word load from one of the lane's pages, MOD or REG
  ∧ (∀ p off, va = s.effAddr n rs1.toNat imm → va % 4 = 0 → s.engXlate n va .load = (.ok pa, s1) → regionOf pa = .regs →
      regPlace pa = some (p, off) → (ownPage n p || p == .mod || p == .reg) = true →
    exec (.lw n rd rs1 imm) s = .next ((s1.ret n rd.toNat (s1.readPage none p off)).afterInstr n (!(s.eng n).sp.psr.mon)).settle)
  -- a store of k bytes to memory
  ∧ (∀ (c : Instr) (k : Nat), (c, k) ∈ ([(.sw n rs2 rs1 imm, 4), (.sh n rs2 rs1 imm, 2), (.sb n rs2 rs1 imm, 1)] : List (Instr × Nat)) →
      va = s.effAddr n rs1.toNat imm → va % k = 0 → s.engXlate n va .store = (.ok pa, s1) → regionOf pa ≠ .regs →
    exec c s = .next (((s1.engPut n pa (leBytes k ((s.eng n).r rs2.toNat).toNat)).nextPc n).afterInstr n (!(s.eng n).sp.psr.mon)).settle)
  -- a word store to one of the lane's pages is one write by the engine
  ∧ (∀ p off, va = s.effAddr n rs1.toNat imm → va % 4 = 0 → s.engXlate n va .store = (.ok pa, s1) → regionOf pa = .regs →
      regPlace pa = some (p, off) → ownPage n p = true →
    exec (.sw n rs2 rs1 imm) s
      = .next (((s1.nextPc n).pressAlone (s1.engWriter n) p off ((s.eng n).r rs2.toNat)).afterInstr n (!(s.eng n).sp.psr.mon)).settle)
  -- SPILLW and FILLW at monitor privilege
  ∧ (∀ pas, (s.eng n).sp.psr.mon = true → (s.eng n).sp.cause ≠ 9 → 2 < (s.eng n).regs.wres → (s.eng n).shelf.length < 8 →
      s.xlateWords n .store ((s.eng n).sp.ssp - 48).toNat 12 = (.ok pas, s1) →
    exec (.spillw n) s
      = .next (State.nextPc ((s1.putWords n (pas.zip ((s.eng n).regs.twelve (s.eng n).regs.wold))).upEng n Eng.spilled) n).settle)
  ∧ (∀ pas, (s.eng n).sp.psr.mon = true → (s.eng n).regs.wres ≠ 12 → (s.eng n).shelf = [] →
      s.xlateWords n .load (s.eng n).sp.ssp.toNat 12 = (.ok pas, s1) → (s1.lane n).eccBad = [] →
    exec (.fillw n) s = .next (s1.upEng n fun e => e.filled (pas.map fun a => s1.memWord n a)).settle)
  -- SWAPW, and CASW where the old value is the one it asks for
  ∧ (∀ s2, va = ((s.eng n).r rs1.toNat).toNat → va % 4 = 0 → s.engXlate n va .load = (.ok pa, s1) → regionOf pa = .store ∨ regionOf pa = .dsram →
      s1.engXlate n va .store = (.ok pa, s2) → s2.eccHit n pa 4 = false →
    exec (.swapw n rd rs1 rs2) s
      = .next (((s2.engPut n pa (leBytes 4 ((s.eng n).r rs2.toNat).toNat)).ret n rd.toNat (s2.memWord n pa)).afterInstr n (!(s.eng n).sp.psr.mon)).settle)
  ∧ (∀ s2, va = ((s.eng n).r rs1.toNat).toNat → va % 4 = 0 → s.engXlate n va .load = (.ok pa, s1) → regionOf pa = .store ∨ regionOf pa = .dsram →
      s1.engXlate n va .store = (.ok pa, s2) → s2.eccHit n pa 4 = false →
    exec (.casw n rd rs1 rs2) s
      = .next (((if s2.memWord n pa = (s.eng n).r rd.toNat then s2.engPut n pa (leBytes 4 ((s.eng n).r rs2.toNat).toNat) else s2).ret n rd.toNat (s2.memWord n pa)).afterInstr n (!(s.eng n).sp.psr.mon)).settle)
  -- MOVB: nothing left moves on; otherwise one unit, read and then written
  ∧ (rd.toNat ≠ 0 → rs1.toNat ≠ 0 → rs2.toNat ≠ 0 → rd ≠ rs1 → rd ≠ rs2 → rs1 ≠ rs2 → (s.eng n).r rd.toNat = 0 →
    exec (.movb n rd rs1 rs2) s = .next ((s.nextPc n).afterInstr n (!(s.eng n).sp.psr.mon)).settle)
  ∧ (∀ pb s2 (k : Nat) (e : Eng), e = s.eng n → rd.toNat ≠ 0 → rs1.toNat ≠ 0 → rs2.toNat ≠ 0 → rd ≠ rs1 → rd ≠ rs2 → rs1 ≠ rs2 →
      e.r rd.toNat ≠ 0 → k = (if (e.r rd.toNat ||| e.r rs1.toNat ||| e.r rs2.toNat) &&& 3 = 0 then 4 else 1) →
      s.engXlate n (e.r rs2.toNat).toNat .load = (.ok pa, s1) → regionOf pa ≠ .regs →
      s1.engXlate n (e.r rs1.toNat).toNat .store = (.ok pb, s2) → regionOf pb ≠ .regs → s2.eccHit n pa k = false →
    exec (.movb n rd rs1 rs2) s
      = .next (((s2.engPut n pb (Memory.bytes (s2.lane n).mem pa k)).upEng n fun e => e.movbStep rd.toNat rs1.toNat rs2.toNat k).afterInstr n (!(s.eng n).sp.psr.mon)).settle)

/-- R158, R161, R166, R391 to R394, R401 to R404, R433: special registers, quoin operations, doorbells, posts and TLB invalidation by the
compositor. -/
def Obligations.CompositorSystemCompletes : Prop :=
  ∀ (s : State) (n : LaneId) (e : Eng) (rd rs1 rs2 : BitVec 5) (a b : Word), s.engReady n = true → e = s.eng n → rd.toNat < 24 → rs1.toNat < 24 →
    rs2.toNat < 24 → a = e.r rs1.toNat → b = e.r rs2.toNat →
  -- RDS of a register that the present privilege may read, RT_LO among them; the read captures its companions
  (∀ sr : BitVec 12, s.srNow n sr.toNat = some .ro ∨ s.srNow n sr.toNat = some .rw →
    exec (.rds n rd sr) s = .next (((s.srCapture n sr.toNat).ret n rd.toNat (s.srRead n sr.toNat)).afterInstr n (!e.sp.psr.mon)).settle)
  ∧ (exec (.rtLoCapture n rd) s
      = .next (((s.upEng n fun e => { e with sp := { e.sp with rtHiS := s.wd (REG.RT_HI.addr 0 0), rtWpS := s.on REG.WRAP_PENDING 0 } }).ret n
          rd.toNat s.rtLo).afterInstr n (!e.sp.psr.mon)).settle)
  -- a number in no table is illegal, one closed to the privilege raises the privilege trap
  ∧ (∀ sr : BitVec 12, s.srNow n sr.toNat = none →
    exec (.rds n rd sr) s = .next ((s.illegal n (encI 0x31 rd.toNat 0 sr.toNat)).afterInstr n (!e.sp.psr.mon)).settle)
  ∧ (∀ sr : BitVec 12, s.srNow n sr.toNat = some .none →
    exec (.rds n rd sr) s = .next ((s.privTrap n (encI 0x31 rd.toNat 0 sr.toNat)).afterInstr n (!e.sp.psr.mon)).settle)
  -- WRS of a register that the privilege may write, with a value in its range
  ∧ (∀ sr : BitVec 12, s.srNow n sr.toNat = some .wo ∨ s.srNow n sr.toNat = some .rw → srBad sr.toNat a = false →
    exec (.wrs n sr rs1) s = .next (((s.srWrite n sr.toNat a).nextPc n).afterInstr n (!e.sp.psr.mon)).settle)
  -- EVCLAIM, EVDONE
  ∧ (exec (.evclaim n rs1) s
      = .next (((if bitAt a 31 then s.claim (3 + n.val) (bitsOf a 9 0) else s).nextPc n).afterInstr n (!e.sp.psr.mon)).settle)
  ∧ (exec (.evdone n rs1) s
      = .next (((if bitAt a 31 then s.complete (3 + n.val) (bitsOf a 9 0) else s).nextPc n).afterInstr n (!e.sp.psr.mon)).settle)
  -- EVENTRY and EVCTL at monitor privilege, of the entry of EVSEL, one of the lane's own
  ∧ (e.sp.psr.mon = true → ownSource n e.sp.evsel = true → s.entryChk e.sp.evsel a = none →
    exec (.eventryWrite n rs1) s = .next ((entryEff e.sp.evsel a s).nextPc n).settle)
  ∧ (∀ (c : Instr) (bit : Nat) (f : State → Nat → State),
      (c, bit, f) ∈ ([(.setEn n rs1, 31, State.enSet), (.clrEn n rs1, 30, State.enClr), (.setPend n rs1, 29, State.pendSet),
        (.clrPend n rs1, 28, State.pendClr)] : List (Instr × Nat × (State → Nat → State))) →
      e.sp.psr.mon = true → ownSource n e.sp.evsel = true → a = bitMask bit bit →
    exec c s = .next ((f s e.sp.evsel).nextPc n).settle)
  -- TAKEQ: one attempt; without BUSY, or with no limit, its outcome stands in rd and PSR.QW clears
  ∧ (∀ (imm : BitVec 16) (c : Nat) (t : State), e.sp.psr.qw = false → s.takeQuoin (0x10 + n.val) (bitsOf a 7 0) = (c, t) → c ≠ qBusy ∨ imm = 0 →
    exec (.takeq n rd rs1 imm) s = .next ((t.retQuoin n rd.toNat c (bitsOf a 7 0)).afterInstr n (!e.sp.psr.mon)).settle)
  -- GIVEQ, CLRQ and their .G forms
  ∧ (∀ (c : Nat) (t : State), s.giveQuoin (0x10 + n.val) (bitsOf a 7 0) none = (c, t) →
    exec (.giveq n rd rs1) s = .next ((t.retQuoin n rd.toNat c (bitsOf a 7 0)).afterInstr n (!e.sp.psr.mon)).settle)
  ∧ (∀ (c : Nat) (t : State), s.giveQuoin (0x10 + n.val) (bitsOf a 7 0) (some (bitsOf b 15 0)) = (c, t) →
    exec (.giveqG n rd rs1 rs2) s = .next ((t.retQuoin n rd.toNat c (bitsOf a 7 0)).afterInstr n (!e.sp.psr.mon)).settle)
  ∧ (∀ (c : Nat) (t : State), s.clearQuoin (0x10 + n.val) (bitsOf a 7 0) none = (c, t) →
    exec (.clrq n rd rs1) s = .next ((t.retQuoin n rd.toNat c (bitsOf a 7 0)).afterInstr n (!e.sp.psr.mon)).settle)
  ∧ (∀ (c : Nat) (t : State), s.clearQuoin (0x10 + n.val) (bitsOf a 7 0) (some (bitsOf b 15 0)) = (c, t) →
    exec (.clrqG n rd rs1 rs2) s = .next ((t.retQuoin n rd.toNat c (bitsOf a 7 0)).afterInstr n (!e.sp.psr.mon)).settle)
  -- RING of a doorbell that the engine may ring
  ∧ (∀ (imm : BitVec 16) (d : Nat), d = (a + imm.signExtend 32).toNat → 960 ≤ d → d ≤ 1023 → engineRings n.val d = true →
    exec (.engineRing n rs1 imm) s = .next (((s.ring d).nextPc n).afterInstr n (!e.sp.psr.mon)).settle)
  -- a refused RING: RANGE or RIGHTS, with the low eight bits of the doorbell number, and nothing rung (R159)
  ∧ (∀ (imm : BitVec 16) (d : Nat), d = (a + imm.signExtend 32).toNat → d < 960 ∨ 1023 < d →
    exec (.engineRing n rs1 imm) s = .next (((s.setErr (s.engWriter n) .evg (d % 256) errRange false).nextPc n).afterInstr n (!e.sp.psr.mon)).settle)
  ∧ (∀ (imm : BitVec 16) (d : Nat), d = (a + imm.signExtend 32).toNat → 960 ≤ d → d ≤ 1023 → engineRings n.val d = false →
    exec (.engineRing n rs1 imm) s = .next (((s.setErr (s.engWriter n) .evg (d % 256) errRights false).nextPc n).afterInstr n (!e.sp.psr.mon)).settle)
  -- POST and PCANCEL
  ∧ (∀ t : Nat, t = e.sp.post[0].toNat * 2 ^ 32 + e.sp.post[1].toNat → s.postChk (0x10 + n.val) t e.sp.post[2] e.sp.post[3] = none →
    exec (.post n rd) s
      = .next (((s.putImpression (0x10 + n.val) t e.sp.post[2] e.sp.post[3]).ret n rd.toNat 0).afterInstr n (!e.sp.psr.mon)).settle)
  ∧ (∀ (t c : Nat), t = e.sp.post[0].toNat * 2 ^ 32 + e.sp.post[1].toNat → s.postChk (0x10 + n.val) t e.sp.post[2] e.sp.post[3] = some c →
    exec (.post n rd) s = .next ((s.ret n rd.toNat (BitVec.ofNat 32 c)).afterInstr n (!e.sp.psr.mon)).settle)
  ∧ (∀ (gone late : Nat) (t : State), s.cancelTag n.val (bitsOf e.sp.post[2] 11 0) = (gone, late, t) →
    exec (.pcancel n rd) s = .next ((t.ret n rd.toNat (BitVec.ofNat 32 (gone * 65536 + late))).afterInstr n (!e.sp.psr.mon)).settle)
  -- FENCE, TLBI and TLBIA
  ∧ (exec (.fence n) s = .next ((s.nextPc n).afterInstr n (!e.sp.psr.mon)).settle)
  ∧ (e.sp.psr.mon = true →
    exec (.tlbi n rs1) s = .next (State.nextPc (s.upEng n fun e => e.tlbi a.toNat) n).settle)
  ∧ (e.sp.psr.mon = true → exec (.tlbia n) s = .next (State.nextPc (s.upEng n fun e => { e with tlb := [], dtlb := [] }) n).settle)

/-- R387, R395, R407 to R412, R414, R416, R417, R427: traps that no instruction row takes, breakpoints, the host's debug controls, and what
Chase does about a fatal halt. -/
def Obligations.CompositorTrapAndDebugRowsComplete : Prop :=
  ∀ (s : State) (n : LaneId) (w : Writer),
  -- TRAP_ENTRY: the asynchronous trap that is due is taken, with EPC at the instruction at the pre-emption point
  (∀ t irq, s.fitted n = true → s.asyncNow n = some (t, irq) →
    exec (.trapEntry n) s = .next ((s.consumeAsync n t.cause irq).takeTrap n { t with epc := (s.eng n).pc }).settle)
  -- ILLEGAL_INSTRUCTION: a word that is no instruction raises 0x01 with the word as TVAL
  ∧ (∀ v, wordLegal v = false → s.engReady n = true →
    exec (.illegalInstruction n v) s = .next ((s.syncTrap n ⟨1, (s.eng n).pc, v, 0⟩).afterInstr n (!(s.eng n).sp.psr.mon)).settle)
  -- FETCH_PAGE_FAULT: 0x04 with PC as EPC and TVAL
  ∧ (∀ f t, s.engReady n = true → s.engXlate n (s.eng n).pc.toNat .fetch = (.error f, t) →
    exec (.fetchPageFault n) s
      = .next ((t.syncTrap n ⟨4, (t.eng n).pc, (t.eng n).pc, mkTinfo f false (!(t.eng n).sp.psr.mon)⟩).afterInstr n (!(t.eng n).sp.psr.mon)).settle)
  -- BP_HIT
  ∧ (s.fitted n = true → (s.eng n).run = .running → (s.eng n).qwait = none → (s.eng n).movbUnits = 0 → s.asyncNow n = none → s.bpMatch n = true →
    exec (.bpHit n) s = .next ((s.debugHalt n false).raise (.lane n .eng) 1).settle)
  -- DBG_HALT of an engine that runs
  ∧ (∀ v, v = s.dbgStrobe n 0 → s.taken w (.lane n .eng) 0x12 v (engChk n 0x12 v (s.staged (.lane n .eng) 0x12 v)) → (s.eng n).run ≠ .halted →
    exec (.dbgHalt w n) s = .next (s.nearDone (.lane n .eng) fun s =>
        (storeEff (.lane n .eng) 0x12 v 0 s).upEng n fun e => { e with haltReq := true }).settle)
  -- DBG_RESUME and DBG_STEP of an engine halted with DEBUG
  ∧ (∀ v, v = s.dbgStrobe n 1 → s.taken w (.lane n .eng) 0x12 v (engChk n 0x12 v (s.staged (.lane n .eng) 0x12 v)) → (s.eng n).run = .halted →
      (s.eng n).haltCode = 1 →
    exec (.dbgResume w n) s = .next (s.nearDone (.lane n .eng) fun s => (storeEff (.lane n .eng) 0x12 v 0 s).dbgGo n false false).settle)
  ∧ (∀ v, v = s.dbgStrobe n 2 → s.taken w (.lane n .eng) 0x12 v (engChk n 0x12 v (s.staged (.lane n .eng) 0x12 v)) → (s.eng n).run = .halted →
      (s.eng n).haltCode = 1 →
    exec (.dbgStep w n) s = .next (s.nearDone (.lane n .eng) fun s => (storeEff (.lane n .eng) 0x12 v 0 s).dbgGo n true (bitAt v 9)).settle)
  -- REGVAL_WRITE of the selected register
  ∧ (∀ v, s.taken w (.lane n .eng) 0x19 v (engChk n 0x19 v (s.staged (.lane n .eng) 0x19 v)) →
    exec (.regvalWrite w n v) s = .next (s.nearDone (.lane n .eng) fun s => s.regvalSet n v).settle)
  -- CHASE_HALT_RESPONSE: the fault entry, CMD.ABORT to an SMU whose HV state is not OFF; HALT_POLICY_RESET
  ∧ (s.fatalHalt n = true → (s.eng n).fatalTold = false → s.chaseUp = true →
    exec (.chaseHaltResponse n) s = .next (s.haltTold n).settle)
  ∧ (s.fatalHalt n = true → (s.eng n).fatalTold = true → s.on LANE.HALT_POLICY n = true → s.chaseUp = true →
      (s.eng n).haltAt + 10 * msTicks ≤ s.clock →
    exec (.haltPolicyReset n) s = .next (s.engineResetNow n 0x20).settle)

/-! ### Chase's services, grants, keys, calendar and colophon log (spec/18_chase_services.md) -/

/-- R447 to R457, R460, R461, R469: a GO, and every service where it succeeds; `p` is the state once the request has left the queue. -/
def Obligations.ServiceRowsComplete : Prop :=
  ∀ (s : State) (r : SvcReq) (p : State), p = s.popped →
  -- SVC_GO: the mailbox is BUSY, SEQ advances, and the request waits its turn with the arguments as they stand
  (∀ (k : SessId) v, bitAt v 31 = true → svcCodes.contains (bitsOf v 7 0) = true → s.chase.queue = [] →
      s.taken (.host k) .chase 0x20 v none →
    exec (.svcGo k v) s = .next (s.nearDone .chase fun s =>
      State.upChase (s.upBox k fun b => { b with state := 1, outcome := 0, op := bitsOf v 7 0, seq := (b.seq + 1) % 256 }) fun c =>
        { c with queue := c.queue ++ [⟨k.val, bitsOf v 7 0, (s.box k).args.toList⟩] }).settle)
  -- MONITOR_SVC_GO: the same from the mailbox words of data SRAM
  ∧ (∀ n v, s.fitted n = true → (s.eng n).run = .running → (s.eng n).sp.psr.mon = true → s.chaseUp = true →
    exec (.monitorSvcGo n v) s = .next ((s.putWord n (monBox 15) v).monitorGo n v).settle)
  -- PROGRAM_LOAD: OK, with the digest's first word as the result
  ∧ (∀ k n b, s.serving 1 r → p.pgmAsk r = .ok (k, n, b) → p.pgmCheck n b = svOk →
    exec .programLoad s = .next ((p.loadProgram n k b).served r svOk [recWord b 0xA0]).settle)
  -- FRISKET_REQUEST: the grant is the least of what was asked, the ceiling, and for an engine the loading session's grant
  ∧ (∀ n want f, s.serving 2 r → p.friskLane r = .ok n → want = ⟨r.arg 1, r.arg 2, r.arg 3⟩ → limitBad (r.arg 1) hwMax.v = false →
      limitBad (r.arg 2) hwMax.i = false → limitBad (r.arg 3) hwMax.e = false → (r.arg 4).toNat ≤ 86400 →
      f = (if r.engine.isSome then Frisket.min (Frisket.min want (p.ceiling n)) (p.loaderFrisket n) else Frisket.min want (p.ceiling n)) →
    exec .frisketRequest s
      = .next ((p.setGrant r.who n f (r.arg 4).toNat (if r.engine.isSome then (p.loader n).map (·.val) else none)).served r
          (if f = want then svOk else svClamped) [f.v, f.i, f.e]).settle)
  -- FRISKET_RELEASE
  ∧ (∀ n, s.serving 3 r → p.friskLane r = .ok n →
    exec .frisketRelease s = .next ((p.endGrant r.who n).served r svOk []).settle)
  -- CAL_WRITE: the record is stored and takes effect
  ∧ (∀ n b, s.serving 4 r → p.svcRight r 2 = true → laneArg (r.arg 0) = some n → p.svcLane r n none = true → p.fitted n = true →
      (p.lane n).link.locked = true → p.stopped (.lane n .smu) = true → p.flashBusy = false → p.stagedBytes n (r.arg 1) (r.arg 2) = some b →
      recFormatOk b n.val = true → p.recDateOk b = true → dateYear (recDue b) ≤ 2399 →
    exec (.calWrite true) s
      = .next ((((p.upChase fun c => { c with recs := c.recs.set n (some b), dueTold := c.dueTold &&& ~~~(BitVec.twoPow 16 n.val) }).logIt 0x024 n.val
          r.who).calLane n).served r svOk []).settle)
  -- IMAGE_WRITE: the slot that did not boot holds the image, where its signature verifies under the key in ROM
  ∧ (∀ n b, s.serving 5 r → r.who = 0 → laneArg (r.arg 0) = some n → p.fitted n = true → p.flashBusy = false → p.stagedBytes n (r.arg 1) (r.arg 2) = some b →
      imgFormatOk b = true → p.g MOD.BOOT_ROLLBACK 0 ≤ imgRollback b →
    exec (.imageWrite true) s
      = .next (if imgSigned b then (((p.putSlot (!p.bootedB) (imgSlot b)).logIt 0x004 noLane 0).served r svOk []).settle
          else (p.served r svSignature []).settle))
  -- BUSY while the clear of a log region holds the flash
  ∧ (∀ n, s.serving 5 r → r.who = 0 → laneArg (r.arg 0) = some n → p.fitted n = true → p.flashBusy = true →
    exec (.imageWrite true) s = .next (p.served r svBusy []).settle)
  -- ROLLBACK_ADVANCE
  ∧ (s.serving 6 r → r.who = 0 → p.g MOD.BOOT_ROLLBACK 0 < (r.arg 0).toNat → (r.arg 0).toNat ≤ 63 →
      (r.arg 0).toNat ≤ (p.slot p.bootedB).rollback → p.on MOD.BOOT_CONFIRMED 0 = true →
    exec .rollbackAdvance s = .next (((p.put MOD.BOOT_ROLLBACK 0 (r.arg 0).toNat).logIt 0x003 noLane 0).served r svOk []).settle)
  -- LOG_NOTE, PROGRAM_END and ENGINE_END, from an engine
  ∧ (∀ n, s.serving 8 r → r.engine = some n →
    exec .logNote s = .next ((p.logWith 0x026 n.val r.who (r.args.take 7)).served r svOk []).settle)
  ∧ (∀ n, s.serving 9 r → r.engine = some n →
    exec .programEnd s
      = .next (((p.engineResetNow n r.who).logWith 0x027 n.val r.who ((r.arg 0 &&& 0xFF) :: (r.args.drop 1).take 6)).served r svOk []).settle)
  ∧ (∀ n, s.serving 0xA r → r.engine = some n →
    exec .engineEnd s
      = .next (((p.engineResetNow n r.who).logWith 0x037 n.val r.who ((r.arg 0 &&& 0xFF) ::
          ([r.arg 7, (p.eng n).sp.epc, (p.eng n).sp.tval] ++ (r.args.drop 1).take 3))).served r svOk []).settle)

/-- R453, R458, R459, R462 to R468, R471: program-signing keys, ceilings, the end of a grant, and the calendar. -/
def Obligations.KeyGrantAndCalendarRowsComplete : Prop :=
  ∀ (s : State) (w : Writer) (n : LaneId),
  -- PKEY_LOAD with all eight words, and PKEY_ERASE
  (∀ words v x, x = withBits (withBits v 8 8 1) 9 9 0 → words.length = 8 → s.taken w .chase 0x27 x (pkeyChk words x) →
    exec (.pkeyLoad w words v) s
      = .next (s.nearDone .chase fun s => ((s.putPkey (bitsOf x 1 0) words true).logIt 0x018 noLane w.holder).raise .chase 2).settle)
  ∧ (∀ v x, x = withBits (withBits v 9 9 1) 8 8 0 → s.taken w .chase 0x27 x (pkeyChk [] x) →
    exec (.pkeyErase w v) s
      = .next (s.nearDone .chase fun s => ((s.putPkey (bitsOf x 1 0) (List.replicate 8 0) false).logIt 0x018 noLane w.holder).raise .chase 2).settle)
  -- CEILING_WRITE: stored, and every grant on the lane lowered to it
  ∧ (∀ (i : Fin 3) v, s.taken w .chase (0x60 + 4 * n.val + i.val) v (ceilChk i.val v) →
    exec (.ceilingWrite w n i v) s = .next (s.nearDone .chase (ceilEff n (0x60 + 4 * n.val + i.val) v 0)).settle)
  -- GRANT_EXPIRY of a grant whose time is over: it ends, and with it every grant that follows it
  ∧ (∀ h g, s.grantOf h n.val = some g → g.over s.clock = true → exec (.grantExpiry h n) s = .next (s.endGrant h n).settle)
  -- CALENDAR_SECOND: a second passes
  ∧ (s.pwr.islandOn = true → exec .calendarSecond s = .next s.calSecond.settle)
  -- on the island's own clock, with no leap second due, it advances by one and stops at the end of 2399
  ∧ (s.pwr.islandOn = true → s.calSource = srcIsland →
    ∃ t : State, exec .calendarSecond s = .next t.settle ∧ t.chase.islandSec = min (s.chase.islandSec + 1) lastSec)
  -- CAL_SET with a date and time that are possible, while PTP is not the source: the island's clock takes them
  ∧ (s.taken w .cal 0x15 1 (calChk 0x15 1 (s.staged .cal 0x15 1)) →
    ∃ t : State, exec (.calSet w) s = .next t.settle ∧ t.chase.islandSet = true
      ∧ t.chase.islandSec = secOf (s.wd (CAL.SET_DATE.addr 0 0)) (s.wd (CAL.SET_TIME.addr 0 0)))

/-- R472 to R476: the colophon log. -/
def Obligations.LogRowsComplete : Prop :=
  ∀ (s : State) (w : Writer) (k : SessId),
  -- LOG_ENTRY of a defined code is offered to its region
  (∀ (code : BitVec 12) (lane origin : Byte) detail, s.chaseUp = true → logCode code.toNat = true →
    exec (.logEntry code lane origin detail) s = .next (s.logWith code.toNat lane.toNat origin.toNat detail).settle)
  -- TOKEN_REFILL each 50 ms: one token more, 1,200 at most
  ∧ (s.chaseUp = true → s.log.bucketAt + 50 * msTicks ≤ s.clock →
    exec .tokenRefill s = .next (State.put (s.upLog fun l => { l with bucketAt := l.bucketAt + 50 * msTicks }) LOG.BUCKET 0
        (min (s.g LOG.BUCKET 0 + 1) 1200)).settle)
  -- LOG_ERASE_START, LOG_ERASE_COMPLETE
  ∧ (s.chaseUp = true → s.on LOG.STAT_WEAR_DUE 0 = true → exec .logEraseStart s = .next (s.put LOG.STAT_ERASING 0 1).settle)
  ∧ (s.chaseUp = true → s.on LOG.STAT_ERASING 0 = true → s.log.buffer = [] →
    ∃ t : State, exec .logEraseComplete s = .next t.settle ∧ t.g LOG.STAT_ERASING 0 = 0 ∧ t.g LOG.STAT_WEAR_DUE 0 = 0
      ∧ t.log.ahead = s.log.ahead + 1 ∧ t.log.general = s.log.general ∧ t.log.fault = s.log.fault ∧ t.g MOD.BG_LOG_WEAR 0 = 0)
  -- WEAR_NOTICE once the erase has been due for 4 s: MOD.BG and WEAR_DUE's event
  ∧ (s.chaseUp = true → s.on LOG.STAT_WEAR_DUE 0 = true → s.log.dueAt + 4000 * msTicks ≤ s.clock → s.on MOD.BG_LOG_WEAR 0 = false →
    exec .wearNotice s = .next ((s.bgLog true).raise .log 4).settle)
  -- WEAR_GRANT: the erase runs unsuspended
  ∧ (s.on LOG.STAT_WEAR_DUE 0 = true → s.taken w .log 0x11 0x10 (logChk w 0x11 0x10 (s.staged .log 0x11 0x10)) →
    exec (.wearGrant w) s = .next (s.nearDone .log fun s => s.eraseRuns true).settle)
  -- WEAR_FORCED after 5 s due: it does so by itself, and WEAR_PREEMPTS counts it
  ∧ (s.chaseUp = true → s.on LOG.STAT_WEAR_DUE 0 = true → s.log.dueAt + 5000 * msTicks ≤ s.clock → s.log.granted = false →
    ∃ t : State, exec .wearForced s = .next t.settle ∧ t.log.granted = true ∧ t.log.preempted = true ∧ t.g LOG.STAT_ERASING 0 = 1
      ∧ t.g LOG.WEAR_PREEMPTS 0 = min (s.g LOG.WEAR_PREEMPTS 0 + 1) 0xFFFFFFFF)
  -- CLEAR_FAULT and CLEAR_GENERAL with the key 0x5AA5; the flash is held for at most 4 s
  ∧ (∀ (key : BitVec 16) v, v = BitVec.ofNat 32 (key.toNat * 65536 + 1) → s.taken w .log 0x11 v (logChk w 0x11 v (s.staged .log 0x11 v)) →
    ∃ t : State, exec (.clearFault w key) s = .next t.settle ∧ t.log.fault = [] ∧ t.g LOG.STAT_FAULT_COUNT 0 = 0 ∧ t.g LOG.STAT_FAULT_FULL 0 = 0
      ∧ t.log.clearTo ≤ s.clock + 4000 * msTicks)
  ∧ (∀ (key : BitVec 16) v, v = BitVec.ofNat 32 (key.toNat * 65536 + 2) → s.taken w .log 0x11 v (logChk w 0x11 v (s.staged .log 0x11 v)) →
      s.log.buffer = [] →
    ∃ t : State, exec (.clearGeneral w key) s = .next t.settle ∧ t.log.general = [] ∧ t.log.fault = s.log.fault
      ∧ t.g LOG.STAT_GEN_FULL 0 = 0 ∧ t.g LOG.STAT_ERASING 0 = 0)
  -- LOG_FETCH: a session's read of one index starts
  ∧ (∀ v, s.taken (.host k) .log 0x22 v (logChk (.host k) 0x22 v (s.staged .log 0x22 v)) →
    exec (.logFetch k v) s
      = .next (s.nearDone .log fun s => s.upRead k fun r => { r with lo := v, fetching := true, ready := false, gone := false }).settle)
  -- LOG_FETCH_COMPLETE: READY with the sixteen words, or GONE
  ∧ (∀ e, (s.logRead k).fetching = true → s.chaseUp = true →
      s.logFind (s.logRead k).fault ((s.logRead k).hi.toNat * 2 ^ 32 + (s.logRead k).lo.toNat) = some e →
    exec (.logFetchComplete k) s = .next (s.upRead k fun r => { r with fetching := false, ready := true, entry := e.words }).settle)
  ∧ ((s.logRead k).fetching = true → s.chaseUp = true →
      s.logFind (s.logRead k).fault ((s.logRead k).hi.toNat * 2 ^ 32 + (s.logRead k).lo.toNat) = none →
    exec (.logFetchComplete k) s = .next (s.upRead k fun r => { r with fetching := false, gone := true }).settle)

/-! ### The two-wire ports, returns and the thermal supervisor (spec/19_two_wire_ports.md, spec/22_field_failures_and_returns.md,
spec/23_characteristics.md) -/

/-- R478 to R482, R485 to R493: the side-band commands that end at once, each with its answer; `u` is the state once the command has been
taken. -/
def Obligations.SideBandRowsComplete : Prop :=
  ∀ (s u : State), s.sbFree →
  -- SB_NOP, SB_STATUS
  (u = s.sbTake 0x00 0 0 → exec (.sbNop 0 0) s = .next (u.sbReply (rcOk, 0)).settle)
  ∧ (∀ p arg, p.toNat ≤ 5 → u = s.sbTake 0x01 p arg → exec (.sbStatus p arg) s = .next (u.sbReply (rcOk, u.sbStatus p.toNat)).settle)
  -- SB_WAKE: a DORMANT module wakes with cause 6; elsewhere it changes nothing
  ∧ (u = s.sbTake 0x02 0 0 → u.pwr.mode = .dormant →
    exec (.sbWake 0 0) s = .next ((u.wakeDormant 1 0 0 6).sbReply (rcOk, 0)).settle)
  ∧ (u = s.sbTake 0x02 0 0 → u.pwr.mode ≠ .dormant → exec (.sbWake 0 0) s = .next (u.sbReply (rcOk, 0)).settle)
  -- SB_RING of sources 992 to 1,023, while Chase runs
  ∧ (∀ arg : BitVec 16, 992 ≤ arg.toNat → arg.toNat ≤ 1023 → u = s.sbTake 0x03 0 arg → inR u = true →
    exec (.sbRing 0 arg) s = .next ((u.ring arg.toNat).sbReply (rcOk, 0)).settle)
  -- SB_FORME_RESET: whatever a transaction had started is given up, with nothing pressed (R108)
  ∧ (u = s.sbTake 0x04 0 0x5AA5 → u.awake = true →
    exec (.sbFormeReset 0 0x5AA5) s = .next ((u.planeReset 0x30).sbReply (rcOk, 0)).settle ∧ (u.planeReset 0x30).forme.started = none)
  -- SB_CAL_READ: P 0 takes the snapshot that every part is read from
  ∧ (∀ arg t, u = s.sbTake 0x05 0 arg →
      t = { u with sb := { u.sb with snapDate := u.wd (CAL.DATE.addr 0 0), snapTime := u.wd (CAL.TIME.addr 0 0), snapStat := u.wd (CAL.STAT_SET.addr 0 0) } } →
    exec (.sbCalRead 0 arg) s = .next (State.sbReply t (rcOk, bitsOf (u.wd (CAL.DATE.addr 0 0)) 31 16)).settle)
  ∧ (∀ p arg, p ≠ 0 → p.toNat ≤ 3 → u = s.sbTake 0x05 p arg →
    exec (.sbCalRead p arg) s = .next (u.sbReply (rcOk, u.sb.calPart p.toNat)).settle)
  -- SB_ALERT_CLEAR: the causes named are pending no more
  ∧ (∀ arg : BitVec 16, arg.toNat < 32 → u = s.sbTake 0x08 0 arg →
    exec (.sbAlertClear 0 arg) s
      = .next (State.sbReply (u.put SB.STAT_PENDING 0 (u.g SB.STAT_PENDING 0 &&& (31 - arg.toNat))) (rcOk, 0)).settle)
  -- SB_SET_CFG
  ∧ (∀ p arg, p.toNat ≤ 31 → cfgArgOk arg = true → u = s.sbTake 0x09 p arg →
    exec (.sbSetCfg p arg) s
      = .next (State.sbReply (u.setWd (SB.CFG_SLEEP.addr 0 0) (BitVec.ofNat 32 (p.toNat * 65536 + arg.toNat))) (rcOk, 0)).settle)
  -- SB_DATA_WR and SB_DATA_RD: two bytes, the first at the even place; SB_BUF_CLEAR
  ∧ (∀ (p : Byte) (arg : BitVec 16), p.toNat ≤ 127 → u = s.sbTake 0x10 p arg →
    ∃ t : State, exec (.sbDataWr p arg) s = .next (t.sbReply (rcOk, 0)).settle ∧ t.sb.inBuf[2 * p.toNat]? = some (BitVec.ofNat 8 (arg.toNat / 256))
      ∧ t.sb.inBuf[2 * p.toNat + 1]? = some (BitVec.ofNat 8 arg.toNat) ∧ t.sb.outBuf = u.sb.outBuf ∧ t.lanes = u.lanes
      ∧ (∀ j, j ≠ 2 * p.toNat → j ≠ 2 * p.toNat + 1 → t.sb.inBuf[j]? = u.sb.inBuf[j]?))
  ∧ (∀ (p : Byte) arg, p.toNat ≤ 127 → u = s.sbTake 0x11 p arg →
    exec (.sbDataRd p arg) s = .next (u.sbReply (rcOk, beNat ((u.sb.outBuf.toList.drop (2 * p.toNat)).take 2))).settle)
  ∧ (u = s.sbTake 0x12 0 0 →
    exec (.sbBufClear 0 0) s
      = .next (State.sbReply { u with sb := { u.sb with inBuf := Vector.replicate 256 0, outBuf := Vector.replicate 256 0 } } (rcOk, 0)).settle)
  -- SB_UNKNOWN_COMMAND: taken, and answered UNKNOWN
  ∧ (∀ (op p : Byte) arg, (sbOps.find? fun e => e.1 == op.toNat) = none → u = s.sbTake op.toNat p arg →
    exec (.sbUnknownCommand op p arg) s = .next (u.sbReply (rcUnknown, 0)).settle)
  -- SB_PEC, SB_BUS_TIMEOUT, SB_STRETCH_ABORT: counted, with their events
  ∧ (∀ word pec, s.pecDiscards word pec = true → exec (.sbPec word pec) s = .next ((s.bump SB.PEC_ERRS 0).sbRaise 2).settle)
  ∧ exec .sbBusTimeout s = .next ((s.bump SB.TIMEOUTS 0).sbRaise 1).settle
  ∧ exec .sbStretchAbort s = .next ((s.bump SB.STRETCH_ABORTS 0).sbRaise 3).settle
  -- SB_SLEEP after 100 ms without a match while the island runs alone, and SB_ADDRESS_WAKE of a sleeping front end with SLEEP 1: its first
  -- transaction is NAKed
  ∧ (s.awake = false → s.sb.awakeFrom + 100 * 200000 ≤ s.clock → exec .sbSleep s = .next (s.put SB.STAT_AWAKE 0 0).settle)
  ∧ (∀ t, t = s.put SB.STAT_AWAKE 0 0 → t.on SB.STAT_AWAKE 0 = false → t.on SB.CFG_SLEEP 0 = true →
    exec .sbAddressWake t = .next (State.bump { (t.put SB.STAT_AWAKE 0 1) with sb := { t.sb with awakeFrom := t.clock, nakAt := some t.clock } }
      SB.WAKE_NAKS 0).sbMet.settle)
  -- ALERT_SET
  ∧ (∀ w v, bitAt v 4 = true → s.taken w .sb 0x12 v none → exec (.alertSet w v) s = .next (s.nearDone .sb fun s => s.alert 4).settle)

/-- R482 to R484, R486, R487, R492, R514 to R522: the side-band commands that answer BUSY first, the lockouts, and what a return does. -/
def Obligations.SideBandSlowAndReturnRowsComplete : Prop :=
  ∀ (s u : State), s.sbFree →
  -- SB_SHELF_READ and SB_LOG_READ: the entry's 64 bytes in the out-buffer, or GONE
  (∀ (p : Byte) arg e, p.toNat ≤ 63 → u = s.sbTake 0x06 p arg → u.pwr.shelf[p.toNat]? = some e →
    exec (.sbShelfRead p arg) s = .next ((u.sbLoad (wordBytes e.entry.words)).sbLater (rcOk, 64)).settle)
  ∧ (∀ (p : Byte) arg e, p.toNat ≤ 1 → u = s.sbTake 0x07 p arg → u.logFind (p == 1) (beNat (u.sbIn 0 8)) = some e →
    exec (.sbLogRead p arg) s = .next ((u.sbLoad (wordBytes e.words)).sbLater (rcOk, 64)).settle)
  ∧ (∀ (p : Byte) arg, p.toNat ≤ 1 → u = s.sbTake 0x07 p arg → u.logFind (p == 1) (beNat (u.sbIn 0 8)) = none →
    exec (.sbLogRead p arg) s = .next (u.sbLater (rcGone, 0)).settle)
  -- SB_CHALLENGE
  ∧ (u = s.sbTake 0x20 0 0 → inR u = true →
    exec (.sbChallenge 0 0) s = .next ((u.sbLoad (beBytes 32 u.chase.sbChallenge.toNat)).sbLater (rcOk, 0)).settle)
  -- SB_STEWARD_KEY_INSTALL with no key there, or under a proof by the one that is; SB_STEWARD_KEY_ERASE under a proof
  ∧ (∀ arg, u = s.sbTake 0x21 0 arg → inR u = true → u.chase.steward.locked = false → (u.session 0).key = none →
    ∃ t : State, exec (.sbStewardKeyInstall arg) s = .next (t.sbLater (rcOk, 0)).settle
      ∧ (t.session 0).key = some (BitVec.ofNat 256 (beNat (u.sbIn 0 32))) ∧ t.chase.steward = Tries.reset)
  ∧ (∀ arg k, u = s.sbTake 0x21 0 arg → inR u = true → u.chase.steward.locked = false → (u.session 0).key = some k →
      hmacSha256 (beBytes 32 k.toNat) (beBytes 32 u.chase.sbChallenge.toNat ++ u.sbIn 0 32 ++ [0]) = u.sbIn 32 32 →
    ∃ t : State, exec (.sbStewardKeyInstall arg) s = .next (t.sbLater (rcOk, 0)).settle
      ∧ (t.session 0).key = some (BitVec.ofNat 256 (beNat (u.sbIn 0 32))) ∧ t.chase.steward = Tries.reset)
  ∧ (∀ arg k, u = s.sbTake 0x21 1 arg → inR u = true → u.chase.steward.locked = false → (u.session 0).key = some k →
      (u.sbIn 0 32).all (fun b => b == 0) = true →
      hmacSha256 (beBytes 32 k.toNat) (beBytes 32 u.chase.sbChallenge.toNat ++ u.sbIn 0 32 ++ [1]) = u.sbIn 32 32 →
    ∃ t : State, exec (.sbStewardKeyErase arg) s = .next (t.sbLater (rcOk, 0)).settle ∧ (t.session 0).key = none
      ∧ t.chase.steward = Tries.reset)
  -- a proof that does not verify: AUTH, and the key stays
  ∧ (∀ arg k, u = s.sbTake 0x21 0 arg → inR u = true → u.chase.steward.locked = false → (u.session 0).key = some k →
      hmacSha256 (beBytes 32 k.toNat) (beBytes 32 u.chase.sbChallenge.toNat ++ u.sbIn 0 32 ++ [0]) ≠ u.sbIn 32 32 →
    ∃ t : State, exec (.sbStewardKeyInstall arg) s = .next (t.sbLater (rcAuth, 0)).settle ∧ (t.session 0).key = some k
      ∧ t.chase.steward = ⟨u.chase.steward.fails + 1, decide (3 ≤ u.chase.steward.fails + 1), u.clock⟩)
  -- SB_IMAGE_BEGIN, SB_IMAGE_CHUNK, SB_IMAGE_END after a boot that found no image
  ∧ (∀ (p : Byte) arg, p.toNat ≤ 1 → u = s.sbTake 0x30 p arg → inNoImage u = true →
    ∃ t : State, exec (.sbImageBegin p arg) s = .next (t.sbLater (rcOk, 0)).settle ∧ t.sb.load = some (p == 1, [])
      ∧ t.slot (p == 1) = badSlot)
  ∧ (∀ (p : Byte) (arg : BitVec 16) b m, arg.toNat ≤ 4095 → u = s.sbTake 0x31 p arg → inNoImage u = true → u.sb.load = some (b, m) →
    exec (.sbImageChunk p arg true) s
      = .next (State.sbLater { u with sb := { u.sb with load := some (b, Memory.putBytes m (256 * arg.toNat) (u.sbIn 0 256)) } } (rcOk, 0)).settle)
  ∧ (∀ b m, u = s.sbTake 0x32 0 0 → inNoImage u = true → u.sb.load = some (b, m) → imgFormatOk (loadedImage m) = true →
      u.g MOD.BOOT_ROLLBACK 0 ≤ imgRollback (loadedImage m) →
    exec (.sbImageEnd 0 0) s
      = .next (if imgSigned (loadedImage m) then ((u.putSlot b (imgSlot (loadedImage m))).sbLater (rcOk, 0)).settle
          else (u.sbLater (rcVerify, 0)).settle))
  -- SB_PREPARE_RETURN: the log is frozen, and the record stands in the out-buffer
  ∧ (u = s.sbTake 0x40 0 0x5AA5 → inR u = true → u.on LOG.STAT_FROZEN 0 = false →
    ∃ t : State, exec (.sbPrepareReturn 0 0x5AA5) s = .next (t.sbLater (rcOk, 0x100)).settle ∧ t.g LOG.STAT_FROZEN 0 = 1
      ∧ t.g MOD.RETURN_FROZEN 0 = 1 ∧ t.g MOD.RETURN_RECORD_VALID 0 = 1)
  -- SB_WORKS_TOKEN: one that is accepted (its signature verifies under the key in ROM) erases keys, sessions and programs in that order,
  -- then WORKS; another one is answered AUTH
  ∧ (u = s.sbTake 0x41 0 0 → inR u = true → u.chase.works.locked = false →
    exec (.sbWorksToken 0 0 none) s
      = .next (if u.tokenOk (u.sbIn 0 128) then
          ((((State.upChase u.newSbChallenge fun c => { c with works := Tries.reset, worksDue := true }).worksErase 3).worksEntered).sbLater
            (rcOk, 0)).settle
          else (State.sbLater ((u.logIt 0x063 noLane 0x30).upChase fun c =>
            { c with works := ⟨u.chase.works.fails + 1, decide (3 ≤ u.chase.works.fails + 1), u.clock⟩ }) (rcAuth, 0)).settle))
  -- SB_COMMAND_COMPLETE
  ∧ (∀ t rsp, t = { s with sb := { s.sb with busy := some rsp } } → exec .sbCommandComplete t = .next (State.sbFinish t rsp).settle)
  -- STEWARD_LOCKOUT_END, WORKS_LOCKOUT_END, 10 s after the third failure
  ∧ (s.chase.steward.locked = true → s.chase.steward.at_ + lockoutTicks ≤ s.clock →
    exec .stewardLockoutEnd s = .next (s.upChase fun c => { c with steward := Tries.reset }).settle)
  ∧ (s.chase.works.locked = true → s.chase.works.at_ + lockoutTicks ≤ s.clock →
    exec .worksLockoutEnd s = .next (s.upChase fun c => { c with works := Tries.reset }).settle)
  -- WORKS_ERASE_RESUME at boot, and WORKS_EXIT
  ∧ (s.awake = true → s.g MOD.BOOT_STAGE 0 = stageInit → s.chase.worksDue = true →
    exec .worksEraseResume s = .next ((s.worksErase 3).worksEntered).settle)
  ∧ (s.chaseUp = true → s.on MOD.RETURN_WORKS 0 = true →
    ∃ t : State, exec .worksExit s = .next t.settle ∧ t.g MOD.RETURN_WORKS 0 = 0 ∧ t.g MOD.RETURN_FROZEN 0 = 0 ∧ t.g LOG.STAT_FROZEN 0 = 0
      ∧ t.g MOD.RETURN_RECORD_VALID 0 = 0)

/-- R35, R494 to R499: the fixture controller's operations and the end of an attempt. -/
def Obligations.FixtureRowsComplete : Prop :=
  ∀ (s : State) (w : Writer),
  -- a GO of any of the five operations, within its ranges, its fixture present and its attempts inside the budget: BUSY
  (∀ (op : Nat) v, bitsOf v 26 24 = op → bitAt v 31 = true → s.taken w .fix 0x11 v (fixChk 0x11 v (s.staged .fix 0x11 v)) → fixChk 0x11 v s = none →
    (op = 1 → exec (.fixRead w v) s
        = .next (s.nearDone .fix fun s => (s.fixWorst 1 (bitsOf v 23 16 + 1)).fixStart ⟨1, bitsOf v 23 16 + 1, bitsOf v 15 0, false, 0⟩).settle)
    ∧ (op = 2 → exec (.fixWrite w v) s
        = .next (s.nearDone .fix fun s => (s.fixWorst 2 (bitsOf v 23 16 + 1)).fixStart ⟨2, bitsOf v 23 16 + 1, bitsOf v 15 0, false, 0⟩).settle)
    ∧ (op = 3 → exec (.fixProbe w v) s
        = .next (s.nearDone .fix fun s => (s.fixWorst 3 (bitsOf v 23 16 + 1)).fixStart ⟨3, bitsOf v 23 16 + 1, bitsOf v 15 0, false, 0⟩).settle)
    ∧ (op = 4 → exec (.fixBusClear w v) s
        = .next (s.nearDone .fix fun s => (s.fixWorst 4 (bitsOf v 23 16 + 1)).fixStart ⟨4, bitsOf v 23 16 + 1, bitsOf v 15 0, false, 0⟩).settle)
    ∧ (op = 5 → exec (.fixReadRecord w v) s
        = .next (s.nearDone .fix fun s => (s.fixWorst 5 (bitsOf v 23 16 + 1)).fixStart ⟨5, bitsOf v 23 16 + 1, bitsOf v 15 0, false, 0⟩).settle))
  -- FIX_ATTEMPT_END of a good READ, with every byte in DATA
  ∧ (∀ x bs c t, s.awake = true → s.fix.busy = some x → x.op = 1 → x.count = bs.length →
      t = (s.bump FIX.BUS_CLEARS 0 0 c).put FIX.STAT_ATTEMPTS 0 (min (s.g FIX.STAT_ATTEMPTS 0 + 1) 255) → t.on MOD.SUPPLY_FX_FAULT 0 = false →
    exec (.fixAttemptEnd (.good bs c)) s = .next ((t.fixStore 0x40 bs).fixDone fxOk).settle)
  -- a NAK is counted, and the attempt is made again while RETRY allows it
  ∧ (∀ x c t, s.awake = true → s.fix.busy = some x → x.op ≠ 4 →
      t = (s.bump FIX.BUS_CLEARS 0 0 c).put FIX.STAT_ATTEMPTS 0 (min (s.g FIX.STAT_ATTEMPTS 0 + 1) 255) → t.on MOD.SUPPLY_FX_FAULT 0 = false →
    exec (.fixAttemptEnd (.nakAddr c)) s = .next ((t.bump FIX.NAKS 0).fixFail fxNakAddr).settle)
  -- a bus that stays stuck, and a fixture that is gone
  ∧ (∀ x c t, s.awake = true → s.fix.busy = some x →
      t = (s.bump FIX.BUS_CLEARS 0 0 c).put FIX.STAT_ATTEMPTS 0 (min (s.g FIX.STAT_ATTEMPTS 0 + 1) 255) → t.on MOD.SUPPLY_FX_FAULT 0 = false →
    exec (.fixAttemptEnd (.stuck c)) s = .next (((t.bump FIX.BUS_STUCKS 0).raise .fix 2).fixDone fxStuck).settle)
  -- FIX_DEADLINE, TIMEOUT_MS after the GO: the operation is LOWER_ABORTED; an attempt that ended good at that very time is counted and discarded
  ∧ (∀ x, s.awake = true → s.fix.busy = some x → x.at_ + s.g FIX.TIMEOUT_MS 0 * msTicks ≤ s.clock →
    exec (.fixDeadline false) s = .next ((s.bump FIX.LOWER_ABORTED 0).fixDone fxAborted).settle)
  ∧ (∀ x, s.awake = true → s.fix.busy = some x → x.at_ + s.g FIX.TIMEOUT_MS 0 * msTicks ≤ s.clock →
    exec (.fixDeadline true) s = .next (((s.bump FIX.LATE_DISCARD 0).bump FIX.LOWER_ABORTED 0).fixDone fxAborted).settle)

/-- R533 to R536: the thermal supervisor, and a far side's own sensor. -/
def Obligations.ThermalRowsComplete : Prop :=
  ∀ (s : State) (n : LaneId) (base die : BitVec 16) (t : State), t = s.thermShow base die →
  -- THERM_WARN above WARN_C, and its end 3 °C below
  (s.awake = true → s.warnAt < celsius base → t.on THERM.STAT_WARN 0 = false →
    exec (.thermWarn base die) s = .next ((t.put THERM.STAT_WARN 0 1).raise .therm 0).settle)
  ∧ (s.awake = true → celsius base < s.warnAt - 30 →
    exec (.thermWarnClear base die) s = .next (t.put THERM.STAT_WARN 0 0).settle)
  -- THERM_SHED above 70 °C or 115 °C: every far side that has power loses it, SHED, SHEDS, the record and the event
  ∧ (s.awake = true → (700 < celsius base ∨ 1150 < celsius die) → t.on THERM.STAT_SHED 0 = false →
    exec (.thermShed base die) s
      = .next ((((((t.forLanes allLanes fun n t => if t.farUp n then t.powerDown n 5 else t).shedRecord).put THERM.STAT_SHED 0 1).bump
          THERM.SHEDS 0).raise .therm 1)).settle)
  -- SHED_END: every far side is powered again, but not in QUIET
  ∧ (s.awake = true → s.on THERM.STAT_SHED 0 = true → celsius base < s.warnAt - 30 → celsius die < 1000 → t.pwr.mode = .quiet →
    exec (.shedEnd base die) s = .next ((t.put THERM.STAT_SHED 0 0).raise .therm 2).settle)
  ∧ (∀ v, v = t.put THERM.STAT_SHED 0 0 → s.awake = true → s.on THERM.STAT_SHED 0 = true → celsius base < s.warnAt - 30 → celsius die < 1000 →
      v.pwr.mode = .run →
    exec (.shedEnd base die) s
      = .next (State.raise (v.forLanes allLanes fun n v => if v.fitted n && !(v.lane n).link.farPowered then v.powerUp n else v) .therm 2).settle)
  -- FAR_SIDE_OVERTEMP above 110 °C cuts the lane's rails as a converter trip does; FAR_SIDE_COOLED below 95 °C
  ∧ (s.farUp n = true → 1100 < celsius die → (s.p THERM.FAR 0 n.val die.toNat).isHot n = false →
      ((s.p THERM.FAR 0 n.val die.toNat).setHot n true).on LANE.ISO_TRIPPED n = false →
    exec (.farSideOvertemp n die) s = .next ((((s.p THERM.FAR 0 n.val die.toNat).setHot n true).converterTrip n)).settle)
  ∧ (s.farUp n = true → s.isHot n = true → celsius die < 950 →
    exec (.farSideCooled n die) s = .next (((s.p THERM.FAR 0 n.val die.toNat).setHot n false)).settle)

/-! ### The machine: the queue, its tick, what settles, reset -/

/-- A step takes the command at the front of the queue and runs it on the state with the queue's rest. -/
def Obligations.StepRunsFrontCommand : Prop :=
  ∀ (c : Instr) (rest : List Instr) (s : State), s.pending = c :: rest → step s = exec c { s with pending := rest }

/-- The model's choice (log 1): with no command waiting, a step is one 5 ns tick of the system clock in RUN and QUIET, with the registration
time that R178 counts in it; held in reset and in DORMANT the model's clock alone goes on, and in OFF nothing happens but what settles. -/
def Obligations.EmptyQueueTicks : Prop :=
  ∀ s : State, s.pending = [] →
  (s.awake = true → step s = .next s.oneTick.settle ∧ (s.ticks 1).clock = s.clock + 1
    ∧ (s.rt64 / second = (s.ticks 1).rt64 / second → s.oneTick = (s.ticks 1).settleTime))
  ∧ (s.pwr.mode = .inReset ∨ s.pwr.mode = .dormant → step s = .next (State.settle { s with clock := s.clock + 1 }))
  ∧ (s.pwr.mode = .off → step s = .next s.settle)

/-- No word spells a command, whatever its width: the table gives no row any bits. -/
def Obligations.NoWordSpellsACommand : Prop :=
  ∀ (nbits w : Nat) (s : State), decodeTableWord nbits w = none ∧ s.withFetchWord nbits w = s

/-- Every command of the table answers a next state, in every state: none faults, none is refused. -/
def Obligations.EveryCommandAnswers : Prop := ∀ (c : Instr) (s : State), Answers (exec c s)

/-- R172, R173, R400, R417: after every step, from every state, no compositor stays in an IDLE that should end, and the FIRQ lines have
followed TOP. -/
def Obligations.EveryStepSettles : Prop := ∀ s t : State, step s = .next t → Settled t

/-- At reset everything has settled, no debug halt is due, and every lane's memory is in its canonical form. -/
def Obligations.ResetIsSettled : Prop := Settled State.reset ∧ Quiet State.reset ∧ MemoriesOk State.reset

/-- What settles after a command leaves everything else alone: with no debug halt due, run states leave IDLE, the FIRQ lines follow, and the
count of steps moves on by one. -/
def Obligations.SettleLeavesTheRestAlone : Prop :=
  ∀ s : State, Quiet s →
    ∃ lanes firqA firqB, s.settle = { s with lanes := lanes, evg := { s.evg with firqA := firqA, firqB := firqB }, stepNo := s.stepNo + 1 }
      ∧ ∀ n : LaneId, lanes[n] = { s.lane n with eng := { s.eng n with run := lanes[n].eng.run } }
        ∧ lanes[n].eng.run = (if (s.eng n).run = .idle ∧ ((s.top (3 + n.val)).isSome = true ∨ (s.asyncNow n).isSome = true) then .running
            else (s.eng n).run)

/-- Reset columns of spec/16_compositor.md, spec/17_traps_memory_dma.md, spec/18_chase_services.md, spec/19_two_wire_ports.md, with R142,
R390, R413, R415, R461 and R493: values that the spec gives for reset. -/
def Obligations.ResetHoldsTheSpecsValues : Prop :=
  State.reset.g LOG.BUCKET 0 = 0x4B0 ∧ State.reset.g CAL.WARN_DAYS 0 = 0x1E ∧ State.reset.g CAL.POLICY 0 = 0
  ∧ State.reset.wd (SB.CFG_SLEEP.addr 0 0) = 0x100 ∧ State.reset.sb.count = 0
  ∧ (∀ n : LaneId, State.reset.wd (CHASE.CEIL_VMAX.addr 0 n.val) = 0x447A0000 ∧ State.reset.wd (CHASE.CEIL_IMAX.addr 0 n.val) = 0x3B03126F
      ∧ State.reset.wd (CHASE.CEIL_EMAX.addr 0 n.val) = 0x41200000)
  ∧ (∀ n : LaneId, (State.reset.eng n).sp.tvec = 0x04000000 ∧ (State.reset.eng n).regs.cwp = (State.reset.eng n).regs.wold
      ∧ (State.reset.eng n).shelf = [] ∧ (State.reset.gal n).wcount = 0 ∧ (State.reset.gal n).rcount = 0)
  ∧ (∀ q : Fin 96, (State.reset.quoin q.val).holder = noHolder ∧ (State.reset.quoin q.val).broken = false)
  ∧ (∀ k : SessId, (State.reset.session k).isOpen = false) ∧ State.reset.grants = [] ∧ State.reset.pending = []

/-! ### Writes of words (spec/00_scope.md, spec/05_register_pages.md, spec/06_sessions_and_quoins.md) -/

/-- R1: on a TH8, every page of lanes 8 to 15 reads 0 in PG_ID; a single write to it changes nothing, and a WRITE transaction that touches
it answers ADDR and presses nothing. -/
def Obligations.AbsentLanePages : Prop :=
  ∀ (s : State) (n : LaneId) (kd : LaneKind), s.th8 = true → 8 ≤ n.val → s.pwr.softReset = false →
  (∀ k, s.readPage k (.lane n kd) 0 = 0)
  ∧ (∀ (w : Writer) off v, exec (.registerWrite w (.lane n kd) off v) s = .next s.settle)
  ∧ (∀ (h : Hdr) data dcrc a v, s.formeAnswers = true → s.forme.started = none → h.part = .whole →
      hdrCrc opWr h = h.hcrc.toNat → s.formeOpen opWr h = true → ((s.session h.session).isOpen && (s.session h.session).afterPlaneReset) = false → s.formeRetry opWr h = none →
      (a, v) ∈ writePairs h data → a / 256 = (Page.lane n kd).num → ∀ c : Instr, c = .write h data dcrc ∨ c = .writeScatter h data dcrc →
    ∃ t : State, exec c s = .next t.settle ∧ t.forme.status = 4 ∧ t.lanes = s.lanes ∧ t.evg = s.evg ∧ t.quoins = s.quoins
      ∧ (∀ b, b ≠ FORME.CFG_MODE_SEEN.addr 0 0 → t.wd b = s.wd b))

/-- R139: a WRITE that touches a page outside the session's rights answers RIGHTS, and presses nothing. -/
def Obligations.NoRightsNothingPressed : Prop :=
  ∀ (s : State) (h : Hdr) data dcrc a v, s.formeAnswers = true → s.pwr.softReset = false → s.forme.started = none →
    h.part = .whole → hdrCrc opWr h = h.hcrc.toNat → s.formeOpen opWr h = true → ((s.session h.session).isOpen && (s.session h.session).afterPlaneReset) = false → s.formeRetry opWr h = none →
    s.formeShape opWr h data = true → (a, v) ∈ writePairs h data → s.mayWrite h.session a = false →
  ∀ c : Instr, c = .write h data dcrc ∨ c = .writeScatter h data dcrc →
    ∃ t : State, exec c s = .next t.settle ∧ t.forme.status = 3 ∧ t.lanes = s.lanes ∧ t.evg = s.evg ∧ t.quoins = s.quoins ∧ t.imp = s.imp
      ∧ t.chase = s.chase ∧ t.log = s.log ∧ (∀ b, b ≠ FORME.CFG_MODE_SEEN.addr 0 0 → t.wd b = s.wd b)

/-- R120, R121: a refused word changes no register but PG_ERR, which names the code, the offset and the writer. -/
def Obligations.RefusedWordChangesNothing : Prop :=
  ∀ (s : State) (w : Writer) (p : Page) (off : Nat) (v : Word) (c : Nat), Machine.Page.hasHeader p = true → p ≠ .evg → off < 256 → c < 256 →
    s.writable w p off = true →
  (off = 0xA → s.judge w p off v (evSourceChk p v) = some c →
    ∃ t : State, exec (.evSource w p v) s = .next t.settle ∧ t.lanes = s.lanes ∧ t.quoins = s.quoins ∧ (∀ a, a ≠ p.at_ 0xB → t.wd a = s.wd a)
      ∧ bitsOf (t.hw p 0xB) 7 0 = c ∧ bitsOf (t.hw p 0xB) 15 8 = off ∧ bitAt (t.hw p 0xB) 16 = false ∧ bitsOf (t.hw p 0xB) 18 17 = w.code)
  ∧ (accMask p off .ctr ≠ 0 → s.judge w p off v (wordChk s w [] ⟨p, off, v⟩ (s.staged p off v)) = some c →
    ∃ t : State, exec (.counterClear w p off v 0) s = .next t.settle ∧ t.lanes = s.lanes ∧ t.quoins = s.quoins
      ∧ (∀ a, a ≠ p.at_ 0xB → t.wd a = s.wd a)
      ∧ bitsOf (t.hw p 0xB) 7 0 = c ∧ bitsOf (t.hw p 0xB) 15 8 = off ∧ bitAt (t.hw p 0xB) 16 = false ∧ bitsOf (t.hw p 0xB) 18 17 = w.code)

/-- R126: counters saturate at all ones; a counter that is written with anything but 0 is refused with RANGE, whatever else would have been
allowed. -/
def Obligations.CountersSaturate : Prop :=
  ∀ (s : State) (f : Fld) (n i k : Nat), f.lo ≤ f.hi → f.hi < 32 →
  (s.bump f n i k).g f n i = min (s.g f n i + k) (2 ^ f.width - 1)
  ∧ (s.g f n i = 2 ^ f.width - 1 → (s.bump f n i k).g f n i = 2 ^ f.width - 1)
  ∧ (∀ (w : Writer) (p : Page) (off : Nat) (v proof : Word), off < 256 → s.writable w p off = true → v &&& accMask p off .ctr ≠ 0 →
      s.restricted w p off = 0 → accMask p off .rwq = 0 → accMask p off .rws = 0 →
      wordChk s w [] ⟨p, off, v⟩ (s.staged p off v) ≠ some errRights →
    exec (.counterClear w p off v proof) s = .next (s.recordErr w p off errRange false).settle)

/-! ### Quoins and the gatherer -/

/-- R149: only the holder may GIVE or CLEAR_BROKEN; with CHECK_GEN the generation must agree; a GIVE frees the quoin and leaves BROKEN and
the generation as they are. The same operations serve the compositors' GIVEQ and CLRQ. -/
def Obligations.GiveAndClearRules : Prop :=
  ∀ (s : State) (q : Nat), q < 96 → s.quoinAbsent q = false →
  (∀ (w : Writer) (op : Nat) (v x : Word) (c : Instr), (op, c) ∈ ([(2, .give w v), (3, .clearBroken w v)] : List (Nat × Instr)) →
      x = withBits v 11 8 op → bitsOf x 7 0 = q → s.taken w .quoin 0x10 x (quoinOpChk x) →
    ((s.quoin q).holder ≠ w.holder →
      ∃ t : State, exec c s = .next t.settle ∧ t.quoins = s.quoins ∧ t.lanes = s.lanes
        ∧ ∀ k, w = .host k → (t.session k).result = BitVec.ofNat 32 ((s.quoin q).gen * 65536 + q * 256 + qNotHolder))
    ∧ ((s.quoin q).holder = w.holder → bitAt x 13 = true → bitsOf x 31 16 ≠ (s.quoin q).gen →
      ∃ t : State, exec c s = .next t.settle ∧ t.quoins = s.quoins ∧ t.lanes = s.lanes
        ∧ ∀ k, w = .host k → (t.session k).result = BitVec.ofNat 32 ((s.quoin q).gen * 65536 + q * 256 + qGenMismatch))
    ∧ (op = 2 → (s.quoin q).holder = w.holder → bitAt x 13 = false ∨ bitsOf x 31 16 = (s.quoin q).gen →
      ∃ t : State, exec c s = .next t.settle ∧ (t.quoin q).broken = (s.quoin q).broken ∧ (t.quoin q).gen = (s.quoin q).gen
        ∧ ((∀ n : LaneId, (s.eng n).qwait = none) → (t.quoin q).holder = noHolder))
    ∧ (op = 3 → (s.quoin q).holder = w.holder → bitAt x 13 = false ∨ bitsOf x 31 16 = (s.quoin q).gen →
      ∃ t : State, exec c s = .next t.settle ∧ t.quoin q = { s.quoin q with broken := false }))
  ∧ (∀ (h : Nat) (gen : Option Nat),
    ((s.quoin q).holder ≠ h → s.giveQuoin h q gen = (qNotHolder, s) ∧ s.clearQuoin h q gen = (qNotHolder, s))
    ∧ ((s.quoin q).holder = h → gen.isSome = true → gen ≠ some (s.quoin q).gen →
      s.giveQuoin h q gen = (qGenMismatch, s) ∧ s.clearQuoin h q gen = (qGenMismatch, s))
    ∧ ((s.quoin q).holder = h → gen = none ∨ gen = some (s.quoin q).gen →
      (s.giveQuoin h q gen).1 = qGiven ∧ ((s.giveQuoin h q gen).2.quoin q).broken = (s.quoin q).broken
        ∧ ((s.giveQuoin h q gen).2.quoin q).gen = (s.quoin q).gen ∧ (s.clearQuoin h q gen).1 = qCleared))

/-- R164: what is deliverable, and TOP: the highest PRIO, among equals the earliest PENDING, among those the lowest number. The sources are
listed in rising order, which State.setSrc, the one operation that changes a source, keeps. -/
def Obligations.TopOfTheGatherer : Prop :=
  ∀ (s : State) (t : Nat), srising 0 s.evg.srcs = true →
  (∀ x : Src, s.deliverable t x = true ↔ x.st = .pending ∧ x.target = t ∧ s.g EVG.TCTL_THRESH 0 t ≤ x.prio
      ∧ ∀ e ∈ s.evg.srcs, e.2.st = .active → e.2.claimedAt = t → e.2.prio < x.prio)
  ∧ (s.top t = none ↔ ∀ e ∈ s.evg.srcs, s.deliverable t e.2 = false)
  ∧ (∀ i : Nat, s.top t = some i ↔ ∃ x, (i, x) ∈ s.evg.srcs ∧ s.deliverable t x = true
      ∧ ∀ e ∈ s.evg.srcs, s.deliverable t e.2 = true →
        e.2.prio < x.prio ∨ (e.2.prio = x.prio ∧ (x.since < e.2.since ∨ (x.since = e.2.since ∧ i ≤ e.1))))
  ∧ (∀ (i : Nat) (x : Src), srising 0 (s.setSrc i x).evg.srcs = true)

/-- R168: the steward's FORCE_DONE with DO completes the named source at the named target as that target's own DONE does; any other
writer's is refused with RIGHTS. -/
def Obligations.ForceDoneRule : Prop :=
  ∀ (s : State) (v : Word), bitAt v 31 = true →
  (s.taken (.host 0) .evg 0x15 v (forceDoneChk v) →
    exec (.forceDone (.host 0) v) s = .next (s.nearDone .evg fun s => s.complete (bitsOf v 20 16) (bitsOf v 9 0)).settle)
  ∧ (∀ (w : Writer) (b : Bool) (x : Word), bitAt x 31 = true → bitsOf x 9 0 = bitsOf v 9 0 → bitsOf v 20 16 = b2n b →
      s.taken w .evg (0x12 + 2 * b2n b) x none →
    exec (.done w b x) s = .next (s.nearDone .evg fun s => s.complete (bitsOf v 20 16) (bitsOf v 9 0)).settle)
  ∧ (∀ w : Writer, w.steward = false → s.writable w .evg 0x15 = true →
    exec (.forceDone w v) s = .next (s.recordErr w .evg 0x15 errRights false).settle)

/-! ### The compositor: registers, memory, traps -/

/-- R389: x0 reads 0 and discards writes, x1 to x7 are shared by every window, the other sixteen belong to one window each. -/
def Obligations.WindowedRegisters : Prop :=
  ∀ (r : EngRegs) (w w' c c' : Nat) (v : Word), w < 12 → w' < 12 → c < 24 → c' < 24 →
  r.rd w 0 = 0 ∧ r.wr w 0 v = r
  ∧ (0 < c → (r.wr w c v).rd w c = v)
  ∧ (0 < c → c < 8 → (r.wr w c v).rd w' c = v)
  ∧ (c' ≠ c → (r.wr w c v).rd w' c' = r.rd w' c')
  ∧ (8 ≤ c → w' ≠ w → (r.wr w c v).rd w' c' = r.rd w' c')
  ∧ (r.wr w c v).cwp = r.cwp ∧ (r.wr w c v).wold = r.wold

/-- R389, R395, R396: an operation on registers alone changes its destination and the PC, and nothing else: no other register, no special
register, no memory, no register of any page, no other lane. -/
def Obligations.RegisterOperationsFrame : Prop :=
  ∀ (s t : State) (n : LaneId) (rd rs1 rs2 sh : BitVec 5) (imm : BitVec 16) (c : Instr), s.engReady n = true → rd.toNat < 24 → rs1.toNat < 24 →
    rs2.toNat < 24 → (s.eng n).r rs2.toNat ≠ 0 → (s.eng n).regs.cwp < 12 → (s.eng n).stepReq = false → (∀ m : LaneId, (s.eng m).haltReq = false) →
    c ∈ ([.addR n rd rs1 rs2, .subR n rd rs1 rs2, .andR n rd rs1 rs2, .orR n rd rs1 rs2, .xorR n rd rs1 rs2, .sll n rd rs1 rs2, .srl n rd rs1 rs2,
      .sra n rd rs1 rs2, .slt n rd rs1 rs2, .sltu n rd rs1 rs2, .mul n rd rs1 rs2, .mulh n rd rs1 rs2, .mulhu n rd rs1 rs2, .div n rd rs1 rs2,
      .divu n rd rs1 rs2, .rem n rd rs1 rs2, .remu n rd rs1 rs2, .fadd n rd rs1 rs2, .fsub n rd rs1 rs2, .fmul n rd rs1 rs2, .fdiv n rd rs1 rs2,
      .fmin n rd rs1 rs2, .fmax n rd rs1 rs2, .feq n rd rs1 rs2, .flt n rd rs1 rs2, .fle n rd rs1 rs2, .slli n rd rs1 sh, .srli n rd rs1 sh,
      .srai n rd rs1 sh, .clz n rd rs1, .fcvtsw n rd rs1, .fcvtws n rd rs1, .fsqrt n rd rs1, .addi n rd rs1 imm, .andi n rd rs1 imm,
      .ori n rd rs1 imm, .xori n rd rs1 imm, .slti n rd rs1 imm, .sltiu n rd rs1 imm, .lui n rd imm] : List Instr) →
    exec c s = .next t →
  (t.eng n).pc = (s.eng n).pc + 4 ∧ (t.eng n).sp = (s.eng n).sp ∧ (t.eng n).regs.cwp = (s.eng n).regs.cwp ∧ (t.eng n).r 0 = 0
  ∧ (∀ k : Nat, k < 24 → k ≠ rd.toNat → (t.eng n).r k = (s.eng n).r k)
  ∧ (∀ (w k : Nat), w < 12 → w ≠ (s.eng n).regs.cwp → 8 ≤ k → k < 24 → (t.eng n).regs.rd w k = (s.eng n).regs.rd w k)
  ∧ t.regs = s.regs ∧ t.image = s.image ∧ t.quoins = s.quoins ∧ t.sess = s.sess ∧ t.log = s.log ∧ t.chase = s.chase
  ∧ (∀ m : LaneId, (t.lane m).mem = (s.lane m).mem) ∧ (∀ m : LaneId, m ≠ n → (t.eng m).regs = (s.eng m).regs ∧ (t.eng m).pc = (s.eng m).pc)

/-- R386: memory is byte-addressed and little-endian; a stored word reads back, bytes outside a store and every other lane's memory stay as
they were, and the canonical form is kept. -/
def Obligations.MemoryReadBack : Prop :=
  ∀ (s : State) (n : LaneId) (a : Nat) (v : Word) (bs : List Byte),
  (s.putWord n a v).memWord n a = v
  ∧ Memory.rd ((s.putWord n a v).lane n).mem a = v.extractLsb' 0 8 ∧ Memory.rd ((s.putWord n a v).lane n).mem (a + 3) = v.extractLsb' 24 8
  ∧ (∀ b, b < a ∨ a + bs.length ≤ b → Memory.rd ((s.putMem n a bs).lane n).mem b = Memory.rd (s.lane n).mem b)
  ∧ (∀ m : LaneId, m ≠ n → (s.putMem n a bs).lane m = s.lane m)
  ∧ (MemoriesOk s → MemoriesOk (s.putMem n a bs))

/-- R386, R396, R404: a byte or halfword store changes the bytes at its physical address and the PC; every other byte of every lane, and every
register, stays. -/
def Obligations.StoreFrame : Prop :=
  ∀ (s s1 t : State) (n : LaneId) (rs1 rs2 : BitVec 5) (imm : BitVec 16) (c : Instr) (k va pa : Nat), s.engReady n = true → rs1.toNat < 24 →
    rs2.toNat < 24 → (s.eng n).stepReq = false → (∀ m : LaneId, (s.eng m).haltReq = false) →
    (c, k) ∈ ([(.sh n rs2 rs1 imm, 2), (.sb n rs2 rs1 imm, 1), (.sw n rs2 rs1 imm, 4)] : List (Instr × Nat)) →
    va = s.effAddr n rs1.toNat imm → va % k = 0 → s.engXlate n va .store = (.ok pa, s1) → regionOf pa ≠ .regs → touchesGo pa k = false →
    exec c s = .next t →
  (∀ i, i < k → Memory.rd (t.lane n).mem (pa + i) = ((s.eng n).r rs2.toNat).extractLsb' (8 * i) 8)
  ∧ (∀ b, b < pa ∨ pa + k ≤ b → Memory.rd (t.lane n).mem b = Memory.rd (s.lane n).mem b)
  ∧ (∀ m : LaneId, m ≠ n → (t.lane m).mem = (s.lane m).mem) ∧ (∀ m : LaneId, (t.eng m).regs = (s.eng m).regs) ∧ t.regs = s.regs

/-- R415: what one trap entry does, and that a WRS of TVEC takes only multiples of 0x200 in the instruction SRAM. -/
def Obligations.TrapEntryRule : Prop :=
  ∀ (s : State) (n : LaneId) (x : TrapInfo) (e : Eng), e = s.eng n → e.qwait = none → e.regs.cwp < 12 →
  ((((s.takeTrap n x).eng n).sp.epsr = e.sp.psr ∧ ((s.takeTrap n x).eng n).sp.epc = x.epc ∧ ((s.takeTrap n x).eng n).sp.cause = x.cause
      ∧ ((s.takeTrap n x).eng n).sp.tval = x.tval ∧ ((s.takeTrap n x).eng n).sp.tinfo = x.tinfo)
    ∧ ((s.takeTrap n x).eng n).sp.psr = { ie := false, te := false, mon := true, trans := false, qw := false }
    ∧ ((s.takeTrap n x).eng n).regs.cwp = (e.regs.cwp + 1) % 12 ∧ ((s.takeTrap n x).eng n).regs.wold = e.regs.wold
    ∧ (∀ i, i < 4 → ((s.takeTrap n x).eng n).r (8 + i) = e.r (20 + i))
    ∧ (∀ w c, w < 12 → w ≠ (e.regs.cwp + 1) % 12 → c < 24 → ((s.takeTrap n x).eng n).regs.rd w c = e.regs.rd w c)
    ∧ ((s.takeTrap n x).eng n).pc = e.sp.tvec + BitVec.ofNat 32 (16 * x.cause)
    ∧ (∀ m : LaneId, m ≠ n → (s.takeTrap n x).lane m = s.lane m) ∧ ((s.takeTrap n x).lane n).mem = (s.lane n).mem)
  ∧ (∀ (rs1 : BitVec 5) (a : Word), s.engReady n = true → e.sp.psr.mon = true → rs1.toNat < 24 → a = e.r rs1.toNat →
    (a.toNat % 0x200 ≠ 0 ∨ a.toNat < 0x4000000 ∨ 0x4010000 ≤ a.toNat →
      exec (.wrs n 0x006 rs1) s = .next (s.illegal n (encI 0x32 0 rs1.toNat 0x006)).settle))

/-- R389, R415, R418: a program that executes TRAP and whose handler returns at once finds PSR, CWP and every register of its window as they
were, and goes on behind the TRAP. -/
def Obligations.TrapAndReturnRestore : Prop :=
  ∀ (s s1 s2 : State) (n : LaneId) (e : Eng) (imm : BitVec 16), e = s.eng n → s.engReady n = true → e.sp.psr.mon = false → e.sp.psr.te = true →
    e.regs.wres ≤ 11 → e.regs.cwp < 12 → e.regs.wold < 12 → e.stepReq = false → e.haltReq = false →
    exec (.trap n imm) s = .next s1 → s1.engReady n = true → s1.asyncFor n (s1.eng n).sp.epsr = none → exec (.rtt n) s1 = .next s2 →
  (s2.eng n).pc = e.pc + 4 ∧ (s2.eng n).sp.psr = e.sp.psr ∧ (s2.eng n).regs.cwp = e.regs.cwp ∧ (s2.eng n).regs.wold = e.regs.wold
  ∧ (∀ c, c < 24 → (s2.eng n).r c = e.r c)
  ∧ (∀ w c, w < 12 → w ≠ (e.regs.cwp + 1) % 12 → c < 24 → (s2.eng n).regs.rd w c = e.regs.rd w c)

/-- R410: BRK at user privilege with ATTACH halts with DEBUG behind it and raises BP_HIT; at monitor privilege, or with ATTACH 0, it is an
illegal instruction. -/
def Obligations.BreakInstructionRule : Prop :=
  ∀ (s : State) (n : LaneId), s.engReady n = true →
  ((s.eng n).sp.psr.mon = false → s.on ENG.DBG_ATTACH n = true →
    ∃ t : State, exec (.brk n) s = .next t.settle ∧ (t.eng n).run = .halted ∧ (t.eng n).haltCode = 1 ∧ (t.eng n).pc = (s.eng n).pc + 4
      ∧ bitAt (t.hw (.lane n .eng) 4) 1 = true ∧ (t.eng n).regs = (s.eng n).regs ∧ (t.eng n).sp = (s.eng n).sp)
  ∧ ((s.eng n).sp.psr.mon = true ∨ s.on ENG.DBG_ATTACH n = false →
    exec (.brk n) s
      = .next (((s.syncTrap n ⟨1, (s.eng n).pc, encR 0x30 0 0 0 6, 0⟩).afterInstr n (!(s.eng n).sp.psr.mon))).settle)

/-- R408: what follows an instruction: nothing at monitor privilege; at user privilege the next one is matched against the breakpoints again,
and a STEP halts with DEBUG. -/
def Obligations.CompositorStepEnds : Prop :=
  ∀ (s : State) (n : LaneId) (trap : Bool),
  s.afterInstr n false trap = s
  ∧ ((s.eng n).run = .halted → s.afterInstr n true trap = s)
  ∧ ((s.eng n).run ≠ .halted → (s.eng n).sp.psr.mon = true → s.afterInstr n true = s)
  ∧ ((s.eng n).run ≠ .halted → (s.eng n).sp.psr.mon = false → (s.eng n).stepReq = false →
    s.afterInstr n true trap = s.upEng n fun e => { e with bpSkip := false })
  ∧ ((s.eng n).run ≠ .halted → (s.eng n).sp.psr.mon = false → (s.eng n).stepReq = true →
    s.afterInstr n true = (s.upEng n fun e => { e with bpSkip := false }).debugHalt n true
      ∧ ((s.afterInstr n true).eng n).run = .halted ∧ ((s.afterInstr n true).eng n).haltCode = 1)

/-! ### The calendar -/

/-- R464, R465: on the Gregorian rules, from 2000 to 2399, every possible date and time is one second of the calendar, and every second is one
possible date and time. -/
def Obligations.CalendarRoundTrip : Prop :=
  (∀ d t : Word, dateOk d = true → timeOk t = true →
    secOf d t ≤ lastSec ∧ dateOf (secOf d t) = d ∧ timeOf (secOf d t) = mkTime (timeHour t) (timeMin t) (timeSec t))
  ∧ (∀ x : Nat, x ≤ lastSec → dateOk (dateOf x) = true ∧ timeOk (timeOf x) = true ∧ secOf (dateOf x) (timeOf x) = x)

/-- R470: the due date is the date some months on; its day is kept unless the month is shorter, and then it is that month's last day. -/
def Obligations.DueDates : Prop :=
  ∀ (d : Word) (k : Nat), dateOk d = true → dateYear (addMonths d k) ≤ 2399 → k ≤ 60 →
  dateOk (addMonths d k) = true
  ∧ dateYear (addMonths d k) * 12 + dateMonth (addMonths d k) = dateYear d * 12 + dateMonth d + k
  ∧ (dateDay d ≤ daysIn (dateYear (addMonths d k)) (dateMonth (addMonths d k)) → dateDay (addMonths d k) = dateDay d)
  ∧ (daysIn (dateYear (addMonths d k)) (dateMonth (addMonths d k)) < dateDay d →
    dateDay (addMonths d k) = daysIn (dateYear (addMonths d k)) (dateMonth (addMonths d k)))
end

