-- ==== Sys2Proof/Laws/Maps.lean ====
section
/-! SUPPORT. Sparse maps and memories: a read after a write, and the canonical form that every operation keeps. -/

namespace Sys2Proof.Machine

/-! ### Reading after writing -/

theorem sget_sput_same (d : Nat → β) (m : Sparse β) (k : Nat) (v : β) : sget d (sput m k v) k = v := by
  induction m with
  | nil => simp [sput, sget]
  | cons e r ih =>
    obtain ⟨a, w⟩ := e
    unfold sput
    split
    · simp [sget]
    · split
      · simp [sget]
      · rename_i _ hne
        simp only [sget, if_neg hne, ih]

theorem sget_sput_ne (d : Nat → β) (m : Sparse β) {k j : Nat} (v : β) (h : j ≠ k) : sget d (sput m k v) j = sget d m j := by
  have hb : (j == k) = false := by simpa using h
  induction m with
  | nil => simp [sput, sget, hb]
  | cons e r ih =>
    obtain ⟨a, w⟩ := e
    unfold sput
    split
    · simp [sget, hb]
    · split
      · rename_i _ he
        have : k = a := by simpa using he
        subst this
        simp [sget, hb]
      · simp only [sget, ih]

theorem sget_sdel_same (d : Nat → β) (m : Sparse β) (k : Nat) : sget d (sdel m k) k = d k := by
  induction m with
  | nil => rfl
  | cons e r ih =>
    obtain ⟨a, w⟩ := e
    by_cases h : a = k
    · subst h; simpa [sdel] using ih
    · have hb : (k == a) = false := by simpa using Ne.symm h
      simpa [sdel, sget, h, hb] using ih

theorem sget_sdel_ne (d : Nat → β) (m : Sparse β) {k j : Nat} (h : j ≠ k) : sget d (sdel m k) j = sget d m j := by
  induction m with
  | nil => rfl
  | cons e r ih =>
    obtain ⟨a, w⟩ := e
    by_cases ha : a = k
    · subst ha
      have hb : (j == a) = false := by simpa using h
      simpa [sdel, sget, hb] using ih
    · have hr : sdel ((a, w) :: r) k = (a, w) :: sdel r k := by simp [sdel, ha]
      rw [hr]
      simp only [sget, ih]

@[simp] theorem sget_sset_same [DecidableEq β] (d : Nat → β) (m : Sparse β) (k : Nat) (v : β) : sget d (sset d m k v) k = v := by
  unfold sset
  split
  · rename_i h; rw [sget_sdel_same, h]
  · exact sget_sput_same d m k v

theorem sget_sset_ne [DecidableEq β] (d : Nat → β) (m : Sparse β) {k j : Nat} (v : β) (h : j ≠ k) : sget d (sset d m k v) j = sget d m j := by
  unfold sset
  split
  · exact sget_sdel_ne d m h
  · exact sget_sput_ne d m v h

theorem sget_sset [DecidableEq β] (d : Nat → β) (m : Sparse β) (k j : Nat) (v : β) :
    sget d (sset d m k v) j = if j = k then v else sget d m j := by
  split
  · rename_i h; rw [h, sget_sset_same]
  · rename_i h; exact sget_sset_ne d m v h

@[simp] theorem sget_nil (d : Nat → β) (k : Nat) : sget d [] k = d k := rfl

/-! ### The canonical form -/

theorem srising_lower {lo : Nat} {m : Sparse β} (h : srising (lo + 1) m = true) : srising lo m = true := by
  cases m with
  | nil => rfl
  | cons e r =>
    simp only [srising, Bool.and_eq_true, decide_eq_true_eq] at h ⊢
    exact ⟨Nat.le_of_succ_le h.1, h.2⟩

theorem srising_le {lo hi : Nat} {m : Sparse β} (hle : lo ≤ hi) (h : srising hi m = true) : srising lo m = true := by
  induction hi with
  | zero => rwa [Nat.le_zero.mp hle]
  | succ k ih =>
    rcases Nat.lt_or_ge lo (k + 1) with hl | hg
    · exact ih (Nat.le_of_lt_succ hl) (srising_lower h)
    · rwa [Nat.le_antisymm hle hg]

theorem srising_filter {lo : Nat} {m : Sparse β} (q : Nat × β → Bool) (h : srising lo m = true) : srising lo (m.filter q) = true := by
  induction m generalizing lo with
  | nil => rfl
  | cons e r ih =>
    simp only [srising, Bool.and_eq_true, decide_eq_true_eq] at h
    by_cases hq : q e = true
    · rw [List.filter_cons_of_pos hq]
      simp only [srising, Bool.and_eq_true, decide_eq_true_eq]
      exact ⟨h.1, ih h.2⟩
    · rw [List.filter_cons_of_neg (by simpa using hq)]
      exact srising_le (Nat.le_succ_of_le h.1) (ih h.2)

theorem srising_sput {lo : Nat} {m : Sparse β} {k : Nat} (v : β) (h : srising lo m = true) (hk : lo ≤ k) : srising lo (sput m k v) = true := by
  induction m generalizing lo with
  | nil => simp [sput, srising, hk]
  | cons e r ih =>
    obtain ⟨a, w⟩ := e
    simp only [srising, Bool.and_eq_true, decide_eq_true_eq] at h
    unfold sput
    split
    · rename_i hlt
      simp only [srising, Bool.and_eq_true, decide_eq_true_eq]
      exact ⟨hk, hlt, h.2⟩
    · rename_i hge
      split
      · rename_i he
        have : k = a := by simpa using he
        subst this
        simp only [srising, Bool.and_eq_true, decide_eq_true_eq]
        exact ⟨hk, h.2⟩
      · rename_i hne
        have hne' : k ≠ a := by simpa using hne
        simp only [srising, Bool.and_eq_true, decide_eq_true_eq]
        exact ⟨h.1, ih h.2 (by omega)⟩

theorem mem_sput {m : Sparse β} {k : Nat} {v : β} {e : Nat × β} (h : e ∈ sput m k v) : e = (k, v) ∨ e ∈ m := by
  induction m with
  | nil => exact .inl (by simpa [sput] using h)
  | cons x r ih =>
    obtain ⟨a, w⟩ := x
    unfold sput at h
    split at h
    · exact List.mem_cons.mp h
    · split at h
      · rcases List.mem_cons.mp h with h | h
        · exact .inl h
        · exact .inr (List.mem_cons_of_mem _ h)
      · rcases List.mem_cons.mp h with h | h
        · exact .inr (h ▸ List.mem_cons_self ..)
        · exact (ih h).imp id (List.mem_cons_of_mem _)

@[simp] theorem swf_nil [DecidableEq β] (d : Nat → β) : swf d [] = true := rfl

/-- A filtered map is canonical. -/
theorem swf_filter [DecidableEq β] {d : Nat → β} {m : Sparse β} (q : Nat × β → Bool) (h : swf d m = true) : swf d (m.filter q) = true := by
  simp only [swf, Bool.and_eq_true, List.all_eq_true, decide_eq_true_eq] at h ⊢
  exact ⟨srising_filter q h.1, fun e he => h.2 e (List.mem_filter.mp he).1⟩

/-- A write keeps the canonical form. -/
theorem swf_sset [DecidableEq β] {d : Nat → β} {m : Sparse β} (k : Nat) (v : β) (h : swf d m = true) : swf d (sset d m k v) = true := by
  unfold sset
  split
  · exact swf_filter _ h
  · rename_i hv
    simp only [swf, Bool.and_eq_true, List.all_eq_true, decide_eq_true_eq] at h ⊢
    refine ⟨srising_sput v h.1 (Nat.zero_le k), fun e he => ?_⟩
    rcases mem_sput he with rfl | he
    · exact hv
    · exact h.2 e he

/-! ### Memory -/

@[simp] theorem Memory.rd_wr_same (m : Bytes) (a : Nat) (v : Byte) : Memory.rd (Memory.wr m a v) a = v := sget_sset_same memReset m a v

theorem Memory.rd_wr_ne (m : Bytes) {a b : Nat} (v : Byte) (h : b ≠ a) : Memory.rd (Memory.wr m a v) b = Memory.rd m b :=
  sget_sset_ne memReset m v h

/-- A memory in which nothing is listed is canonical. -/
@[simp] theorem Memory.wf_nil : Memory.wf [] = true := rfl

/-- Writing a byte keeps the canonical form. -/
theorem Memory.wf_wr {m : Bytes} (a : Nat) (v : Byte) (h : Memory.wf m = true) : Memory.wf (Memory.wr m a v) = true := swf_sset a v h

/-- Storing bytes keeps the canonical form. -/
theorem Memory.wf_putBytes {m : Bytes} (a : Nat) (bs : List Byte) (h : Memory.wf m = true) : Memory.wf (Memory.putBytes m a bs) = true := by
  induction bs generalizing m a with
  | nil => exact h
  | cons b r ih => exact ih (a + 1) (Memory.wf_wr a b h)

/-- Clearing a range keeps the canonical form. -/
theorem Memory.wf_filter {m : Bytes} (q : Nat × Byte → Bool) (h : Memory.wf m = true) : Memory.wf (m.filter q) = true := swf_filter q h

/-- What a byte reads after a store of bytes: the byte stored there, or what it read before. -/
theorem Memory.rd_putBytes (m : Bytes) (a : Nat) (bs : List Byte) (b : Nat) :
    Memory.rd (Memory.putBytes m a bs) b = if a ≤ b ∧ b < a + bs.length then bs[b - a]?.getD 0 else Memory.rd m b := by
  induction bs generalizing m a with
  | nil => rw [if_neg (by simp only [List.length_nil]; omega)]; rfl
  | cons x r ih =>
    simp only [Memory.putBytes, ih, List.length_cons]
    by_cases h1 : b = a
    · subst h1
      rw [if_neg (by omega), if_pos (by omega)]
      simp
    · by_cases h2 : a ≤ b ∧ b < a + (r.length + 1)
      · rw [if_pos (by omega), if_pos h2]
        obtain ⟨k, hk⟩ : ∃ k, b - a = k + 1 := ⟨b - a - 1, by omega⟩
        rw [hk, show b - (a + 1) = k from by omega]
        simp
      · rw [if_neg (by omega), if_neg h2, Memory.rd_wr_ne _ _ h1]

/-- Bytes read back as they were stored, and every other byte reads as before. -/
theorem Memory.rd_putBytes_outside (m : Bytes) (a : Nat) (bs : List Byte) {b : Nat} (h : b < a ∨ a + bs.length ≤ b) :
    Memory.rd (Memory.putBytes m a bs) b = Memory.rd m b := by
  rw [Memory.rd_putBytes, if_neg (by omega)]

end Sys2Proof.Machine
end

