-- ==== Sys2Proof/Laws/State.lean ====
section
/-! SUPPORT. One lemma per field of the state per update, and reads after the named updates. -/

namespace Sys2Proof.Machine

/-! ### Fields that an update leaves alone -/

@[simp] theorem State.setWd_pending (s : State) (a : Nat) (v : Word) : (s.setWd a v).pending = s.pending := rfl
@[simp] theorem State.setWd_th8 (s : State) (a : Nat) (v : Word) : (s.setWd a v).th8 = s.th8 := rfl
@[simp] theorem State.setWd_freeCtr (s : State) (a : Nat) (v : Word) : (s.setWd a v).freeCtr = s.freeCtr := rfl
@[simp] theorem State.setWd_stepNo (s : State) (a : Nat) (v : Word) : (s.setWd a v).stepNo = s.stepNo := rfl
@[simp] theorem State.setWd_clock (s : State) (a : Nat) (v : Word) : (s.setWd a v).clock = s.clock := rfl
@[simp] theorem State.setWd_image (s : State) (a : Nat) (v : Word) : (s.setWd a v).image = s.image := rfl
@[simp] theorem State.setWd_frozen (s : State) (a : Nat) (v : Word) : (s.setWd a v).frozen = s.frozen := rfl
@[simp] theorem State.setWd_pwr (s : State) (a : Nat) (v : Word) : (s.setWd a v).pwr = s.pwr := rfl
@[simp] theorem State.setWd_evg (s : State) (a : Nat) (v : Word) : (s.setWd a v).evg = s.evg := rfl
@[simp] theorem State.setWd_log (s : State) (a : Nat) (v : Word) : (s.setWd a v).log = s.log := rfl
@[simp] theorem State.setWd_quoins (s : State) (a : Nat) (v : Word) : (s.setWd a v).quoins = s.quoins := rfl
@[simp] theorem State.setWd_sess (s : State) (a : Nat) (v : Word) : (s.setWd a v).sess = s.sess := rfl
@[simp] theorem State.setWd_forme (s : State) (a : Nat) (v : Word) : (s.setWd a v).forme = s.forme := rfl
@[simp] theorem State.setWd_imp (s : State) (a : Nat) (v : Word) : (s.setWd a v).imp = s.imp := rfl
@[simp] theorem State.setWd_grants (s : State) (a : Nat) (v : Word) : (s.setWd a v).grants = s.grants := rfl
@[simp] theorem State.setWd_chase (s : State) (a : Nat) (v : Word) : (s.setWd a v).chase = s.chase := rfl
@[simp] theorem State.setWd_sb (s : State) (a : Nat) (v : Word) : (s.setWd a v).sb = s.sb := rfl
@[simp] theorem State.setWd_fix (s : State) (a : Nat) (v : Word) : (s.setWd a v).fix = s.fix := rfl
@[simp] theorem State.setWd_ru (s : State) (a : Nat) (v : Word) : (s.setWd a v).ru = s.ru := rfl
@[simp] theorem State.setWd_ptpA (s : State) (a : Nat) (v : Word) : (s.setWd a v).ptpA = s.ptpA := rfl
@[simp] theorem State.setWd_ptpB (s : State) (a : Nat) (v : Word) : (s.setWd a v).ptpB = s.ptpB := rfl
@[simp] theorem State.setWd_lanes (s : State) (a : Nat) (v : Word) : (s.setWd a v).lanes = s.lanes := rfl

@[simp] theorem State.p_pending (s : State) (f : Fld) (n i v : Nat) : (s.p f n i v).pending = s.pending := rfl
@[simp] theorem State.p_th8 (s : State) (f : Fld) (n i v : Nat) : (s.p f n i v).th8 = s.th8 := rfl
@[simp] theorem State.p_freeCtr (s : State) (f : Fld) (n i v : Nat) : (s.p f n i v).freeCtr = s.freeCtr := rfl
@[simp] theorem State.p_stepNo (s : State) (f : Fld) (n i v : Nat) : (s.p f n i v).stepNo = s.stepNo := rfl
@[simp] theorem State.p_clock (s : State) (f : Fld) (n i v : Nat) : (s.p f n i v).clock = s.clock := rfl
@[simp] theorem State.p_image (s : State) (f : Fld) (n i v : Nat) : (s.p f n i v).image = s.image := rfl
@[simp] theorem State.p_frozen (s : State) (f : Fld) (n i v : Nat) : (s.p f n i v).frozen = s.frozen := rfl
@[simp] theorem State.p_pwr (s : State) (f : Fld) (n i v : Nat) : (s.p f n i v).pwr = s.pwr := rfl
@[simp] theorem State.p_evg (s : State) (f : Fld) (n i v : Nat) : (s.p f n i v).evg = s.evg := rfl
@[simp] theorem State.p_log (s : State) (f : Fld) (n i v : Nat) : (s.p f n i v).log = s.log := rfl
@[simp] theorem State.p_quoins (s : State) (f : Fld) (n i v : Nat) : (s.p f n i v).quoins = s.quoins := rfl
@[simp] theorem State.p_sess (s : State) (f : Fld) (n i v : Nat) : (s.p f n i v).sess = s.sess := rfl
@[simp] theorem State.p_forme (s : State) (f : Fld) (n i v : Nat) : (s.p f n i v).forme = s.forme := rfl
@[simp] theorem State.p_imp (s : State) (f : Fld) (n i v : Nat) : (s.p f n i v).imp = s.imp := rfl
@[simp] theorem State.p_grants (s : State) (f : Fld) (n i v : Nat) : (s.p f n i v).grants = s.grants := rfl
@[simp] theorem State.p_chase (s : State) (f : Fld) (n i v : Nat) : (s.p f n i v).chase = s.chase := rfl
@[simp] theorem State.p_sb (s : State) (f : Fld) (n i v : Nat) : (s.p f n i v).sb = s.sb := rfl
@[simp] theorem State.p_fix (s : State) (f : Fld) (n i v : Nat) : (s.p f n i v).fix = s.fix := rfl
@[simp] theorem State.p_ru (s : State) (f : Fld) (n i v : Nat) : (s.p f n i v).ru = s.ru := rfl
@[simp] theorem State.p_ptpA (s : State) (f : Fld) (n i v : Nat) : (s.p f n i v).ptpA = s.ptpA := rfl
@[simp] theorem State.p_ptpB (s : State) (f : Fld) (n i v : Nat) : (s.p f n i v).ptpB = s.ptpB := rfl
@[simp] theorem State.p_lanes (s : State) (f : Fld) (n i v : Nat) : (s.p f n i v).lanes = s.lanes := rfl

@[simp] theorem State.put_pending (s : State) (f : Fld) (n v : Nat) : (s.put f n v).pending = s.pending := rfl
@[simp] theorem State.put_th8 (s : State) (f : Fld) (n v : Nat) : (s.put f n v).th8 = s.th8 := rfl
@[simp] theorem State.put_freeCtr (s : State) (f : Fld) (n v : Nat) : (s.put f n v).freeCtr = s.freeCtr := rfl
@[simp] theorem State.put_stepNo (s : State) (f : Fld) (n v : Nat) : (s.put f n v).stepNo = s.stepNo := rfl
@[simp] theorem State.put_clock (s : State) (f : Fld) (n v : Nat) : (s.put f n v).clock = s.clock := rfl
@[simp] theorem State.put_image (s : State) (f : Fld) (n v : Nat) : (s.put f n v).image = s.image := rfl
@[simp] theorem State.put_frozen (s : State) (f : Fld) (n v : Nat) : (s.put f n v).frozen = s.frozen := rfl
@[simp] theorem State.put_pwr (s : State) (f : Fld) (n v : Nat) : (s.put f n v).pwr = s.pwr := rfl
@[simp] theorem State.put_evg (s : State) (f : Fld) (n v : Nat) : (s.put f n v).evg = s.evg := rfl
@[simp] theorem State.put_log (s : State) (f : Fld) (n v : Nat) : (s.put f n v).log = s.log := rfl
@[simp] theorem State.put_quoins (s : State) (f : Fld) (n v : Nat) : (s.put f n v).quoins = s.quoins := rfl
@[simp] theorem State.put_sess (s : State) (f : Fld) (n v : Nat) : (s.put f n v).sess = s.sess := rfl
@[simp] theorem State.put_forme (s : State) (f : Fld) (n v : Nat) : (s.put f n v).forme = s.forme := rfl
@[simp] theorem State.put_imp (s : State) (f : Fld) (n v : Nat) : (s.put f n v).imp = s.imp := rfl
@[simp] theorem State.put_grants (s : State) (f : Fld) (n v : Nat) : (s.put f n v).grants = s.grants := rfl
@[simp] theorem State.put_chase (s : State) (f : Fld) (n v : Nat) : (s.put f n v).chase = s.chase := rfl
@[simp] theorem State.put_sb (s : State) (f : Fld) (n v : Nat) : (s.put f n v).sb = s.sb := rfl
@[simp] theorem State.put_fix (s : State) (f : Fld) (n v : Nat) : (s.put f n v).fix = s.fix := rfl
@[simp] theorem State.put_ru (s : State) (f : Fld) (n v : Nat) : (s.put f n v).ru = s.ru := rfl
@[simp] theorem State.put_ptpA (s : State) (f : Fld) (n v : Nat) : (s.put f n v).ptpA = s.ptpA := rfl
@[simp] theorem State.put_ptpB (s : State) (f : Fld) (n v : Nat) : (s.put f n v).ptpB = s.ptpB := rfl
@[simp] theorem State.put_lanes (s : State) (f : Fld) (n v : Nat) : (s.put f n v).lanes = s.lanes := rfl

@[simp] theorem State.bump_pending (s : State) (f : Fld) (n i k : Nat) : (s.bump f n i k).pending = s.pending := rfl
@[simp] theorem State.bump_th8 (s : State) (f : Fld) (n i k : Nat) : (s.bump f n i k).th8 = s.th8 := rfl
@[simp] theorem State.bump_freeCtr (s : State) (f : Fld) (n i k : Nat) : (s.bump f n i k).freeCtr = s.freeCtr := rfl
@[simp] theorem State.bump_stepNo (s : State) (f : Fld) (n i k : Nat) : (s.bump f n i k).stepNo = s.stepNo := rfl
@[simp] theorem State.bump_clock (s : State) (f : Fld) (n i k : Nat) : (s.bump f n i k).clock = s.clock := rfl
@[simp] theorem State.bump_image (s : State) (f : Fld) (n i k : Nat) : (s.bump f n i k).image = s.image := rfl
@[simp] theorem State.bump_frozen (s : State) (f : Fld) (n i k : Nat) : (s.bump f n i k).frozen = s.frozen := rfl
@[simp] theorem State.bump_pwr (s : State) (f : Fld) (n i k : Nat) : (s.bump f n i k).pwr = s.pwr := rfl
@[simp] theorem State.bump_evg (s : State) (f : Fld) (n i k : Nat) : (s.bump f n i k).evg = s.evg := rfl
@[simp] theorem State.bump_log (s : State) (f : Fld) (n i k : Nat) : (s.bump f n i k).log = s.log := rfl
@[simp] theorem State.bump_quoins (s : State) (f : Fld) (n i k : Nat) : (s.bump f n i k).quoins = s.quoins := rfl
@[simp] theorem State.bump_sess (s : State) (f : Fld) (n i k : Nat) : (s.bump f n i k).sess = s.sess := rfl
@[simp] theorem State.bump_forme (s : State) (f : Fld) (n i k : Nat) : (s.bump f n i k).forme = s.forme := rfl
@[simp] theorem State.bump_imp (s : State) (f : Fld) (n i k : Nat) : (s.bump f n i k).imp = s.imp := rfl
@[simp] theorem State.bump_grants (s : State) (f : Fld) (n i k : Nat) : (s.bump f n i k).grants = s.grants := rfl
@[simp] theorem State.bump_chase (s : State) (f : Fld) (n i k : Nat) : (s.bump f n i k).chase = s.chase := rfl
@[simp] theorem State.bump_sb (s : State) (f : Fld) (n i k : Nat) : (s.bump f n i k).sb = s.sb := rfl
@[simp] theorem State.bump_fix (s : State) (f : Fld) (n i k : Nat) : (s.bump f n i k).fix = s.fix := rfl
@[simp] theorem State.bump_ru (s : State) (f : Fld) (n i k : Nat) : (s.bump f n i k).ru = s.ru := rfl
@[simp] theorem State.bump_ptpA (s : State) (f : Fld) (n i k : Nat) : (s.bump f n i k).ptpA = s.ptpA := rfl
@[simp] theorem State.bump_ptpB (s : State) (f : Fld) (n i k : Nat) : (s.bump f n i k).ptpB = s.ptpB := rfl
@[simp] theorem State.bump_lanes (s : State) (f : Fld) (n i k : Nat) : (s.bump f n i k).lanes = s.lanes := rfl

@[simp] theorem State.setHw_pending (s : State) (q : Page) (o : Nat) (v : Word) : (s.setHw q o v).pending = s.pending := rfl
@[simp] theorem State.setHw_th8 (s : State) (q : Page) (o : Nat) (v : Word) : (s.setHw q o v).th8 = s.th8 := rfl
@[simp] theorem State.setHw_freeCtr (s : State) (q : Page) (o : Nat) (v : Word) : (s.setHw q o v).freeCtr = s.freeCtr := rfl
@[simp] theorem State.setHw_stepNo (s : State) (q : Page) (o : Nat) (v : Word) : (s.setHw q o v).stepNo = s.stepNo := rfl
@[simp] theorem State.setHw_clock (s : State) (q : Page) (o : Nat) (v : Word) : (s.setHw q o v).clock = s.clock := rfl
@[simp] theorem State.setHw_image (s : State) (q : Page) (o : Nat) (v : Word) : (s.setHw q o v).image = s.image := rfl
@[simp] theorem State.setHw_frozen (s : State) (q : Page) (o : Nat) (v : Word) : (s.setHw q o v).frozen = s.frozen := rfl
@[simp] theorem State.setHw_pwr (s : State) (q : Page) (o : Nat) (v : Word) : (s.setHw q o v).pwr = s.pwr := rfl
@[simp] theorem State.setHw_evg (s : State) (q : Page) (o : Nat) (v : Word) : (s.setHw q o v).evg = s.evg := rfl
@[simp] theorem State.setHw_log (s : State) (q : Page) (o : Nat) (v : Word) : (s.setHw q o v).log = s.log := rfl
@[simp] theorem State.setHw_quoins (s : State) (q : Page) (o : Nat) (v : Word) : (s.setHw q o v).quoins = s.quoins := rfl
@[simp] theorem State.setHw_sess (s : State) (q : Page) (o : Nat) (v : Word) : (s.setHw q o v).sess = s.sess := rfl
@[simp] theorem State.setHw_forme (s : State) (q : Page) (o : Nat) (v : Word) : (s.setHw q o v).forme = s.forme := rfl
@[simp] theorem State.setHw_imp (s : State) (q : Page) (o : Nat) (v : Word) : (s.setHw q o v).imp = s.imp := rfl
@[simp] theorem State.setHw_grants (s : State) (q : Page) (o : Nat) (v : Word) : (s.setHw q o v).grants = s.grants := rfl
@[simp] theorem State.setHw_chase (s : State) (q : Page) (o : Nat) (v : Word) : (s.setHw q o v).chase = s.chase := rfl
@[simp] theorem State.setHw_sb (s : State) (q : Page) (o : Nat) (v : Word) : (s.setHw q o v).sb = s.sb := rfl
@[simp] theorem State.setHw_fix (s : State) (q : Page) (o : Nat) (v : Word) : (s.setHw q o v).fix = s.fix := rfl
@[simp] theorem State.setHw_ru (s : State) (q : Page) (o : Nat) (v : Word) : (s.setHw q o v).ru = s.ru := rfl
@[simp] theorem State.setHw_ptpA (s : State) (q : Page) (o : Nat) (v : Word) : (s.setHw q o v).ptpA = s.ptpA := rfl
@[simp] theorem State.setHw_ptpB (s : State) (q : Page) (o : Nat) (v : Word) : (s.setHw q o v).ptpB = s.ptpB := rfl
@[simp] theorem State.setHw_lanes (s : State) (q : Page) (o : Nat) (v : Word) : (s.setHw q o v).lanes = s.lanes := rfl

@[simp] theorem State.setLane_pending (s : State) (n : LaneId) (l : Lane) : (s.setLane n l).pending = s.pending := rfl
@[simp] theorem State.setLane_th8 (s : State) (n : LaneId) (l : Lane) : (s.setLane n l).th8 = s.th8 := rfl
@[simp] theorem State.setLane_freeCtr (s : State) (n : LaneId) (l : Lane) : (s.setLane n l).freeCtr = s.freeCtr := rfl
@[simp] theorem State.setLane_stepNo (s : State) (n : LaneId) (l : Lane) : (s.setLane n l).stepNo = s.stepNo := rfl
@[simp] theorem State.setLane_clock (s : State) (n : LaneId) (l : Lane) : (s.setLane n l).clock = s.clock := rfl
@[simp] theorem State.setLane_regs (s : State) (n : LaneId) (l : Lane) : (s.setLane n l).regs = s.regs := rfl
@[simp] theorem State.setLane_image (s : State) (n : LaneId) (l : Lane) : (s.setLane n l).image = s.image := rfl
@[simp] theorem State.setLane_frozen (s : State) (n : LaneId) (l : Lane) : (s.setLane n l).frozen = s.frozen := rfl
@[simp] theorem State.setLane_pwr (s : State) (n : LaneId) (l : Lane) : (s.setLane n l).pwr = s.pwr := rfl
@[simp] theorem State.setLane_evg (s : State) (n : LaneId) (l : Lane) : (s.setLane n l).evg = s.evg := rfl
@[simp] theorem State.setLane_log (s : State) (n : LaneId) (l : Lane) : (s.setLane n l).log = s.log := rfl
@[simp] theorem State.setLane_quoins (s : State) (n : LaneId) (l : Lane) : (s.setLane n l).quoins = s.quoins := rfl
@[simp] theorem State.setLane_sess (s : State) (n : LaneId) (l : Lane) : (s.setLane n l).sess = s.sess := rfl
@[simp] theorem State.setLane_forme (s : State) (n : LaneId) (l : Lane) : (s.setLane n l).forme = s.forme := rfl
@[simp] theorem State.setLane_imp (s : State) (n : LaneId) (l : Lane) : (s.setLane n l).imp = s.imp := rfl
@[simp] theorem State.setLane_grants (s : State) (n : LaneId) (l : Lane) : (s.setLane n l).grants = s.grants := rfl
@[simp] theorem State.setLane_chase (s : State) (n : LaneId) (l : Lane) : (s.setLane n l).chase = s.chase := rfl
@[simp] theorem State.setLane_sb (s : State) (n : LaneId) (l : Lane) : (s.setLane n l).sb = s.sb := rfl
@[simp] theorem State.setLane_fix (s : State) (n : LaneId) (l : Lane) : (s.setLane n l).fix = s.fix := rfl
@[simp] theorem State.setLane_ru (s : State) (n : LaneId) (l : Lane) : (s.setLane n l).ru = s.ru := rfl
@[simp] theorem State.setLane_ptpA (s : State) (n : LaneId) (l : Lane) : (s.setLane n l).ptpA = s.ptpA := rfl
@[simp] theorem State.setLane_ptpB (s : State) (n : LaneId) (l : Lane) : (s.setLane n l).ptpB = s.ptpB := rfl

@[simp] theorem State.upLane_pending (s : State) (n : LaneId) (f : Lane → Lane) : (s.upLane n f).pending = s.pending := rfl
@[simp] theorem State.upLane_th8 (s : State) (n : LaneId) (f : Lane → Lane) : (s.upLane n f).th8 = s.th8 := rfl
@[simp] theorem State.upLane_freeCtr (s : State) (n : LaneId) (f : Lane → Lane) : (s.upLane n f).freeCtr = s.freeCtr := rfl
@[simp] theorem State.upLane_stepNo (s : State) (n : LaneId) (f : Lane → Lane) : (s.upLane n f).stepNo = s.stepNo := rfl
@[simp] theorem State.upLane_clock (s : State) (n : LaneId) (f : Lane → Lane) : (s.upLane n f).clock = s.clock := rfl
@[simp] theorem State.upLane_regs (s : State) (n : LaneId) (f : Lane → Lane) : (s.upLane n f).regs = s.regs := rfl
@[simp] theorem State.upLane_image (s : State) (n : LaneId) (f : Lane → Lane) : (s.upLane n f).image = s.image := rfl
@[simp] theorem State.upLane_frozen (s : State) (n : LaneId) (f : Lane → Lane) : (s.upLane n f).frozen = s.frozen := rfl
@[simp] theorem State.upLane_pwr (s : State) (n : LaneId) (f : Lane → Lane) : (s.upLane n f).pwr = s.pwr := rfl
@[simp] theorem State.upLane_evg (s : State) (n : LaneId) (f : Lane → Lane) : (s.upLane n f).evg = s.evg := rfl
@[simp] theorem State.upLane_log (s : State) (n : LaneId) (f : Lane → Lane) : (s.upLane n f).log = s.log := rfl
@[simp] theorem State.upLane_quoins (s : State) (n : LaneId) (f : Lane → Lane) : (s.upLane n f).quoins = s.quoins := rfl
@[simp] theorem State.upLane_sess (s : State) (n : LaneId) (f : Lane → Lane) : (s.upLane n f).sess = s.sess := rfl
@[simp] theorem State.upLane_forme (s : State) (n : LaneId) (f : Lane → Lane) : (s.upLane n f).forme = s.forme := rfl
@[simp] theorem State.upLane_imp (s : State) (n : LaneId) (f : Lane → Lane) : (s.upLane n f).imp = s.imp := rfl
@[simp] theorem State.upLane_grants (s : State) (n : LaneId) (f : Lane → Lane) : (s.upLane n f).grants = s.grants := rfl
@[simp] theorem State.upLane_chase (s : State) (n : LaneId) (f : Lane → Lane) : (s.upLane n f).chase = s.chase := rfl
@[simp] theorem State.upLane_sb (s : State) (n : LaneId) (f : Lane → Lane) : (s.upLane n f).sb = s.sb := rfl
@[simp] theorem State.upLane_fix (s : State) (n : LaneId) (f : Lane → Lane) : (s.upLane n f).fix = s.fix := rfl
@[simp] theorem State.upLane_ru (s : State) (n : LaneId) (f : Lane → Lane) : (s.upLane n f).ru = s.ru := rfl
@[simp] theorem State.upLane_ptpA (s : State) (n : LaneId) (f : Lane → Lane) : (s.upLane n f).ptpA = s.ptpA := rfl
@[simp] theorem State.upLane_ptpB (s : State) (n : LaneId) (f : Lane → Lane) : (s.upLane n f).ptpB = s.ptpB := rfl

@[simp] theorem State.upLink_pending (s : State) (n : LaneId) (f : Link → Link) : (s.upLink n f).pending = s.pending := rfl
@[simp] theorem State.upLink_th8 (s : State) (n : LaneId) (f : Link → Link) : (s.upLink n f).th8 = s.th8 := rfl
@[simp] theorem State.upLink_freeCtr (s : State) (n : LaneId) (f : Link → Link) : (s.upLink n f).freeCtr = s.freeCtr := rfl
@[simp] theorem State.upLink_stepNo (s : State) (n : LaneId) (f : Link → Link) : (s.upLink n f).stepNo = s.stepNo := rfl
@[simp] theorem State.upLink_clock (s : State) (n : LaneId) (f : Link → Link) : (s.upLink n f).clock = s.clock := rfl
@[simp] theorem State.upLink_regs (s : State) (n : LaneId) (f : Link → Link) : (s.upLink n f).regs = s.regs := rfl
@[simp] theorem State.upLink_image (s : State) (n : LaneId) (f : Link → Link) : (s.upLink n f).image = s.image := rfl
@[simp] theorem State.upLink_frozen (s : State) (n : LaneId) (f : Link → Link) : (s.upLink n f).frozen = s.frozen := rfl
@[simp] theorem State.upLink_pwr (s : State) (n : LaneId) (f : Link → Link) : (s.upLink n f).pwr = s.pwr := rfl
@[simp] theorem State.upLink_evg (s : State) (n : LaneId) (f : Link → Link) : (s.upLink n f).evg = s.evg := rfl
@[simp] theorem State.upLink_log (s : State) (n : LaneId) (f : Link → Link) : (s.upLink n f).log = s.log := rfl
@[simp] theorem State.upLink_quoins (s : State) (n : LaneId) (f : Link → Link) : (s.upLink n f).quoins = s.quoins := rfl
@[simp] theorem State.upLink_sess (s : State) (n : LaneId) (f : Link → Link) : (s.upLink n f).sess = s.sess := rfl
@[simp] theorem State.upLink_forme (s : State) (n : LaneId) (f : Link → Link) : (s.upLink n f).forme = s.forme := rfl
@[simp] theorem State.upLink_imp (s : State) (n : LaneId) (f : Link → Link) : (s.upLink n f).imp = s.imp := rfl
@[simp] theorem State.upLink_grants (s : State) (n : LaneId) (f : Link → Link) : (s.upLink n f).grants = s.grants := rfl
@[simp] theorem State.upLink_chase (s : State) (n : LaneId) (f : Link → Link) : (s.upLink n f).chase = s.chase := rfl
@[simp] theorem State.upLink_sb (s : State) (n : LaneId) (f : Link → Link) : (s.upLink n f).sb = s.sb := rfl
@[simp] theorem State.upLink_fix (s : State) (n : LaneId) (f : Link → Link) : (s.upLink n f).fix = s.fix := rfl
@[simp] theorem State.upLink_ru (s : State) (n : LaneId) (f : Link → Link) : (s.upLink n f).ru = s.ru := rfl
@[simp] theorem State.upLink_ptpA (s : State) (n : LaneId) (f : Link → Link) : (s.upLink n f).ptpA = s.ptpA := rfl
@[simp] theorem State.upLink_ptpB (s : State) (n : LaneId) (f : Link → Link) : (s.upLink n f).ptpB = s.ptpB := rfl

@[simp] theorem State.upGal_pending (s : State) (n : LaneId) (f : Gal → Gal) : (s.upGal n f).pending = s.pending := rfl
@[simp] theorem State.upGal_th8 (s : State) (n : LaneId) (f : Gal → Gal) : (s.upGal n f).th8 = s.th8 := rfl
@[simp] theorem State.upGal_freeCtr (s : State) (n : LaneId) (f : Gal → Gal) : (s.upGal n f).freeCtr = s.freeCtr := rfl
@[simp] theorem State.upGal_stepNo (s : State) (n : LaneId) (f : Gal → Gal) : (s.upGal n f).stepNo = s.stepNo := rfl
@[simp] theorem State.upGal_clock (s : State) (n : LaneId) (f : Gal → Gal) : (s.upGal n f).clock = s.clock := rfl
@[simp] theorem State.upGal_regs (s : State) (n : LaneId) (f : Gal → Gal) : (s.upGal n f).regs = s.regs := rfl
@[simp] theorem State.upGal_image (s : State) (n : LaneId) (f : Gal → Gal) : (s.upGal n f).image = s.image := rfl
@[simp] theorem State.upGal_frozen (s : State) (n : LaneId) (f : Gal → Gal) : (s.upGal n f).frozen = s.frozen := rfl
@[simp] theorem State.upGal_pwr (s : State) (n : LaneId) (f : Gal → Gal) : (s.upGal n f).pwr = s.pwr := rfl
@[simp] theorem State.upGal_evg (s : State) (n : LaneId) (f : Gal → Gal) : (s.upGal n f).evg = s.evg := rfl
@[simp] theorem State.upGal_log (s : State) (n : LaneId) (f : Gal → Gal) : (s.upGal n f).log = s.log := rfl
@[simp] theorem State.upGal_quoins (s : State) (n : LaneId) (f : Gal → Gal) : (s.upGal n f).quoins = s.quoins := rfl
@[simp] theorem State.upGal_sess (s : State) (n : LaneId) (f : Gal → Gal) : (s.upGal n f).sess = s.sess := rfl
@[simp] theorem State.upGal_forme (s : State) (n : LaneId) (f : Gal → Gal) : (s.upGal n f).forme = s.forme := rfl
@[simp] theorem State.upGal_imp (s : State) (n : LaneId) (f : Gal → Gal) : (s.upGal n f).imp = s.imp := rfl
@[simp] theorem State.upGal_grants (s : State) (n : LaneId) (f : Gal → Gal) : (s.upGal n f).grants = s.grants := rfl
@[simp] theorem State.upGal_chase (s : State) (n : LaneId) (f : Gal → Gal) : (s.upGal n f).chase = s.chase := rfl
@[simp] theorem State.upGal_sb (s : State) (n : LaneId) (f : Gal → Gal) : (s.upGal n f).sb = s.sb := rfl
@[simp] theorem State.upGal_fix (s : State) (n : LaneId) (f : Gal → Gal) : (s.upGal n f).fix = s.fix := rfl
@[simp] theorem State.upGal_ru (s : State) (n : LaneId) (f : Gal → Gal) : (s.upGal n f).ru = s.ru := rfl
@[simp] theorem State.upGal_ptpA (s : State) (n : LaneId) (f : Gal → Gal) : (s.upGal n f).ptpA = s.ptpA := rfl
@[simp] theorem State.upGal_ptpB (s : State) (n : LaneId) (f : Gal → Gal) : (s.upGal n f).ptpB = s.ptpB := rfl

@[simp] theorem State.upEng_pending (s : State) (n : LaneId) (f : Eng → Eng) : (s.upEng n f).pending = s.pending := rfl
@[simp] theorem State.upEng_th8 (s : State) (n : LaneId) (f : Eng → Eng) : (s.upEng n f).th8 = s.th8 := rfl
@[simp] theorem State.upEng_freeCtr (s : State) (n : LaneId) (f : Eng → Eng) : (s.upEng n f).freeCtr = s.freeCtr := rfl
@[simp] theorem State.upEng_stepNo (s : State) (n : LaneId) (f : Eng → Eng) : (s.upEng n f).stepNo = s.stepNo := rfl
@[simp] theorem State.upEng_clock (s : State) (n : LaneId) (f : Eng → Eng) : (s.upEng n f).clock = s.clock := rfl
@[simp] theorem State.upEng_regs (s : State) (n : LaneId) (f : Eng → Eng) : (s.upEng n f).regs = s.regs := rfl
@[simp] theorem State.upEng_image (s : State) (n : LaneId) (f : Eng → Eng) : (s.upEng n f).image = s.image := rfl
@[simp] theorem State.upEng_frozen (s : State) (n : LaneId) (f : Eng → Eng) : (s.upEng n f).frozen = s.frozen := rfl
@[simp] theorem State.upEng_pwr (s : State) (n : LaneId) (f : Eng → Eng) : (s.upEng n f).pwr = s.pwr := rfl
@[simp] theorem State.upEng_evg (s : State) (n : LaneId) (f : Eng → Eng) : (s.upEng n f).evg = s.evg := rfl
@[simp] theorem State.upEng_log (s : State) (n : LaneId) (f : Eng → Eng) : (s.upEng n f).log = s.log := rfl
@[simp] theorem State.upEng_quoins (s : State) (n : LaneId) (f : Eng → Eng) : (s.upEng n f).quoins = s.quoins := rfl
@[simp] theorem State.upEng_sess (s : State) (n : LaneId) (f : Eng → Eng) : (s.upEng n f).sess = s.sess := rfl
@[simp] theorem State.upEng_forme (s : State) (n : LaneId) (f : Eng → Eng) : (s.upEng n f).forme = s.forme := rfl
@[simp] theorem State.upEng_imp (s : State) (n : LaneId) (f : Eng → Eng) : (s.upEng n f).imp = s.imp := rfl
@[simp] theorem State.upEng_grants (s : State) (n : LaneId) (f : Eng → Eng) : (s.upEng n f).grants = s.grants := rfl
@[simp] theorem State.upEng_chase (s : State) (n : LaneId) (f : Eng → Eng) : (s.upEng n f).chase = s.chase := rfl
@[simp] theorem State.upEng_sb (s : State) (n : LaneId) (f : Eng → Eng) : (s.upEng n f).sb = s.sb := rfl
@[simp] theorem State.upEng_fix (s : State) (n : LaneId) (f : Eng → Eng) : (s.upEng n f).fix = s.fix := rfl
@[simp] theorem State.upEng_ru (s : State) (n : LaneId) (f : Eng → Eng) : (s.upEng n f).ru = s.ru := rfl
@[simp] theorem State.upEng_ptpA (s : State) (n : LaneId) (f : Eng → Eng) : (s.upEng n f).ptpA = s.ptpA := rfl
@[simp] theorem State.upEng_ptpB (s : State) (n : LaneId) (f : Eng → Eng) : (s.upEng n f).ptpB = s.ptpB := rfl

@[simp] theorem State.upSess_pending (s : State) (k : SessId) (f : Session → Session) : (s.upSess k f).pending = s.pending := rfl
@[simp] theorem State.upSess_th8 (s : State) (k : SessId) (f : Session → Session) : (s.upSess k f).th8 = s.th8 := rfl
@[simp] theorem State.upSess_freeCtr (s : State) (k : SessId) (f : Session → Session) : (s.upSess k f).freeCtr = s.freeCtr := rfl
@[simp] theorem State.upSess_stepNo (s : State) (k : SessId) (f : Session → Session) : (s.upSess k f).stepNo = s.stepNo := rfl
@[simp] theorem State.upSess_clock (s : State) (k : SessId) (f : Session → Session) : (s.upSess k f).clock = s.clock := rfl
@[simp] theorem State.upSess_regs (s : State) (k : SessId) (f : Session → Session) : (s.upSess k f).regs = s.regs := rfl
@[simp] theorem State.upSess_image (s : State) (k : SessId) (f : Session → Session) : (s.upSess k f).image = s.image := rfl
@[simp] theorem State.upSess_frozen (s : State) (k : SessId) (f : Session → Session) : (s.upSess k f).frozen = s.frozen := rfl
@[simp] theorem State.upSess_pwr (s : State) (k : SessId) (f : Session → Session) : (s.upSess k f).pwr = s.pwr := rfl
@[simp] theorem State.upSess_evg (s : State) (k : SessId) (f : Session → Session) : (s.upSess k f).evg = s.evg := rfl
@[simp] theorem State.upSess_log (s : State) (k : SessId) (f : Session → Session) : (s.upSess k f).log = s.log := rfl
@[simp] theorem State.upSess_quoins (s : State) (k : SessId) (f : Session → Session) : (s.upSess k f).quoins = s.quoins := rfl
@[simp] theorem State.upSess_forme (s : State) (k : SessId) (f : Session → Session) : (s.upSess k f).forme = s.forme := rfl
@[simp] theorem State.upSess_imp (s : State) (k : SessId) (f : Session → Session) : (s.upSess k f).imp = s.imp := rfl
@[simp] theorem State.upSess_grants (s : State) (k : SessId) (f : Session → Session) : (s.upSess k f).grants = s.grants := rfl
@[simp] theorem State.upSess_chase (s : State) (k : SessId) (f : Session → Session) : (s.upSess k f).chase = s.chase := rfl
@[simp] theorem State.upSess_sb (s : State) (k : SessId) (f : Session → Session) : (s.upSess k f).sb = s.sb := rfl
@[simp] theorem State.upSess_fix (s : State) (k : SessId) (f : Session → Session) : (s.upSess k f).fix = s.fix := rfl
@[simp] theorem State.upSess_ru (s : State) (k : SessId) (f : Session → Session) : (s.upSess k f).ru = s.ru := rfl
@[simp] theorem State.upSess_ptpA (s : State) (k : SessId) (f : Session → Session) : (s.upSess k f).ptpA = s.ptpA := rfl
@[simp] theorem State.upSess_ptpB (s : State) (k : SessId) (f : Session → Session) : (s.upSess k f).ptpB = s.ptpB := rfl
@[simp] theorem State.upSess_lanes (s : State) (k : SessId) (f : Session → Session) : (s.upSess k f).lanes = s.lanes := rfl

@[simp] theorem State.setSrc_pending (s : State) (i : Nat) (x : Src) : (s.setSrc i x).pending = s.pending := rfl
@[simp] theorem State.setSrc_th8 (s : State) (i : Nat) (x : Src) : (s.setSrc i x).th8 = s.th8 := rfl
@[simp] theorem State.setSrc_freeCtr (s : State) (i : Nat) (x : Src) : (s.setSrc i x).freeCtr = s.freeCtr := rfl
@[simp] theorem State.setSrc_stepNo (s : State) (i : Nat) (x : Src) : (s.setSrc i x).stepNo = s.stepNo := rfl
@[simp] theorem State.setSrc_clock (s : State) (i : Nat) (x : Src) : (s.setSrc i x).clock = s.clock := rfl
@[simp] theorem State.setSrc_regs (s : State) (i : Nat) (x : Src) : (s.setSrc i x).regs = s.regs := rfl
@[simp] theorem State.setSrc_image (s : State) (i : Nat) (x : Src) : (s.setSrc i x).image = s.image := rfl
@[simp] theorem State.setSrc_frozen (s : State) (i : Nat) (x : Src) : (s.setSrc i x).frozen = s.frozen := rfl
@[simp] theorem State.setSrc_pwr (s : State) (i : Nat) (x : Src) : (s.setSrc i x).pwr = s.pwr := rfl
@[simp] theorem State.setSrc_log (s : State) (i : Nat) (x : Src) : (s.setSrc i x).log = s.log := rfl
@[simp] theorem State.setSrc_quoins (s : State) (i : Nat) (x : Src) : (s.setSrc i x).quoins = s.quoins := rfl
@[simp] theorem State.setSrc_sess (s : State) (i : Nat) (x : Src) : (s.setSrc i x).sess = s.sess := rfl
@[simp] theorem State.setSrc_forme (s : State) (i : Nat) (x : Src) : (s.setSrc i x).forme = s.forme := rfl
@[simp] theorem State.setSrc_imp (s : State) (i : Nat) (x : Src) : (s.setSrc i x).imp = s.imp := rfl
@[simp] theorem State.setSrc_grants (s : State) (i : Nat) (x : Src) : (s.setSrc i x).grants = s.grants := rfl
@[simp] theorem State.setSrc_chase (s : State) (i : Nat) (x : Src) : (s.setSrc i x).chase = s.chase := rfl
@[simp] theorem State.setSrc_sb (s : State) (i : Nat) (x : Src) : (s.setSrc i x).sb = s.sb := rfl
@[simp] theorem State.setSrc_fix (s : State) (i : Nat) (x : Src) : (s.setSrc i x).fix = s.fix := rfl
@[simp] theorem State.setSrc_ru (s : State) (i : Nat) (x : Src) : (s.setSrc i x).ru = s.ru := rfl
@[simp] theorem State.setSrc_ptpA (s : State) (i : Nat) (x : Src) : (s.setSrc i x).ptpA = s.ptpA := rfl
@[simp] theorem State.setSrc_ptpB (s : State) (i : Nat) (x : Src) : (s.setSrc i x).ptpB = s.ptpB := rfl
@[simp] theorem State.setSrc_lanes (s : State) (i : Nat) (x : Src) : (s.setSrc i x).lanes = s.lanes := rfl

@[simp] theorem State.setCoal_pending (s : State) (c : Nat) (x : Coal) : (s.setCoal c x).pending = s.pending := rfl
@[simp] theorem State.setCoal_th8 (s : State) (c : Nat) (x : Coal) : (s.setCoal c x).th8 = s.th8 := rfl
@[simp] theorem State.setCoal_freeCtr (s : State) (c : Nat) (x : Coal) : (s.setCoal c x).freeCtr = s.freeCtr := rfl
@[simp] theorem State.setCoal_stepNo (s : State) (c : Nat) (x : Coal) : (s.setCoal c x).stepNo = s.stepNo := rfl
@[simp] theorem State.setCoal_clock (s : State) (c : Nat) (x : Coal) : (s.setCoal c x).clock = s.clock := rfl
@[simp] theorem State.setCoal_regs (s : State) (c : Nat) (x : Coal) : (s.setCoal c x).regs = s.regs := rfl
@[simp] theorem State.setCoal_image (s : State) (c : Nat) (x : Coal) : (s.setCoal c x).image = s.image := rfl
@[simp] theorem State.setCoal_frozen (s : State) (c : Nat) (x : Coal) : (s.setCoal c x).frozen = s.frozen := rfl
@[simp] theorem State.setCoal_pwr (s : State) (c : Nat) (x : Coal) : (s.setCoal c x).pwr = s.pwr := rfl
@[simp] theorem State.setCoal_log (s : State) (c : Nat) (x : Coal) : (s.setCoal c x).log = s.log := rfl
@[simp] theorem State.setCoal_quoins (s : State) (c : Nat) (x : Coal) : (s.setCoal c x).quoins = s.quoins := rfl
@[simp] theorem State.setCoal_sess (s : State) (c : Nat) (x : Coal) : (s.setCoal c x).sess = s.sess := rfl
@[simp] theorem State.setCoal_forme (s : State) (c : Nat) (x : Coal) : (s.setCoal c x).forme = s.forme := rfl
@[simp] theorem State.setCoal_imp (s : State) (c : Nat) (x : Coal) : (s.setCoal c x).imp = s.imp := rfl
@[simp] theorem State.setCoal_grants (s : State) (c : Nat) (x : Coal) : (s.setCoal c x).grants = s.grants := rfl
@[simp] theorem State.setCoal_chase (s : State) (c : Nat) (x : Coal) : (s.setCoal c x).chase = s.chase := rfl
@[simp] theorem State.setCoal_sb (s : State) (c : Nat) (x : Coal) : (s.setCoal c x).sb = s.sb := rfl
@[simp] theorem State.setCoal_fix (s : State) (c : Nat) (x : Coal) : (s.setCoal c x).fix = s.fix := rfl
@[simp] theorem State.setCoal_ru (s : State) (c : Nat) (x : Coal) : (s.setCoal c x).ru = s.ru := rfl
@[simp] theorem State.setCoal_ptpA (s : State) (c : Nat) (x : Coal) : (s.setCoal c x).ptpA = s.ptpA := rfl
@[simp] theorem State.setCoal_ptpB (s : State) (c : Nat) (x : Coal) : (s.setCoal c x).ptpB = s.ptpB := rfl
@[simp] theorem State.setCoal_lanes (s : State) (c : Nat) (x : Coal) : (s.setCoal c x).lanes = s.lanes := rfl

@[simp] theorem State.strike_pending (s : State) (a : Nat) (x : Word) : (s.strike a x).pending = s.pending := rfl
@[simp] theorem State.strike_th8 (s : State) (a : Nat) (x : Word) : (s.strike a x).th8 = s.th8 := rfl
@[simp] theorem State.strike_freeCtr (s : State) (a : Nat) (x : Word) : (s.strike a x).freeCtr = s.freeCtr := rfl
@[simp] theorem State.strike_stepNo (s : State) (a : Nat) (x : Word) : (s.strike a x).stepNo = s.stepNo := rfl
@[simp] theorem State.strike_clock (s : State) (a : Nat) (x : Word) : (s.strike a x).clock = s.clock := rfl
@[simp] theorem State.strike_regs (s : State) (a : Nat) (x : Word) : (s.strike a x).regs = s.regs := rfl
@[simp] theorem State.strike_image (s : State) (a : Nat) (x : Word) : (s.strike a x).image = s.image := rfl
@[simp] theorem State.strike_frozen (s : State) (a : Nat) (x : Word) : (s.strike a x).frozen = s.frozen := rfl
@[simp] theorem State.strike_pwr (s : State) (a : Nat) (x : Word) : (s.strike a x).pwr = s.pwr := rfl
@[simp] theorem State.strike_evg (s : State) (a : Nat) (x : Word) : (s.strike a x).evg = s.evg := rfl
@[simp] theorem State.strike_log (s : State) (a : Nat) (x : Word) : (s.strike a x).log = s.log := rfl
@[simp] theorem State.strike_quoins (s : State) (a : Nat) (x : Word) : (s.strike a x).quoins = s.quoins := rfl
@[simp] theorem State.strike_sess (s : State) (a : Nat) (x : Word) : (s.strike a x).sess = s.sess := rfl
@[simp] theorem State.strike_imp (s : State) (a : Nat) (x : Word) : (s.strike a x).imp = s.imp := rfl
@[simp] theorem State.strike_grants (s : State) (a : Nat) (x : Word) : (s.strike a x).grants = s.grants := rfl
@[simp] theorem State.strike_chase (s : State) (a : Nat) (x : Word) : (s.strike a x).chase = s.chase := rfl
@[simp] theorem State.strike_sb (s : State) (a : Nat) (x : Word) : (s.strike a x).sb = s.sb := rfl
@[simp] theorem State.strike_fix (s : State) (a : Nat) (x : Word) : (s.strike a x).fix = s.fix := rfl
@[simp] theorem State.strike_ru (s : State) (a : Nat) (x : Word) : (s.strike a x).ru = s.ru := rfl
@[simp] theorem State.strike_ptpA (s : State) (a : Nat) (x : Word) : (s.strike a x).ptpA = s.ptpA := rfl
@[simp] theorem State.strike_ptpB (s : State) (a : Nat) (x : Word) : (s.strike a x).ptpB = s.ptpB := rfl
@[simp] theorem State.strike_lanes (s : State) (a : Nat) (x : Word) : (s.strike a x).lanes = s.lanes := rfl

@[simp] theorem State.sendDown_pending (s : State) (n : LaneId) (it : Item) : (s.sendDown n it).pending = s.pending := rfl
@[simp] theorem State.sendDown_th8 (s : State) (n : LaneId) (it : Item) : (s.sendDown n it).th8 = s.th8 := rfl
@[simp] theorem State.sendDown_freeCtr (s : State) (n : LaneId) (it : Item) : (s.sendDown n it).freeCtr = s.freeCtr := rfl
@[simp] theorem State.sendDown_stepNo (s : State) (n : LaneId) (it : Item) : (s.sendDown n it).stepNo = s.stepNo := rfl
@[simp] theorem State.sendDown_clock (s : State) (n : LaneId) (it : Item) : (s.sendDown n it).clock = s.clock := rfl
@[simp] theorem State.sendDown_regs (s : State) (n : LaneId) (it : Item) : (s.sendDown n it).regs = s.regs := rfl
@[simp] theorem State.sendDown_image (s : State) (n : LaneId) (it : Item) : (s.sendDown n it).image = s.image := rfl
@[simp] theorem State.sendDown_frozen (s : State) (n : LaneId) (it : Item) : (s.sendDown n it).frozen = s.frozen := rfl
@[simp] theorem State.sendDown_pwr (s : State) (n : LaneId) (it : Item) : (s.sendDown n it).pwr = s.pwr := rfl
@[simp] theorem State.sendDown_evg (s : State) (n : LaneId) (it : Item) : (s.sendDown n it).evg = s.evg := rfl
@[simp] theorem State.sendDown_log (s : State) (n : LaneId) (it : Item) : (s.sendDown n it).log = s.log := rfl
@[simp] theorem State.sendDown_quoins (s : State) (n : LaneId) (it : Item) : (s.sendDown n it).quoins = s.quoins := rfl
@[simp] theorem State.sendDown_sess (s : State) (n : LaneId) (it : Item) : (s.sendDown n it).sess = s.sess := rfl
@[simp] theorem State.sendDown_forme (s : State) (n : LaneId) (it : Item) : (s.sendDown n it).forme = s.forme := rfl
@[simp] theorem State.sendDown_imp (s : State) (n : LaneId) (it : Item) : (s.sendDown n it).imp = s.imp := rfl
@[simp] theorem State.sendDown_grants (s : State) (n : LaneId) (it : Item) : (s.sendDown n it).grants = s.grants := rfl
@[simp] theorem State.sendDown_chase (s : State) (n : LaneId) (it : Item) : (s.sendDown n it).chase = s.chase := rfl
@[simp] theorem State.sendDown_sb (s : State) (n : LaneId) (it : Item) : (s.sendDown n it).sb = s.sb := rfl
@[simp] theorem State.sendDown_fix (s : State) (n : LaneId) (it : Item) : (s.sendDown n it).fix = s.fix := rfl
@[simp] theorem State.sendDown_ru (s : State) (n : LaneId) (it : Item) : (s.sendDown n it).ru = s.ru := rfl
@[simp] theorem State.sendDown_ptpA (s : State) (n : LaneId) (it : Item) : (s.sendDown n it).ptpA = s.ptpA := rfl
@[simp] theorem State.sendDown_ptpB (s : State) (n : LaneId) (it : Item) : (s.sendDown n it).ptpB = s.ptpB := rfl

@[simp] theorem State.sendUp_pending (s : State) (n : LaneId) (it : Item) : (s.sendUp n it).pending = s.pending := rfl
@[simp] theorem State.sendUp_th8 (s : State) (n : LaneId) (it : Item) : (s.sendUp n it).th8 = s.th8 := rfl
@[simp] theorem State.sendUp_freeCtr (s : State) (n : LaneId) (it : Item) : (s.sendUp n it).freeCtr = s.freeCtr := rfl
@[simp] theorem State.sendUp_stepNo (s : State) (n : LaneId) (it : Item) : (s.sendUp n it).stepNo = s.stepNo := rfl
@[simp] theorem State.sendUp_clock (s : State) (n : LaneId) (it : Item) : (s.sendUp n it).clock = s.clock := rfl
@[simp] theorem State.sendUp_regs (s : State) (n : LaneId) (it : Item) : (s.sendUp n it).regs = s.regs := rfl
@[simp] theorem State.sendUp_image (s : State) (n : LaneId) (it : Item) : (s.sendUp n it).image = s.image := rfl
@[simp] theorem State.sendUp_frozen (s : State) (n : LaneId) (it : Item) : (s.sendUp n it).frozen = s.frozen := rfl
@[simp] theorem State.sendUp_pwr (s : State) (n : LaneId) (it : Item) : (s.sendUp n it).pwr = s.pwr := rfl
@[simp] theorem State.sendUp_evg (s : State) (n : LaneId) (it : Item) : (s.sendUp n it).evg = s.evg := rfl
@[simp] theorem State.sendUp_log (s : State) (n : LaneId) (it : Item) : (s.sendUp n it).log = s.log := rfl
@[simp] theorem State.sendUp_quoins (s : State) (n : LaneId) (it : Item) : (s.sendUp n it).quoins = s.quoins := rfl
@[simp] theorem State.sendUp_sess (s : State) (n : LaneId) (it : Item) : (s.sendUp n it).sess = s.sess := rfl
@[simp] theorem State.sendUp_forme (s : State) (n : LaneId) (it : Item) : (s.sendUp n it).forme = s.forme := rfl
@[simp] theorem State.sendUp_imp (s : State) (n : LaneId) (it : Item) : (s.sendUp n it).imp = s.imp := rfl
@[simp] theorem State.sendUp_grants (s : State) (n : LaneId) (it : Item) : (s.sendUp n it).grants = s.grants := rfl
@[simp] theorem State.sendUp_chase (s : State) (n : LaneId) (it : Item) : (s.sendUp n it).chase = s.chase := rfl
@[simp] theorem State.sendUp_sb (s : State) (n : LaneId) (it : Item) : (s.sendUp n it).sb = s.sb := rfl
@[simp] theorem State.sendUp_fix (s : State) (n : LaneId) (it : Item) : (s.sendUp n it).fix = s.fix := rfl
@[simp] theorem State.sendUp_ru (s : State) (n : LaneId) (it : Item) : (s.sendUp n it).ru = s.ru := rfl
@[simp] theorem State.sendUp_ptpA (s : State) (n : LaneId) (it : Item) : (s.sendUp n it).ptpA = s.ptpA := rfl
@[simp] theorem State.sendUp_ptpB (s : State) (n : LaneId) (it : Item) : (s.sendUp n it).ptpB = s.ptpB := rfl

/-! ### Register words -/

@[simp] theorem State.wd_setWd_same (s : State) (a : Nat) (v : Word) : (s.setWd a v).wd a = v := sget_sset_same _ _ _ _
theorem State.wd_setWd_ne (s : State) {a b : Nat} (v : Word) (h : b ≠ a) : (s.setWd a v).wd b = s.wd b := sget_sset_ne _ _ _ h
theorem State.wd_setWd (s : State) (a b : Nat) (v : Word) : (s.setWd a v).wd b = if b = a then v else s.wd b := sget_sset _ _ _ _ _
theorem State.wd_p (s : State) (f : Fld) (n i v b : Nat) :
    (s.p f n i v).wd b = if b = f.addr n i then withBits (s.wd (f.addr n i)) f.hi f.lo v else s.wd b := State.wd_setWd ..
theorem State.wd_setHw (s : State) (q : Page) (o : Nat) (v : Word) (b : Nat) :
    (s.setHw q o v).wd b = if b = q.at_ o then v else s.wd b := State.wd_setWd ..
@[simp] theorem State.hw_setHw_same (s : State) (q : Page) (o : Nat) (v : Word) : (s.setHw q o v).hw q o = v := State.wd_setWd_same ..

@[simp] theorem State.wd_setLane (s : State) (n : LaneId) (l : Lane) (b : Nat) : (s.setLane n l).wd b = s.wd b := rfl
@[simp] theorem State.g_setLane (s : State) (n : LaneId) (l : Lane) (fd : Fld) (m j : Nat) : (s.setLane n l).g fd m j = s.g fd m j := rfl
@[simp] theorem State.wd_upLane (s : State) (n : LaneId) (f : Lane → Lane) (b : Nat) : (s.upLane n f).wd b = s.wd b := rfl
@[simp] theorem State.g_upLane (s : State) (n : LaneId) (f : Lane → Lane) (fd : Fld) (m j : Nat) : (s.upLane n f).g fd m j = s.g fd m j := rfl
@[simp] theorem State.wd_upLink (s : State) (n : LaneId) (f : Link → Link) (b : Nat) : (s.upLink n f).wd b = s.wd b := rfl
@[simp] theorem State.g_upLink (s : State) (n : LaneId) (f : Link → Link) (fd : Fld) (m j : Nat) : (s.upLink n f).g fd m j = s.g fd m j := rfl
@[simp] theorem State.wd_upGal (s : State) (n : LaneId) (f : Gal → Gal) (b : Nat) : (s.upGal n f).wd b = s.wd b := rfl
@[simp] theorem State.g_upGal (s : State) (n : LaneId) (f : Gal → Gal) (fd : Fld) (m j : Nat) : (s.upGal n f).g fd m j = s.g fd m j := rfl
@[simp] theorem State.wd_upEng (s : State) (n : LaneId) (f : Eng → Eng) (b : Nat) : (s.upEng n f).wd b = s.wd b := rfl
@[simp] theorem State.g_upEng (s : State) (n : LaneId) (f : Eng → Eng) (fd : Fld) (m j : Nat) : (s.upEng n f).g fd m j = s.g fd m j := rfl
@[simp] theorem State.wd_upSess (s : State) (k : SessId) (f : Session → Session) (b : Nat) : (s.upSess k f).wd b = s.wd b := rfl
@[simp] theorem State.g_upSess (s : State) (k : SessId) (f : Session → Session) (fd : Fld) (m j : Nat) : (s.upSess k f).g fd m j = s.g fd m j := rfl
@[simp] theorem State.wd_setSrc (s : State) (i : Nat) (x : Src) (b : Nat) : (s.setSrc i x).wd b = s.wd b := rfl
@[simp] theorem State.g_setSrc (s : State) (i : Nat) (x : Src) (fd : Fld) (m j : Nat) : (s.setSrc i x).g fd m j = s.g fd m j := rfl
@[simp] theorem State.wd_setCoal (s : State) (c : Nat) (x : Coal) (b : Nat) : (s.setCoal c x).wd b = s.wd b := rfl
@[simp] theorem State.g_setCoal (s : State) (c : Nat) (x : Coal) (fd : Fld) (m j : Nat) : (s.setCoal c x).g fd m j = s.g fd m j := rfl
@[simp] theorem State.wd_strike (s : State) (a : Nat) (x : Word) (b : Nat) : (s.strike a x).wd b = s.wd b := rfl
@[simp] theorem State.g_strike (s : State) (a : Nat) (x : Word) (fd : Fld) (m j : Nat) : (s.strike a x).g fd m j = s.g fd m j := rfl
@[simp] theorem State.wd_sendDown (s : State) (n : LaneId) (it : Item) (b : Nat) : (s.sendDown n it).wd b = s.wd b := rfl
@[simp] theorem State.g_sendDown (s : State) (n : LaneId) (it : Item) (fd : Fld) (m j : Nat) : (s.sendDown n it).g fd m j = s.g fd m j := rfl
@[simp] theorem State.wd_sendUp (s : State) (n : LaneId) (it : Item) (b : Nat) : (s.sendUp n it).wd b = s.wd b := rfl
@[simp] theorem State.g_sendUp (s : State) (n : LaneId) (it : Item) (fd : Fld) (m j : Nat) : (s.sendUp n it).g fd m j = s.g fd m j := rfl

/-! ### Lanes and sessions -/

@[simp] theorem State.lane_setWd (s : State) (a : Nat) (v : Word) (m : LaneId) : (s.setWd a v).lane m = s.lane m := rfl
@[simp] theorem State.lane_p (s : State) (f : Fld) (n i v : Nat) (m : LaneId) : (s.p f n i v).lane m = s.lane m := rfl
@[simp] theorem State.lane_put (s : State) (f : Fld) (n v : Nat) (m : LaneId) : (s.put f n v).lane m = s.lane m := rfl
@[simp] theorem State.lane_bump (s : State) (f : Fld) (n i k : Nat) (m : LaneId) : (s.bump f n i k).lane m = s.lane m := rfl
@[simp] theorem State.lane_setHw (s : State) (q : Page) (o : Nat) (v : Word) (m : LaneId) : (s.setHw q o v).lane m = s.lane m := rfl
@[simp] theorem State.lane_upSess (s : State) (k : SessId) (f : Session → Session) (m : LaneId) : (s.upSess k f).lane m = s.lane m := rfl
@[simp] theorem State.lane_setSrc (s : State) (i : Nat) (x : Src) (m : LaneId) : (s.setSrc i x).lane m = s.lane m := rfl
@[simp] theorem State.lane_setCoal (s : State) (c : Nat) (x : Coal) (m : LaneId) : (s.setCoal c x).lane m = s.lane m := rfl
@[simp] theorem State.lane_strike (s : State) (a : Nat) (x : Word) (m : LaneId) : (s.strike a x).lane m = s.lane m := rfl

@[simp] theorem State.lane_setLane_same (s : State) (n : LaneId) (l : Lane) : (s.setLane n l).lane n = l := by
  simp [State.setLane, State.lane]
theorem State.lane_setLane_ne (s : State) {n m : LaneId} (l : Lane) (h : m ≠ n) : (s.setLane n l).lane m = s.lane m := by
  simp only [State.setLane, State.lane]
  exact Vector.getElem_set_ne _ _ (fun e => h (Fin.ext e.symm))
@[simp] theorem State.lane_upLane_same (s : State) (n : LaneId) (f : Lane → Lane) : (s.upLane n f).lane n = f (s.lane n) :=
  State.lane_setLane_same ..
theorem State.lane_upLane_ne (s : State) {n m : LaneId} (f : Lane → Lane) (h : m ≠ n) : (s.upLane n f).lane m = s.lane m :=
  State.lane_setLane_ne s _ h
@[simp] theorem State.eng_upEng_same (s : State) (n : LaneId) (f : Eng → Eng) : (s.upEng n f).eng n = f (s.eng n) := by
  simp only [State.eng, State.upEng, State.lane_upLane_same]
theorem State.eng_upEng_ne (s : State) {n m : LaneId} (f : Eng → Eng) (h : m ≠ n) : (s.upEng n f).eng m = s.eng m := by
  simp only [State.eng, State.upEng, State.lane_upLane_ne s _ h]
@[simp] theorem State.mem_upEng (s : State) (n m : LaneId) (f : Eng → Eng) : ((s.upEng n f).lane m).mem = (s.lane m).mem := by
  by_cases h : m = n
  · subst h; simp [State.upEng]
  · rw [State.upEng, State.lane_upLane_ne s _ h]
@[simp] theorem State.session_upSess_same (s : State) (k : SessId) (f : Session → Session) :
    (s.upSess k f).session k = f (s.session k) := by
  simp [State.upSess, State.session]
theorem State.session_upSess_ne (s : State) {k j : SessId} (f : Session → Session) (h : j ≠ k) :
    (s.upSess k f).session j = s.session j := by
  simp only [State.upSess, State.session]
  exact Vector.getElem_set_ne _ _ (fun e => h (Fin.ext e.symm))

/-! ### The gatherer -/

@[simp] theorem State.src_setSrc_same (s : State) (i : Nat) (x : Src) : (s.setSrc i x).src i = x := sget_sset_same _ _ _ _
theorem State.src_setSrc_ne (s : State) {i j : Nat} (x : Src) (h : j ≠ i) : (s.setSrc i x).src j = s.src j := sget_sset_ne _ _ _ h
@[simp] theorem State.src_strike (s : State) (a : Nat) (m : Word) (j : Nat) : (s.strike a m).src j = s.src j := rfl
@[simp] theorem State.session_strike (s : State) (a : Nat) (m : Word) (k : SessId) : (s.strike a m).session k = s.session k := rfl
@[simp] theorem State.src_setCoal (s : State) (c : Nat) (x : Coal) (j : Nat) : (s.setCoal c x).src j = s.src j := rfl

end Sys2Proof.Machine
end

