-- ==== Sys2Proof/Laws/Mmu.lean ====
section
/-! SUPPORT. What a translation does to the state: it enters the TLBs of its lane's compositor and changes nothing else. -/

namespace Sys2Proof.Machine

theorem State.upEng_self (s : State) (n : LaneId) : s.upEng n (fun e => { e with tlb := (s.eng n).tlb, dtlb := (s.eng n).dtlb }) = s := by
  have h : s.lanes.set n ((fun l : Lane => { l with eng := { l.eng with tlb := (s.eng n).tlb, dtlb := (s.eng n).dtlb } }) s.lanes[n]) = s.lanes := by
    apply Vector.ext
    intro i hi
    rw [Vector.getElem_set]
    split
    · rename_i he; subst he; rfl
    · rfl
  unfold State.upEng State.upLane
  exact congrArg (fun v => { s with lanes := v }) h

/-- A translation leaves the state as it was but for the TLBs of the lane's compositor (R432). -/
theorem State.translate_state (s : State) (n : LaneId) (va : Nat) (x : Access) :
    ∃ tl dl, (s.translate n va x).2 = s.upEng n fun e => { e with tlb := tl, dtlb := dl } := by
  have same : ∃ tl dl, s = s.upEng n fun e => { e with tlb := tl, dtlb := dl } := ⟨_, _, (State.upEng_self s n).symm⟩
  unfold State.translate
  simp only []
  split
  · exact same
  · split
    · split <;> exact same
    · split
      · exact same
      · split
        · exact same
        · split
          · exact same
          · rename_i e ppn perm _ _ _
            refine ⟨if x.dma then (s.eng n).tlb else tlbEnter (s.eng n).tlb (tlbSize false) ⟨va / 4096, ppn, perm⟩,
              if x.dma then tlbEnter (s.eng n).dtlb (tlbSize true) ⟨va / 4096, ppn, perm⟩ else (s.eng n).dtlb, ?_⟩
            unfold State.upEng State.upLane State.eng State.lane
            cases x.dma <;> rfl

/-- So does an access of the compositor itself. -/
theorem State.engXlate_state (s : State) (n : LaneId) (va : Nat) (w : Way) :
    ∃ tl dl, (s.engXlate n va w).2 = s.upEng n fun e => { e with tlb := tl, dtlb := dl } := by
  unfold State.engXlate
  simp only []
  split
  · exact State.translate_state s n va _
  · split <;> exact ⟨_, _, (State.upEng_self s n).symm⟩

end Sys2Proof.Machine
end

