-- ==== Sys2Proof/Laws/Gal.lean ====
section
/-! SUPPORT. The words that command the galley and the DMA channels, one by one. -/

namespace Sys2Proof.Machine

/-! ### What lane store, the galley and the registers leave of each other -/

@[simp] theorem State.memWord_upGal (s : State) (n : LaneId) (f : Gal → Gal) (a : Nat) : (s.upGal n f).memWord n a = s.memWord n a := by
  simp [State.memWord, State.memNat, State.upGal]
@[simp] theorem State.g_putMem (s : State) (n : LaneId) (a : Nat) (bs : List Byte) (f : Fld) (m i : Nat) :
    (s.putMem n a bs).g f m i = s.g f m i := rfl
@[simp] theorem State.g_putWord (s : State) (n : LaneId) (a : Nat) (v : Word) (f : Fld) (m i : Nat) :
    (s.putWord n a v).g f m i = s.g f m i := rfl

/-- A translation reaches no register and nothing of the galley (R432). -/
theorem State.translate_keeps {s t : State} {n : LaneId} {va : Nat} {x : Access} {r : Except XFault Nat} (h : s.translate n va x = (r, t)) :
    (∀ f m i, t.g f m i = s.g f m i) ∧ t.gal n = s.gal n := by
  obtain ⟨tl, dl, e⟩ := State.translate_state s n va x
  rw [h] at e
  subst e
  exact ⟨fun _ _ _ => rfl, by simp [State.gal, State.upEng]⟩

theorem galEff_ctl (n : LaneId) (v proof : Word) : galEff n 0x20 v proof = galCtlEff n v := by
  funext s; simp only [galEff, if_true]

theorem galEff_release (n : LaneId) (v proof : Word) : galEff n 0x29 v proof = fun s => s.galRelease n v := by
  funext s; simp [galEff]

theorem galEff_resume (n : LaneId) (proof : Word) : galEff n 0x2F 1 proof = fun s => s.d0Resume n := by
  funext s; simp [galEff, show bitAt (1#32) 0 = true by decide]

theorem galEff_d1 (n : LaneId) (v proof : Word) : galEff n 0x35 v proof = d1CtlEff n v := by
  funext s; simp [galEff]

/-- A release above RCOUNT, in the first 2³² slugs: RCOUNT takes it (R442). -/
theorem galRelease_up (s : State) (n : LaneId) (x : Word) (h : (s.gal n).wcount < 2 ^ 32) (hr : (s.gal n).rcount < x.toNat)
    (hw : x.toNat ≤ (s.gal n).wcount) :
    s.galRelease n x = (s.upGal n fun g =>
      { g with rcount := x.toNat, lossNoted := g.lossNoted && decide (s.g LANE.GAL_SIZE n ≤ g.wcount - x.toNat) }).galShow n := by
  have e : ((s.gal n).wcount : Int) - (((s.gal n).wcount : Int) - (x.toNat : Int)) % (2 ^ 32 : Nat) = x.toNat := by omega
  simp only [State.galRelease, e, Int.toNat_natCast]
  rw [if_pos (by omega)]

end Sys2Proof.Machine
end

