-- ==== Sys2Proof/Laws/Ops.lean ====
section
/-! SUPPORT. What the shared operations do: writing a register field, raising an event bit, counting an occurrence at a source, and the
press of one word. -/

namespace Sys2Proof

/-! ### Bits of a word -/

theorem bitMask_getLsbD (hi lo i : Nat) (h : lo ≤ hi) (hi32 : hi < 32) : (bitMask hi lo).getLsbD i = (decide (lo ≤ i) && decide (i ≤ hi)) := by
  simp only [bitMask, BitVec.getLsbD_ofNat, Nat.testBit_shiftLeft, Nat.testBit_two_pow_sub_one]
  by_cases h1 : lo ≤ i <;> by_cases h2 : i ≤ hi <;> simp [h1, h2] <;> omega

theorem withBits_getLsbD (w : Word) (hi lo v i : Nat) (h : lo ≤ hi) (hi32 : hi < 32) :
    (withBits w hi lo v).getLsbD i = if lo ≤ i ∧ i ≤ hi then v.testBit (i - lo) else w.getLsbD i := by
  simp only [withBits, BitVec.getLsbD_or, BitVec.getLsbD_and, BitVec.getLsbD_not, bitMask_getLsbD hi lo i h hi32, BitVec.getLsbD_ofNat,
    Nat.testBit_shiftLeft, Nat.testBit_mod_two_pow]
  by_cases h1 : lo ≤ i <;> by_cases h2 : i ≤ hi
  · simp [h1, h2, show i < 32 by omega, show i - lo < hi + 1 - lo by omega]
  · by_cases h3 : i < 32
    · simp [h1, h2, h3, show ¬ i - lo < hi + 1 - lo by omega]
    · simp [h1, h2, h3, BitVec.getLsbD_of_ge w i (Nat.le_of_not_lt h3)]
  · by_cases h3 : i < 32
    · simp [h1, h3]
    · simp [h1, h3, BitVec.getLsbD_of_ge w i (Nat.le_of_not_lt h3)]
  · omega

theorem bitsOf_testBit (w : Word) (hi lo i : Nat) : (bitsOf w hi lo).testBit i = (decide (i < hi + 1 - lo) && w.getLsbD (lo + i)) := by
  simp only [bitsOf, Nat.testBit_mod_two_pow, Nat.testBit_shiftRight]
  rfl

/-- A field reads what was written into it, cut to its width. -/
theorem bitsOf_withBits_same (w : Word) (hi lo v : Nat) (h : lo ≤ hi) (hi32 : hi < 32) :
    bitsOf (withBits w hi lo v) hi lo = v % 2 ^ (hi + 1 - lo) := by
  apply Nat.eq_of_testBit_eq
  intro i
  rw [bitsOf_testBit, withBits_getLsbD _ _ _ _ _ h hi32, Nat.testBit_mod_two_pow]
  by_cases hk : i < hi + 1 - lo
  · simp [hk, show lo ≤ lo + i ∧ lo + i ≤ hi by omega]
  · simp [hk]

/-- Writing a field leaves every other bit of the word. -/
theorem bitsOf_withBits_ne (w : Word) (hi lo v hi' lo' : Nat) (h : lo ≤ hi) (hi32 : hi < 32) (hd : hi < lo' ∨ hi' < lo) :
    bitsOf (withBits w hi lo v) hi' lo' = bitsOf w hi' lo' := by
  apply Nat.eq_of_testBit_eq
  intro i
  rw [bitsOf_testBit, bitsOf_testBit, withBits_getLsbD _ _ _ _ _ h hi32]
  by_cases hk : i < hi' + 1 - lo'
  · rw [if_neg (by omega)]
  · simp [hk]

theorem bitsOf_lt (w : Word) (hi lo : Nat) : bitsOf w hi lo < 2 ^ (hi + 1 - lo) := Nat.mod_lt _ (Nat.two_pow_pos _)

end Sys2Proof

namespace Sys2Proof.Machine

/-! ### Fields -/

/-- The field lies inside a word. -/
def Fld.ok (f : Fld) : Bool := decide (f.lo ≤ f.hi) && decide (f.hi < 32)

theorem Fld.ok_iff {f : Fld} : f.ok = true ↔ f.lo ≤ f.hi ∧ f.hi < 32 := by simp [Fld.ok]

/-- Writing a field and reading it back gives the value, cut to the field's width. -/
theorem State.g_p_same (s : State) (f : Fld) (n i v : Nat) (h : f.ok = true) : (s.p f n i v).g f n i = v % 2 ^ f.width := by
  simp only [State.g, State.wd_p, if_true]
  exact bitsOf_withBits_same _ _ _ _ (Fld.ok_iff.mp h).1 (Fld.ok_iff.mp h).2

/-- Two fields that share no bit. -/
def Fld.apart (f : Fld) (n i : Nat) (x : Fld) (m j : Nat) : Prop := x.addr m j ≠ f.addr n i ∨ f.hi < x.lo ∨ x.hi < f.lo

/-- Writing a field leaves every field that shares no bit with it. -/
theorem State.g_p_ne (s : State) (f : Fld) (n i v : Nat) (x : Fld) (m j : Nat) (h : f.ok = true) (ha : f.apart n i x m j) :
    (s.p f n i v).g x m j = s.g x m j := by
  simp only [State.g, State.wd_p]
  split
  · rename_i he
    rcases ha with ha | ha
    · exact absurd he ha
    · rw [he, bitsOf_withBits_ne _ _ _ _ _ _ (Fld.ok_iff.mp h).1 (Fld.ok_iff.mp h).2 ha]
  · rfl

theorem State.put_eq (s : State) (f : Fld) (n v : Nat) : s.put f n v = s.p f n 0 v := rfl
theorem State.bump_eq (s : State) (f : Fld) (n i k : Nat) : s.bump f n i k = s.p f n i (min (s.g f n i + k) (2 ^ f.width - 1)) := rfl

theorem State.g_put_same (s : State) (f : Fld) (n v : Nat) (h : f.ok = true) : (s.put f n v).g f n 0 = v % 2 ^ f.width :=
  State.g_p_same s f n 0 v h
theorem State.g_put_ne (s : State) (f : Fld) (n v : Nat) (x : Fld) (m j : Nat) (h : f.ok = true) (ha : f.apart n 0 x m j) :
    (s.put f n v).g x m j = s.g x m j := State.g_p_ne s f n 0 v x m j h ha
theorem State.g_lt (s : State) (f : Fld) (n i : Nat) : s.g f n i < 2 ^ f.width := bitsOf_lt _ _ _

/-- A counter advances and saturates at its all-ones value (R126). -/
theorem State.g_bump_same (s : State) (f : Fld) (n i k : Nat) (h : f.ok = true) :
    (s.bump f n i k).g f n i = min (s.g f n i + k) (2 ^ f.width - 1) := by
  rw [State.bump_eq, State.g_p_same _ _ _ _ _ h]
  exact Nat.mod_eq_of_lt (Nat.lt_of_le_of_lt (Nat.min_le_right _ _) (Nat.sub_lt (Nat.two_pow_pos _) (by decide)))
theorem State.g_bump_ne (s : State) (f : Fld) (n i k : Nat) (x : Fld) (m j : Nat) (h : f.ok = true) (ha : f.apart n i x m j) :
    (s.bump f n i k).g x m j = s.g x m j := State.g_p_ne s f n i _ x m j h ha

/-! ### Occurrences and event bits: only the gatherer moves, and what a WRITE in progress may still clear -/

/-- The same state but for the gatherer and for what the proof of a transaction in progress still covers (R93). -/
def SameButEvg (s t : State) : Prop := ∃ e x, t = { s with evg := e, forme := { s.forme with started := x } }

theorem SameButEvg.refl (s : State) : SameButEvg s s := ⟨s.evg, s.forme.started, rfl⟩
theorem SameButEvg.trans {s t u : State} (h : SameButEvg s t) (k : SameButEvg t u) : SameButEvg s u := by
  obtain ⟨e, x, rfl⟩ := h; obtain ⟨e', x', rfl⟩ := k; exact ⟨e', x', rfl⟩
theorem SameButEvg.of_setSrc (s : State) (i : Nat) (x : Src) : SameButEvg s (s.setSrc i x) := ⟨_, _, rfl⟩
theorem SameButEvg.of_setCoal (s : State) (c : Nat) (x : Coal) : SameButEvg s (s.setCoal c x) := ⟨_, _, rfl⟩
theorem SameButEvg.of_strike (s : State) (a : Nat) (m : Word) : SameButEvg s (s.strike a m) := ⟨_, _, rfl⟩
theorem SameButEvg.of_countAt (s : State) (c : Nat) (b : Bool) : SameButEvg s (s.countAt c b) := ⟨_, _, rfl⟩
theorem SameButEvg.of_makePending (s : State) (i : Nat) : SameButEvg s (s.makePending i) := ⟨_, _, rfl⟩
theorem SameButEvg.foldl {α : Type} (f : State → α → State) (hf : ∀ s a, SameButEvg s (f s a)) (l : List α) (s : State) :
    SameButEvg s (l.foldl f s) := by
  induction l generalizing s with
  | nil => exact .refl s
  | cons a r ih => exact (hf s a).trans (ih _)

theorem SameButEvg.of_fire (s : State) (c : Nat) : SameButEvg s (s.fire c) := by
  unfold State.fire
  exact (SameButEvg.foldl _ (fun s i => .of_setSrc s i _) _ s).trans (.of_setCoal _ _ _)

theorem SameButEvg.of_fireIfCounted (s : State) (c : Nat) : SameButEvg s (s.fireIfCounted c) := by
  unfold State.fireIfCounted; split
  · exact .of_fire s c
  · exact .refl s

theorem SameButEvg.of_occur (s : State) (i : Nat) : SameButEvg s (s.occur i) := by
  unfold State.occur
  simp only []
  split
  · exact .refl s
  · refine (SameButEvg.of_strike s (Page.evg.at_ (0xE0 + i / 32)) (bitMask (i % 32) (i % 32))).trans ?_
    split
    · split
      · exact .of_makePending _ i
      · exact .refl _
    · split
      · split
        · exact (SameButEvg.of_makePending _ i).trans (.of_fire _ _)
        · exact ((SameButEvg.of_setSrc _ i _).trans (.of_countAt _ _ _)).trans (.of_fireIfCounted _ _)
      · exact (SameButEvg.of_countAt _ _ _).trans (.of_fireIfCounted _ _)

theorem SameButEvg.of_afterDone (s : State) (i : Nat) : SameButEvg s (s.afterDone i) := by
  unfold State.afterDone
  simp only []
  split
  · exact (SameButEvg.of_setSrc s i _).trans (.of_occur _ _)
  · exact .of_setSrc s i _

/-- Raising an event bit sets the bit, and beside it only the gatherer moves and what an EV_CLR in progress may still clear. -/
theorem State.raise_eq (s : State) (q : Page) (b : Nat) : SameButEvg (s.setHw q 4 (s.hw q 4 ||| bitMask b b)) (s.raise q b) := by
  unfold State.raise
  simp only []
  refine (SameButEvg.of_strike _ (q.at_ 5) (bitMask b b)).trans ?_
  split
  · exact .refl _
  · exact .of_occur _ _

theorem State.wd_raise (s : State) (q : Page) (b a : Nat) :
    (s.raise q b).wd a = if a = q.at_ 4 then s.hw q 4 ||| bitMask b b else s.wd a := by
  obtain ⟨e, x, he⟩ := State.raise_eq s q b
  rw [he]; exact State.wd_setHw s q 4 _ a

/-- The event bit is set. -/
theorem State.hw_raise_same (s : State) (q : Page) (b : Nat) (h : b < 32) : bitAt ((s.raise q b).hw q 4) b = true := by
  simp only [State.hw, State.wd_raise, if_true, bitAt, BitVec.getLsbD_or, bitMask_getLsbD b b b (Nat.le_refl b) h]
  simp

theorem State.g_raise (s : State) (q : Page) (b : Nat) (x : Fld) (m j : Nat) (h : x.addr m j ≠ q.at_ 4) :
    (s.raise q b).g x m j = s.g x m j := by
  simp only [State.g, State.wd_raise, if_neg h]

@[simp] theorem State.raise_pending (s : State) (q : Page) (b : Nat) : (s.raise q b).pending = s.pending := by
  obtain ⟨e, x, he⟩ := State.raise_eq s q b; rw [he]; rfl
@[simp] theorem State.raise_th8 (s : State) (q : Page) (b : Nat) : (s.raise q b).th8 = s.th8 := by
  obtain ⟨e, x, he⟩ := State.raise_eq s q b; rw [he]; rfl
@[simp] theorem State.raise_freeCtr (s : State) (q : Page) (b : Nat) : (s.raise q b).freeCtr = s.freeCtr := by
  obtain ⟨e, x, he⟩ := State.raise_eq s q b; rw [he]; rfl
@[simp] theorem State.raise_stepNo (s : State) (q : Page) (b : Nat) : (s.raise q b).stepNo = s.stepNo := by
  obtain ⟨e, x, he⟩ := State.raise_eq s q b; rw [he]; rfl
@[simp] theorem State.raise_clock (s : State) (q : Page) (b : Nat) : (s.raise q b).clock = s.clock := by
  obtain ⟨e, x, he⟩ := State.raise_eq s q b; rw [he]; rfl
@[simp] theorem State.raise_image (s : State) (q : Page) (b : Nat) : (s.raise q b).image = s.image := by
  obtain ⟨e, x, he⟩ := State.raise_eq s q b; rw [he]; rfl
@[simp] theorem State.raise_frozen (s : State) (q : Page) (b : Nat) : (s.raise q b).frozen = s.frozen := by
  obtain ⟨e, x, he⟩ := State.raise_eq s q b; rw [he]; rfl
@[simp] theorem State.raise_pwr (s : State) (q : Page) (b : Nat) : (s.raise q b).pwr = s.pwr := by
  obtain ⟨e, x, he⟩ := State.raise_eq s q b; rw [he]; rfl
@[simp] theorem State.raise_log (s : State) (q : Page) (b : Nat) : (s.raise q b).log = s.log := by
  obtain ⟨e, x, he⟩ := State.raise_eq s q b; rw [he]; rfl
@[simp] theorem State.raise_quoins (s : State) (q : Page) (b : Nat) : (s.raise q b).quoins = s.quoins := by
  obtain ⟨e, x, he⟩ := State.raise_eq s q b; rw [he]; rfl
@[simp] theorem State.raise_sess (s : State) (q : Page) (b : Nat) : (s.raise q b).sess = s.sess := by
  obtain ⟨e, x, he⟩ := State.raise_eq s q b; rw [he]; rfl
/-- Of the Forme port, a raise moves only what the transaction in progress may still clear. -/
theorem State.raise_forme (s : State) (q : Page) (b : Nat) : ∃ x, (s.raise q b).forme = { s.forme with started := x } := by
  obtain ⟨e, x, he⟩ := State.raise_eq s q b; exact ⟨x, by rw [he]; rfl⟩
@[simp] theorem State.raise_imp (s : State) (q : Page) (b : Nat) : (s.raise q b).imp = s.imp := by
  obtain ⟨e, x, he⟩ := State.raise_eq s q b; rw [he]; rfl
@[simp] theorem State.raise_grants (s : State) (q : Page) (b : Nat) : (s.raise q b).grants = s.grants := by
  obtain ⟨e, x, he⟩ := State.raise_eq s q b; rw [he]; rfl
@[simp] theorem State.raise_chase (s : State) (q : Page) (b : Nat) : (s.raise q b).chase = s.chase := by
  obtain ⟨e, x, he⟩ := State.raise_eq s q b; rw [he]; rfl
@[simp] theorem State.raise_sb (s : State) (q : Page) (b : Nat) : (s.raise q b).sb = s.sb := by
  obtain ⟨e, x, he⟩ := State.raise_eq s q b; rw [he]; rfl
@[simp] theorem State.raise_fix (s : State) (q : Page) (b : Nat) : (s.raise q b).fix = s.fix := by
  obtain ⟨e, x, he⟩ := State.raise_eq s q b; rw [he]; rfl
@[simp] theorem State.raise_ru (s : State) (q : Page) (b : Nat) : (s.raise q b).ru = s.ru := by
  obtain ⟨e, x, he⟩ := State.raise_eq s q b; rw [he]; rfl
@[simp] theorem State.raise_ptpA (s : State) (q : Page) (b : Nat) : (s.raise q b).ptpA = s.ptpA := by
  obtain ⟨e, x, he⟩ := State.raise_eq s q b; rw [he]; rfl
@[simp] theorem State.raise_ptpB (s : State) (q : Page) (b : Nat) : (s.raise q b).ptpB = s.ptpB := by
  obtain ⟨e, x, he⟩ := State.raise_eq s q b; rw [he]; rfl
@[simp] theorem State.raise_lanes (s : State) (q : Page) (b : Nat) : (s.raise q b).lanes = s.lanes := by
  obtain ⟨e, x, he⟩ := State.raise_eq s q b; rw [he]; rfl
@[simp] theorem State.occur_pending (s : State) (i : Nat) : (s.occur i).pending = s.pending := by
  obtain ⟨e, x, he⟩ := SameButEvg.of_occur s i; rw [he]
@[simp] theorem State.occur_stepNo (s : State) (i : Nat) : (s.occur i).stepNo = s.stepNo := by
  obtain ⟨e, x, he⟩ := SameButEvg.of_occur s i; rw [he]
@[simp] theorem State.occur_clock (s : State) (i : Nat) : (s.occur i).clock = s.clock := by
  obtain ⟨e, x, he⟩ := SameButEvg.of_occur s i; rw [he]
@[simp] theorem State.occur_regs (s : State) (i : Nat) : (s.occur i).regs = s.regs := by
  obtain ⟨e, x, he⟩ := SameButEvg.of_occur s i; rw [he]
@[simp] theorem State.occur_image (s : State) (i : Nat) : (s.occur i).image = s.image := by
  obtain ⟨e, x, he⟩ := SameButEvg.of_occur s i; rw [he]
@[simp] theorem State.occur_pwr (s : State) (i : Nat) : (s.occur i).pwr = s.pwr := by
  obtain ⟨e, x, he⟩ := SameButEvg.of_occur s i; rw [he]
@[simp] theorem State.occur_quoins (s : State) (i : Nat) : (s.occur i).quoins = s.quoins := by
  obtain ⟨e, x, he⟩ := SameButEvg.of_occur s i; rw [he]
@[simp] theorem State.occur_sess (s : State) (i : Nat) : (s.occur i).sess = s.sess := by
  obtain ⟨e, x, he⟩ := SameButEvg.of_occur s i; rw [he]
@[simp] theorem State.occur_chase (s : State) (i : Nat) : (s.occur i).chase = s.chase := by
  obtain ⟨e, x, he⟩ := SameButEvg.of_occur s i; rw [he]
@[simp] theorem State.occur_imp (s : State) (i : Nat) : (s.occur i).imp = s.imp := by
  obtain ⟨e, x, he⟩ := SameButEvg.of_occur s i; rw [he]
@[simp] theorem State.occur_lanes (s : State) (i : Nat) : (s.occur i).lanes = s.lanes := by
  obtain ⟨e, x, he⟩ := SameButEvg.of_occur s i; rw [he]
@[simp] theorem State.lane_raise (s : State) (q : Page) (b : Nat) (n : LaneId) : (s.raise q b).lane n = s.lane n := by
  simp only [State.lane, State.raise_lanes]
@[simp] theorem State.session_raise (s : State) (q : Page) (b : Nat) (k : SessId) : (s.raise q b).session k = s.session k := by
  simp only [State.session, State.raise_sess]

/-! ### Readings that updates of registers leave alone -/

@[simp] theorem State.awake_setWd (s : State) (a : Nat) (v : Word) : (s.setWd a v).awake = s.awake := rfl
@[simp] theorem State.fitted_setWd (s : State) (a : Nat) (v : Word) (m : LaneId) : (s.setWd a v).fitted m = s.fitted m := rfl
@[simp] theorem State.farUp_setWd (s : State) (a : Nat) (v : Word) (m : LaneId) : (s.setWd a v).farUp m = s.farUp m := rfl
@[simp] theorem State.eng_setWd (s : State) (a : Nat) (v : Word) (m : LaneId) : (s.setWd a v).eng m = s.eng m := rfl
@[simp] theorem State.awake_p (s : State) (f : Fld) (n i v : Nat) : (s.p f n i v).awake = s.awake := rfl
@[simp] theorem State.fitted_p (s : State) (f : Fld) (n i v : Nat) (m : LaneId) : (s.p f n i v).fitted m = s.fitted m := rfl
@[simp] theorem State.farUp_p (s : State) (f : Fld) (n i v : Nat) (m : LaneId) : (s.p f n i v).farUp m = s.farUp m := rfl
@[simp] theorem State.eng_p (s : State) (f : Fld) (n i v : Nat) (m : LaneId) : (s.p f n i v).eng m = s.eng m := rfl
@[simp] theorem State.awake_put (s : State) (f : Fld) (n v : Nat) : (s.put f n v).awake = s.awake := rfl
@[simp] theorem State.fitted_put (s : State) (f : Fld) (n v : Nat) (m : LaneId) : (s.put f n v).fitted m = s.fitted m := rfl
@[simp] theorem State.farUp_put (s : State) (f : Fld) (n v : Nat) (m : LaneId) : (s.put f n v).farUp m = s.farUp m := rfl
@[simp] theorem State.eng_put (s : State) (f : Fld) (n v : Nat) (m : LaneId) : (s.put f n v).eng m = s.eng m := rfl
@[simp] theorem State.awake_bump (s : State) (f : Fld) (n i k : Nat) : (s.bump f n i k).awake = s.awake := rfl
@[simp] theorem State.fitted_bump (s : State) (f : Fld) (n i k : Nat) (m : LaneId) : (s.bump f n i k).fitted m = s.fitted m := rfl
@[simp] theorem State.farUp_bump (s : State) (f : Fld) (n i k : Nat) (m : LaneId) : (s.bump f n i k).farUp m = s.farUp m := rfl
@[simp] theorem State.eng_bump (s : State) (f : Fld) (n i k : Nat) (m : LaneId) : (s.bump f n i k).eng m = s.eng m := rfl
@[simp] theorem State.awake_setHw (s : State) (q : Page) (o : Nat) (v : Word) : (s.setHw q o v).awake = s.awake := rfl
@[simp] theorem State.fitted_setHw (s : State) (q : Page) (o : Nat) (v : Word) (m : LaneId) : (s.setHw q o v).fitted m = s.fitted m := rfl
@[simp] theorem State.farUp_setHw (s : State) (q : Page) (o : Nat) (v : Word) (m : LaneId) : (s.setHw q o v).farUp m = s.farUp m := rfl
@[simp] theorem State.eng_setHw (s : State) (q : Page) (o : Nat) (v : Word) (m : LaneId) : (s.setHw q o v).eng m = s.eng m := rfl
@[simp] theorem State.awake_raise (s : State) (q : Page) (b : Nat) : (s.raise q b).awake = s.awake := by
  simp only [State.awake, State.raise_pwr]
@[simp] theorem State.fitted_raise (s : State) (q : Page) (b : Nat) (m : LaneId) : (s.raise q b).fitted m = s.fitted m := by
  simp only [State.fitted, State.raise_th8]
@[simp] theorem State.farUp_raise (s : State) (q : Page) (b : Nat) (m : LaneId) : (s.raise q b).farUp m = s.farUp m := by
  simp only [State.farUp, State.fitted_raise, State.lane_raise]
@[simp] theorem State.eng_raise (s : State) (q : Page) (b : Nat) (m : LaneId) : (s.raise q b).eng m = s.eng m := by
  simp only [State.eng, State.lane_raise]

/-! ### A press of one word (R5, R121, R128, R139) -/

/-- A write that the writer has no right to make changes nothing. -/
theorem pressAdj_unwritable (w : Writer) (q : Page) (off : Nat) (v adj proof : Word) (chk : State → Option Nat) (eff : State → State) (s : State)
    (h : s.writable w q off = false) : pressAdj w q off v adj proof chk eff s = s := by
  simp [pressAdj, h]

/-- A refused write is recorded in PG_ERR and changes nothing else. -/
theorem pressAdj_refused (w : Writer) (q : Page) (off : Nat) (v adj proof : Word) (chk : State → Option Nat) (eff : State → State) (s : State)
    (c : Nat) (h : s.writable w q off = true) (hj : s.judge w q off v (chk (s.staged q off v)) = some c) :
    pressAdj w q off v adj proof chk eff s = s.recordErr w q off c false := by
  simp [pressAdj, h, hj]

/-- An accepted write takes effect, and PRESSED advances. -/
theorem pressAdj_accepted (w : Writer) (q : Page) (off : Nat) (v adj proof : Word) (chk : State → Option Nat) (eff : State → State) (s : State)
    (h : s.writable w q off = true) (hj : s.judge w q off v (chk (s.staged q off v)) = none) :
    pressAdj w q off v adj proof chk eff s = (s.acceptWord w q off adj proof eff).pressedOn q (q.inForceAtOnce off v) := by
  simp [pressAdj, h, hj]

/-- On a page without a mirrored word at this offset, an accepted word takes effect at once. -/
theorem State.acceptWord_near (s : State) (w : Writer) (q : Page) (off : Nat) (v proof : Word) (eff : State → State)
    (hm : q.mirrorAt off = false) (h2 : off ≠ 2) : s.acceptWord w q off v proof eff = eff s := by
  have hf : q.farWord off v = false := by simp [Page.farWord, hm]
  unfold State.acceptWord
  simp only [h2, false_and, if_false, hf, Bool.false_eq_true]
  split <;> rfl

/-- An accepted mirrored word enters the near-side image and sets out for its far side, a press of its own. -/
theorem State.acceptWord_far (s : State) (w : Writer) (q : Page) (off : Nat) (v proof : Word) (eff : State → State) (n : LaneId)
    (hl : q.lane? = some n) (hm : q.farWord off v = true) (h31 : off = 2 → bitAt v 31 = false) :
    s.acceptWord w q off v proof eff
      = ((s.putImage q off (keepAdj s q off v)).carry n ⟨w, q, off, v, proof, s.stepNo⟩ 0 true).pressSent n := by
  have h : ¬(off = 2 ∧ bitAt v 31 = true ∧ Page.hasHeader q = true) := fun ⟨a, b, _⟩ => by rw [h31 a] at b; cases b
  unfold State.acceptWord
  simp only [if_neg h, hl, hm, if_true]

/-- Changing the engine rests on what the change makes of the engine that is there. -/
theorem State.upEng_congr (s : State) (n : LaneId) {f g : Eng → Eng} (h : f (s.eng n) = g (s.eng n)) : s.upEng n f = s.upEng n g := by
  have h' : f (s.lane n).eng = g (s.lane n).eng := h
  simp only [State.upEng, State.upLane, h']

end Sys2Proof.Machine
end

