-- ==== Sys2Proof/Laws/Pod.lean ====
section
/-! SUPPORT. What changing one pod does, and that it changes no other pod. -/

namespace Sys2Proof.Machine

@[simp] theorem State.pod_upPod_same (s : State) (n : LaneId) (p : Fin 24) (f : Pod → Pod) : (s.upPod n p f).pod n p = f (s.pod n p) := by
  simp [State.upPod, State.pod, State.upLine, State.line, State.upLane, State.lane, State.setLane]

theorem State.pod_upPod_ne (s : State) (n : LaneId) (p q : Fin 24) (f : Pod → Pod) (h : q ≠ p) : (s.upPod n p f).pod n q = s.pod n q := by
  have : p.val ≠ q.val := fun e => h (Fin.ext e.symm)
  simp [State.upPod, State.pod, State.upLine, State.line, State.upLane, State.lane, State.setLane, this]

@[simp] theorem State.regs_upPod (s : State) (n : LaneId) (p : Fin 24) (f : Pod → Pod) : (s.upPod n p f).regs = s.regs := rfl

/-- Something done to a powered pod of a fitted lane. -/
theorem State.onPod_powered {s : State} {n : LaneId} {p : Fin 24} (h1 : s.fitted n = true) (h2 : (s.pod n p).powered = true) (f : Pod → Pod) :
    s.onPod n p f = s.upPod n p f := by simp [State.onPod, h1, h2]

end Sys2Proof.Machine
end

