-- ==== Sys2Proof/Laws/Press.lean ====
section
/-! SUPPORT. An accepted write of one word: near words take effect at once, mirrored words do when the far side takes them at once. -/

namespace Sys2Proof.Machine

theorem keepAdj_of_not_ctl (s : State) (p : Page) (off : Nat) (v : Word) (h : off ≠ 2) : keepAdj s p off v = v := by
  simp [keepAdj, h]

/-- PG_CTL without KEEP. -/
theorem keepAdj_of_no_keep (s : State) (p : Page) (off : Nat) (v : Word) (h : bitAt v 30 = false) : keepAdj s p off v = v := by
  simp [keepAdj, h]

/-- An accepted word that is not mirrored. -/
theorem pressAdj_near {w : Writer} {p : Page} {off : Nat} {v adj proof : Word} {chk : State → Option Nat} {eff : State → State} {s : State}
    (hm : p.mirrorAt off = false) (h2 : off ≠ 2) (h : s.taken w p off v (chk (s.staged p off v))) :
    pressAdj w p off v adj proof chk eff s = s.nearDone p eff := by
  rw [pressAdj_accepted _ _ _ _ _ _ _ _ _ h.1 h.2, State.acceptWord_near _ _ _ _ _ _ _ hm h2]
  simp [Page.inForceAtOnce, Page.farWord, hm, State.nearDone]

theorem pressOne_near {w : Writer} {p : Page} {off : Nat} {v proof : Word} {chk : State → Option Nat} {eff : State → State} {s : State}
    (hm : p.mirrorAt off = false) (h2 : off ≠ 2) (h : s.taken w p off v (chk (s.staged p off v))) :
    pressOne w p off v proof chk eff s = s.nearDone p eff := pressAdj_near hm h2 h

/-- An accepted mirrored word, PG_CTL with KEEP or ERR_CLR apart: it sets out for its far side. -/
theorem pressAdj_far {w : Writer} {p : Page} {off : Nat} {v adj proof : Word} {chk : State → Option Nat} {eff : State → State} {s : State}
    {n : LaneId} (hl : p.lane? = some n) (hm : p.mirrorAt off = true)
    (h2 : off = 2 → bitAt v 30 = false ∧ bitAt adj 30 = false ∧ bitAt adj 31 = false)
    (h : s.taken w p off v (chk (s.staged p off v))) :
    pressAdj w p off v adj proof chk eff s = s.farSent n w p off adj proof := by
  have hv : p.farWord off v = true := by
    by_cases e : off = 2 <;> simp [Page.farWord, hm, e] <;> simp [e] at hm
    · exact ⟨hm, (h2 e).1⟩
  have ha : p.farWord off adj = true := by
    by_cases e : off = 2 <;> simp [Page.farWord, hm, e] <;> simp [e] at hm
    · exact ⟨hm, (h2 e).2.1⟩
  have hk : keepAdj s p off adj = adj := by
    unfold keepAdj; split
    · rename_i a; rw [(h2 a.1).2.1] at a; cases a.2
    · rfl
  rw [pressAdj_accepted _ _ _ _ _ _ _ _ _ h.1 h.2, State.acceptWord_far _ _ _ _ _ _ _ n hl ha fun e => (h2 e).2.2, hk]
  simp [Page.inForceAtOnce, hv, State.farSent]

theorem pressOne_far {w : Writer} {p : Page} {off : Nat} {v proof : Word} {chk : State → Option Nat} {eff : State → State} {s : State}
    {n : LaneId} (hl : p.lane? = some n) (hm : p.mirrorAt off = true) (h2 : off = 2 → bitAt v 30 = false ∧ bitAt v 31 = false)
    (h : s.taken w p off v (chk (s.staged p off v))) :
    pressOne w p off v proof chk eff s = s.farSent n w p off v proof := pressAdj_far hl hm (fun e => ⟨(h2 e).1, h2 e⟩) h

/-- An accepted PG_CTL word of a mirrored page, where a word with KEEP has no effect of its own. -/
theorem pressOne_ctl {w : Writer} {p : Page} {v : Word} {chk : State → Option Nat} {eff : State → State} {s : State} {n : LaneId}
    (hl : p.lane? = some n) (hm : p.mirrorAt 2 = true) (hh : Page.hasHeader p = true) (he : bitAt v 30 = true → ∀ t, eff t = t)
    (h : s.taken w p 2 v (chk (s.staged p 2 v))) : pressOne w p 2 v 0 chk eff s = s.ctlTaken n w p v := by
  have hk : ∀ t : State, bitAt v 30 = false → keepAdj t p 2 v = v := fun t e => keepAdj_of_no_keep _ _ _ _ e
  unfold pressOne
  rw [pressAdj_accepted _ _ _ _ _ _ _ _ _ h.1 h.2]
  unfold State.acceptWord State.ctlTaken
  rw [hl]
  cases e : bitAt v 30
  · cases f : bitAt v 31 <;> simp [Page.inForceAtOnce, Page.farWord, hm, e, hh, State.farSent, hk _ e]
  · simp [Page.inForceAtOnce, Page.farWord, hm, e, hh, he e]

/-- An accepted word of the SMU page: the value that the frisket leaves sets out, and the rest of what the near side notes (R227, R234,
R238). -/
theorem smuPress_far {w : Writer} {n : LaneId} {off : Nat} {v proof a : Word} {s : State} (hm : (Page.lane n .smu).mirrorAt off = true)
    (h2 : off = 2 → bitAt v 30 = false ∧ bitAt a 30 = false ∧ bitAt a 31 = false)
    (ha : (s.staged (.lane n .smu) off v).smuAdj w.holder n off v = a)
    (h : s.taken w (.lane n .smu) off v (smuChk w n off v (s.staged (.lane n .smu) off v))) :
    smuPress w n off v proof s =
      (let s' := (s.farSent n w (.lane n .smu) off a proof).noteClamp n off v a
       let s' := if off = 0x14 ∧ s.imageWd (.lane n .smu) 0x14 ≠ s'.imageWd (.lane n .smu) 0x14 then s'.cfgResetImage n [] else s'
       if v = a then s' else s'.frisketTrap w n off false) := by
  unfold smuPress
  simp only [ha, h.1, h.2, Bool.not_true, Bool.false_eq_true, if_false]
  rw [pressAdj_far rfl hm h2 h]

/-- Only LEVEL and LIMIT are clamped (R234). -/
theorem smuAdj_other (s : State) (h : Nat) (n : LaneId) (off : Nat) (v : Word) (h1 : off ≠ 0x16) (h2 : off ≠ 0x17) :
    s.smuAdj h n off v = v := by simp [State.smuAdj, h1, h2]

/-- The same for every word but CFG, LEVEL and LIMIT. -/
theorem smuPress_far_plain {w : Writer} {n : LaneId} {off : Nat} {v proof : Word} {s : State} (hm : (Page.lane n .smu).mirrorAt off = true)
    (h2 : off = 2 → bitAt v 30 = false ∧ bitAt v 31 = false) (h14 : off ≠ 0x14) (h16 : off ≠ 0x16) (h17 : off ≠ 0x17)
    (h : s.taken w (.lane n .smu) off v (smuChk w n off v (s.staged (.lane n .smu) off v))) :
    smuPress w n off v proof s = s.farSent n w (.lane n .smu) off v proof := by
  rw [smuPress_far hm (fun e => ⟨(h2 e).1, h2 e⟩) (smuAdj_other _ _ _ _ _ h16 h17) h]
  simp only [State.noteClamp, h14, h16, h17, if_false, false_and, if_true]

/-- An accepted PG_CTL word of the SMU page. -/
theorem smuPress_ctl {w : Writer} {n : LaneId} {v : Word} {s : State}
    (h : s.taken w (.lane n .smu) 2 v (smuChk w n 2 v (s.staged (.lane n .smu) 2 v))) :
    smuPress w n 2 v 0 s = s.ctlTaken n w (.lane n .smu) v := by
  have e := pressOne_ctl (eff := smuEff w.holder n 2 v 0 []) rfl rfl rfl (fun e t => by simp [smuEff, e]) h
  unfold smuPress
  simp only [State.smuAdj, h.1, h.2, Bool.not_true, Bool.false_eq_true, if_false, State.noteClamp, false_and, if_true, Nat.reduceEqDiff]
  exact e

/-- An accepted CHAIN word. -/
theorem chainPress_far {w : Writer} {n : LaneId} {off : Nat} {v proof : Word} {s : State} (hm : (Page.lane n .chain).mirrorAt off = true)
    (h2 : off = 2 → bitAt v 30 = false ∧ bitAt v 31 = false)
    (h : s.taken w (.lane n .chain) off v (chainChk s n off v (s.staged (.lane n .chain) off v))) :
    chainPress w n off v proof s = (s.farSent n w (.lane n .chain) off v proof).chainNear n off v := by
  simp only [chainPress, pressOne_far rfl hm h2 h, h.1, h.2, Option.isNone_none, Bool.and_self, if_true]

/-- An accepted PG_CTL word of the CHAIN page. -/
theorem chainPress_ctl {w : Writer} {n : LaneId} {v : Word} {s : State}
    (h : s.taken w (.lane n .chain) 2 v (chainChk s n 2 v (s.staged (.lane n .chain) 2 v))) :
    chainPress w n 2 v 0 s = s.ctlTaken n w (.lane n .chain) v := by
  have e := pressOne_ctl (eff := chainEff n 2 v 0) rfl rfl rfl (fun e t => by simp [chainEff, e]) h
  unfold chainPress
  simp only [h.1, h.2, Option.isNone_none, Bool.and_self, if_true, State.chainNear, Nat.reduceEqDiff, if_false]
  exact e

/-! ### The apply on the far side (R24) -/

/-- A single write applied: its effect, and the report. -/
theorem farApplyAll_one {w : Writer} {n : LaneId} {k : LaneKind} {off : Nat} {v proof : Word} {since q : Nat} {s : State}
    (h : s.arrived n ⟨w, .lane n k, off, v, proof, since⟩ q) :
    s.farApplyAll n = s.farDone n (.lane n k) q fun s =>
      farEffect w n k off v (s.proofNow n ⟨w, .lane n k, off, v, proof, since⟩) (if k = .smu then [off] else []) s := by
  obtain ⟨ht, hh⟩ := h
  have hr : applyRank (.lane n k) off = 0 ∨ applyRank (.lane n k) off = 1 ∨ applyRank (.lane n k) off = 2 ∨ applyRank (.lane n k) off = 3 := by
    unfold applyRank; split <;> (repeat' split) <;> simp
  unfold State.farApplyAll
  rw [hh]
  simp only [List.length_cons, List.length_nil, Nat.zero_add, Nat.reduceAdd]
  rw [State.farApply]
  simp only [hh, List.filter_cons, Item.isReplay, Bool.false_eq_true, if_false, List.filter_nil, List.isEmpty_nil, Bool.not_true, Item.press?,
    beq_self_eq_true, if_true, bne_self_eq_false, wholeList, List.filterMap_cons, List.filterMap_nil, Item.place, List.find?_cons,
    List.range_zero, List.all_nil, Bool.true_and, ht, Item.put?, Item.page?, State.reportApply, List.eraseDups_cons, List.eraseDups_nil,
    List.foldl_cons, List.foldl_nil]
  unfold State.farDone State.turned
  congr 2
  unfold State.applyPress State.applyWrite
  have hu : (s.upLink n fun l => { l with farHold := [], applySeq := (s.lane n).link.applySeq + 1 })
      = s.upLink n fun l => { l with farHold := [], applySeq := l.applySeq + 1 } := rfl
  rw [hu]
  generalize (s.upLink n fun l => { l with farHold := [], applySeq := l.applySeq + 1 }) = t
  rcases hr with h | h | h | h <;> cases k <;> simp [h]

/-- FAR_SIDE_APPLY of a single write. -/
theorem exec_farSideApply_one {w : Writer} {n : LaneId} {k : LaneKind} {off : Nat} {v proof : Word} {since q : Nat} {s : State}
    (h : s.arrived n ⟨w, .lane n k, off, v, proof, since⟩ q) :
    exec (.farSideApply n) s = .next (s.farDone n (.lane n k) q fun s =>
      farEffect w n k off v (s.proofNow n ⟨w, .lane n k, off, v, proof, since⟩) (if k = .smu then [off] else []) s).settle := by
  simp only [exec, execFarSideApply, fin, h.1, if_true, farApplyAll_one h]

theorem proofNow_zero (s : State) (n : LaneId) (x : FarWrite) (h : x.proof = 0) : s.proofNow n x = 0 := by
  unfold State.proofNow
  rw [h]
  generalize List.range 32 = l
  induction l with
  | nil => rfl
  | cons b l ih => rw [List.foldl_cons]; split <;> simpa using ih

/-- FAR_SIDE_APPLY of a single write that clears nothing the proof saw. -/
theorem exec_farSideApply_zero {w : Writer} {n : LaneId} {k : LaneKind} {off : Nat} {v : Word} {since q : Nat} {s : State}
    (h : s.arrived n ⟨w, .lane n k, off, v, 0, since⟩ q) :
    exec (.farSideApply n) s = .next (s.farDone n (.lane n k) q (farEffect w n k off v 0 (if k = .smu then [off] else []))).settle := by
  rw [exec_farSideApply_one h]
  simp only [proofNow_zero]

/-- A launch of the impression that is next, by an action that the block does not refuse, within LATE_TOL of its TIME. -/
theorem launchNext_onTime {s : State} {m action : Nat} {act : Impression → State → Option Nat × State} {x : Impression}
    (h : s.nextDue m = some x) (ha : impAction x.w2 = action) (hl : s.launchKind (act x s).1 (s.slotDiff m x) = .onTime) :
    s.launchNext m action act = (act x s).2.slotDone m x .onTime := by
  simp only [State.launchNext, h, ha, if_true, hl]

theorem smuEff_cmd (h : Nat) (n : LaneId) (v p : Word) (k : List Nat) : smuEff h n 0x10 v p k = fun s => s.smuCmd n h v := rfl
theorem smuEff_cfg (h : Nat) (n : LaneId) (v p : Word) (k : List Nat) : smuEff h n 0x14 v p k = smuCfgEff n v k := rfl
theorem smuEff_irange (h : Nat) (n : LaneId) (v p : Word) (k : List Nat) : smuEff h n 0x15 v p k = smuIrangeEff n v := rfl
theorem smuEff_level (h : Nat) (n : LaneId) (v p : Word) (k : List Nat) : smuEff h n 0x16 v p k = smuLevelEff n v := rfl
theorem smuEff_ctl (h : Nat) (n : LaneId) (v p : Word) (k : List Nat) (hv : bitAt v 30 = false) : smuEff h n 2 v p k = smuRunEff n v := by
  funext s; simp [smuEff, hv]

theorem chainEff_ctl (n : LaneId) (v p : Word) (hv : bitAt v 30 = false) :
    chainEff n 2 v p = fun s => (s.setRun (.lane n .chain) (bitAt v 0)).chainFollow n := by funext s; simp [chainEff, hv]
theorem chainEff_en (n : LaneId) (v p : Word) :
    chainEff n 0x10 v p = fun s =>
      ((s.put CHAIN.EN n (bitsOf v 3 0)).setWin n (bitsOf v 11 8) (s.laneFine n)).chainFollow n := by
  funext s; rw [chainEff, if_neg (by decide), if_pos rfl]
theorem chainEff_swap (n : LaneId) (v p : Word) :
    chainEff n 0x24 v p = fun s => (List.range 3).foldl (fun s c => if bitAt v c then s.p CHAIN.STAT_SWAP_PENDING n c 1 else s) s := rfl
theorem chainEff_coef (n : LaneId) (i : Fin 64) (v p : Word) :
    chainEff n (0x80 + i.val) v p = fun s => (storeEff (.lane n .chain) (0x80 + i.val) v p s).setGrowth n := by
  have h := i.isLt
  funext s
  rw [chainEff, if_neg (by omega), if_neg (by omega), if_neg (by omega), if_neg (by omega), if_neg (by omega), if_pos (by omega)]
theorem chainNear_other (s : State) (n : LaneId) (off : Nat) (v : Word) (h : off ≠ 0x24) : s.chainNear n off v = s := by
  simp [State.chainNear, h]

end Sys2Proof.Machine
end

