-- ==== Sys2Proof/Laws/Sb.lean ====
section
/-! SUPPORT. A side-band command that is taken, and a service that Chase serves. -/

namespace Sys2Proof.Machine

/-- An awake front end serves at once. -/
theorem sbAddressed_awake (s : State) (h : s.on SB.STAT_AWAKE 0 = true) (hn : s.sbMayNak = false) : s.sbAddressed = (true, s) := by
  simp [State.sbAddressed, h, hn]

/-- A command that is taken in a state that allows it: what it runs, then its answer or BUSY. -/
theorem sbCommand_runs {op : Nat} {p : Byte} {arg : BitVec 16} {words : Nat} {where_ : State → Bool} {slow : Bool} {run : State → SbAnswer × State}
    {s : State} (hf : s.sbFree) (hw : words = rcOk) (hs : where_ (s.sbTake op p arg) = true) :
    sbCommand op p arg words where_ slow run s
      = fin (if slow then (run (s.sbTake op p arg)).2.sbLater (run (s.sbTake op p arg)).1
          else (run (s.sbTake op p arg)).2.sbReply (run (s.sbTake op p arg)).1) := by
  obtain ⟨h1, h2, hn, h3⟩ := hf
  subst hw
  simp [sbCommand, h1, sbAddressed_awake s h2 hn, h3, hs]

/-- A command that is taken and answered by its word alone. -/
theorem sbCommand_words {op : Nat} {p : Byte} {arg : BitVec 16} {words : Nat} {where_ : State → Bool} {slow : Bool} {run : State → SbAnswer × State}
    {s : State} (hf : s.sbFree) (hw : words ≠ rcOk) :
    sbCommand op p arg words where_ slow run s = fin ((s.sbTake op p arg).sbReply (words, 0)) := by
  obtain ⟨h1, h2, hn, h3⟩ := hf
  simp [sbCommand, h1, sbAddressed_awake s h2 hn, h3, hw]

/-- A service that is served answers what its request brings. -/
theorem serve_serving {s : State} {op : Nat} {r : SvcReq} {f : SvcReq → State → (Nat × List Word) × State} (h : s.serving op r) :
    s.serve op f = State.served (f r s.popped).2 r (f r s.popped).1.1 (f r s.popped).1.2 := by
  obtain ⟨hq, ho, hc, ha⟩ := h
  unfold State.serve
  cases hl : s.chase.queue with
  | nil => simp [hl] at hq
  | cons x rest =>
    simp only [hl, List.head?_cons, Option.some.injEq] at hq
    subst hq
    have : (s.upChase fun c => { c with queue := rest }) = s.popped := by simp [State.popped, State.upChase, hl]
    simp [ho, hc, ha, this, State.served]

end Sys2Proof.Machine
end

