-- ==== Sys2Proof/Laws/Settle.lean ====
section
/-! SUPPORT. What settles after a command: what it establishes, and what it leaves alone when no debug halt is due. -/

namespace Sys2Proof.Machine

/-- TOP rests on the sources and the registers alone. -/
theorem State.activePrio_congr {s t : State} (h : s.evg.srcs = t.evg.srcs) (i : Nat) : s.activePrio i = t.activePrio i := by
  unfold State.activePrio; rw [h]

theorem State.deliverable_congr {s t : State} (h1 : s.evg.srcs = t.evg.srcs) (h2 : s.regs = t.regs) (i : Nat) :
    s.deliverable i = t.deliverable i := by
  funext x
  unfold State.deliverable State.g State.wd
  rw [State.activePrio_congr h1, h2]

theorem State.top_congr {s t : State} (h1 : s.evg.srcs = t.evg.srcs) (h2 : s.regs = t.regs) (i : Nat) : s.top i = t.top i := by
  unfold State.top
  rw [State.deliverable_congr h1 h2, h1]

theorem State.src_congr {s t : State} (h : s.evg.srcs = t.evg.srcs) (i : Nat) : s.src i = t.src i := by
  unfold State.src; rw [h]

/-- A takeable trap rests on the sources, the registers and the compositor. -/
theorem State.asyncNow_congr {s t : State} (n : LaneId) (h1 : s.evg.srcs = t.evg.srcs) (h2 : s.regs = t.regs) (h3 : s.eng n = t.eng n) :
    s.asyncNow n = t.asyncNow n := by
  have h4 : s.src = t.src := funext fun i => State.src_congr h1 i
  unfold State.asyncNow State.asyncFor State.irqFor
  rw [State.top_congr h1 h2, h4, h3]

theorem State.lane_wakeEngs (s : State) (n : LaneId) :
    s.wakeEngs.lane n = if s.wakeDue n then { s.lane n with eng := { s.eng n with run := .running } } else s.lane n := by
  simp only [State.lane, State.wakeEngs, Fin.getElem_fin, Vector.getElem_ofFn]

theorem State.eng_wakeEngs (s : State) (n : LaneId) :
    s.wakeEngs.eng n = if s.wakeDue n then { s.eng n with run := .running } else s.eng n := by
  rw [State.eng, State.lane_wakeEngs]
  split <;> rfl

theorem settleFirq_lastTop (edge : Bool) (now : Nat) (top : Option Nat) (f : Firq) : (settleFirq edge now top f).lastTop = top := by
  unfold settleFirq; split <;> rfl

theorem State.regs_wakeEngs (s : State) : s.wakeEngs.regs = s.regs := by simp only [State.wakeEngs]
theorem State.evg_wakeEngs (s : State) : s.wakeEngs.evg = s.evg := by simp only [State.wakeEngs]

/-- After a command no compositor stays in an IDLE that should end, and the FIRQ lines have followed TOP. -/
theorem settled_settleRest (u : State) : Settled u.settleRest := by
  have hs : u.settleRest.evg.srcs = u.evg.srcs := by simp only [State.settleRest, State.settleFirqs, State.wakeEngs]
  have hr : u.settleRest.regs = u.regs := by simp only [State.settleRest, State.settleFirqs, State.wakeEngs]
  have he (n : LaneId) : u.settleRest.eng n = u.wakeEngs.eng n := by
    simp only [State.settleRest, State.settleFirqs, State.eng, State.lane]
  have hA : u.settleRest.evg.firqA = settleFirq (u.wakeEngs.on EVG.TCTL_EDGE 0 0) u.wakeEngs.clock (u.wakeEngs.top 0) u.wakeEngs.evg.firqA := by
    simp only [State.settleRest, State.settleFirqs]
  have hB : u.settleRest.evg.firqB = settleFirq (u.wakeEngs.on EVG.TCTL_EDGE 0 1) u.wakeEngs.clock (u.wakeEngs.top 1) u.wakeEngs.evg.firqB := by
    simp only [State.settleRest, State.settleFirqs]
  have hw (i : Nat) : u.wakeEngs.top i = u.top i := State.top_congr (by rw [State.evg_wakeEngs]) (State.regs_wakeEngs u) i
  refine ⟨fun n hrun => ?_, ?_, ?_⟩
  · rw [he, State.eng_wakeEngs] at hrun
    rw [State.top_congr hs hr]
    by_cases hd : u.wakeDue n = true
    · rw [if_pos hd] at hrun; cases hrun
    · rw [if_neg hd] at hrun
      rw [State.asyncNow_congr n hs hr (by rw [he, State.eng_wakeEngs, if_neg hd])]
      simp only [State.wakeDue, hrun, beq_self_eq_true, Bool.true_and, Bool.or_eq_true, not_or, Bool.not_eq_true,
        Option.isSome_eq_false_iff, Option.isNone_iff_eq_none] at hd
      exact hd
  · rw [hA, settleFirq_lastTop, hw, State.top_congr hs hr]
  · rw [hB, settleFirq_lastTop, hw, State.top_congr hs hr]

theorem settled_settle (s : State) : Settled s.settle := by
  exact settled_settleRest _

theorem haltEngs_of_quiet {s : State} (h : Quiet s) : s.haltEngs = s := by
  have key : ∀ ls : List LaneId, s.forLanes ls (fun n s => if s.haltDue n then s.debugHalt n (s.eng n).stepDone else s) = s := by
    intro ls
    induction ls with
    | nil => rfl
    | cons n r ih =>
      unfold State.forLanes at ih ⊢
      simp only [List.foldl_cons, h n, Bool.false_eq_true, if_false]
      exact ih
  unfold State.haltEngs
  exact key allLanes

/-- With no debug halt due, settling moves run states out of IDLE, the FIRQ lines and the count of steps, and nothing else. -/
theorem settle_of_quiet {s : State} (h : Quiet s) : s.settle = s.settleRest := by
  unfold State.settle; rw [haltEngs_of_quiet h]

end Sys2Proof.Machine
end

