-- ==== Sys2Proof/WellFormed.lean ====
section
/-! DEFINITION. Which commands are well formed: operands that name something the part has, and as much data as the command carries. A
meaning is total all the same: a command that is not well formed changes nothing or acts as far as its operands reach. -/

namespace Sys2Proof

/-- Is this one of the four pages of the source table, which have no common header (R112)? -/
def Page.isTable : Page → Bool
  | .table _ => true
  | _ => false

/-- As many data words as the header's LENGTH says (R86). -/
def Hdr.fits (h : Hdr) (data : List Word) : Bool := data.length == h.length.toNat

/-- A sheet, or a slot group: lanes 0 to 15 and 16 for the module (R203). -/
def sheetOk (k : Nat) : Bool := decide (k ≤ 16)

/-- A holder code of R124 that a grant can have. -/
def holderOk (h : Nat) : Bool := decide (h < 8) || (decide (0x10 ≤ h) && decide (h < 0x20))

/-- The checks of a command's operands. -/
def Instr.wellFormed : Instr → Bool
  | .write h data _ => h.fits data
  | .writeScatter h data _ => h.fits data && data.length % 2 == 0
  | .storeWrite h data _ => h.fits data
  | .sessionOpenResponse h data _ => h.fits data
  | .evClr _ p _ _ => !p.isTable
  | .evSet _ p _ => !p.isTable
  | .evMaskSet _ p _ => !p.isTable
  | .evMaskClr _ p _ => !p.isTable
  | .evSource _ p _ => !p.isTable
  | .errClr _ p _ => !p.isTable
  | .counterClear _ _ off _ _ => decide (off < 256)
  | .registerWrite _ _ off _ => decide (off < 256)
  | .keyLoad _ words _ => words.length == 8
  | .pkeyLoad _ words _ => words.length == 8
  | .holdLimitExpiry q => decide (q < 96)
  | .quoinCfg _ q _ => decide (q < 96)
  | .enSet _ i _ => decide (i < 32)
  | .enClr _ i _ _ => decide (i < 32)
  | .pendSet _ i _ => decide (i < 32)
  | .pendClr _ i _ _ => decide (i < 32)
  | .sourceEntryWrite _ src _ => decide (src < 1024)
  | .coalWrite _ c _ => decide (1 ≤ c) && decide (c < 16)
  | .coalescerTimeFire c => decide (1 ≤ c) && decide (c < 16)
  | .nightWatchWake e => decide (e < 16)
  | .feederArm k m => sheetOk k && sheetOk m
  | .impRing m => sheetOk m
  | .impressionSkip k m => sheetOk k && sheetOk m
  | .impressionExpired k m => sheetOk k && sheetOk m
  | .grantExpiry h _ => holderOk h
  | .logEntry _ _ _ detail => detail.length == 7
  | _ => true

end Sys2Proof
end

