-- ==== Sys2Proof/Tests/Slice0.lean ====
section
/-! SUPPORT. Tests of the model: values worked out by hand from the spec, terms that WellFormed refuses, and for every statement with
hypotheses a witness: concrete states and operands that meet the hypotheses of each of its clauses together. -/

set_option autoImplicit false
set_option maxRecDepth 20000
set_option Elab.async false

open Sys2Proof Sys2Proof.Machine

namespace Sys2Proof.Tests

/-! ### States for the tests -/

/-- A side of a link with a locked receiver. -/
def sideUp : Side := { Side.reset with rx := { Rx.reset with locked := true, len := 992 } }

/-- A compositor that runs a user program, with 8 in x1 and 5 in x2. -/
def engUp : Eng :=
  { Eng.reset with
    run := .running, pc := 0x04002000,
    regs := { EngRegs.reset with x := #v[0, 8, 5, 0, 0, 0, 0, 0] },
    sp := { EngSpecial.reset with psr := ⟨false, true, false, false, false⟩ } }

/-- A lane whose link is locked, whose far side has power and is out of its safe state, whose compositor runs a user program. -/
def laneUp : Lane :=
  { Lane.reset with
    ilk := ⟨true, true, true, true, true, true, true⟩, permitAlive := true,
    link := { Link.reset with locked := true, stale := false, farPowered := true, farSafe := false, everReady := true, near := sideUp, far := sideUp },
    eng := engUp }

/-- The module in RUN with Chase running, at registration time 3 s, session 0 open and holding every quoin, and lane 0 READY. -/
def up : State :=
  ((((({ State.reset with
      clock := 40000000000,
      pwr := { Pwr.reset with mode := .run, answers := true, permits := ⟨true, true, true, true, true, true, true⟩ },
      sess := State.reset.sess.set 0 { Session.reset with isOpen := true, key := some 7 },
      quoins := Vector.ofFn fun q => { Quoin.resetAt q.val with holder := 0 },
      lanes := Vector.replicate 16 laneUp } : State).put MOD.BOOT_STAGE 0 5).put LANE.STATE_PHASE 0 3).put LANE.STATE_LOCKED 0 1).put
    LANE.STATE_DISCIPLINED 0 1).put REG.RT_LO 0 3000000000

/-- A calibration record of lane 0 with gains 1 and offsets 0, of 1 January 2024, due every 12 months, with its CRC. -/
def calBody : List Byte :=
  leBytes 4 recMagic ++ [0, 12, 0, 0] ++ leBytes 4 0x07E80101 ++ List.replicate 20 0
    ++ ((List.range 21).map fun _ => leBytes 4 0x3F800000 ++ leBytes 4 0).flatten ++ List.replicate 52 0
def calBytes : List Byte := calBody ++ leBytes 4 (crc32 calBody)

/-- Lay bytes into lane 0's store from address 0x100 on. -/
def staged (b : List Byte) (s : State) : State := s.putMem 0 0x100 b

/-- A Forme header of session 0 with a good CRC. -/
def hd (op : Nat) (flags : BitVec 5) (addr length : BitVec 16) : Hdr :=
  ⟨.whole, true, 0, flags, addr, length, 1, BitVec.ofNat 8 (hdrCrc op ⟨.whole, true, 0, flags, addr, length, 1, 0⟩)⟩

/-- The data CRC of some words. -/
def dc (ws : List Word) : BitVec 16 := BitVec.ofNat 16 (dataCrc ws)

/-- The data set of a grandmaster, and the head of an untagged frame of 100 bytes. -/
def masterSet : MasterSet := ⟨128, 6, 0x21, 0x4E5D, 128, 77, 0⟩
def ethHead : EthHead := ⟨100, none, 5⟩

/-- The Ethernet link up and domain A enabled, with master 77 as its parent. -/
def netUp : State :=
  ((up.put NET.UP 0 1).p PTP.EN 0 0 1).upDom false fun p => { p with parent := some ⟨77, 1, masterSet⟩, foreign := [⟨77, 1, masterSet⟩] }

/-- A two-step PTP message of that master. -/
def msg (kind : Nat) : PtpMsg := ⟨ethHead, 0, 0, 2, false, kind, false, 5, true, 0, 1000, 0, 0, 77, 1, masterSet, 0, 0⟩

/-- An impression armed in group `m` (16: the module), with its action, TAG 9 and TIME 2,000,000. -/
def armed (m action : Nat) (arg : Word) : Impression := ⟨1, 0, 2000000, BitVec.ofNat 32 (action * 16777216 + 9), arg, 0, [m], [m], [m]⟩

/-- The state with these impressions on their sheets, at registration time 2,000,000 ns. -/
def sheets (l : List Impression) : State := State.put { up with imp := { up.imp with sheets := l } } REG.RT_LO 0 2000000

/-- Does a translation answer this? -/
def okIs {ε α : Type} [BEq α] (x : Except ε α) (a : α) : Bool := match x with | .ok b => a == b | .error _ => false
theorem eq_of_okIs {ε α : Type} [BEq α] [LawfulBEq α] {x : Except ε α} {a : α} (h : okIs x a = true) : x = .ok a := by
  unfold okIs at h
  split at h
  · rw [eq_of_beq h]
  · cases h

/-- Does it answer this fault? -/
def errIs {α : Type} (x : Except XFault α) (f : XFault) : Bool := match x with | .ok _ => false | .error g => f == g
theorem eq_of_errIs {α : Type} {x : Except XFault α} {f : XFault} (h : errIs x f = true) : x = .error f := by
  unfold errIs at h
  split at h
  · cases h
  · rw [eq_of_beq h]

/-- The Duncol line of lane 0 runs. -/
def lineRuns : State := up.setRun (.lane 0 .dunc) true

/-- An echo of ten periods of 1 µs: its half-cycles, at the level where the receiver takes them, and its crossings. -/
def echo : Shot := ⟨(List.range 20).map fun i => ⟨50000000 + 500000 * i, i % 2 == 1, 600⟩, (List.range 20).map fun i => (50250000 + 500000 * i, i % 2 == 0)⟩

/-- The MMU of lane 0 on; virtual pages 0 and 1 lie at physical pages 1 and 2, with every permission, for the compositor and the DMA channels. -/
def mmuUp : State :=
  up.upEng 0 fun e => { e with sp := { e.sp with mmuEn := true }, tlb := [⟨0, 1, 0x9F⟩, ⟨1, 2, 0x9F⟩], dtlb := [⟨0, 1, 0x9F⟩, ⟨1, 2, 0x9F⟩] }

/-- A galley of 256 slugs runs on lane 0, with one slug to write. -/
def galUp : State :=
  (((mmuUp.put LANE.GAL_STAT_RUNNING 0 1).put LANE.GAL_SIZE 0 256).put LANE.GAL_PBASE 0 1).upGal 0 fun g => { g with buf := [⟨5, 6, 7, 8⟩] }

/-- D1 runs on lane 0, and a descriptor of 16 bytes from virtual 0x1000 to 0x1020 with TAG 3 is the first of its ring. -/
def d1Up : State :=
  (mmuUp.put LANE.D1_CTL_RUN 0 1).putMem 0 0x1000 (leBytes 4 0x1000 ++ leBytes 4 0x1020 ++ leBytes 4 16 ++ leBytes 4 0x80000003)

/-- The same descriptor taken, its bytes still to move. -/
def d1Busy : State :=
  (((d1Up.put LANE.D1_STAT_BUSY 0 1).put LANE.D1_CUR_SRC 0 0x1000).put LANE.D1_CUR_DST 0 0x1020).upGal 0 fun g => { g with d1Left := 16, d1Word3 := 0x80000003 }

/-- The monitor of lane 0 runs, in its second window. -/
def monUp : State :=
  up.upEng 0 fun e => { e with sp := { e.sp with psr := ⟨false, true, true, false, false⟩ }, regs := { e.regs with cwp := 1 } }


/-- A request at the head of Chase's queue. -/
def asked (r : SvcReq) (s : State) : State := s.upChase fun c => { c with queue := [r] }

/-- The island's clock at 8 May 2025. -/
def dated (s : State) : State := s.upChase fun c => { c with islandSet := true, islandSec := 800000000 }

/-- An image with an empty body, at rollback 1. -/
def imgBytes : List Byte := leBytes 4 0x43485331 ++ leBytes 2 0x100 ++ [0, 1] ++ List.replicate 248 0

/-- A program of one executable segment of 16 bytes, for lane 0, under key 0. The key is the identity of the curve, under which every
digest has the same signature; it stands here because it needs no secret. -/
def pgmHead : List Byte :=
  leBytes 4 0x50474D31 ++ leBytes 2 3 ++ [0, 0] ++ leBytes 2 1 ++ [0, 0] ++ leBytes 4 7 ++ leBytes 4 0x10000 ++ leBytes 4 1 ++ leBytes 4 32
    ++ leBytes 4 0x200000 ++ leBytes 4 0x200000 ++ leBytes 4 256 ++ List.replicate 120 0
def pgmBody : List Byte := leBytes 4 0x10000 ++ leBytes 4 0x4004000 ++ leBytes 4 16 ++ leBytes 4 4 ++ List.replicate 16 5
def weakKey : List Byte := 1 :: List.replicate 31 0
def pgmBytes : List Byte := pgmHead ++ beBytes 32 0x8864cca2a68e5094673a2cf0afd9988b79aa4d73b5b0a4a2a04c8254078b2741 ++ weakKey ++ List.replicate 32 0 ++ pgmBody

/-- The state in which that program lies in lane 0's store, its key installed. -/
def pgmUp : State := staged pgmBytes (up.putPkey 0 [0x01000000, 0, 0, 0, 0, 0, 0, 0] true)

/-- Bytes in the side-band in-buffer. -/
def inBuf (b : List Byte) (s : State) : State := { s with sb := { s.sb with inBuf := Vector.ofFn fun i => b[i.val]?.getD 0 } }

/-- HMAC-SHA-256 under the key 9: of a challenge 0 for session 1, and of the two steward commands with that challenge (by another implementation). -/
theorem hmac_open : hmacSha256 (beBytes 32 9) (beBytes 32 0 ++ [1])
    = beBytes 32 0xafcdb613100379c290400847dc0bc668a940f5fc4826fa75b4d3b127afe67c0c := by decide +kernel
theorem hmac_install : hmacSha256 (beBytes 32 9) (beBytes 32 0 ++ beBytes 32 5 ++ [0])
    = beBytes 32 0x7ec3f678c0f3ea4cfbb114b014b870bcea15b3ade38f9d8ac5e45d04279c9119 := by decide +kernel
theorem hmac_erase : hmacSha256 (beBytes 32 9) (beBytes 32 0 ++ beBytes 32 0 ++ [1])
    = beBytes 32 0x0e575157f5e8a43388fe93c053ecd9c01f918f489d032424b4f55495a29b4f92 := by decide +kernel

/-- The steward key 9 is installed, and the in-buffer holds a key and a proof. -/
def stewarded (key proof : Nat) : State := inBuf (beBytes 32 key ++ beBytes 32 proof) (up.upSess 0 fun x => { x with key := some 9 })

/-- A write of one word that has come whole to the far side of lane 0, as press 0. -/
def come (x : FarWrite) (s : State) : State := s.upLink 0 fun l => { l with farHold := [.write 0 0 x 0 true] }

/-- An item 3 of lane 0's link, sent `k` times and not acknowledged in time. -/
def unacked (k : Nat) : Sent := ⟨3, .rate 0, k, 0, 99, false⟩

/-- A wire on which nothing goes wrong. -/
def clean : Wire := ⟨false, [], false, []⟩

/-- The SMU of lane 0 has just changed its range. -/
def rangeMoved : State := (up.upChase fun c => { c with recs := c.recs.set 0 (some calBytes) }).upLane 0 fun l => { l with rangeFrom := 2999999000 }

theorem quad_eta {α β γ δ : Type} (x : α × β × γ × δ) : x = (x.1, x.2.1, x.2.2.1, x.2.2.2) := rfl

/-- What V and I of lane 0 show in a coarse block of zeros, and the state with it in the registers. -/
def loopUp (s : State) : Word × Word × Bool × Bool := s.loop 0 (s.coarseValue 0 0 0) (s.coarseValue 0 1 0)
def loopShown (s : State) : State :=
  (s.coarseTaken 0 0 0 0).coarseRegs 0 (loopUp s).1 (loopUp s).2.1 (s.coarseValue 0 2 0) (BitVec.ofNat 32 (s.laneTime 0 / 25000 * 25000)) 4

theorem energyAdd_none (u : State) (n : LaneId) (p : Int) (h : p ≤ 0) : u.energyAdd n p = (false, u) := by
  unfold State.energyAdd; exact if_neg fun x => absurd x.2.2 (by omega)

/-! ### Values worked out from the spec -/

/-- The command answers a next state, of which `f` holds. -/
def ran (c : Instr) (s : State) (f : State → Bool) : Bool := match exec c s with | .next t => f t | _ => false

/-- "123456789" in ASCII. -/
def digits : List Byte := [0x31, 0x32, 0x33, 0x34, 0x35, 0x36, 0x37, 0x38, 0x39]

/-- R89: the header CRC of "123456789" is 0xF4, its data CRC 0x29B1, and the data CRC of 0x00001404 is 0x0BF3. -/
theorem test_forme_crcs : crcBytes 8 0x07 0 digits = 0xF4 ∧ crcBytes 16 0x1021 0xFFFF digits = 0x29B1 ∧ dataCrc [0x00001404] = 0x0BF3 := by
  decide +kernel

/-- R304, R305: the Duncol CRC-8 and the CRC-12 of an identity over "123456789". -/
theorem test_duncol_crcs : crcBytes 8 0x31 0xFF digits = 0xF7 ∧ crc12 (digits.flatMap fun b => bitsMsb 8 b.toNat) = 0xF5B := by decide +kernel

/-- R465, text: 2100-02-29, month 13, day 0, 2023-04-31 and hour 24 are refused. -/
theorem test_impossible_dates :
    dateOk (mkDate 2100 2 29) = false ∧ dateOk (mkDate 2024 13 1) = false ∧ dateOk (mkDate 2024 5 0) = false ∧ dateOk (mkDate 2023 4 31) = false
      ∧ timeOk (mkTime 24 0 0) = false ∧ dateOk (mkDate 2000 2 29) = true := by decide

/-- R470: the day is kept unless the month is shorter. -/
theorem test_due_dates : addMonths (mkDate 2024 2 29) 12 = mkDate 2025 2 28 ∧ addMonths (mkDate 2023 11 15) 3 = mkDate 2024 2 15 := by decide

/-- R397: DIV of −2³¹ by −1 gives −2³¹, REM 0; quotients round toward zero, remainders take the sign of rs1. -/
theorem test_division : (0x80000000 : Word).sdiv (-1) = 0x80000000 ∧ (0x80000000 : Word).srem (-1) = 0 ∧ (-7 : Word).sdiv 2 = -3
    ∧ (-7 : Word).srem 2 = -1 := by decide

/-- R397: binary32 rounds to nearest, ties to even; conversions to integers saturate. -/
theorem test_binary32 : f32Add 0x3F800000 0x33800000 = 0x3F800000 ∧ f32Add 0x3F800001 0x33800000 = 0x3F800002 ∧ f32Div 0x3F800000 0x40400000 = 0x3EAAAAAB
    ∧ f32Sqrt 0x40000000 = 0x3FB504F3 ∧ f32Mul 0x3F000000 0x00000001 = 0 := by decide +kernel

/-- R397: FMIN of a number and NaN gives the number; comparisons with NaN are 0. -/
theorem test_nan : f32Min 0x7FC00000 0x3F800000 = 0x3F800000 ∧ f32Eq 0x7FC00000 0x7FC00000 = false ∧ f32Lt 0x7FC00000 0 = false := by decide +kernel

/-- R400, R391: TRAP from user privilege: cause 0x0D to TVEC + 0xD0, EPC behind it, monitor privilege with TE 0 in the next window. -/
theorem test_trap : ran (.trap 0 7) up
    (fun t => decide ((t.eng 0).pc = 0x040000D0 ∧ (t.eng 0).sp.epc = 0x04002004 ∧ (t.eng 0).sp.tval = 7 ∧ (t.eng 0).sp.psr = ⟨false, false, true, false, false⟩ ∧ (t.eng 0).regs.cwp = 1)) = true := by decide +kernel

/-- R396: 8 + 5 into x3; SLT compares signed; the PC moves on by 4. -/
theorem test_addR : ran (.addR 0 3 1 2) up (fun t => decide ((t.eng 0).r 3 = 13 ∧ (t.eng 0).pc = 0x04002004)) = true := by decide +kernel

/-- R84, R99: a WRITE of one word with a wrong data CRC presses nothing and answers DATA_CRC. -/
theorem test_bad_data_crc : ran (.write (hd opWr 0 0x0A12 1) [3] (dc [4])) up
    (fun t => decide (t.forme.status = 2 ∧ t.hw .ptp 0xD = up.hw .ptp 0xD ∧ t.g FORME.ERRS_DATA 0 = 1)) = true := by decide +kernel

/-- R397: division by zero raises trap 0x0C, to TVEC + 0xC0, and leaves rd. -/
theorem test_div_by_zero : ran (.div 0 3 1 0) up (fun t => decide ((t.eng 0).pc = 0x040000C0 ∧ (t.eng 0).r 3 = 0)) = true := by decide +kernel

/-! ### Terms that WellFormed refuses -/

theorem test_wf_write : (Instr.write (hd opWr 0 0x0A12 2) [3] 0).wellFormed = false := by decide +kernel
theorem test_wf_writeScatter : (Instr.writeScatter (hd opWr 2 0 3) [3, 4, 5] 0).wellFormed = false := by decide +kernel
theorem test_wf_storeWrite : (Instr.storeWrite (hd opStoreWr 0 0xC000 2) [3] 0).wellFormed = false := by decide +kernel
theorem test_wf_sessionOpenResponse : (Instr.sessionOpenResponse (hd opOpen 0 0 8) [3] 0).wellFormed = false := by decide +kernel
theorem test_wf_events : (Instr.evClr .chase (.table 0) 0 0).wellFormed = false ∧ (Instr.evSet .chase (.table 0) 0).wellFormed = false
    ∧ (Instr.evMaskSet .chase (.table 0) 0).wellFormed = false ∧ (Instr.evMaskClr .chase (.table 0) 0).wellFormed = false
    ∧ (Instr.evSource .chase (.table 0) 0).wellFormed = false ∧ (Instr.errClr .chase (.table 0) 0).wellFormed = false := by decide
theorem test_wf_offsets : (Instr.counterClear .chase .sb 256 0 0).wellFormed = false ∧ (Instr.registerWrite .chase .sb 256 0).wellFormed = false := by
  decide
theorem test_wf_keys : (Instr.keyLoad (.host 0) [1] 0).wellFormed = false ∧ (Instr.pkeyLoad (.host 0) [1] 0).wellFormed = false := by decide
theorem test_wf_quoins : (Instr.holdLimitExpiry 96).wellFormed = false ∧ (Instr.quoinCfg .chase 96 0).wellFormed = false := by decide
theorem test_wf_bitmaps : (Instr.enSet .chase 32 0).wellFormed = false ∧ (Instr.enClr .chase 32 0 0).wellFormed = false
    ∧ (Instr.pendSet .chase 32 0).wellFormed = false ∧ (Instr.pendClr .chase 32 0 0).wellFormed = false := by decide
theorem test_wf_sources : (Instr.sourceEntryWrite .chase 1024 0).wellFormed = false ∧ (Instr.coalWrite .chase 0 0).wellFormed = false
    ∧ (Instr.coalescerTimeFire 16).wellFormed = false ∧ (Instr.nightWatchWake 16).wellFormed = false := by decide
theorem test_wf_impositions : (Instr.feederArm 17 0).wellFormed = false ∧ (Instr.impRing 17).wellFormed = false := by decide
theorem test_wf_expired : (Instr.impressionExpired 0 17).wellFormed = false ∧ (Instr.impressionSkip 17 0).wellFormed = false ∧ (Instr.grantExpiry 8 0).wellFormed = false
    ∧ (Instr.logEntry 1 0 0 []).wellFormed = false := by decide

/-! ### The hypotheses of every statement are met -/

/-- A Forme header of session 1, which has no rights to any page. -/
def hd1 : Hdr := ⟨.whole, true, 1, 0, 0x0012, 1, 1, BitVec.ofNat 8 (hdrCrc opWr ⟨.whole, true, 1, 0, 0x0012, 1, 1, 0⟩)⟩

theorem witness_EmptyQueueTicks :
    (∃ s : State, s.pending = [] ∧ s.awake = true ∧ s.rt64 / second = (s.ticks 1).rt64 / second)
    ∧ (∃ s : State, s.pending = [] ∧ s.pwr.mode = .inReset) ∧ (∃ s : State, s.pending = [] ∧ s.pwr.mode = .dormant)
    ∧ (∃ s : State, s.pending = [] ∧ s.pwr.mode = .off) :=
  ⟨⟨up, by decide +kernel⟩, ⟨{ up with pwr := { up.pwr with mode := .inReset } }, rfl, rfl⟩,
    ⟨{ up with pwr := { up.pwr with mode := .dormant } }, rfl, rfl⟩, ⟨{ up with pwr := { up.pwr with mode := .off } }, rfl, rfl⟩⟩

theorem witness_StepRunsFrontCommand : ∃ (c : Instr) (rest : List Instr) (s : State), s.pending = c :: rest :=
  ⟨.idle 0, [], { up with pending := [.idle 0] }, rfl⟩

theorem witness_EveryStepSettles : ∃ s t : State, step s = .next t :=
  ⟨{ up with pending := [.fence 0] }, _, rfl⟩

theorem witness_SettleLeavesTheRestAlone : ∃ s : State, Quiet s :=
  ⟨up, by unfold Quiet; decide +kernel⟩

theorem witness_AbsentLanePages :
    ∃ (s : State) (n : LaneId) (kd : LaneKind) (h : Hdr) (data : List Word) (dcrc : BitVec 16) (a : Nat) (v : Word) (c : Instr),
      (c = .write h data dcrc ∨ c = .writeScatter h data dcrc)
      ∧ s.th8 = true ∧ 8 ≤ n.val ∧ s.pwr.softReset = false ∧ s.formeAnswers = true ∧ s.forme.started = none ∧ h.part = .whole
      ∧ hdrCrc opWr h = h.hcrc.toNat ∧ s.formeOpen opWr h = true
      ∧ ((s.session h.session).isOpen && (s.session h.session).afterPlaneReset) = false ∧ s.formeRetry opWr h = none
      ∧ (a, v) ∈ writePairs h data ∧ a / 256 = (Page.lane n kd).num :=
  ⟨{ up with th8 := true }, 8, .lane, hd opWr 0 0x8012 1, [3], dc [3], 0x8012, 3, .write (hd opWr 0 0x8012 1) [3] (dc [3]), .inl rfl,
    by decide +kernel⟩

theorem witness_NoRightsNothingPressed :
    ∃ (s : State) (h : Hdr) (data : List Word) (dcrc : BitVec 16) (a : Nat) (v : Word) (c : Instr),
      (c = .write h data dcrc ∨ c = .writeScatter h data dcrc)
      ∧ s.formeAnswers = true ∧ s.pwr.softReset = false ∧ s.forme.started = none ∧ h.part = .whole
      ∧ hdrCrc opWr h = h.hcrc.toNat ∧ s.formeOpen opWr h = true ∧ ((s.session h.session).isOpen && (s.session h.session).afterPlaneReset) = false
      ∧ s.formeRetry opWr h = none ∧ s.formeShape opWr h data = true ∧ (a, v) ∈ writePairs h data ∧ s.mayWrite h.session a = false :=
  ⟨{ up with sess := up.sess.set 1 { Session.reset with isOpen := true } }, hd1, [3], dc [3], 0x0012, 3, .write hd1 [3] (dc [3]), .inl rfl,
    by decide +kernel⟩

theorem witness_RefusedWordChangesNothing :
    (∃ (s : State) (w : Writer) (p : Page) (off : Nat) (v : Word) (c : Nat), Machine.Page.hasHeader p = true ∧ p ≠ .evg ∧ off < 256 ∧ c < 256
      ∧ s.writable w p off = true ∧ off = 0xA ∧ s.judge w p off v (evSourceChk p v) = some c)
    ∧ (∃ (s : State) (w : Writer) (p : Page) (off : Nat) (v : Word) (c : Nat), Machine.Page.hasHeader p = true ∧ p ≠ .evg ∧ off < 256 ∧ c < 256
      ∧ s.writable w p off = true ∧ accMask p off .ctr ≠ 0 ∧ s.judge w p off v (wordChk s w [] ⟨p, off, v⟩ (s.staged p off v)) = some c) :=
  ⟨⟨up, .host 0, .mod, 0xA, 0xEEEEEEEE, errRange, by decide +kernel⟩, ⟨up, .host 0, .sb, 0x1A, 1, errRange, by decide +kernel⟩⟩

theorem witness_CountersSaturate :
    (∃ (s : State) (f : Fld) (n i : Nat), f.lo ≤ f.hi ∧ f.hi < 32 ∧ s.g f n i = 2 ^ f.width - 1)
    ∧ (∃ (s : State) (w : Writer) (p : Page) (off : Nat) (v : Word), off < 256 ∧ s.writable w p off = true ∧ v &&& accMask p off .ctr ≠ 0
      ∧ s.restricted w p off = 0 ∧ accMask p off .rwq = 0 ∧ accMask p off .rws = 0
      ∧ wordChk s w [] ⟨p, off, v⟩ (s.staged p off v) ≠ some errRights) :=
  ⟨⟨up.put SB.TIMEOUTS 0 0xFFFFFFFF, SB.TIMEOUTS, 0, 0, by decide +kernel⟩, ⟨up, .host 0, .sb, 0x1A, 1, by decide +kernel⟩⟩

/-- The word of a GIVE (2) or CLEAR_BROKEN (3) of quoin 5 by session 0, bare and with a wrong GEN. -/
def opWord (op : Nat) : Word := withBits 5 11 8 op
def opWordGen (op : Nat) : Word := withBits 0x32005 11 8 op

theorem witness_GiveAndClearRules :
    (∃ (s : State) (q : Nat) (w : Writer) (x : Word), x = opWord 2 ∧ q < 96 ∧ s.quoinAbsent q = false ∧ bitsOf x 7 0 = q
      ∧ s.taken w .quoin 0x10 x (quoinOpChk x) ∧ (s.quoin q).holder ≠ w.holder)
    ∧ (∃ (s : State) (q : Nat) (w : Writer) (x : Word), x = opWordGen 3 ∧ q < 96 ∧ s.quoinAbsent q = false ∧ bitsOf x 7 0 = q
      ∧ s.taken w .quoin 0x10 x (quoinOpChk x) ∧ (s.quoin q).holder = w.holder ∧ bitAt x 13 = true ∧ bitsOf x 31 16 ≠ (s.quoin q).gen)
    ∧ (∃ (s : State) (q : Nat) (w : Writer) (x : Word), x = opWord 2 ∧ (∀ n : LaneId, (s.eng n).qwait = none) ∧ q < 96
      ∧ s.quoinAbsent q = false ∧ bitsOf x 7 0 = q
      ∧ s.taken w .quoin 0x10 x (quoinOpChk x) ∧ (s.quoin q).holder = w.holder ∧ bitAt x 13 = false)
    ∧ (∃ (s : State) (q : Nat) (w : Writer) (x : Word), x = opWord 3 ∧ q < 96 ∧ s.quoinAbsent q = false ∧ bitsOf x 7 0 = q
      ∧ s.taken w .quoin 0x10 x (quoinOpChk x) ∧ (s.quoin q).holder = w.holder ∧ bitAt x 13 = false)
    ∧ (∃ (s : State) (q : Nat) (gen : Option Nat), q < 96 ∧ s.quoinAbsent q = false ∧ (s.quoin q).holder = 0 ∧ gen.isSome = true
      ∧ gen ≠ some (s.quoin q).gen)
    ∧ (∃ (s : State) (q h : Nat) (gen : Option Nat), q < 96 ∧ s.quoinAbsent q = false ∧ (s.quoin q).holder = h ∧ gen = some (s.quoin q).gen) :=
  ⟨⟨{ up with quoins := State.reset.quoins }, 5, .host 0, _, rfl, by unfold State.taken; decide +kernel⟩,
    ⟨up, 5, .host 0, _, rfl, by unfold State.taken; decide +kernel⟩,
    ⟨up, 5, .host 0, _, rfl, by unfold State.taken; decide +kernel⟩,
    ⟨up, 5, .host 0, _, rfl, by unfold State.taken; decide +kernel⟩,
    ⟨up, 5, some 9, by decide +kernel⟩, ⟨up, 5, 0, some 0, by decide +kernel⟩⟩

theorem witness_TopOfTheGatherer :
    (∃ s : State, srising 0 s.evg.srcs = true ∧ s.top 3 = some 70)
    ∧ (∃ s : State, srising 0 s.evg.srcs = true ∧ s.top 3 = none) :=
  ⟨⟨(up.setSrc 70 { Src.reset with st := .pending, target := 3, prio := 5 }).setSrc 71 { Src.reset with st := .pending, target := 3, prio := 4 },
      by decide +kernel⟩, ⟨up, by decide +kernel⟩⟩

theorem witness_ForceDoneRule :
    (∃ (s : State) (v : Word), bitAt v 31 = true ∧ s.taken (.host 0) .evg 0x15 v (forceDoneChk v))
    ∧ (∃ (s : State) (v : Word) (w : Writer) (b : Bool) (x : Word), bitAt v 31 = true ∧ bitAt x 31 = true ∧ bitsOf x 9 0 = bitsOf v 9 0
      ∧ bitsOf v 20 16 = b2n b ∧ s.taken w .evg (0x12 + 2 * b2n b) x none)
    ∧ (∃ (s : State) (v : Word) (w : Writer), bitAt v 31 = true ∧ w.steward = false ∧ s.writable w .evg 0x15 = true) :=
  ⟨⟨up, 0x80000005, by unfold State.taken; decide +kernel⟩,
    ⟨up, 0x80010005, .host 0, true, 0x80000005, by unfold State.taken; decide +kernel⟩,
    ⟨(up.upSess 1 fun x => { x with isOpen := true }).setWd (SESS.CWRITE.addr 0 1) 0xFFFFFFFF, 0x80000005, .host 1, by decide +kernel⟩⟩

theorem witness_WindowedRegisters :
    (∃ w w' c c' : Nat, w < 12 ∧ w' < 12 ∧ c < 24 ∧ c' < 24 ∧ 0 < c ∧ c < 8 ∧ c' ≠ c)
    ∧ (∃ w w' c c' : Nat, w < 12 ∧ w' < 12 ∧ c < 24 ∧ c' < 24 ∧ 8 ≤ c ∧ w' ≠ w) :=
  ⟨⟨11, 0, 7, 23, by decide⟩, ⟨11, 0, 23, 0, by decide⟩⟩

theorem witness_RegisterOperationsFrame :
    ∃ (s t : State) (n : LaneId) (rd rs1 rs2 : BitVec 5), exec (.div n rd rs1 rs2) s = .next t ∧ s.engReady n = true ∧ rd.toNat < 24
      ∧ rs1.toNat < 24 ∧ rs2.toNat < 24 ∧ (s.eng n).r rs2.toNat ≠ 0 ∧ (s.eng n).regs.cwp < 12 ∧ (s.eng n).stepReq = false
      ∧ (∀ m : LaneId, (s.eng m).haltReq = false) :=
  ⟨up, _, 0, 23, 1, 2, rfl, by decide +kernel⟩

theorem witness_MemoryReadBack :
    (∃ (a b : Nat) (bs : List Byte), b < a ∨ a + bs.length ≤ b) ∧ (∃ m n : LaneId, m ≠ n) ∧ (∃ s : State, MemoriesOk s) :=
  ⟨⟨4, 5, [1], .inr (by decide)⟩, ⟨0, 1, by decide⟩, ⟨up, by unfold MemoriesOk; decide +kernel⟩⟩

theorem witness_StoreFrame :
    ∃ (s s1 t : State) (n : LaneId) (rs1 rs2 : BitVec 5) (imm : BitVec 16) (va pa : Nat), s.engXlate n va .store = (.ok pa, s1)
      ∧ exec (.sh n rs2 rs1 imm) s = .next t ∧ s.engReady n = true ∧ rs1.toNat < 24 ∧ rs2.toNat < 24
      ∧ (s.eng n).stepReq = false ∧ (∀ m : LaneId, (s.eng m).haltReq = false) ∧ va = s.effAddr n rs1.toNat imm ∧ va % 2 = 0
      ∧ regionOf pa ≠ .regs ∧ touchesGo pa 2 = false :=
  ⟨mmuUp.upEng 0 fun e => { e with sp := { e.sp with psr := ⟨false, true, false, true, false⟩ } }, _, _, 0, 1, 2, 4, 12, 0x100C,
    Prod.ext (eq_of_okIs (by decide +kernel)) rfl, rfl, by decide +kernel⟩

theorem witness_TrapEntryRule :
    ∃ (s : State) (n : LaneId) (e : Eng) (rs1 : BitVec 5) (a : Word), e = s.eng n ∧ a = e.r rs1.toNat ∧ e.qwait = none ∧ e.regs.cwp < 12
      ∧ s.engReady n = true ∧ e.sp.psr.mon = true ∧ rs1.toNat < 24 ∧ (a.toNat % 0x200 ≠ 0 ∨ a.toNat < 0x4000000 ∨ 0x4010000 ≤ a.toNat) :=
  ⟨monUp, 0, _, 1, _, rfl, rfl, by decide +kernel⟩

theorem witness_TrapAndReturnRestore :
    ∃ (s s1 s2 : State) (n : LaneId) (e : Eng) (imm : BitVec 16), e = s.eng n ∧ exec (.trap n imm) s = .next s1 ∧ exec (.rtt n) s1 = .next s2
      ∧ s.engReady n = true ∧ e.sp.psr.mon = false ∧ e.sp.psr.te = true ∧ e.regs.wres ≤ 11 ∧ e.regs.cwp < 12 ∧ e.regs.wold < 12
      ∧ e.stepReq = false ∧ e.haltReq = false ∧ s1.engReady n = true ∧ s1.asyncFor n (s1.eng n).sp.epsr = none :=
  ⟨up, _, _, 0, _, 5, rfl, rfl, rfl, by decide +kernel⟩

theorem witness_BreakInstructionRule :
    (∃ (s : State) (n : LaneId), s.engReady n = true ∧ (s.eng n).sp.psr.mon = false ∧ s.on ENG.DBG_ATTACH n = true)
    ∧ (∃ (s : State) (n : LaneId), s.engReady n = true ∧ (s.eng n).sp.psr.mon = true)
    ∧ (∃ (s : State) (n : LaneId), s.engReady n = true ∧ s.on ENG.DBG_ATTACH n = false) :=
  ⟨⟨up.put ENG.DBG_ATTACH 0 1, 0, by decide +kernel⟩, ⟨monUp, 0, by decide +kernel⟩, ⟨up, 0, by decide +kernel⟩⟩

theorem witness_CompositorStepEnds :
    (∃ (s : State) (n : LaneId), (s.eng n).run = .halted)
    ∧ (∃ (s : State) (n : LaneId), (s.eng n).run ≠ .halted ∧ (s.eng n).sp.psr.mon = true)
    ∧ (∃ (s : State) (n : LaneId), (s.eng n).run ≠ .halted ∧ (s.eng n).sp.psr.mon = false ∧ (s.eng n).stepReq = false)
    ∧ (∃ (s : State) (n : LaneId), (s.eng n).run ≠ .halted ∧ (s.eng n).sp.psr.mon = false ∧ (s.eng n).stepReq = true) :=
  ⟨⟨up.upEng 0 fun e => { e with run := .halted }, 0, by decide +kernel⟩, ⟨monUp, 0, by decide +kernel⟩, ⟨up, 0, by decide +kernel⟩,
    ⟨up.upEng 0 fun e => { e with stepReq := true }, 0, by decide +kernel⟩⟩

theorem witness_CalendarRoundTrip :
    (∃ d t : Word, dateOk d = true ∧ timeOk t = true ∧ dateYear d = 2399 ∧ timeSec t = 59) ∧ (∃ x : Nat, x ≤ lastSec) :=
  ⟨⟨mkDate 2399 12 31, mkTime 23 59 59, by decide⟩, ⟨lastSec, Nat.le_refl _⟩⟩

theorem witness_DueDates :
    (∃ (d : Word) (k : Nat), dateOk d = true ∧ dateYear (addMonths d k) ≤ 2399 ∧ k ≤ 60
      ∧ dateDay d ≤ daysIn (dateYear (addMonths d k)) (dateMonth (addMonths d k)))
    ∧ (∃ (d : Word) (k : Nat), dateOk d = true ∧ dateYear (addMonths d k) ≤ 2399 ∧ k ≤ 60
      ∧ daysIn (dateYear (addMonths d k)) (dateMonth (addMonths d k)) < dateDay d) :=
  ⟨⟨mkDate 2024 2 29, 48, by decide⟩, ⟨mkDate 2024 1 31, 1, by decide⟩⟩

theorem witness_GutterLinkRowsComplete :
    (∃ (s : State) (n : LaneId), s.linkRuns n = true)
    ∧ (∃ (s : State) (n : LaneId), s.linkRuns n = true ∧ (s.lane n).link.locked = false)
    ∧ (∃ (s : State) (n : LaneId) (up : Bool) (b : BitVec 1024) (x : Rx), x = (s.side n up).rx ∧ s.linkRuns n = true ∧ x.locked = true ∧ x.len = 992
      ∧ x.badRun = 0 ∧ frameOk b.toNat = true)
    ∧ (∃ (s : State) (n : LaneId) (up : Bool) (b : BitVec 1024) (x : Rx), x = (s.side n up).rx ∧ s.linkRuns n = true ∧ x.locked = true ∧ x.len = 992
      ∧ x.badRun = 0 ∧ frameOk b.toNat = false)
    ∧ (∃ (s : State) (n : LaneId) (up : Bool) (u : Sent), (s.lane n).link.locked = true ∧ (s.side n (!up)).rx.locked = true
      ∧ (s.side n (!up)).overdue = some u ∧ u.sends < 4)
    ∧ (∃ (s : State) (n : LaneId) (up : Bool) (u : Sent), (s.lane n).link.locked = true ∧ (s.side n (!up)).rx.locked = true
      ∧ (s.side n (!up)).overdue = some u ∧ 4 ≤ u.sends)
    ∧ (∃ (s : State) (n : LaneId), s.farUp n = true ∧ (s.lane n).link.farSafe = false ∧ (s.lane n).link.goodAt + 20000 ≤ s.clock)
    ∧ (∃ (s : State) (n : LaneId), 63 ≤ (s.lane n).link.telemAge)
    ∧ (∃ (s : State) (n : LaneId), s.farTakes n = true)
    ∧ (∃ (s : State) (n : LaneId) (w : Writer) (k : LaneKind) (off : Nat) (v : Word) (proof : Word) (since : Nat) (q : Nat) (x : FarWrite), x = ⟨w,
      .lane n k, off, v, proof, since⟩ ∧ s.arrived n x q)
    ∧ (∃ (s : State) (n : LaneId), s.on LANE.STATE_LOCKED n = true) :=
  ⟨
    ⟨up, 0, by decide +kernel⟩,
    ⟨(up.upLink 0 fun l => { l with locked := false }), 0, by decide +kernel⟩,
    ⟨up, 0, true, (BitVec.ofNat 1024 (frameBits 0x00000010 0)), _, rfl, by decide +kernel⟩,
    ⟨up, 0, false, 0, _, rfl, by decide +kernel⟩,
    ⟨(up.upLink 0 fun l => { l with near := { l.near with unacked := [unacked 1] } }), 0, false, (unacked 1), by decide +kernel⟩,
    ⟨(up.upLink 0 fun l => { l with near := { l.near with unacked := [unacked 4] } }), 0, false, (unacked 4), by decide +kernel⟩,
    ⟨up, 0, by decide +kernel⟩,
    ⟨(up.upLink 0 fun l => { l with telemAge := 63 }), 0, by decide +kernel⟩,
    ⟨up, 0, by decide +kernel⟩,
    ⟨(come ⟨.host 0, .lane 0 .lane, 0x17, 1, 0, 0⟩ up), 0, .host 0, .lane, 0x17, 1, 0, 0, 0, _, rfl, by unfold State.arrived; decide +kernel⟩,
    ⟨up, 0, by decide +kernel⟩⟩

theorem witness_SupplyRowsComplete :
    (∃ (s : State), s.pwr.mode ≠ .off)
    ∧ (∃ (s : State), vioLevel s.pwr.vio ≠ 0 ∧ s.pwr.mrstLow = false ∧ s.pwr.mode ≠ .off ∧ s.pwr.mode ≠ .dormant)
    ∧ (∃ (s : State), vioLevel s.pwr.vio ≠ 0 ∧ s.pwr.mrstLow = false ∧ s.pwr.mode = .dormant)
    ∧ (∃ (s : State), vioLevel s.pwr.vio ≠ 0 ∧ s.pwr.mrstLow = true)
    ∧ (∃ (s : State) (vin : Nat), s.pwr.mode = .off ∧ vinOk vin = true)
    ∧ (∃ (s : State) (vin : Nat) (aux : Nat), s.pwr.mode = .off ∧ vinOk vin = false ∧ islandFed vin aux = true)
    ∧ (∃ (s : State) (vin : Nat), s.pwr.mode = .dormant ∧ vinOk vin = true ∧ vinOk s.pwr.vin = false)
    ∧ (∃ (s : State) (vin : _), s.awake = true ∧ s.pwr.brownout = false ∧ vin < 16500)
    ∧ (∃ (s : State) (vin : _), s.pwr.mode = .dormant ∧ vin < 16500 ∧ islandFed vin s.pwr.aux = true)
    ∧ (∃ (s : State) (vin : _), s.pwr.brownout = true ∧ vinOk vin = true)
    ∧ (∃ (s : State) (aux : _), s.pwr.islandOn = true ∧ s.awake = true ∧ auxOk aux = true ∧ s.on MOD.PWR_AUX_PRESENT 0 = false)
    ∧ (∃ (s : State) (aux : _), s.pwr.islandOn = true ∧ s.awake = true ∧ auxOk aux = true ∧ s.on MOD.PWR_AUX_PRESENT 0 = true)
    ∧ (∃ (s : State) (aux : Nat), s.pwr.mode = .off ∧ auxOk aux = true)
    ∧ (∃ (s : State), s.awake = true ∧ s.on FIX.PRESENT 0 = false)
    ∧ (∃ (s : State), s.awake = true ∧ s.on FIX.PRESENT 0 = true)
    ∧ (∃ (s : State), s.awake = true ∧ s.on MOD.SUPPLY_FX_FAULT 0 = false)
    ∧ (∃ (s : State), s.awake = true ∧ s.on MOD.SUPPLY_FX_FAULT 0 = true) :=
  ⟨
    ⟨up, by decide +kernel⟩,
    ⟨up, by decide +kernel⟩,
    ⟨({ up with pwr := { up.pwr with mode := .dormant } } : State), by decide +kernel⟩,
    ⟨({ up with pwr := { up.pwr with mrstLow := true } } : State), by decide +kernel⟩,
    ⟨({ up with pwr := { up.pwr with mode := .off, vin := 0, islandOn := false } } : State), 17501, by decide +kernel⟩,
    ⟨({ up with pwr := { up.pwr with mode := .off, vin := 0, islandOn := false } } : State), 12000, 0, by decide +kernel⟩,
    ⟨({ up with pwr := { up.pwr with mode := .dormant, vin := 0 } } : State), 24000, by decide +kernel⟩,
    ⟨up, 16499, by decide +kernel⟩,
    ⟨({ up with pwr := { up.pwr with mode := .dormant } } : State), 16499, by decide +kernel⟩,
    ⟨({ up with pwr := { up.pwr with brownout := true } } : State), 24000, by decide +kernel⟩,
    ⟨up, 5000, by decide +kernel⟩,
    ⟨(up.put MOD.PWR_AUX_PRESENT 0 1), 5000, by decide +kernel⟩,
    ⟨({ up with pwr := { up.pwr with mode := .off, islandOn := false } } : State), 5000, by decide +kernel⟩,
    ⟨up, by decide +kernel⟩,
    ⟨(up.put FIX.PRESENT 0 1), by decide +kernel⟩,
    ⟨up, by decide +kernel⟩,
    ⟨(up.put MOD.SUPPLY_FX_FAULT 0 1), by decide +kernel⟩⟩

theorem witness_InterlockRowsComplete :
    (∃ (s : State) (n : LaneId) (mvA : Int) (mvB : Int) (us : Nat) (x : Ilk),
      x = { (s.lane n).ilk with readA := false, readB := true, a := false, counted := false, bothClosed := false, bothOpened := (s.lane n).ilk.bothOpened || !(s.lane n).ilk.b }
      ∧ s.monitored (.loop n) = true ∧ s.awake = true ∧ 8000 < mvA ∧ mvB < 2000 ∧ 1500 ≤ us ∧ (s.lane n).ilk.a = true)
    ∧ (∃ (s : State) (mvA : Int) (mvB : Int) (us : Nat) (x : Ilk),
      x = { s.pwr.permits with readA := true, readB := false, b := false, counted := false, bothClosed := false, bothOpened := s.pwr.permits.bothOpened || !s.pwr.permits.a }
      ∧ s.monitored .permit = true ∧ 15000 ≤ mvA ∧ mvB < 5000 ∧ 1500 ≤ us ∧ s.pwr.permits.b = true)
    ∧ (∃ (s : State) (p : IlkPair) (us : Nat), s.monitored p = true ∧ us ≤ 1000)
    ∧ (∃ (s : State) (n : LaneId), s.farUp n = true)
    ∧ (∃ (s : State) (n : LaneId) (mvA : Int) (mvB : Int) (us : Nat) (x : Ilk), x = ⟨false, true, false, false, false, false, true⟩
      ∧ s.monitored (.loop n) = true ∧ s.awake = true ∧ 8000 < mvA ∧ mvB < 2000 ∧ 50000 < us ∧ s.on LANE.ILK_DISCREPANCY n = false)
    ∧ (∃ (s : State) (mvA : Int) (mvB : Int) (us : Nat) (x : Ilk), x = ⟨false, true, false, false, false, false, true⟩ ∧ s.monitored .permit = true
      ∧ mvA < 5000 ∧ 15000 ≤ mvB ∧ 50000 < us ∧ s.on MOD.PERMIT_DISCREPANCY 0 = false)
    ∧ (∃ (s : State) (p : IlkPair) (mvA : Int) (mvB : Int) (us : Nat) (x : Ilk), x = s.readPair p mvA mvB ∧ s.monitored p = true ∧ x.readA = true
      ∧ x.readB = true ∧ 20000 ≤ us)
    ∧ (∃ (s : State) (p : IlkPair) (mvA : Int) (mvB : Int) (us : Nat) (x : Ilk), x = s.readPair p mvA mvB ∧ s.monitored p = true ∧ us < 20000)
    ∧ (∃ (s : State) (w : _), s.taken w .mod 0x15 8 none)
    ∧ (∃ (s : State) (n : LaneId) (w : _), s.taken w (.lane n .lane) 0x16 0x10 none)
    ∧ (∃ (s : State) (n : LaneId) (w : _) (since : _) (q : _), s.arrived n ⟨w, .lane n .lane, 0x16, 0x10, 0x10, since⟩ q ∧ bitAt (s.proofNow n ⟨w,
      .lane n .lane, 0x16, 0x10, 0x10, since⟩) 4 = true)
    ∧ (∃ (s : State) (n : LaneId), s.farUp n = true ∧ s.on LANE.ISO_TRIPPED n = false)
    ∧ (∃ (s : State) (n : LaneId) (w : _), s.taken w (.lane n .lane) 0x17 1 none)
    ∧ (∃ (s : State) (n : LaneId) (w : _) (since : _) (q : _), s.arrived n ⟨w, .lane n .lane, 0x17, 1, 0, since⟩ q) :=
  ⟨
    ⟨up, 0, 8001, 0, 1500, _, rfl, by decide +kernel⟩,
    ⟨up, 15000, 4999, 1500, _, rfl, by decide +kernel⟩,
    ⟨up, .permit, 1000, by decide +kernel⟩,
    ⟨up, 0, by decide +kernel⟩,
    ⟨up, 0, 8001, 1999, 50001, _, rfl, by decide +kernel⟩,
    ⟨up, 4999, 15000, 50001, _, rfl, by decide +kernel⟩,
    ⟨up, .permit, 15000, 15000, 20000, _, rfl, by decide +kernel⟩,
    ⟨up, (.loop 0), 1999, 1999, 19999, _, rfl, by decide +kernel⟩,
    ⟨up, .host 0, by unfold State.taken; decide +kernel⟩,
    ⟨up, 0, .host 0, by unfold State.taken; decide +kernel⟩,
    ⟨(come ⟨.host 0, .lane 0 .lane, 0x16, 0x10, 0x10, 0⟩ (up.put LANE.ILK_DISCREPANCY 0 1)), 0, .host 0, 0, 0,
      by unfold State.arrived; decide +kernel⟩,
    ⟨up, 0, by decide +kernel⟩,
    ⟨up, 0, .host 0, by unfold State.taken; decide +kernel⟩,
    ⟨(come ⟨.host 0, .lane 0 .lane, 0x17, 1, 0, 0⟩ up), 0, .host 0, 0, 0, by unfold State.arrived; decide +kernel⟩⟩

theorem witness_ResetRowsComplete :
    (∃ (s : State) (w : Writer) (v : _), s.taken w .mod 0x12 v (modChk 0x12 v (s.staged .mod 0x12 v)))
    ∧ (∃ (s : State), s.pwr.mode = .run ∧ s.g MOD.PWR_REQ 0 = 1)
    ∧ (∃ (s : State), s.awake = true ∧ s.g MOD.PWR_REQ 0 = 2)
    ∧ (∃ (s : State), s.pwr.mode = .quiet ∧ s.g MOD.PWR_REQ 0 = 0 ∧ (s.toPower .run 0).on THERM.STAT_SHED 0 = true)
    ∧ (∃ (s : State), s.pwr.mode = .quiet ∧ s.g MOD.PWR_REQ 0 = 0 ∧ (s.toPower .run 0).on THERM.STAT_SHED 0 = false)
    ∧ (∃ (s : State), s.pwr.mode = .inReset ∧ s.pwr.mrstLow = false ∧ s.pwr.brownout = false ∧ vinOk s.pwr.vin = true
      ∧ s.pwr.heldFrom + holdTicks (s.g MOD.RESET_CAUSE_CAUSE 0) ≤ s.clock)
    ∧ (∃ (s : State) (n : LaneId), s.pwr.mode = .run ∧ s.fitted n = true ∧ s.phase n = phReset ∧ s.on THERM.STAT_SHED 0 = false
      ∧ (s.lane n).link.huntFrom + msTicks ≤ s.clock)
    ∧ (∃ (s : State) (n : LaneId), s.pwr.mode = .quiet ∧ s.fitted n = true ∧ s.phase n = phReset ∧ (s.lane n).link.huntFrom + msTicks ≤ s.clock)
    ∧ (∃ (s : State) (n : LaneId), s.awake = true ∧ s.fitted n = true ∧ s.phase n ≠ phReset ∧ (s.eng n).run = .reset ∧ (s.gal n).d0Paused = true
      ∧ s.chaseUp = true ∧ (s.eng n).since + 20000 ≤ s.clock)
    ∧ (∃ (s : State) (w : Writer) (v : _), s.taken w .mod 0x1C v (modChk 0x1C v (s.staged .mod 0x1C v)) ∧ bitAt v 0 = true)
    ∧ (∃ (s : State), s.awake = true ∧ s.pwr.t0 + 250 * msTicks ≤ s.clock)
    ∧ (∃ (s : State) (n : LaneId) (w : Writer) (v : _), bitAt v 0 = true ∧ s.taken w (.lane n .lane) 0x1A v (rstChk v s))
    ∧ (∃ (s : State) (n : LaneId) (w : Writer) (v : _), bitAt v 0 = false ∧ bitAt v 1 = true ∧ s.taken w (.lane n .lane) 0x1A v (rstChk v s)) :=
  ⟨
    ⟨up, .host 0, 0, by unfold State.taken; decide +kernel⟩,
    ⟨(up.put MOD.PWR_REQ 0 1), by decide +kernel⟩,
    ⟨(up.put MOD.PWR_REQ 0 2), by decide +kernel⟩,
    ⟨(({ up with pwr := { up.pwr with mode := .quiet } } : State).put THERM.STAT_SHED 0 1), by decide +kernel⟩,
    ⟨({ up with pwr := { up.pwr with mode := .quiet } } : State), by decide +kernel⟩,
    ⟨({ State.reset with clock := 40000000000 } : State), by decide +kernel⟩,
    ⟨(up.put LANE.STATE_PHASE 0 5), 0, by decide +kernel⟩,
    ⟨(({ up with pwr := { up.pwr with mode := .quiet } } : State).put LANE.STATE_PHASE 0 5), 0, by decide +kernel⟩,
    ⟨((up.upEng 0 fun e => { e with run := .reset }).upGal 0 fun g => { g with d0Paused := true }), 0, by decide +kernel⟩,
    ⟨up, .host 0, 0x5AA50001, by unfold State.taken; decide +kernel⟩,
    ⟨up, by decide +kernel⟩,
    ⟨up, 0, .host 0, 0x5AA50001, by unfold State.taken; decide +kernel⟩,
    ⟨up, 0, .host 0, 0x5AA50002, by unfold State.taken; decide +kernel⟩⟩

theorem witness_BootRowsComplete :
    (∃ (s : State), s.pwr.mode = .run ∧ s.g MOD.BOOT_STAGE 0 = stageCheckA ∧ s.acceptsSlot false = true)
    ∧ (∃ (s : State), s.pwr.mode = .run ∧ s.g MOD.BOOT_STAGE 0 = stageCheckA ∧ s.acceptsSlot false = false ∧ s.on MOD.BOOT_B_BAD 0 = false)
    ∧ (∃ (s : State), s.pwr.mode = .run ∧ s.g MOD.BOOT_STAGE 0 = stageCheckB ∧ s.acceptsSlot true = true)
    ∧ (∃ (s : State), s.pwr.mode = .run ∧ s.g MOD.BOOT_STAGE 0 = stageCheckB ∧ s.acceptsSlot true = false ∧ s.on MOD.BOOT_A_BAD 0 = true)
    ∧ (∃ (s : State), s.awake = true ∧ s.g MOD.BOOT_STAGE 0 = stageInit ∧ s.chase.worksDue = false)
    ∧ (∃ (s : State), s.chaseUp = true ∧ s.awake = true ∧ s.pwr.runAt + confirmTicks ≤ s.clock)
    ∧ (∃ (s : State) (n : LaneId), s.farUp n = true ∧ s.phase n = phSelftest ∧ (s.lane n).link.locked = true ∧ s.chaseUp = true ∧ s.calRec n ≠ none
      ∧ (s.eng n).run ≠ .reset)
    ∧ (∃ (s : State) (n : LaneId) (failed : BitVec 12), s.farUp n = true ∧ s.phase n = phSelftest ∧ (s.lane n).link.locked = true ∧ s.chaseUp = true
      ∧ s.calRec n ≠ none ∧ (s.eng n).run ≠ .reset ∧ failed.toNat &&& 0xBFF ≠ 0)
    ∧ (∃ (s : State) (n : LaneId), s.farUp n = true ∧ s.phase n = phSelftest ∧ (s.lane n).link.locked = true ∧ s.on LANE.SELFTEST_PASS n = true
      ∧ s.on LANE.STATE_DISCIPLINED n = true) :=
  ⟨
    ⟨(up.put MOD.BOOT_STAGE 0 1), by decide +kernel⟩,
    ⟨({ up with pwr := { up.pwr with slotA := badSlot } }.put MOD.BOOT_STAGE 0 1 : State), by decide +kernel⟩,
    ⟨((up.setSlot true up.pwr.slotA).put MOD.BOOT_STAGE 0 2), by decide +kernel⟩,
    ⟨((({ up with pwr := { up.pwr with slotB := badSlot } } : State).put MOD.BOOT_STAGE 0 2).put MOD.BOOT_A_BAD 0 1), by decide +kernel⟩,
    ⟨(up.put MOD.BOOT_STAGE 0 3), by decide +kernel⟩,
    ⟨up, by decide +kernel⟩,
    ⟨((up.upChase fun c => { c with recs := c.recs.set 0 (some calBytes) }).put LANE.STATE_PHASE 0 2), 0, by decide +kernel⟩,
    ⟨((up.upChase fun c => { c with recs := c.recs.set 0 (some calBytes) }).put LANE.STATE_PHASE 0 2), 0, 1, by decide +kernel⟩,
    ⟨((up.put LANE.STATE_PHASE 0 2).put LANE.SELFTEST_PASS 0 1), 0, by decide +kernel⟩⟩

theorem witness_FormeReadsComplete :
    (∃ (s : State) (h : Hdr) (c : Instr), (c = .read h ∨ c = .readList h) ∧ s.formeAnswers = true ∧ (s.session h.session).isOpen = true
      ∧ s.pwr.softReset = false ∧ s.forme.started = none ∧ h.part = .whole ∧ s.formeStatus opRd h [] 0 = 0)
    ∧ (∃ (s : State) (h : Hdr), s.formeAnswers = true ∧ (s.session h.session).isOpen = true ∧ s.pwr.softReset = false ∧ s.forme.started = none
      ∧ h.part = .whole ∧ s.formeStatus opNop h [] 0 = 0)
    ∧ (∃ (s : State) (h : Hdr), s.formeAnswers = true ∧ (s.session h.session).isOpen = true ∧ s.pwr.softReset = false ∧ s.forme.started = none
      ∧ h.part = .whole ∧ s.formeStatus opOpen h [] 0 = 0 ∧ Hdr.flag h 0 = true ∧ winLane h = none)
    ∧ (∃ (s : State) (h : Hdr) (n : LaneId), s.formeAnswers = true ∧ (s.session h.session).isOpen = true ∧ s.pwr.softReset = false
      ∧ s.forme.started = none ∧ h.part = .whole ∧ winLane h = some n ∧ s.formeStatus opGalley h [] 0 = 0)
    ∧ (∃ (s : State) (h : Hdr) (n : LaneId), s.formeAnswers = true ∧ (s.session h.session).isOpen = true ∧ s.pwr.softReset = false
      ∧ s.forme.started = none ∧ h.part = .whole ∧ winLane h = some n ∧ s.formeStatus opStoreRd h [] 0 = 0) :=
  ⟨
    ⟨up, (hd opRd 0 0x0010 4), .read (hd opRd 0 0x0010 4), .inl rfl, by decide +kernel⟩,
    ⟨up, (hd opNop 0 0 0), by decide +kernel⟩,
    ⟨up, (hd opOpen 1 0 8), by decide +kernel⟩,
    ⟨up, (hd opGalley 0 0xC000 4), 0, by decide +kernel⟩,
    ⟨up, (hd opStoreRd 0 0xC000 4), 0, by decide +kernel⟩⟩

theorem witness_FormeWritesComplete :
    (∃ (s : State) (h : Hdr) (data : List Word) (dcrc : BitVec 16) (c : Instr), (c = .write h data dcrc ∨ c = .writeScatter h data dcrc)
      ∧ s.formeAnswers = true ∧ s.pwr.softReset = false ∧ s.forme.started = none ∧ h.part = .whole ∧ s.formeStatus opWr h data dcrc = 0)
    ∧ (∃ (s : State) (h : Hdr), s.formeAnswers = true ∧ s.pwr.softReset = false ∧ s.forme.started = none ∧ h.part = .whole)
    ∧ (∃ (s : State) (h : Hdr) (data : List Word) (dcrc : BitVec 16) (n : LaneId), s.formeAnswers = true ∧ s.pwr.softReset = false
      ∧ s.forme.started = none ∧ h.part = .whole ∧ winLane h = some n ∧ s.formeStatus opStoreWr h data dcrc = 0)
    ∧ (∃ (s : State) (h : Hdr) (n : LaneId) (x : StoreWrite), s.formeAnswers = true ∧ s.pwr.softReset = false ∧ s.forme.started = none
      ∧ h.part = .whole ∧ (s.lane n).storeWrite = some x)
    ∧ (∃ (s : State) (h : Hdr) (data : List Word) (dcrc : BitVec 16), s.formeAnswers = true ∧ s.pwr.softReset = false ∧ s.forme.started = none
      ∧ h.part = .whole ∧ s.formeStatus opOpen h data dcrc = 0 ∧ Hdr.flag h 0 = false)
    ∧ (∃ (s : State) (h : Hdr), s.formeAnswers = true ∧ s.pwr.softReset = false ∧ s.forme.started = none ∧ h.part = .whole
      ∧ s.formeStatus opClose h [] 0 = 0)
    ∧ (∃ (s : State) (h : Hdr), s.formeAnswers = true ∧ s.pwr.softReset = false ∧ s.forme.started = none ∧ h.part = .whole
      ∧ s.formeStatus opRing h [] 0 = 0 ∧ winLane h = none)
    ∧ (∃ (s : State) (h : Hdr) (op : BitVec 8), s.formeAnswers = true ∧ s.pwr.softReset = false ∧ s.forme.started = none ∧ h.part = .whole
      ∧ hdrCrc op.toNat h ≠ h.hcrc.toNat)
    ∧ (∃ (s : State) (h : Hdr) (data : List Word) (dcrc : BitVec 16) (op : BitVec 8), s.formeAnswers = true ∧ s.pwr.softReset = false
      ∧ s.forme.started = none ∧ h.part = .whole ∧ writeType op.toNat h = true ∧ s.formeStatus op.toNat h data dcrc = 0) :=
  ⟨
    ⟨up, (hd opWr 0 0x0A12 1), [3], (dc [3]), .write (hd opWr 0 0x0A12 1) [3] (dc [3]), .inl rfl, by decide +kernel⟩,
    ⟨up, (hd opWr 0 0x0A12 1), by decide +kernel⟩,
    ⟨(up.put LANE.HWR_LIMIT 0 1), (hd opStoreWr 0 0xC000 2), [3, 4], (dc [3, 4]), 0, by decide +kernel⟩,
    ⟨(up.upLane 0 fun l => { l with storeWrite := some ⟨0, [3]⟩ }), (hd opNop 0 0 0), 0, ⟨0, [3]⟩, by decide +kernel⟩,
    ⟨up, (hd opOpen 0 0 8), [1, 2, 3, 4, 5, 6, 7, 8], (dc [1, 2, 3, 4, 5, 6, 7, 8]), by decide +kernel⟩,
    ⟨up, (hd opClose 0 0 0), by decide +kernel⟩,
    ⟨up, (hd opRing 0 0x03C5 0), by decide +kernel⟩,
    ⟨up, ⟨.whole, true, 0, 0, 0, 0, 1, 0x55⟩, 2, by decide +kernel⟩,
    ⟨up, (hd 2 0 0x0A12 1), [3], (dc [3]), 2, by decide +kernel⟩⟩

theorem witness_HeaderRowsComplete :
    (∃ (s : State) (w : Writer) (p : Page) (v : _), Machine.Page.hasHeader p = true ∧ s.taken w p 5 v none)
    ∧ (∃ (s : State) (w : Writer) (p : Page) (v : _), Machine.Page.hasHeader p = true ∧ s.taken w p 6 v none)
    ∧ (∃ (s : State) (w : Writer) (p : Page) (v : _), Machine.Page.hasHeader p = true ∧ s.taken w p 8 v none)
    ∧ (∃ (s : State) (w : Writer) (p : Page) (v : _), Machine.Page.hasHeader p = true ∧ s.taken w p 9 v none
      ∧ s.hw p 4 &&& s.hw p 7 &&& v &&& p.evBits = 0)
    ∧ (∃ (s : State) (w : Writer) (p : Page) (v : _) (b : _), Machine.Page.hasHeader p = true ∧ s.taken w p 9 v none
      ∧ bitList (s.hw p 4 &&& s.hw p 7 &&& v &&& p.evBits) = [b] ∧ s.route p b ≠ 0xF)
    ∧ (∃ (s : State) (w : Writer) (p : Page) (v : _), Machine.Page.hasHeader p = true ∧ s.taken w p 0xA v (evSourceChk p v) ∧ s.hw p 4 = 0)
    ∧ (∃ (s : State) (w : Writer) (p : Page), Machine.Page.hasHeader p = true ∧ s.writable w p 2 = true)
    ∧ (∃ (s : State) (w : Writer) (p : Page) (off : _) (v : _), Machine.Page.hasHeader p = true ∧ off < 256 ∧ s.writable w p off = true
      ∧ (p = .quoin → off = 0x10 → s.quoinBarred w v = false))
    ∧ (∃ (s : State) (w : Writer) (p : Page) (off : _) (v : _), Machine.Page.hasHeader p = true ∧ off < 256 ∧ 0x10 ≤ off ∧ accMask p off .ctr ≠ 0
      ∧ p.mirrorAt off = false ∧ s.taken w p off v (wordChk s w [] ⟨p, off, v⟩ (s.staged p off v)))
    ∧ (∃ (s : State) (w : Writer) (p : Page) (n : _) (off : _) (v : _), Machine.Page.hasHeader p = true ∧ off < 256 ∧ 0x10 ≤ off
      ∧ accMask p off .ctr ≠ 0 ∧ p.lane? = some n ∧ p.mirrorAt off = true ∧ s.taken w p off v (wordChk s w [] ⟨p, off, v⟩ (s.staged p off v))) :=
  ⟨
    ⟨up, .host 0, .mod, 0, by unfold State.taken; decide +kernel⟩,
    ⟨up, .host 0, .mod, 0, by unfold State.taken; decide +kernel⟩,
    ⟨up, .host 0, .mod, 0, by unfold State.taken; decide +kernel⟩,
    ⟨up, .host 0, .mod, 0, by unfold State.taken; decide +kernel⟩,
    ⟨((up.setHw .mod 4 1).setHw .mod 7 1), .host 0, .mod, 1, 0, by unfold State.taken; decide +kernel⟩,
    ⟨up, .host 0, .mod, 0, by unfold State.taken; decide +kernel⟩,
    ⟨up, .host 0, .mod, by decide +kernel⟩,
    ⟨up, .host 0, .quoin, 0x10, 0x105, by decide +kernel⟩,
    ⟨up, .host 0, .forme, 0x14, 0, by unfold State.taken; decide +kernel⟩,
    ⟨up, .host 0, (.lane 0 .lane), 0, 0x18, 0, by unfold State.taken; decide +kernel⟩⟩

theorem witness_SessionRowsComplete :
    (∃ (s : State) (k : SessId) (r : _) (rest : _) (key : _), s.goodResponse k key = beBytes 32 r.toNat ∧ s.chaseUp = true
      ∧ (s.session k).responses = (r, false) :: rest ∧ (s.session k).lockout = false ∧ (s.session k).key = some key ∧ (s.session k).isOpen = false)
    ∧ (∃ (s : State) (k : SessId) (r : _) (rest : _) (key : _), s.goodResponse k key ≠ beBytes 32 r.toNat ∧ s.chaseUp = true
      ∧ (s.session k).responses = (r, false) :: rest ∧ (s.session k).lockout = false ∧ (s.session k).key = some key ∧ s.g SESS.FAILS 0 k.val < 2)
    ∧ (∃ (s : State) (k : SessId) (r : _) (rest : _) (key : _), s.goodResponse k key ≠ beBytes 32 r.toNat ∧ s.chaseUp = true
      ∧ (s.session k).responses = (r, false) :: rest ∧ (s.session k).lockout = false ∧ (s.session k).key = some key ∧ s.g SESS.FAILS 0 k.val = 2)
    ∧ (∃ (s : State) (k : SessId) (r : _) (rest : _), s.chaseUp = true ∧ (s.session k).responses = (r, true) :: rest)
    ∧ (∃ (s : State) (k : SessId), (s.session k).lockout = true ∧ (s.session k).lockAt + lockoutTicks ≤ s.clock)
    ∧ (∃ (s : State) (w : Writer) (v : _), s.taken w .sess 0x12 v none)
    ∧ (∃ (s : State) (w : Writer) (words : _) (v : _) (x : _), x = withBits (withBits v 8 8 1) 9 9 0 ∧ s.taken w .sess 0x28 x (keyChk words x))
    ∧ (∃ (s : State) (w : Writer) (v : _) (x : _), x = withBits (withBits v 9 9 1) 8 8 0 ∧ s.taken w .sess 0x28 x (keyChk [] x)) :=
  ⟨
    ⟨(up.upSess 1 fun x => { x with responses := [(BitVec.ofNat 256 0xafcdb613100379c290400847dc0bc668a940f5fc4826fa75b4d3b127afe67c0c, false)], key := some 9 }),
      1, (BitVec.ofNat 256 0xafcdb613100379c290400847dc0bc668a940f5fc4826fa75b4d3b127afe67c0c), [], 9,
      (congr (congrArg hmacSha256 (by decide +kernel)) (by decide +kernel)).trans (hmac_open.trans (by decide +kernel)), by decide +kernel⟩,
    ⟨(up.upSess 1 fun x => { x with responses := [(3, false)], key := some 9 }), 1, 3, [], 9,
      fun h => absurd (((congr (congrArg hmacSha256 (by decide +kernel)) (by decide +kernel)).trans hmac_open).symm.trans h) (by decide +kernel),
      by decide +kernel⟩,
    ⟨((up.upSess 1 fun x => { x with responses := [(3, false)], key := some 9 }).p SESS.FAILS 0 1 2), 1, 3, [], 9,
      fun h => absurd (((congr (congrArg hmacSha256 (by decide +kernel)) (by decide +kernel)).trans hmac_open).symm.trans h) (by decide +kernel),
      by decide +kernel⟩,
    ⟨(up.upSess 1 fun x => { x with responses := [(3, true)], key := some 9 }), 1, 3, [], by decide +kernel⟩,
    ⟨(up.upSess 1 fun x => { x with lockout := true }), 1, by decide +kernel⟩,
    ⟨up, .host 0, 2, by unfold State.taken; decide +kernel⟩,
    ⟨up, .host 0, [1, 2, 3, 4, 5, 6, 7, 8], 1, _, rfl, by unfold State.taken; decide +kernel⟩,
    ⟨up, .host 0, 1, _, rfl, by unfold State.taken; decide +kernel⟩⟩

theorem witness_QuoinRowsComplete :
    (∃ (s : State) (k : SessId) (v : Word) (q : Nat) (x : _), x = withBits v 11 8 1 ∧ q < 96 ∧ s.quoinAbsent q = false ∧ bitsOf x 7 0 = q
      ∧ s.taken (.host k) .quoin 0x10 x (quoinOpChk x) ∧ s.quoinRight k.val q = true ∧ (s.quoin q).holder = noHolder ∧ s.outOfOrder k.val q = false
      ∧ (s.quoin q).broken = false)
    ∧ (∃ (s : State) (v : Word) (q : Nat) (x : _), x = withBits v 11 8 1 ∧ q < 96 ∧ s.quoinAbsent q = false ∧ bitsOf x 7 0 = q
      ∧ s.taken .chase .quoin 0x10 x (quoinOpChk x) ∧ (s.quoin q).holder = noHolder ∧ s.outOfOrder 0x20 q = false)
    ∧ (∃ (s : State) (k : SessId) (v : Word) (q : Nat) (x : _), x = withBits v 11 8 2 ∧ q < 96 ∧ s.quoinAbsent q = false ∧ bitsOf x 7 0 = q
      ∧ bitAt x 13 = false ∧ s.taken (.host k) .quoin 0x10 x (quoinOpChk x) ∧ (s.quoin q).holder = k.val ∧ (∀ j : SessId,
      (s.session j).wait ≠ some q) ∧ (∀ n : LaneId, (s.eng n).qwait = none))
    ∧ (∃ (s : State) (k : SessId) (v : Word) (q : Nat) (x : _), x = withBits v 11 8 3 ∧ q < 96 ∧ s.quoinAbsent q = false ∧ bitsOf x 7 0 = q
      ∧ bitAt x 13 = false ∧ s.taken (.host k) .quoin 0x10 x (quoinOpChk x) ∧ (s.quoin q).holder = k.val)
    ∧ (∃ (s : State) (k : SessId) (v : Word) (q : Nat) (x : _), x = withBits v 11 8 4 ∧ q < 96 ∧ s.quoinAbsent q = false ∧ k = 0 ∧ bitsOf x 7 0 = q
      ∧ s.taken (.host k) .quoin 0x10 x (quoinOpChk x) ∧ (s.quoin q).holder ≠ noHolder ∧ (∀ j : SessId, (s.session j).wait ≠ some q)
      ∧ (∀ n : LaneId, (s.eng n).qwait = none))
    ∧ (∃ (s : State) (k : SessId) (v : Word) (q : Nat) (x : _), x = withBits v 11 8 5 ∧ q < 96 ∧ s.quoinAbsent q = false ∧ bitsOf x 7 0 = q
      ∧ s.taken (.host k) .quoin 0x10 x (quoinOpChk x) ∧ (s.session k).wait = some q)
    ∧ (∃ (s : State) (q : Nat), q < 96 ∧ s.quoinAbsent q = false ∧ (s.quoin q).holder ≠ noHolder
      ∧ (s.quoin q).since + (s.quoin q).limit * 200000 < s.clock)
    ∧ (∃ (s : State) (q : Nat) (w : _) (v : _), q < 96 ∧ s.quoinAbsent q = false
      ∧ s.taken w .quoin (0x80 + q) v (quoinCfgChk q v (s.staged .quoin (0x80 + q) v)))
    ∧ (∃ (s : State) (q : Nat) (n : LaneId) (x : QWait), q < 96 ∧ s.quoinAbsent q = false ∧ (s.eng n).qwait = some x ∧ x.until_ ≤ s.clock
      ∧ (s.takeQuoin (0x10 + n.val) x.quoin).1 = qBusy) :=
  ⟨
    ⟨({ up with quoins := State.reset.quoins } : State), 0, 5, 5, _, rfl, by unfold State.taken; decide +kernel⟩,
    ⟨({ up with quoins := State.reset.quoins } : State), 5, 5, _, rfl, by unfold State.taken; decide +kernel⟩,
    ⟨up, 0, 5, 5, _, rfl, by unfold State.taken; decide +kernel⟩,
    ⟨up, 0, 5, 5, _, rfl, by unfold State.taken; decide +kernel⟩,
    ⟨up, 0, 5, 5, _, rfl, by unfold State.taken; decide +kernel⟩,
    ⟨(up.upSess 0 fun x => { x with wait := some 5 }), 0, 5, 5, _, rfl, by unfold State.taken; decide +kernel⟩,
    ⟨up, 5, by decide +kernel⟩,
    ⟨({ up with quoins := State.reset.quoins } : State), 5, .host 0, 0x503E8, by unfold State.taken; decide +kernel⟩,
    ⟨(up.upEng 0 fun e => { e with qwait := some ⟨32, 3, 100⟩ }), 5, 0, ⟨32, 3, 100⟩, by decide +kernel⟩⟩

theorem witness_GathererRowsComplete :
    (∃ (s : State) (w : Writer) (i : Nat) (v : Word), i < 32 ∧ s.taken w .evg (0x80 + i) v none)
    ∧ (∃ (s : State) (w : Writer) (i : Nat) (v : Word), i < 32 ∧ s.taken w .evg (0xA0 + i) v none)
    ∧ (∃ (s : State) (w : Writer) (i : Nat) (v : Word), i < 32 ∧ s.taken w .evg (0xC0 + i) v none)
    ∧ (∃ (s : State) (w : Writer) (i : Nat) (v : Word), i < 32 ∧ s.taken w .evg (0xE0 + i) v none)
    ∧ (∃ (s : State) (w : Writer) (v : Word) (t : Bool), s.taken w .evg (0x11 + 2 * b2n t) v none ∧ bitAt v 31 = true)
    ∧ (∃ (s : State) (w : Writer) (v : Word) (t : Bool), s.taken w .evg (0x12 + 2 * b2n t) v none ∧ bitAt v 31 = true)
    ∧ (∃ (s : State) (w : Writer) (v : Word), s.taken w .evg 0x15 v (forceDoneChk v) ∧ bitAt v 31 = true)
    ∧ (∃ (s : State) (w : Writer) (i : Nat) (v : Word) (j : Fin 4), i < 1024 ∧ j.val = i / 256
      ∧ s.taken w (.table j) (i % 256) v ((s.staged (.table j) (i % 256) v).entryChk i v))
    ∧ (∃ (s : State) (w : Writer) (i : Nat) (v : Word), 1 ≤ i ∧ i < 16 ∧ s.taken w .evg (0x70 + i) v (coalChk v))
    ∧ (∃ (s : State) (i : Nat) (at_ : _), (s.coal i).firstHeld = some at_ ∧ at_ + s.g EVG.COAL_TIME 0 i * 200 ≤ s.clock)
    ∧ (∃ (s : State), s.evg.firqA.gapAt + 40 ≤ s.clock)
    ∧ (∃ (s : State), s.evg.firqB.gapAt + 40 ≤ s.clock)
    ∧ (∃ (s : State) (i : Nat) (x : NwWatch), s.pwr.mode = .dormant ∧ s.evg.nwCopy.find? (fun y => y.entry == i) = some x ∧ x.alarm = false) :=
  ⟨
    ⟨up, .host 0, 31, 0x80000000, by unfold State.taken; decide +kernel⟩,
    ⟨up, .host 0, 0, 1, by unfold State.taken; decide +kernel⟩,
    ⟨up, .host 0, 0, 0, by unfold State.taken; decide +kernel⟩,
    ⟨up, .host 0, 0, 0, by unfold State.taken; decide +kernel⟩,
    ⟨up, .host 0, 0x80000005, false, by unfold State.taken; decide +kernel⟩,
    ⟨up, .host 0, 0x80000005, true, by unfold State.taken; decide +kernel⟩,
    ⟨up, .host 0, 0x80000005, by unfold State.taken; decide +kernel⟩,
    ⟨up, .host 0, 300, 0xF8000000, 1, by unfold State.taken; decide +kernel⟩,
    ⟨up, .host 0, 15, 0x00010001, by unfold State.taken; decide +kernel⟩,
    ⟨(up.setCoal 1 { up.coal 1 with firstHeld := some 0 }), 1, 0, by decide +kernel⟩,
    ⟨up, by decide +kernel⟩,
    ⟨up, by decide +kernel⟩,
    ⟨({ up with pwr := { up.pwr with mode := .dormant }, evg := { up.evg with nwCopy := [⟨0, 5, true, false⟩] } } : State), 0, ⟨0, 5, true, false⟩,
      by decide +kernel⟩⟩

theorem witness_RegistrationRowsComplete :
    (∃ (s : State), s.awake = true ∧ s.on REG.WRAP_PENDING 0 = false)
    ∧ (∃ (s : State), s.on REG.WRAP_PENDING 0 = true)
    ∧ (∃ (s : State), s.awake = true)
    ∧ (∃ (s : State) (w : Writer) (v : _), s.taken w .reg 0x13 v (regChk s 0x13 v (s.staged .reg 0x13 v)))
    ∧ (∃ (s : State) (w : Writer), s.taken w .reg 0x20 1 (regChk s 0x20 1 (s.staged .reg 0x20 1)))
    ∧ (∃ (s : State) (r : _), s.ru.decided = some r ∧ s.ru.announced = none ∧ s.g REG.STEP_POLICY 0 = 1)
    ∧ (∃ (s : State) (r : _) (at_ : _), s.awake = true ∧ s.ru.announced = some (r, at_))
    ∧ (∃ (s : State) (n : LaneId) (d : _) (at_ : _), s.farUp n = true ∧ (s.lane n).stepAt = some (d, at_) ∧ at_ ≤ s.laneTime n)
    ∧ (∃ (s : State) (w : Writer) (v : _) (c : Instr), (c = .selectWrite w v ∨ c = .modeWrite w v)
      ∧ s.taken w .reg 0x14 v (regChk s 0x14 v (s.staged .reg 0x14 v)))
    ∧ (∃ (s : State), s.ru.switching = true ∧ absInt s.slewLeft ≤ (s.g REG.LOCK_NS 0 : Int))
    ∧ (∃ (s : State) (w : Writer) (v : _), s.taken w .reg 0x21 v (regChk s 0x21 v (s.staged .reg 0x21 v)))
    ∧ (∃ (s : State) (n : LaneId), s.live n = true ∧ (s.lane n).link.stale = false) :=
  ⟨
    ⟨up, by decide +kernel⟩,
    ⟨(up.put REG.WRAP_PENDING 0 1), by decide +kernel⟩,
    ⟨up, by decide +kernel⟩,
    ⟨up, .host 0, 0x05000000, by unfold State.taken; decide +kernel⟩,
    ⟨(up.put REG.MODE 0 2), .host 0, by unfold State.taken; decide +kernel⟩,
    ⟨({ (up.put REG.STEP_POLICY 0 1) with ru := { up.ru with decided := some ⟨5, none, false⟩ } } : State), ⟨5, none, false⟩, by decide +kernel⟩,
    ⟨({ up with ru := { up.ru with announced := some (⟨5, none, false⟩, 100000) } } : State), ⟨5, none, false⟩, 100000, by decide +kernel⟩,
    ⟨(up.upLane 0 fun l => { l with stepAt := some (5, 100000) }), 0, 5, 100000, by decide +kernel⟩,
    ⟨up, .host 0, 0, .modeWrite (.host 0) 0, .inr rfl, by unfold State.taken; decide +kernel⟩,
    ⟨({ up with ru := { up.ru with switching := true } } : State), by decide +kernel⟩,
    ⟨up, .host 0, 0, by unfold State.taken; decide +kernel⟩,
    ⟨up, 0, by decide +kernel⟩⟩

theorem witness_PtpAndNetRowsComplete :
    (∃ (s : State) (m : PtpMsg) (b : Bool) (h : EthHead) (t2 : _), s.hears = true ∧ s.accepts m.head = true ∧ s.accepts h = true ∧ m.kind = 0
      ∧ s.msgDomain m = some b ∧ (s.bump NET.RX_FRAMES 0).msgDropped b m = false ∧ s.fromParent b m = true ∧ s.rxStamp m = some t2
      ∧ m.twoStep = true)
    ∧ (∃ (s : State) (m : PtpMsg) (b : Bool) (h : EthHead) (t2 : _) (c : _), s.hears = true ∧ s.accepts m.head = true ∧ s.accepts h = true
      ∧ m.kind = 8 ∧ s.msgDomain m = some b ∧ (s.bump NET.RX_FRAMES 0).msgDropped b m = false ∧ s.fromParent b m = true
      ∧ (s.dom b).sync = some (m.seq, t2, c) ∧ (s.dom b).delay = none)
    ∧ (∃ (s : State) (m : PtpMsg) (b : Bool) (h : EthHead) (t3 : _) (x : _), s.hears = true ∧ s.accepts m.head = true ∧ s.accepts h = true
      ∧ m.kind = 9 ∧ s.msgDomain m = some b ∧ (s.bump NET.RX_FRAMES 0).msgDropped b m = false ∧ s.fromParent b m = true ∧ (s.dom b).req = some m.seq
      ∧ (s.dom b).t3 = some t3 ∧ (s.dom b).ms = some x)
    ∧ (∃ (s : State) (m : PtpMsg) (b : Bool) (h : EthHead) (l : _), l = enterMaster (s.dom b).foreign ⟨m.clockId, m.port, m.set⟩ ∧ s.hears = true
      ∧ s.accepts m.head = true ∧ s.accepts h = true ∧ m.kind = 0xB ∧ s.msgDomain m = some b ∧ (s.bump NET.RX_FRAMES 0).msgDropped b m = false
      ∧ (match bestMaster l with | some f => f.clock == m.clockId && f.port == m.port | none => false) = false)
    ∧ (∃ (s : State) (m : PtpMsg) (h : EthHead), s.hears = true ∧ s.accepts m.head = true ∧ s.accepts h = true)
    ∧ (∃ (s : State) (m : PtpMsg) (b : Bool) (h : EthHead), s.hears = true ∧ s.accepts m.head = true ∧ s.accepts h = true ∧ s.msgDomain m = some b
      ∧ (s.bump NET.RX_FRAMES 0).msgDropped b m = true)
    ∧ (∃ (s : State) (m : PtpMsg) (b : Bool) (h : EthHead), s.hears = true ∧ s.accepts m.head = true ∧ s.accepts h = true
      ∧ s.on PTP.EN 0 (b2n b) = true ∧ (s.dom b).parent ≠ none ∧ (s.dom b).reqDue ≤ s.clock ∧ (∀ at_,
      (s.dom b).reqAt = some at_ → at_ + 1562500 ≤ s.clock) ∧ s.g PTP.TRANSPORT 0 (b2n b) ≠ 1)
    ∧ (∃ (s : State) (m : PtpMsg) (b : Bool) (h : EthHead) (f : _) (l : _), l = (s.dom b).foreign.filter (· != f) ∧ s.hears = true
      ∧ s.accepts m.head = true ∧ s.accepts h = true ∧ (s.dom b).parent = some f
      ∧ (s.dom b).annAt + s.g PTP.ANN_TIMEOUT 0 (b2n b) * logTicks (s.dom b).annLog ≤ s.clock)
    ∧ (∃ (s : State) (m : PtpMsg) (b : Bool) (h : EthHead), s.hears = true ∧ s.accepts m.head = true ∧ s.accepts h = true
      ∧ (s.dom b).offAt + 16 * logTicks (signedOf 8 (s.g PTP.LOG_SYNC 0 (b2n b))) ≤ s.clock)
    ∧ (∃ (s : State) (m : PtpMsg) (b : Bool) (h : EthHead), s.hears = true ∧ s.accepts m.head = true ∧ s.accepts h = true
      ∧ s.g PTP.STATE 0 (b2n b) = domHoldover ∧ (s.dom b).holdAt + s.g REG.HOLDOVER_S 0 * 200000000 ≤ s.clock)
    ∧ (∃ (s : State) (m : PtpMsg) (h : EthHead) (signal : _) (aneg : _) (full : _), s.hears = true ∧ s.accepts m.head = true ∧ s.accepts h = true
      ∧ s.on NET.UP 0 = true ∧ (signal && aneg && full) = false)
    ∧ (∃ (s : State) (m : PtpMsg) (h : EthHead) (ip : _), s.hears = true ∧ s.accepts m.head = true ∧ s.accepts h = true ∧ s.isMine ip = true) :=
  ⟨
    ⟨({ netUp with ru := { netUp.ru with captures := [(true, 5000)] } } : State), (msg 0), false, ethHead, 4596, by decide +kernel⟩,
    ⟨(netUp.upDom false fun p => { p with sync := some (5, 5000, 0) }), (msg 8), false, ethHead, 5000, 0, by decide +kernel⟩,
    ⟨(netUp.upDom false fun p => { p with req := some 5, t3 := some 7000, ms := some 4000 }), (msg 9), false, ethHead, 7000, 4000,
      by decide +kernel⟩,
    ⟨netUp, { msg 0xB with clockId := 88, set := { masterSet with prio1 := 200 } }, false, ethHead, _, rfl, by decide +kernel⟩,
    ⟨netUp, (msg 0), ethHead, by decide +kernel⟩,
    ⟨netUp, (msg 2), false, ethHead, by decide +kernel⟩,
    ⟨netUp, (msg 0), false, ethHead, by decide +kernel⟩,
    ⟨netUp, (msg 0), false, ethHead, ⟨77, 1, masterSet⟩, _, rfl, by decide +kernel⟩,
    ⟨netUp, (msg 0), false, ethHead, by decide +kernel⟩,
    ⟨((netUp.p PTP.STATE 0 0 3).put REG.HOLDOVER_S 0 60), (msg 0), false, ethHead, by decide +kernel⟩,
    ⟨netUp, (msg 0), ethHead, true, false, true, by decide +kernel⟩,
    ⟨(netUp.setWd (NET.IPV4.addr 0 0) 0x0A000001), (msg 0), ethHead, 0x0A000001, by decide +kernel⟩⟩

theorem witness_ImpositionRowsComplete :
    (∃ (s : State) (k : SessId) (p : Fin 32) (w0 : Word) (w1 : Word) (w2 : Word) (w3 : Word) (s1 : State), s1 = State.pressedOn ((([w0, w1, w2,
      w3] : List Word).zip (List.range 4)).foldl (fun s e => storeEff .imp (0x80 + 4 * p.val + e.2) e.1 0 s) s) .imp true
      ∧ s.writable (.host k) .imp (0x80 + 4 * p.val) = true ∧ impAction (s1.slotWord p.val 2) ≠ 0
      ∧ s1.postChk k.val ((s1.slotWord p.val 0).toNat * 2 ^ 32 + (s1.slotWord p.val 1).toNat) (s1.slotWord p.val 2) (s1.slotWord p.val 3) = none)
    ∧ (∃ (s : State) (w : Writer), s.taken w .imp 0x11 1 (impChk w 0x11 1 (s.staged .imp 0x11 1)))
    ∧ (∃ (s : State) (w : Writer) (v : _), bitAt v 31 = true ∧ s.taken w .imp 0x12 v (impChk w 0x12 v (s.staged .imp 0x12 v)))
    ∧ (∃ (s : State) (w : Writer) (v : _), s.taken w .imp 2 v (impChk w 2 v (s.staged .imp 2 v)))
    ∧ (∃ (s : State) (m : Nat) (x : Impression) (sh : _), s.firstWaiting sh m = some x ∧ s.run .imp = true ∧ x.time ≤ s.rt64 + 1000000000
      ∧ (s.armedIn m).length < 16 ∧ s.groupReady m = true ∧ s.ru.announced = none)
    ∧ (∃ (s : State) (n : LaneId) (x : Impression), s.farUp n = true ∧ s.nextDue n.val = some x ∧ impAction x.w2 = 0xA
      ∧ s.slotDiff n.val x ≤ s.lateTol)
    ∧ (∃ (s : State) (x : Impression), s.nextDue 16 = some x ∧ impAction x.w2 = 0xB ∧ s.slotDiff 16 x ≤ s.lateTol)
    ∧ (∃ (s : State) (n : LaneId) (x : Impression), s.farUp n = true ∧ s.nextDue n.val = some x ∧ impAction x.w2 = 0xB
      ∧ s.slotDiff n.val x ≤ s.lateTol)
    ∧ (∃ (s : State) (x : Impression), s.nextDue 16 = some x ∧ impAction x.w2 = 0x20 ∧ s.slotDiff 16 x ≤ s.lateTol)
    ∧ (∃ (s : State) (x : Impression) (f : TrigFrame), f = ⟨bitsOf x.arg 15 0, impTag x.w2, (x.time + bitsOf x.arg 31 16 * 1000000) % 2 ^ 64,
      x.time⟩ ∧ s.on NET.UP 0 = true ∧ s.nextDue 16 = some x ∧ impAction x.w2 = 0x21 ∧ s.slotDiff 16 x ≤ s.lateTol)
    ∧ (∃ (s : State) (t : _), s.imp.pulse = some t ∧ t ≤ s.clock)
    ∧ (∃ (s : State) (m : Nat) (x : Impression) (sh : _),
      s.firstTodo sh m (fun x => s.impSkips x && !(x.armed.contains m && !x.slots.contains m) && decide ((s.lateTol : Int) < s.lateness m x)) = some x
      ∧ m ∉ x.slots)
    ∧ (∃ (s : State) (m : Nat) (x : Impression) (sh : _),
      s.firstTodo sh m (fun x => !(x.armed.contains m && !x.slots.contains m) && decide (2000000000 ≤ s.lateness m x)) = some x ∧ m ∉ x.slots)
    ∧ (∃ (s : State) (n : LaneId) (r : _) (rest : _), (s.lane n).reports = r :: rest ∧ r.kind = .onTime ∧ s.live n = true)
    ∧ (∃ (s : State), s.awake = true ∧ vioLevel s.pwr.vio ≠ 0 ∧ s.g SYNC.IN_CFG 0 = 3 ∧ s.imp.lastEdge = none ∧ s.imp.syncFifo.length < 16)
    ∧ (∃ (s : State) (w : Writer) (v : _), s.taken w .sync 0x14 v (syncChk 0x14 v (s.staged .sync 0x14 v)))
    ∧ (∃ (s : State), s.imp.ppsHigh = true ∧ s.imp.ppsAt + s.g SYNC.PPS_WIDTH_MS 0 * 200000 ≤ s.clock)
    ∧ (∃ (s : State) (h : EthHead), s.awake = true ∧ s.on NET.UP 0 = true ∧ s.accepts h = true) :=
  ⟨
    ⟨(up.put LANE.STATE_PHASE 0 3), 0, 0, 0, 3000100000, 0x0A000009, 5, _, rfl, by decide +kernel⟩,
    ⟨up, .host 0, by unfold State.taken; decide +kernel⟩,
    ⟨up, .host 0, 0x80000009, by unfold State.taken; decide +kernel⟩,
    ⟨up, .host 0, 0, by unfold State.taken; decide +kernel⟩,
    ⟨((sheets [⟨1, 0, 2000000, 0x09000009, 5, 0, [0], [], []⟩]).setRun .imp true), 0, ⟨1, 0, 2000000, 0x09000009, 5, 0, [0], [], []⟩, 0,
      by decide +kernel⟩,
    ⟨(sheets [armed 0 10 7]), 0, (armed 0 10 7), by decide +kernel⟩,
    ⟨(sheets [armed 16 11 0x3E1]), (armed 16 11 0x3E1), by decide +kernel⟩,
    ⟨(sheets [armed 0 11 0x3E1]), 0, (armed 0 11 0x3E1), by decide +kernel⟩,
    ⟨(sheets [armed 16 0x20 2]), (armed 16 0x20 2), by decide +kernel⟩,
    ⟨((sheets [armed 16 0x21 0x10005]).put NET.UP 0 1), (armed 16 0x21 0x10005), _, rfl, by decide +kernel⟩,
    ⟨({ up with imp := { up.imp with pulse := some 5 } } : State), 5, by decide +kernel⟩,
    ⟨(State.put (sheets [⟨1, 0, 2000000, 0x01000009, 5, 0, [0], [], []⟩]) REG.RT_LO 0 3000000000), 0, ⟨1, 0, 2000000, 0x01000009, 5, 0, [0], [],
      []⟩, 0, by decide +kernel⟩,
    ⟨(State.put (sheets [⟨1, 0, 2000000, 0x09000009, 5, 0, [0], [], []⟩]) REG.RT_LO 0 3000000000), 0, ⟨1, 0, 2000000, 0x09000009, 5, 0, [0], [],
      []⟩, 0, by decide +kernel⟩,
    ⟨(up.upLane 0 fun l => { l with reports := [⟨0, 0x0A000009, 5, .onTime, []⟩] }), 0, ⟨0, 0x0A000009, 5, .onTime, []⟩, [], by decide +kernel⟩,
    ⟨(up.put SYNC.IN_CFG 0 3), by decide +kernel⟩,
    ⟨up, .host 0, 0, by unfold State.taken; decide +kernel⟩,
    ⟨({ up with imp := { up.imp with ppsHigh := true } } : State), by decide +kernel⟩,
    ⟨(up.put NET.UP 0 1), ethHead, by decide +kernel⟩⟩

theorem witness_SmuPressesComplete :
    (∃ (s : State) (w : Writer) (n : LaneId) (c : Instr) (v : Word), (c, v) ∈ ([(.smuStart w n, 1), (.smuStop w n, 2), (.smuAbort w n, 4),
      (.smuMeasure w n, 8), (.azGrant w n, 16)] : List (Instr × Word))
      ∧ s.taken w (.lane n .smu) 0x10 v (smuChk w n 0x10 v (s.staged (.lane n .smu) 0x10 v)))
    ∧ (∃ (s : State) (w : Writer) (n : LaneId) (v : _) (since : _) (q : _), s.arrived n ⟨w, .lane n .smu, 0x10, v, 0, since⟩ q)
    ∧ (∃ (n : LaneId) (t : State), t.g SMU.STAT_STATE n = 2)
    ∧ (∃ (n : LaneId) (t : State), t.inCycle n = true)
    ∧ (∃ (n : LaneId) (t : State), t.g SMU.STAT_STATE n = 0 ∧ t.on LANE.ILK_HW_OFF n = false)
    ∧ (∃ (s : State) (w : Writer) (n : LaneId) (v : _), s.taken w (.lane n .smu) 0x14 v (smuChk w n 0x14 v (s.staged (.lane n .smu) 0x14 v))
      ∧ (s.farSent n w (.lane n .smu) 0x14 v 0).imageWd (.lane n .smu) 0x14 = s.imageWd (.lane n .smu) 0x14)
    ∧ (∃ (s : State) (w : Writer) (n : LaneId) (v : _), s.taken w (.lane n .smu) 0x14 v (smuChk w n 0x14 v (s.staged (.lane n .smu) 0x14 v))
      ∧ (s.farSent n w (.lane n .smu) 0x14 v 0).imageWd (.lane n .smu) 0x14 ≠ s.imageWd (.lane n .smu) 0x14)
    ∧ (∃ (s : State) (w : Writer) (n : LaneId) (v : _) (since : _) (q : _), s.arrived n ⟨w, .lane n .smu, 0x14, v, 0, since⟩ q)
    ∧ (∃ (n : LaneId) (v : Word) (t : State),
      (storeEff (.lane n .smu) 0x14 v 0 t).wd ((Page.lane n .smu).at_ 0x14) ≠ t.wd ((Page.lane n .smu).at_ 0x14))
    ∧ (∃ (s : State) (w : Writer) (n : LaneId) (v : _), s.taken w (.lane n .smu) 0x16 v (smuChk w n 0x16 v (s.staged (.lane n .smu) 0x16 v))
      ∧ (s.staged (.lane n .smu) 0x16 v).smuAdj w.holder n 0x16 v = v)
    ∧ (∃ (s : State) (w : Writer) (n : LaneId) (v : Word) (a : Word),
      s.taken w (.lane n .smu) 0x16 v (smuChk w n 0x16 v (s.staged (.lane n .smu) 0x16 v))
      ∧ (s.staged (.lane n .smu) 0x16 v).smuAdj w.holder n 0x16 v = a ∧ v ≠ a)
    ∧ (∃ (s : State) (w : Writer) (n : LaneId) (a : _) (since : _) (q : _), s.arrived n ⟨w, .lane n .smu, 0x16, a, 0, since⟩ q)
    ∧ (∃ (s : State) (w : Writer) (n : LaneId) (v : _), s.taken w (.lane n .smu) 0x15 v (smuChk w n 0x15 v (s.staged (.lane n .smu) 0x15 v)))
    ∧ (∃ (s : State) (w : Writer) (n : LaneId) (v : _) (since : _) (q : _), s.arrived n ⟨w, .lane n .smu, 0x15, v, 0, since⟩ q)
    ∧ (∃ (s : State) (w : Writer) (n : LaneId) (v : _), s.taken w (.lane n .smu) 2 v (smuChk w n 2 v (s.staged (.lane n .smu) 2 v)))
    ∧ (∃ (s : State) (w : Writer) (n : LaneId) (v : _) (since : _) (q : _), bitAt v 30 = false ∧ s.arrived n ⟨w, .lane n .smu, 2, v, 0, since⟩ q) :=
  ⟨
    ⟨up, .host 0, 0, .smuStop (.host 0) 0, 2, by unfold State.taken; decide +kernel⟩,
    ⟨(come ⟨.host 0, .lane 0 .smu, 0x10, 2, 0, 0⟩ up), .host 0, 0, 2, 0, 0, by unfold State.arrived; decide +kernel⟩,
    ⟨0, (up.put SMU.STAT_STATE 0 2), by decide +kernel⟩,
    ⟨0, (up.put SMU.STAT_STATE 0 3), by decide +kernel⟩,
    ⟨0, (up.put LANE.ILK_HW_OFF 0 0), by decide +kernel⟩,
    ⟨up, .host 0, 0, 0, by unfold State.taken; decide +kernel⟩,
    ⟨up, .host 0, 0, 1, by unfold State.taken; decide +kernel⟩,
    ⟨(come ⟨.host 0, .lane 0 .smu, 0x14, 1, 0, 0⟩ up), .host 0, 0, 1, 0, 0, by unfold State.arrived; decide +kernel⟩,
    ⟨0, 1, up, by decide +kernel⟩,
    ⟨up, .host 0, 0, 0, by unfold State.taken; decide +kernel⟩,
    ⟨(up.putImage (.lane 0 .smu) 0x14 8), .host 0, 0, 0x42C80000, 0x41F00000, by unfold State.taken; decide +kernel⟩,
    ⟨(come ⟨.host 0, .lane 0 .smu, 0x16, 0, 0, 0⟩ up), .host 0, 0, 0, 0, 0, by unfold State.arrived; decide +kernel⟩,
    ⟨up, .host 0, 0, 1, by unfold State.taken; decide +kernel⟩,
    ⟨(come ⟨.host 0, .lane 0 .smu, 0x15, 1, 0, 0⟩ up), .host 0, 0, 1, 0, 0, by unfold State.arrived; decide +kernel⟩,
    ⟨up, .host 0, 0, 0, by unfold State.taken; decide +kernel⟩,
    ⟨(come ⟨.host 0, .lane 0 .smu, 2, 1, 0, 0⟩ up), .host 0, 0, 1, 0, 0, by unfold State.arrived; decide +kernel⟩⟩

theorem witness_SmuRunsComplete :
    (∃ (s : State) (n : LaneId), s.farUp n = true ∧ s.g SMU.STAT_STATE n = 1 ∧ s.on LANE.ILK_HW_OFF n = false ∧ s.hvFor n ≤ 400000)
    ∧ (∃ (s : State) (n : LaneId) (c : Instr) (st : Nat), s.farUp n = true ∧ (c, st) ∈ ([(.hvArmingTimeout n, 1), (.rampTimeout n,
      2)] : List (Instr × Nat)) ∧ s.g SMU.STAT_STATE n = st ∧ (if st = 1 then 400000 ≤ s.hvFor n else s.rampOver n = true))
    ∧ (∃ (s : State) (n : LaneId), s.farUp n = true ∧ s.g SMU.STAT_STATE n = 3 ∧ s.g SMU.DWELL_MS n ≠ 0 ∧ s.g SMU.DWELL_MS n * 200000 ≤ s.hvFor n)
    ∧ (∃ (s : State) (n : LaneId), s.farUp n = true ∧ s.g SMU.STAT_STATE n = 5 ∧ 60000000 ≤ s.hvFor n ∧ s.phase n = 3)
    ∧ (∃ (s : State) (n : LaneId), s.farUp n = true ∧ s.resultReady n = true)
    ∧ (∃ (s : State) (n : LaneId), s.farUp n = true ∧ (s.smu n).arcAt + 20000 ≤ s.clock)
    ∧ (∃ (s : State) (n : LaneId), s.farUp n = true ∧ (s.smu n).rangeAt + 200000 ≤ s.clock)
    ∧ (∃ (s : State) (n : LaneId) (t : BitVec 16), s.farUp n = true ∧ (60 ≤ s.g SMU.AZ_AGE_S n ∨ 20 < (t.toInt - (s.smu n).azTemp).natAbs))
    ∧ (∃ (s : State) (n : LaneId), s.farUp n = true ∧ s.on SMU.STAT_AZ_DUE n = true ∧ s.on SMU.STAT_AZ_RUNNING n = false ∧ s.azFree n = true
      ∧ s.azSoon n = false)
    ∧ (∃ (s : State) (n : LaneId), s.farUp n = true ∧ s.on SMU.STAT_AZ_RUNNING n = true ∧ (s.smu n).azFrom + 800000 ≤ s.clock)
    ∧ (∃ (s : State) (n : LaneId), s.farUp n = true ∧ s.on SMU.STAT_AZ_DUE n = true ∧ 599 ≤ s.g SMU.AZ_OVERDUE_S n)
    ∧ (∃ (s : State) (n : LaneId), s.farUp n = true ∧ s.on SMU.STAT_AZ_DUE n = true ∧ s.on SMU.STAT_AZ_RUNNING n = false
      ∧ 600 ≤ s.g SMU.AZ_OVERDUE_S n)
    ∧ (∃ (s : State) (n : LaneId) (x : _) (t : _), s.smuStep n x.poster (bitsOf x.arg 3 0) = (none, t) ∧ s.farUp n = true ∧ s.nextDue n.val = some x
      ∧ impAction x.w2 = 1 ∧ s.slotDiff n.val x ≤ s.lateTol)
    ∧ (∃ (s : State) (n : LaneId) (x : _) (t : _) (c : _), s.smuStep n x.poster (bitsOf x.arg 3 0) = (some c, t) ∧ s.farUp n = true
      ∧ s.nextDue n.val = some x ∧ impAction x.w2 = 1)
    ∧ (∃ (s : State) (n : LaneId) (x : _), s.farUp n = true ∧ s.nextDue n.val = some x ∧ impAction x.w2 = 2 ∧ s.slotDiff n.val x ≤ s.lateTol) :=
  ⟨
    ⟨(((up.put SMU.STAT_STATE 0 1).put LANE.ILK_HW_OFF 0 0).upSmu 0 fun x => { x with since := 39999999000 }), 0, by decide +kernel⟩,
    ⟨(up.put SMU.STAT_STATE 0 1), 0, .hvArmingTimeout 0, 1, by decide +kernel⟩,
    ⟨((up.put SMU.STAT_STATE 0 3).put SMU.DWELL_MS 0 5), 0, by decide +kernel⟩,
    ⟨(up.put SMU.STAT_STATE 0 5), 0, by decide +kernel⟩,
    ⟨(up.upSmu 0 fun x => { x with resultDue := true }), 0, by decide +kernel⟩,
    ⟨up, 0, by decide +kernel⟩,
    ⟨up, 0, by decide +kernel⟩,
    ⟨up, 0, 300, by decide +kernel⟩,
    ⟨(up.put SMU.STAT_AZ_DUE 0 1), 0, by decide +kernel⟩,
    ⟨(up.put SMU.STAT_AZ_RUNNING 0 1), 0, by decide +kernel⟩,
    ⟨((up.put SMU.STAT_AZ_DUE 0 1).put SMU.AZ_OVERDUE_S 0 599), 0, by decide +kernel⟩,
    ⟨((up.put SMU.STAT_AZ_DUE 0 1).put SMU.AZ_OVERDUE_S 0 600), 0, by decide +kernel⟩,
    ⟨(sheets [armed 0 1 0]), 0, (armed 0 1 0), _, Prod.ext (by decide +kernel) rfl, by decide +kernel⟩,
    ⟨((sheets [armed 0 1 0]).put SMU.PRESET_ACTION 0 1), 0, (armed 0 1 0), _, errRange, Prod.ext (by decide +kernel) rfl, by decide +kernel⟩,
    ⟨(sheets [armed 0 2 0]), 0, (armed 0 2 0), by decide +kernel⟩⟩

theorem witness_ChainRowsComplete :
    (∃ (s : State) (w : Writer) (n : LaneId) (v : _), s.taken w (.lane n .chain) 2 v (chainChk s n 2 v (s.staged (.lane n .chain) 2 v)))
    ∧ (∃ (s : State) (w : Writer) (n : LaneId) (v : _) (since : _) (q : _), bitAt v 30 = false ∧ s.arrived n ⟨w, .lane n .chain, 2, v, 0, since⟩ q)
    ∧ (∃ (s : State) (w : Writer) (n : LaneId) (v : _), s.taken w (.lane n .chain) 0x10 v (chainChk s n 0x10 v (s.staged (.lane n .chain) 0x10 v)))
    ∧ (∃ (s : State) (w : Writer) (n : LaneId) (v : _) (since : _) (q : _), s.arrived n ⟨w, .lane n .chain, 0x10, v, 0, since⟩ q)
    ∧ (∃ (s : State) (w : Writer) (n : LaneId) (v : _), s.taken w (.lane n .chain) 0x11 v (chainChk s n 0x11 v (s.staged (.lane n .chain) 0x11 v)))
    ∧ (∃ (s : State) (w : Writer) (n : LaneId) (v : _) (since : _) (q : _), s.arrived n ⟨w, .lane n .chain, 0x11, v, 0, since⟩ q)
    ∧ (∃ (s : State) (w : Writer) (n : LaneId) (v : _), s.taken w (.lane n .chain) 0x13 v (chainChk s n 0x13 v (s.staged (.lane n .chain) 0x13 v)))
    ∧ (∃ (s : State) (w : Writer) (n : LaneId) (v : _) (since : _) (q : _), s.arrived n ⟨w, .lane n .chain, 0x13, v, 0, since⟩ q)
    ∧ (∃ (s : State) (w : Writer) (n : LaneId) (i : Fin 64) (v : _),
      s.taken w (.lane n .chain) (0x80 + i.val) v (chainChk s n (0x80 + i.val) v (s.staged (.lane n .chain) (0x80 + i.val) v)))
    ∧ (∃ (s : State) (w : Writer) (n : LaneId) (i : Fin 64) (v : _) (since : _) (q : _), s.arrived n ⟨w, .lane n .chain, 0x80 + i.val, v, 0,
      since⟩ q)
    ∧ (∃ (s : State) (w : Writer) (n : LaneId) (v : _), s.taken w (.lane n .chain) 0x25 v (chainChk s n 0x25 v (s.staged (.lane n .chain) 0x25 v)))
    ∧ (∃ (s : State) (w : Writer) (n : LaneId) (v : _) (since : _) (q : _), s.arrived n ⟨w, .lane n .chain, 0x25, v, 0, since⟩ q)
    ∧ (∃ (s : State) (w : Writer) (n : LaneId) (v : _), s.taken w (.lane n .chain) 0x24 v (chainChk s n 0x24 v (s.staged (.lane n .chain) 0x24 v)))
    ∧ (∃ (s : State) (w : Writer) (n : LaneId) (v : _) (since : _) (q : _), s.arrived n ⟨w, .lane n .chain, 0x24, v, 0, since⟩ q)
    ∧ (∃ (s : State) (n : LaneId) (x : _), s.farUp n = true ∧ s.nextDue n.val = some x ∧ impAction x.w2 = 3 ∧ s.slotDiff n.val x ≤ s.lateTol)
    ∧ (∃ (s : State) (n : LaneId) (x : _), s.farUp n = true ∧ s.nextDue n.val = some x ∧ impAction x.w2 = 4 ∧ s.slotDiff n.val x ≤ s.lateTol)
    ∧ (∃ (s : State) (n : LaneId) (x : _), s.farUp n = true ∧ s.nextDue n.val = some x ∧ impAction x.w2 = 6 ∧ s.slotDiff n.val x ≤ s.lateTol)
    ∧ (∃ (s : State) (n : LaneId) (c : Fin 4) (e : _), (s.chain n c).due = some e ∧ s.farRuns n = true ∧ s.chainWanted n c = true
      ∧ e ≤ 64 * s.laneTime n)
    ∧ (∃ (s : State) (n : LaneId) (c : Fin 4), c.val ≠ 3 ∧ s.farRuns n = true ∧ s.on CHAIN.STAT_RUNNING n c = true
      ∧ (s.nextOutput n c).1 ≤ 64 * s.laneTime n)
    ∧ (∃ (s : State) (n : LaneId), s.farRuns n = true ∧ s.on CHAIN.STAT_RUNNING n 3 = true)
    ∧ (∃ (s : State) (n : LaneId) (bv : _) (bi : _) (e : _) (v : _) (i : _) (comp : _) (plim : _), e = s.laneTime n / 25000 * 25000
      ∧ s.loop n (s.coarseValue n 0 bv) (s.coarseValue n 1 bi) = (v, i, comp, plim) ∧ s.farUp n = true ∧ s.phase n = 3 ∧ (s.lane n).coarseAt < e
      ∧ (s.lane n).coarseFrom + 29500 ≤ e ∧ (s.lane n).rangeFrom + 29500 ≤ e)
    ∧ (∃ (s : State) (n : LaneId) (bv : _) (bi : _) (ba : _) (e : _) (v : _) (i : _) (comp : _) (plim : _) (u : State) (t : State),
      e = s.laneTime n / 25000 * 25000 ∧ s.loop n (s.coarseValue n 0 bv) (s.coarseValue n 1 bi) = (v, i, comp, plim)
      ∧ u = (s.coarseTaken n bv bi ba).coarseRegs n v i (s.coarseValue n 2 ba) (BitVec.ofNat 32 e) 4 ∧ u.energyAdd n (u.smu n).lastPower = (false,
      t) ∧ s.farUp n = true ∧ s.phase n = 3 ∧ (s.lane n).coarseAt < e ∧ (s.lane n).coarseFrom + 29500 ≤ e ∧ e < (s.lane n).rangeFrom + 29500) :=
  ⟨
    ⟨up, .host 0, 0, 0, by unfold State.taken; decide +kernel⟩,
    ⟨(come ⟨.host 0, .lane 0 .chain, 2, 1, 0, 0⟩ up), .host 0, 0, 1, 0, 0, by unfold State.arrived; decide +kernel⟩,
    ⟨up, .host 0, 0, 0, by unfold State.taken; decide +kernel⟩,
    ⟨(come ⟨.host 0, .lane 0 .chain, 0x10, 0, 0, 0⟩ up), .host 0, 0, 0, 0, 0, by unfold State.arrived; decide +kernel⟩,
    ⟨up, .host 0, 0, 0, by unfold State.taken; decide +kernel⟩,
    ⟨(come ⟨.host 0, .lane 0 .chain, 0x11, 0, 0, 0⟩ up), .host 0, 0, 0, 0, 0, by unfold State.arrived; decide +kernel⟩,
    ⟨up, .host 0, 0, 0, by unfold State.taken; decide +kernel⟩,
    ⟨(come ⟨.host 0, .lane 0 .chain, 0x13, 0, 0, 0⟩ up), .host 0, 0, 0, 0, 0, by unfold State.arrived; decide +kernel⟩,
    ⟨up, .host 0, 0, 0, 0, by unfold State.taken; decide +kernel⟩,
    ⟨(come ⟨.host 0, .lane 0 .chain, 0x80 + (0 : Fin 64).val, 0, 0, 0⟩ up), .host 0, 0, 0, 0, 0, 0, by unfold State.arrived; decide +kernel⟩,
    ⟨up, .host 0, 0, 0, by unfold State.taken; decide +kernel⟩,
    ⟨(come ⟨.host 0, .lane 0 .chain, 0x25, 0, 0, 0⟩ up), .host 0, 0, 0, 0, 0, by unfold State.arrived; decide +kernel⟩,
    ⟨up, .host 0, 0, 0, by unfold State.taken; decide +kernel⟩,
    ⟨(come ⟨.host 0, .lane 0 .chain, 0x24, 1, 0, 0⟩ up), .host 0, 0, 1, 0, 0, by unfold State.arrived; decide +kernel⟩,
    ⟨(sheets [armed 0 3 1]), 0, (armed 0 3 1), by decide +kernel⟩,
    ⟨(sheets [armed 0 4 1]), 0, (armed 0 4 1), by decide +kernel⟩,
    ⟨(sheets [armed 0 6 1]), 0, (armed 0 6 1), by decide +kernel⟩,
    ⟨(((up.setRun (.lane 0 .chain) true).put CHAIN.EN 0 1).upChain 0 0 fun x => { x with due := some 3125 }), 0, 0, 3125, by decide +kernel⟩,
    ⟨(up.put CHAIN.STAT_RUNNING 0 1), 0, 0, by decide +kernel⟩,
    ⟨(up.p CHAIN.STAT_RUNNING 0 3 1), 0, by decide +kernel⟩,
    ⟨up, 0, 0, 0, _, (loopUp up).1, (loopUp up).2.1, _, _, rfl, quad_eta (loopUp _), by decide +kernel⟩,
    ⟨rangeMoved, 0, 0, 0, 0, _, (loopUp rangeMoved).1, (loopUp rangeMoved).2.1, _, _, (loopShown rangeMoved), _, rfl, quad_eta (loopUp _), rfl,
      energyAdd_none _ _ _ (by decide +kernel), by decide +kernel⟩⟩

theorem witness_UltrasonicRowsComplete :
    (∃ (s : State) (w : Writer) (n : LaneId) (v : _), s.taken w (.lane n .usnd) 2 v (usndChk s n 2 v (s.staged (.lane n .usnd) 2 v)))
    ∧ (∃ (s : State) (w : Writer) (n : LaneId) (v : _) (since : _) (q : _), bitAt v 30 = false ∧ s.arrived n ⟨w, .lane n .usnd, 2, v, 0, since⟩ q)
    ∧ (∃ (s : State) (w : Writer) (n : LaneId) (v : _), s.taken w (.lane n .usnd) 0x18 v (usndChk s n 0x18 v (s.staged (.lane n .usnd) 0x18 v)))
    ∧ (∃ (s : State) (w : Writer) (n : LaneId) (v : _) (since : _) (q : _), s.arrived n ⟨w, .lane n .usnd, 0x18, v, 0, since⟩ q)
    ∧ (∃ (s : State) (w : Writer) (n : LaneId) (c : Instr) (v : Word), (c, v) ∈ ([(.shot w n, 2), (.zero w n, 4), (.reseed w n, 8), (.zcGrant w n,
      16)] : List (Instr × Word)) ∧ s.taken w (.lane n .usnd) 0x10 v (usndChk s n 0x10 v (s.staged (.lane n .usnd) 0x10 v)))
    ∧ (∃ (s : State) (w : Writer) (n : LaneId) (v : _) (since : _) (q : _), s.arrived n ⟨w, .lane n .usnd, 0x10, v, 0, since⟩ q)
    ∧ (∃ (n : LaneId) (t : State), t.g USND.STAT_STATE n ≠ 2)
    ∧ (∃ (n : LaneId) (t : State), t.run (.lane n .usnd) = true ∧ t.farRuns n = true ∧ (t.us n).pair ≠ none)
    ∧ (∃ (s : State) (n : LaneId) (d : _), s.farRuns n = true ∧ s.run (.lane n .usnd) = true ∧ (s.us n).zcInitial = false ∧ (s.us n).cadDue = some d
      ∧ d ≤ s.laneTime n ∧ (s.us n).shotWaits = 0 ∧ (s.us n).pair = none ∧ (s.us n).tail = none ∧ (s.us n).cadWaits = false
      ∧ s.on USND.STAT_ZC_RUNNING n = false)
    ∧ (∃ (s : State) (n : LaneId) (d : _) (p : Pair), s.farRuns n = true ∧ s.run (.lane n .usnd) = true ∧ (s.us n).zcInitial = false
      ∧ (s.us n).cadDue = some d ∧ d ≤ s.laneTime n ∧ (s.us n).shotWaits = 0 ∧ (s.us n).pair = some p ∧ p.launched = true
      ∧ (s.us n).zcForced = false)
    ∧ (∃ (s : State) (n : LaneId) (x : _), s.farRuns n = true ∧ s.nextDue n.val = some x ∧ impAction x.w2 = 8 ∧ s.slotDiff n.val x ≤ s.lateTol)
    ∧
      (∃ (s : State) (n : LaneId) (down : Shot) (up : Shot) (p : Pair) (au : Nat) (ad : Nat) (s1 : State) (s2 : State) (t : State) (tu : Int) (td : Int),
      s.someAmp n up = (au, s1) ∧ s1.someAmp n down = (ad, s2) ∧ t = (s2.put USND.AMP_UP n au).put USND.AMP_DN n ad ∧ t.signal n up = some tu
      ∧ t.signal n down = some td ∧ s.farUp n = true ∧ (s.us n).pair = some p ∧ s.upWindowOver n = true)
    ∧ (∃ (s : State) (n : LaneId) (down : Shot) (up : Shot) (p : Pair) (au : Nat) (ad : Nat) (s1 : State) (s2 : State) (t : State),
      s.someAmp n up = (au, s1) ∧ s1.someAmp n down = (ad, s2) ∧ t = (s2.put USND.AMP_UP n au).put USND.AMP_DN n ad
      ∧ (t.signal n up = none ∨ t.signal n down = none) ∧ s.farUp n = true ∧ (s.us n).pair = some p ∧ s.upWindowOver n = true)
    ∧ (∃ (s : State) (n : LaneId), s.farUp n = true ∧ s.run (.lane n .usnd) = true ∧ s.g USND.CAD_CADENCE n = 0 ∧ s.g USND.STAT_CADENCE n = 2
      ∧ (s.us n).offAt + 2000000000 ≤ s.laneTime n)
    ∧ (∃ (s : State) (n : LaneId) (t : BitVec 16), s.farUp n = true ∧ s.run (.lane n .usnd) = true
      ∧ (300 ≤ s.g USND.ZC_AGE_S n ∨ 20 < (t.toInt - (s.us n).zcTemp).natAbs))
    ∧ (∃ (s : State) (n : LaneId), s.farRuns n = true ∧ s.run (.lane n .usnd) = true ∧ s.on USND.STAT_ZC_DUE n = true
      ∧ s.on USND.STAT_ZC_RUNNING n = false ∧ s.zcFree n = true)
    ∧ (∃ (s : State) (n : LaneId), s.farUp n = true ∧ s.on USND.STAT_ZC_RUNNING n = true ∧ (s.us n).zcFrom + 3200000 ≤ s.laneTime n
      ∧ (s.us n).zcInitial = false)
    ∧ (∃ (s : State) (n : LaneId), s.farUp n = true ∧ s.on USND.STAT_ZC_RUNNING n = true ∧ (s.us n).zcFrom + 3200000 ≤ s.laneTime n
      ∧ (s.us n).zcInitial = true ∧ (s.g USND.STAT_CADENCE n = 1 ∨ s.g USND.STAT_CADENCE n = 2))
    ∧ (∃ (s : State) (n : LaneId), s.farUp n = true ∧ s.on USND.STAT_ZC_DUE n = true ∧ 299 ≤ s.g USND.ZC_OVERDUE_S n)
    ∧ (∃ (s : State) (n : LaneId), s.farUp n = true ∧ s.run (.lane n .usnd) = true ∧ s.on USND.STAT_ZC_DUE n = true ∧ 300 ≤ s.g USND.ZC_OVERDUE_S n) :=
  ⟨
    ⟨(((up.putImage (.lane 0 .usnd) 0x20 0x3DCCCCCD).putImage (.lane 0 .usnd) 0x21 0x3D4CCCCD).putImage (.lane 0 .usnd) 0x23 0x3A83126F), .host 0,
      0, 1, by unfold State.taken; decide +kernel⟩,
    ⟨(come ⟨.host 0, .lane 0 .usnd, 2, 1, 0, 0⟩ up), .host 0, 0, 1, 0, 0, by unfold State.arrived; decide +kernel⟩,
    ⟨up, .host 0, 0, 0, by unfold State.taken; decide +kernel⟩,
    ⟨(come ⟨.host 0, .lane 0 .usnd, 0x18, 0, 0, 0⟩ up), .host 0, 0, 0, 0, 0, by unfold State.arrived; decide +kernel⟩,
    ⟨up, .host 0, 0, .shot (.host 0) 0, 2, by unfold State.taken; decide +kernel⟩,
    ⟨(come ⟨.host 0, .lane 0 .usnd, 0x10, 2, 0, 0⟩ up), .host 0, 0, 2, 0, 0, by unfold State.arrived; decide +kernel⟩,
    ⟨0, up, by decide +kernel⟩,
    ⟨0, ((up.setRun (.lane 0 .usnd) true).upUs 0 fun u => { u with pair := some ⟨0, false, true, false, 0, 0, 0, 0, 0, 0, 0, 0, 0⟩ }),
      by decide +kernel⟩,
    ⟨((up.setRun (.lane 0 .usnd) true).upUs 0 fun u => { u with cadDue := some 5 }), 0, 5, by decide +kernel⟩,
    ⟨((up.setRun (.lane 0 .usnd) true).upUs 0 fun u => { u with cadDue := some 5, pair := some ⟨0, false, true, false, 0, 0, 0, 0, 0, 0, 0, 0, 0⟩ }),
      0, 5, ⟨0, false, true, false, 0, 0, 0, 0, 0, 0, 0, 0, 0⟩, by decide +kernel⟩,
    ⟨(sheets [armed 0 8 0]), 0, (armed 0 8 0), by decide +kernel⟩,
    ⟨(up.upUs 0 fun u => { u with pair := some ⟨0, false, true, false, 0, 0, 0, 0, 0, 0, 0, 0, 0⟩, tail := some 0 }), 0, echo, echo, ⟨0, false,
      true, false, 0, 0, 0, 0, 0, 0, 0, 0, 0⟩, _, _, _, _, _, _, _, rfl, rfl, rfl, rfl, rfl, by decide +kernel⟩,
    ⟨(up.upUs 0 fun u => { u with pair := some ⟨0, false, true, false, 0, 0, 0, 0, 0, 0, 0, 0, 0⟩, tail := some 0 }), 0, ⟨[], []⟩, echo, ⟨0, false,
      true, false, 0, 0, 0, 0, 0, 0, 0, 0, 0⟩, _, _, _, _, _, rfl, rfl, rfl, .inr rfl, by decide +kernel⟩,
    ⟨((up.setRun (.lane 0 .usnd) true).put USND.STAT_CADENCE 0 2), 0, by decide +kernel⟩,
    ⟨(up.setRun (.lane 0 .usnd) true), 0, 300, by decide +kernel⟩,
    ⟨((up.setRun (.lane 0 .usnd) true).put USND.STAT_ZC_DUE 0 1), 0, by decide +kernel⟩,
    ⟨(up.put USND.STAT_ZC_RUNNING 0 1), 0, by decide +kernel⟩,
    ⟨(((up.put USND.STAT_ZC_RUNNING 0 1).put USND.STAT_CADENCE 0 1).upUs 0 fun u => { u with zcInitial := true }), 0, by decide +kernel⟩,
    ⟨((up.put USND.STAT_ZC_DUE 0 1).put USND.ZC_OVERDUE_S 0 299), 0, by decide +kernel⟩,
    ⟨(((up.setRun (.lane 0 .usnd) true).put USND.STAT_ZC_DUE 0 1).put USND.ZC_OVERDUE_S 0 300), 0, by decide +kernel⟩⟩

theorem witness_DuncolRowsComplete :
    (∃ (s : State) (n : LaneId), s.lineUp n = true ∧ (s.line n).startDue = true)
    ∧ (∃ (s : State) (n : LaneId), s.lineUp n = true ∧ (s.line n).startDue = false ∧ (s.line n).censusAt / 250000000 < s.laneTime n / 250000000)
    ∧ (∃ (s : State) (n : LaneId), s.lineUp n = true ∧ (s.line n).censusDue = true ∧ (s.line n).startDue = false ∧ (s.line n).bcastDue = false)
    ∧ (∃ (s : State) (n : LaneId), s.lineUp n = true ∧ (s.line n).ticksDue = true ∧ (s.line n).censusDue = false)
    ∧ (∃ (s : State) (n : LaneId) (k : Fin 24) (g : Bool) (i : Fin 2) (p : _), i = (if g then 1 else 0)
      ∧ p = 200 * max (s.g DUNC.STREAM_POLL_US n k) 1 ∧ s.lineUp n = true ∧ s.streamLive n k g = true
      ∧ ((s.la n k).polledAt[i] - (s.la n k).arrived) / p < (s.clock - (s.la n k).arrived) / p ∧ (s.la n k).due[streamIx g] = none)
    ∧ (∃ (s : State) (n : LaneId) (k : Fin 24) (g : _), s.sends n (.poll k.val g) = true)
    ∧ (∃ (s : State) (n : LaneId), s.lineUp n = true ∧ (s.line n).attnDue = none
      ∧ (s.line n).attnAt + 200 * max (s.g DUNC.CFG_ATTN_US n) 1 ≤ s.clock)
    ∧ (∃ (s : State) (n : LaneId), s.sends n .attn = true)
    ∧ (∃ (s : State) (n : LaneId) (k : Fin 24), s.sends n (.event k.val) = true)
    ∧ (∃ (s : State) (n : LaneId) (k : Fin 24), s.sends n (.own k.val) = true ∧ (s.la n k).own.head? = some .readCfg)
    ∧ (∃ (s : State) (n : LaneId) (k : Fin 24), s.sends n .request = true ∧ s.reqIs n 1 k = true)
    ∧ (∃ (s : State) (n : LaneId) (k : Fin 24), s.sends n .request = true ∧ s.reqIs n 2 k = true)
    ∧ (∃ (s : State) (n : LaneId) (k : Fin 24) (f : _), s.sends n (.own k.val) = true ∧ (s.la n k).own.head? = some f ∧ f ≠ .readCfg)
    ∧ (∃ (s : State) (n : LaneId) (k : Fin 24), s.sends n .request = true ∧ s.g DUNC.REQ_ADDR n = k.val ∧ s.reqIs n 3 k = true)
    ∧ (∃ (s : State) (n : LaneId) (k : Nat) (op : Nat) (args : _) (again : _) (e : Wire) (t : _) (rs : _),
      (s.attempt n again e).podsAct n (parseCmd (flipBytes (duncCmd k op args) e.cmd)) = (t, rs) ∧ rs = [] ∧ e.stuck = false ∧ e.ack = false)
    ∧ (∃ (s : State) (n : LaneId), s.mayPass n = true)
    ∧ (∃ (s : State) (n : LaneId) (e : Wire), s.lineUp n = true ∧ (s.line n).bcastDue = true ∧ e.stuck = false ∧ heardAll 7 0x1F [2] e = true)
    ∧ (∃ (s : State) (n : LaneId) (k : Fin 24), s.lineFree n = true ∧ (s.line n).unassign.head? = some k.val)
    ∧ (∃ (s : State) (n : LaneId), s.lineUp n = true ∧ s.on DUNC.STAT_SEARCH_DUE n = true ∧ (s.line n).searchAt + 200000000 ≤ s.clock
      ∧ (s.line n).noticed = false)
    ∧ (∃ (s : State) (n : LaneId), s.lineUp n = true ∧ s.on DUNC.STAT_SEARCH_DUE n = true ∧ (s.line n).searchAt + 400000000 ≤ s.clock
      ∧ (s.line n).searchForced = false)
    ∧ (∃ (s : State) (n : LaneId) (job : _), s.lineUp n = true ∧ s.deadlineDue n job = true)
    ∧ (∃ (s : State) (n : LaneId), s.farUp n = true ∧ s.on DUNC.STAT_LINE_FAULT n = true ∧ (s.line n).faultAt + 2000000 ≤ s.clock)
    ∧ (∃ (s : State) (n : LaneId), s.farUp n = true ∧ s.on DUNC.STAT_DP_FAULT n = false)
    ∧ (∃ (s : State) (n : LaneId), s.farUp n = true)
    ∧ (∃ (s : State) (w : Writer) (n : LaneId) (v : Word) (v' : Word), v' = v ||| 0x80000000
      ∧ s.taken w (.lane n .dunc) 0x28 v' (duncChk s n 0x28 v' (s.staged (.lane n .dunc) 0x28 v')))
    ∧ (∃ (s : State) (w : Writer) (n : LaneId) (v : _) (since : _) (q : _), bitAt v 31 = true ∧ s.arrived n ⟨w, .lane n .dunc, 0x28, v, 0, since⟩ q)
    ∧ (∃ (s : State) (w : Writer) (n : LaneId), s.taken w (.lane n .dunc) 0x10 1 (duncChk s n 0x10 1 (s.staged (.lane n .dunc) 0x10 1)))
    ∧ (∃ (s : State) (w : Writer) (n : LaneId) (since : _) (q : _), s.arrived n ⟨w, .lane n .dunc, 0x10, 1, 0, since⟩ q)
    ∧ (∃ (s : State) (w : Writer) (n : LaneId), s.taken w (.lane n .dunc) 0x10 2 (duncChk s n 0x10 2 (s.staged (.lane n .dunc) 0x10 2)))
    ∧ (∃ (s : State) (w : Writer) (n : LaneId) (since : _) (q : _), s.arrived n ⟨w, .lane n .dunc, 0x10, 2, 0, since⟩ q)
    ∧ (∃ (s : State) (w : Writer) (n : LaneId) (k : Fin 24) (v : _),
      s.taken w (.lane n .dunc) (0x40 + k.val) v (duncChk s n (0x40 + k.val) v (s.staged (.lane n .dunc) (0x40 + k.val) v)))
    ∧ (∃ (s : State) (w : Writer) (n : LaneId) (k : Fin 24) (v : _) (since : _) (q : _), s.arrived n ⟨w, .lane n .dunc, 0x40 + k.val, v, 0,
      since⟩ q)
    ∧ (∃ (a : Nat) (op : Nat) (args : List Byte), a < 32 ∧ op < 8 ∧ argCount op args = some args.length)
    ∧ (∃ (b : Byte) (c : Byte) (args : List Byte), c ≠ crc8 (b :: args))
    ∧ (∃ (r : PodEvt), r.kind < 256 ∧ r.info < 256) :=
  ⟨
    ⟨(lineRuns.upLine 0 fun l => { l with startDue := true }), 0, by decide +kernel⟩,
    ⟨lineRuns, 0, by decide +kernel⟩,
    ⟨(lineRuns.upLine 0 fun l => { l with censusDue := true }), 0, by decide +kernel⟩,
    ⟨(lineRuns.upLine 0 fun l => { l with ticksDue := true }), 0, by decide +kernel⟩,
    ⟨((lineRuns.setBind 0 0 2).p DUNC.STREAM_EN_A 0 0 1), 0, 0, false, _, _, rfl, rfl, by decide +kernel⟩,
    ⟨(((lineRuns.setBind 0 0 2).p DUNC.STREAM_EN_A 0 0 1).upLa 0 0 fun a => { a with due := #v[some 5, none, none] }), 0, 0, false,
      by decide +kernel⟩,
    ⟨lineRuns, 0, by decide +kernel⟩,
    ⟨(lineRuns.upLine 0 fun l => { l with attnDue := some 5 }), 0, by decide +kernel⟩,
    ⟨((lineRuns.setBind 0 0 2).upLa 0 0 fun a => { a with due := #v[none, none, some 5] }), 0, 0, by decide +kernel⟩,
    ⟨((lineRuns.setBind 0 0 2).upLa 0 0 fun a => { a with own := [.readCfg] }), 0, 0, by decide +kernel⟩,
    ⟨((lineRuns.put DUNC.REQ_STAT_STATE 0 1).put DUNC.REQ_OP 0 1), 0, 0, by decide +kernel⟩,
    ⟨((lineRuns.put DUNC.REQ_STAT_STATE 0 1).put DUNC.REQ_OP 0 2), 0, 0, by decide +kernel⟩,
    ⟨((lineRuns.setBind 0 0 2).upLa 0 0 fun a => { a with own := [.writeA] }), 0, 0, .writeA, by decide +kernel⟩,
    ⟨((lineRuns.put DUNC.REQ_STAT_STATE 0 1).put DUNC.REQ_OP 0 3), 0, 0, by decide +kernel⟩,
    ⟨lineRuns, 0, 3, 1, [], false, clean, _, _, rfl, rfl, by decide +kernel⟩,
    ⟨((lineRuns.put DUNC.STAT_SEARCH_DUE 0 1).upLine 0 fun l => { l with searchFree := true, newcomer := true }), 0, by decide +kernel⟩,
    ⟨(lineRuns.upLine 0 fun l => { l with bcastDue := true }), 0, clean, by decide +kernel⟩,
    ⟨(lineRuns.upLine 0 fun l => { l with unassign := [0] }), 0, 0, by decide +kernel⟩,
    ⟨(lineRuns.put DUNC.STAT_SEARCH_DUE 0 1), 0, by decide +kernel⟩,
    ⟨(lineRuns.put DUNC.STAT_SEARCH_DUE 0 1), 0, by decide +kernel⟩,
    ⟨((lineRuns.setBind 0 0 2).upLa 0 0 fun a => { a with due := #v[none, none, some 5] }), 0, (.event 0), by decide +kernel⟩,
    ⟨(up.put DUNC.STAT_LINE_FAULT 0 1), 0, by decide +kernel⟩,
    ⟨lineRuns, 0, by decide +kernel⟩,
    ⟨lineRuns, 0, by decide +kernel⟩,
    ⟨(up.setBind 0 0 2), .host 0, 0, 0x100, _, rfl, by unfold State.taken; decide +kernel⟩,
    ⟨(come ⟨.host 0, .lane 0 .dunc, 0x28, 0x80000100, 0, 0⟩ up), .host 0, 0, 0x80000100, 0, 0, by unfold State.arrived; decide +kernel⟩,
    ⟨up, .host 0, 0, by unfold State.taken; decide +kernel⟩,
    ⟨(come ⟨.host 0, .lane 0 .dunc, 0x10, 1, 0, 0⟩ up), .host 0, 0, 0, 0, by unfold State.arrived; decide +kernel⟩,
    ⟨up, .host 0, 0, by unfold State.taken; decide +kernel⟩,
    ⟨(come ⟨.host 0, .lane 0 .dunc, 0x10, 2, 0, 0⟩ up), .host 0, 0, 0, 0, by unfold State.arrived; decide +kernel⟩,
    ⟨up, .host 0, 0, 0, 100, by unfold State.taken; decide +kernel⟩,
    ⟨(come ⟨.host 0, .lane 0 .dunc, 0x40 + (0 : Fin 24).val, 100, 0, 0⟩ up), .host 0, 0, 0, 100, 0, 0, by unfold State.arrived; decide +kernel⟩,
    ⟨31, 7, [2], by decide +kernel⟩,
    ⟨5, 0, [], by decide +kernel⟩,
    ⟨⟨0, 255, 255, 0⟩, by decide +kernel⟩⟩

theorem witness_PodRowsComplete :
    (∃ (s : State) (n : LaneId), s.linePower n = true)
    ∧ (∃ (s : State) (n : LaneId) (p : Fin 24), s.fitted n = true ∧ (s.pod n p).powered = true)
    ∧ (∃ (s : State) (n : LaneId) (p : Fin 24), s.fitted n = true ∧ (s.pod n p).powered = true ∧ (s.pod n p).joined = false
      ∧ 2 ≤ (s.pod n p).frames)
    ∧ (∃ (s : State) (n : LaneId) (p : Fin 24), s.fitted n = true ∧ (s.pod n p).powered = true ∧ (s.pod n p).addr.isSome = true
      ∧ (s.pod n p).lastRoll + 400000000 ≤ s.clock)
    ∧ (∃ (s : State) (n : LaneId) (p : Fin 24) (a : _) (bs : _), s.fitted n = true ∧ (s.pod n p).powered = true ∧ (s.pod n p).write = some (a, bs))
    ∧ (∃ (s : State) (n : LaneId) (p : Fin 24), s.fitted n = true ∧ (s.pod n p).powered = true ∧ (s.pod n p).saving = false)
    ∧ (∃ (s : State) (n : LaneId) (p : Fin 24), s.fitted n = true ∧ (s.pod n p).powered = true ∧ (s.pod n p).saving = true)
    ∧ (∃ (s : State) (n : LaneId) (p : Fin 24), s.fitted n = true ∧ (s.pod n p).powered = true ∧ (s.pod n p).m6 = true ∧ (s.pod n p).gReady = true
      ∧ s.dpWithin n = false)
    ∧ (∃ (s : State) (n : LaneId) (p : Fin 24), s.fitted n = true ∧ (s.pod n p).powered = true ∧ (s.pod n p).m6 = true ∧ (s.pod n p).gReady = false
      ∧ s.dpWithin n = true)
    ∧ (∃ (p : Fin 24) (q : Fin 24), q ≠ p) :=
  ⟨
    ⟨(up.upPod 0 0 fun q => { q with powered := true, frames := 2, addr := some 3 }), 0, by decide +kernel⟩,
    ⟨(up.upPod 0 0 fun q => { q with powered := true, frames := 2, addr := some 3 }), 0, 0, by decide +kernel⟩,
    ⟨(up.upPod 0 0 fun q => { q with powered := true, frames := 2, addr := some 3 }), 0, 0, by decide +kernel⟩,
    ⟨(up.upPod 0 0 fun q => { q with powered := true, frames := 2, addr := some 3 }), 0, 0, by decide +kernel⟩,
    ⟨(up.upPod 0 0 fun q => { q with powered := true, write := some (3, []) }), 0, 0, 3, [], by decide +kernel⟩,
    ⟨(up.upPod 0 0 fun q => { q with powered := true, frames := 2, addr := some 3 }), 0, 0, by decide +kernel⟩,
    ⟨(up.upPod 0 0 fun q => { q with powered := true, saving := true }), 0, 0, by decide +kernel⟩,
    ⟨((up.put DUNC.STAT_DP_FAULT 0 1).upPod 0 0 fun q => { q with powered := true, id := 0x3600000000000000, gReady := true }), 0, 0,
      by decide +kernel⟩,
    ⟨((up.put DUNC.STAT_DP_FAULT 0 0).upPod 0 0 fun q => { q with powered := true, id := 0x3600000000000000 }), 0, 0, by decide +kernel⟩,
    ⟨0, 1, by decide +kernel⟩⟩

theorem witness_TimerRowsComplete :
    (∃ (s : State) (w : Writer) (n : LaneId) (m : BitVec 4) (v : _), v = m.zeroExtend 32
      ∧ s.taken w (.lane n .tmr) 0x10 v (tmrChk s n 0x10 v (s.staged (.lane n .tmr) 0x10 v)))
    ∧ (∃ (s : State) (w : Writer) (n : LaneId) (m : BitVec 4) (v : Word), v = m.zeroExtend 32 <<< 8
      ∧ s.taken w (.lane n .tmr) 0x10 v (tmrChk s n 0x10 v (s.staged (.lane n .tmr) 0x10 v)))
    ∧ (∃ (s : State) (w : Writer) (n : LaneId) (v : _) (since : _) (q : _), s.arrived n ⟨w, .lane n .tmr, 0x10, v, 0, since⟩ q)
    ∧ (∃ (s : State) (n : LaneId) (t : Fin 4), s.farUp n = true ∧ s.tFree n t = true ∧ s.tInstant n t (s.tMax n t + 1) ≤ s.laneClk)
    ∧ (∃ (s : State) (n : LaneId) (t : Fin 4), s.farUp n = true ∧ s.tFree n t = true ∧ (s.tmr n t).hit = false ∧ (s.tmr n t).cmp ≤ s.tMax n t
      ∧ s.tInstant n t (s.tmr n t).cmp ≤ s.laneClk)
    ∧ (∃ (s : State) (n : LaneId) (t : Fin 4), s.farUp n = true ∧ s.captures n t = true ∧ s.capHigh n t = true)
    ∧ (∃ (s : State) (n : LaneId) (t : Fin 4), s.farUp n = true ∧ s.captures n t = true ∧ s.capHigh n t = false ∧ (s.tmr n t).lead.isSome = true
      ∧ (s.tmr n t).trail = none)
    ∧ (∃ (s : State) (n : LaneId) (p : Fin 8) (rising : _), s.farUp n = true ∧ s.dioHigh n p ≠ rising)
    ∧ (∃ (s : State) (n : LaneId) (p : Fin 8), s.dioDrives n p = true)
    ∧ (∃ (s : State) (w : Writer) (n : LaneId) (v : _), s.taken w (.lane n .tmr) 0x15 v (tmrChk s n 0x15 v (s.staged (.lane n .tmr) 0x15 v)))
    ∧ (∃ (s : State) (w : Writer) (n : LaneId) (v : _) (proof : _) (since : _) (q : _) (x : _), x = ⟨w, .lane n .tmr, 0x15, v, proof, since⟩
      ∧ s.arrived n x q)
    ∧ (∃ (s : State) (n : LaneId), s.farUp n = true ∧ (s.eng n).run = .halted ∧ s.freezers n ≠ 0 ∧ s.g TMR.STAT_FROZEN n = 0)
    ∧ (∃ (s : State) (n : LaneId), s.farUp n = true ∧ (s.eng n).run ≠ .halted ∧ s.g TMR.STAT_FROZEN n ≠ 0)
    ∧ (∃ (s : State) (n : LaneId) (x : _), s.farUp n = true ∧ s.nextDue n.val = some x ∧ impAction x.w2 = 5 ∧ s.slotDiff n.val x ≤ s.lateTol)
    ∧ (∃ (s : State) (n : LaneId) (x : _), s.farUp n = true ∧ s.nextDue n.val = some x ∧ impAction x.w2 = 9 ∧ s.slotDiff n.val x ≤ s.lateTol) :=
  ⟨
    ⟨up, .host 0, 0, 1, _, rfl, by unfold State.taken; decide +kernel⟩,
    ⟨up, .host 0, 0, 1, _, rfl, by unfold State.taken; decide +kernel⟩,
    ⟨(come ⟨.host 0, .lane 0 .tmr, 0x10, 1, 0, 0⟩ up), .host 0, 0, 1, 0, 0, by unfold State.arrived; decide +kernel⟩,
    ⟨(((up.put TMR.STAT_RUNNING 0 1).p TMR.CTL_MODE 0 0 1).upTmr 0 0 fun x => { x with top := 9 }), 0, 0, by decide +kernel⟩,
    ⟨(((up.put TMR.STAT_RUNNING 0 1).p TMR.CTL_MODE 0 0 1).upTmr 0 0 fun x => { x with cmp := 5 }), 0, 0, by decide +kernel⟩,
    ⟨(((up.put TMR.STAT_RUNNING 0 1).p TMR.CTL_MODE 0 0 5).put TMR.DIO_IN 0 255), 0, 0, by decide +kernel⟩,
    ⟨(((up.put TMR.STAT_RUNNING 0 1).p TMR.CTL_MODE 0 0 5).upTmr 0 0 fun x => { x with lead := some (5, 9) }), 0, 0, by decide +kernel⟩,
    ⟨up, 0, 7, true, by decide +kernel⟩,
    ⟨(up.put TMR.DIO_OUT 0 0), 0, 0, by decide +kernel⟩,
    ⟨up, .host 0, 0, 0, by unfold State.taken; decide +kernel⟩,
    ⟨(come ⟨.host 0, .lane 0 .tmr, 0x15, 0, 0, 0⟩ up), .host 0, 0, 0, 0, 0, 0, _, rfl, by unfold State.arrived; decide +kernel⟩,
    ⟨((up.upEng 0 fun e => { e with run := .halted }).p TMR.CTL_FREEZE_ON_HALT 0 0 1), 0, by decide +kernel⟩,
    ⟨(up.put TMR.STAT_FROZEN 0 1), 0, by decide +kernel⟩,
    ⟨(sheets [armed 0 5 0x0101]), 0, (armed 0 5 0x0101), by decide +kernel⟩,
    ⟨(sheets [armed 0 9 1]), 0, (armed 0 9 1), by decide +kernel⟩⟩

theorem witness_CanRowsComplete :
    (∃ (s : State) (w : Writer) (n : LaneId) (v : _), s.taken w (.lane n .can) 2 v (canChk s n 2 v (s.staged (.lane n .can) 2 v)))
    ∧ (∃ (s : State) (w : Writer) (n : LaneId) (v : _) (since : _) (q : _), bitAt v 30 = false ∧ s.arrived n ⟨w, .lane n .can, 2, v, 0, since⟩ q)
    ∧ (∃ (s : State) (w : Writer) (n : LaneId) (v : _), s.taken w (.lane n .can) 0x18 v (canChk s n 0x18 v (s.staged (.lane n .can) 0x18 v)))
    ∧ (∃ (s : State) (w : Writer) (n : LaneId) (v : _) (since : _) (q : _), s.arrived n ⟨w, .lane n .can, 0x18, v, 0, since⟩ q)
    ∧ (∃ (s : State) (w : Writer) (n : LaneId) (v : _), s.taken w (.lane n .can) 0x19 v (canChk s n 0x19 v (s.staged (.lane n .can) 0x19 v)))
    ∧ (∃ (s : State) (w : Writer) (n : LaneId) (v : _) (since : _) (q : _), s.arrived n ⟨w, .lane n .can, 0x19, v, 0, since⟩ q)
    ∧ (∃ (s : State) (w : Writer) (n : LaneId) (v : _), s.taken w (.lane n .can) 0x11 v (canChk s n 0x11 v (s.staged (.lane n .can) 0x11 v)))
    ∧ (∃ (s : State) (w : Writer) (n : LaneId) (v : _) (since : _) (q : _), s.arrived n ⟨w, .lane n .can, 0x11, v, 0, since⟩ q)
    ∧ (∃ (s : State) (w : Writer) (n : LaneId), s.taken w (.lane n .can) 0x10 1 (canChk s n 0x10 1 (s.staged (.lane n .can) 0x10 1)))
    ∧ (∃ (s : State) (w : Writer) (n : LaneId) (since : _) (q : _), s.arrived n ⟨w, .lane n .can, 0x10, 1, 0, since⟩ q)
    ∧ (∃ (s : State) (w : Writer) (n : LaneId) (v : _) (c : _), s.writable w (.lane n .can) 0x18 = true
      ∧ s.judge w (.lane n .can) 0x18 v (canChk s n 0x18 v (s.staged (.lane n .can) 0x18 v)) = some c)
    ∧ (∃ (s : State) (n : LaneId), s.farRuns n = true ∧ s.canState n = 1 ∧ s.run (.lane n .can) = true)
    ∧ (∃ (s : State) (n : LaneId), s.farUp n = true ∧ s.canState n = 4 ∧ s.on CAN.MODE_BUSOFF_AUTO n = true
      ∧ (s.canSt n).offAt + s.g CAN.BUSOFF_DELAY_MS n * 200000 ≤ s.clock)
    ∧ (∃ (s : State) (n : LaneId), s.farRuns n = true ∧ s.canState n = 5)
    ∧ (∃ (s : State) (n : LaneId) (b : _), s.canSends n = true ∧ s.txWinner n = some b)
    ∧ (∃ (s : State) (n : LaneId), s.farUp n = true)
    ∧ (∃ (s : State) (n : LaneId) (b : Fin 32), s.farUp n = true ∧ s.txOutcome n b = 1 ∧ s.txFits n b = false ∧ (s.canSt n).attempt ≠ some b.val)
    ∧ (∃ (s : State) (n : LaneId) (hdr0 : _), s.farUp n = true ∧ s.canOn n = true ∧ s.g CAN.MODE_OP n ≠ 2
      ∧ (bitAt hdr0 30 = false ∨ s.on CAN.MODE_FD_EN n = true))
    ∧ (∃ (s : State) (n : LaneId), s.farUp n = true ∧ s.canOn n = true ∧ s.g CAN.MODE_OP n ≠ 2)
    ∧ (∃ (s : State) (n : LaneId) (x : _) (b : _) (r : _), s.farUp n = true ∧ s.nextDue n.val = some x ∧ impAction x.w2 = 7
      ∧ s.slotDiff n.val x ≤ s.lateTol ∧ (s.canSt n).queues[bitsOf x.arg 1 0]?.getD [] = b :: r)
    ∧ (∃ (s : State) (n : LaneId) (x : _), s.farUp n = true ∧ s.nextDue n.val = some x ∧ impAction x.w2 = 7
      ∧ (s.canSt n).queues[bitsOf x.arg 1 0]?.getD [] = []) :=
  ⟨
    ⟨up, .host 0, 0, 0, by unfold State.taken; decide +kernel⟩,
    ⟨(come ⟨.host 0, .lane 0 .can, 2, 1, 0, 0⟩ up), .host 0, 0, 1, 0, 0, by unfold State.arrived; decide +kernel⟩,
    ⟨up, .host 0, 0, 0, by unfold State.taken; decide +kernel⟩,
    ⟨(come ⟨.host 0, .lane 0 .can, 0x18, 1, 0, 0⟩ up), .host 0, 0, 1, 0, 0, by unfold State.arrived; decide +kernel⟩,
    ⟨up, .host 0, 0, 0, by unfold State.taken; decide +kernel⟩,
    ⟨(come ⟨.host 0, .lane 0 .can, 0x19, 1, 0, 0⟩ up), .host 0, 0, 1, 0, 0, by unfold State.arrived; decide +kernel⟩,
    ⟨(up.put CAN.STAT_RX_COUNT 0 3), .host 0, 0, 3, by unfold State.taken; decide +kernel⟩,
    ⟨(come ⟨.host 0, .lane 0 .can, 0x11, 3, 0, 0⟩ up), .host 0, 0, 3, 0, 0, by unfold State.arrived; decide +kernel⟩,
    ⟨(up.setCan 0 4), .host 0, 0, by unfold State.taken; decide +kernel⟩,
    ⟨(come ⟨.host 0, .lane 0 .can, 0x10, 1, 0, 0⟩ up), .host 0, 0, 0, 0, by unfold State.arrived; decide +kernel⟩,
    ⟨(up.upLink 0 fun l => { l with locked := false }), .host 0, 0, 1, errStale, by decide +kernel⟩,
    ⟨((up.setCan 0 1).setRun (.lane 0 .can) true), 0, by decide +kernel⟩,
    ⟨((up.setCan 0 4).put CAN.MODE_BUSOFF_AUTO 0 1), 0, by decide +kernel⟩,
    ⟨((up.setCan 0 5).setRun (.lane 0 .can) true), 0, by decide +kernel⟩,
    ⟨(((up.setCan 0 2).setRun (.lane 0 .can) true).setOutcome 0 7 txPending), 0, 7, by decide +kernel⟩,
    ⟨up, 0, by decide +kernel⟩,
    ⟨((((up.setCan 0 2).setRun (.lane 0 .can) true).setOutcome 0 7 txPending).setTxb 0 7 1 20), 0, 7, by decide +kernel⟩,
    ⟨((up.setCan 0 2).setRun (.lane 0 .can) true), 0, 0, by decide +kernel⟩,
    ⟨((up.setCan 0 2).setRun (.lane 0 .can) true), 0, by decide +kernel⟩,
    ⟨((sheets [armed 0 7 1]).upCan 0 fun c => { c with queues := #v[[], [4], [], []] }), 0, (armed 0 7 1), 4, [], by decide +kernel⟩,
    ⟨(sheets [armed 0 7 1]), 0, (armed 0 7 1), by decide +kernel⟩⟩

theorem witness_GalleyAndDmaRowsComplete :
    (∃ (s : State) (n : LaneId) (x : _) (rest : _) (va : _) (pa : _) (t : _), s.translate n va ⟨.store, true, true, false⟩ = (.ok pa, t)
      ∧ s.on LANE.GAL_STAT_RUNNING n = true ∧ (s.gal n).d0Faulted = false ∧ (s.gal n).d0Paused = false ∧ s.g LANE.GAL_SIZE n ≠ 0
      ∧ (s.gal n).buf = x :: rest ∧ (s.gal n).resumeFolio = false ∧ (s.gal n).wcount - (s.gal n).rcount < s.g LANE.GAL_SIZE n ∧ x.isFolio = false
      ∧ va = (s.g LANE.GAL_VBASE n * 4096 + 16 * ((s.gal n).wcount % s.g LANE.GAL_SIZE n)) % 2 ^ 32
      ∧ pa = s.g LANE.GAL_PBASE n * 4096 + 16 * ((s.gal n).wcount % s.g LANE.GAL_SIZE n))
    ∧ (∃ (s : State) (n : LaneId) (x : _) (rest : _) (f : _) (t : _),
      s.translate n ((s.g LANE.GAL_VBASE n * 4096 + 16 * ((s.gal n).wcount % s.g LANE.GAL_SIZE n)) % 2 ^ 32) ⟨.store, true, true,
      false⟩ = (.error f, t) ∧ s.on LANE.GAL_STAT_RUNNING n = true ∧ (s.gal n).d0Faulted = false ∧ (s.gal n).d0Paused = false
      ∧ s.g LANE.GAL_SIZE n ≠ 0 ∧ (s.gal n).buf = x :: rest ∧ (s.gal n).resumeFolio = false
      ∧ (s.gal n).wcount - (s.gal n).rcount < s.g LANE.GAL_SIZE n)
    ∧ (∃ (s : State) (n : LaneId) (x : _) (rest : _) (pa : _) (t : _),
      s.translate n ((s.g LANE.GAL_VBASE n * 4096 + 16 * ((s.gal n).wcount % s.g LANE.GAL_SIZE n)) % 2 ^ 32) ⟨.store, true, true, false⟩ = (.ok pa,
      t) ∧ s.on LANE.GAL_STAT_RUNNING n = true ∧ (s.gal n).d0Faulted = false ∧ (s.gal n).d0Paused = false ∧ s.g LANE.GAL_SIZE n ≠ 0
      ∧ (s.gal n).buf = x :: rest ∧ (s.gal n).resumeFolio = false ∧ (s.gal n).wcount - (s.gal n).rcount < s.g LANE.GAL_SIZE n
      ∧ pa ≠ s.g LANE.GAL_PBASE n * 4096 + 16 * ((s.gal n).wcount % s.g LANE.GAL_SIZE n))
    ∧ (∃ (s : State) (n : LaneId) (x : _) (rest : _), s.on LANE.GAL_STAT_RUNNING n = true ∧ (s.gal n).d0Faulted = false ∧ (s.gal n).d0Paused = false
      ∧ s.g LANE.GAL_SIZE n ≠ 0 ∧ (s.gal n).buf = x :: rest ∧ s.on LANE.GAL_CTL_MODE n = true
      ∧ s.g LANE.GAL_SIZE n ≤ (s.gal n).wcount - (s.gal n).rcount)
    ∧ (∃ (s : State) (n : LaneId) (x : _) (rest : _) (pa : _) (t : _),
      s.translate n ((s.g LANE.GAL_VBASE n * 4096 + 16 * ((s.gal n).wcount % s.g LANE.GAL_SIZE n)) % 2 ^ 32) ⟨.store, true, true, false⟩ = (.ok pa,
      t) ∧ s.on LANE.GAL_STAT_RUNNING n = true ∧ (s.gal n).d0Faulted = false ∧ (s.gal n).d0Paused = false ∧ s.g LANE.GAL_SIZE n ≠ 0
      ∧ (s.gal n).buf = x :: rest ∧ (s.gal n).resumeFolio = true ∧ (s.gal n).wcount - (s.gal n).rcount < s.g LANE.GAL_SIZE n
      ∧ pa = s.g LANE.GAL_PBASE n * 4096 + 16 * ((s.gal n).wcount % s.g LANE.GAL_SIZE n))
    ∧ (∃ (s : State) (n : LaneId) (w : Writer), ((s.gal n).d0Faulted = true ∨ (s.gal n).d0Paused = true)
      ∧ s.taken w (.lane n .lane) 0x2F 1 (galChk s n 0x2F 1 (s.staged (.lane n .lane) 0x2F 1)))
    ∧ (∃ (s : State) (n : LaneId) (w : Writer) (v : _), s.taken w (.lane n .lane) 0x20 v (galChk s n 0x20 v (s.staged (.lane n .lane) 0x20 v)))
    ∧ (∃ (s : State) (n : LaneId) (w : Writer) (v : Word), s.taken w (.lane n .lane) 0x29 v (galChk s n 0x29 v (s.staged (.lane n .lane) 0x29 v))
      ∧ (s.gal n).wcount < 2 ^ 32 ∧ (s.gal n).rcount < v.toNat ∧ v.toNat ≤ (s.gal n).wcount)
    ∧ (∃ (s : State) (n : LaneId) (pa : _) (t : _), s.translate n (s.d1Desc n) (ringAccess .load) = (.ok pa, t) ∧ s.on LANE.D1_CTL_RUN n = true
      ∧ s.on LANE.D1_STAT_BUSY n = false ∧ s.on LANE.D1_STAT_FAULTED n = false ∧ (s.gal n).d1Idle = false ∧ s.fatalHalt n = false
      ∧ t.eccHit n pa 16 = false ∧ bitAt (t.memWord n (pa + 12)) 31 = true ∧ d1Reserved (t.memWord n (pa + 8)) (t.memWord n (pa + 12)) = false
      ∧ bitsOf (t.memWord n (pa + 8)) 23 0 ≠ 0)
    ∧ (∃ (s : State) (n : LaneId) (src : _) (dst : _) (k : _) (ps : _) (pd : _) (t1 : _) (t2 : _), s.translate n src ⟨.load,
      !bitAt (s.gal n).d1Word3 29, true, false⟩ = (.ok ps, t1) ∧ t1.translate n dst ⟨.store, !bitAt (s.gal n).d1Word3 29, true, false⟩ = (.ok pd,
      t2) ∧ s.on LANE.D1_CTL_RUN n = true ∧ s.on LANE.D1_STAT_BUSY n = true ∧ s.on LANE.D1_STAT_FAULTED n = false ∧ (s.gal n).d1Left ≠ 0
      ∧ s.fatalHalt n = false ∧ src = s.g LANE.D1_CUR_SRC n ∧ dst = s.g LANE.D1_CUR_DST n ∧ k = burstLen src dst (s.gal n).d1Left
      ∧ t2.eccHit n ps k = false)
    ∧ (∃ (s : State) (n : LaneId) (f : _) (t : _), s.translate n (s.g LANE.D1_CUR_SRC n) ⟨.load, !bitAt (s.gal n).d1Word3 29, true,
      false⟩ = (.error f, t) ∧ s.on LANE.D1_CTL_RUN n = true ∧ s.on LANE.D1_STAT_BUSY n = true ∧ s.on LANE.D1_STAT_FAULTED n = false
      ∧ (s.gal n).d1Left ≠ 0 ∧ s.fatalHalt n = false)
    ∧ (∃ (s : State) (n : LaneId) (pa : _) (t : _), s.translate n ((s.d1Desc n + 12) % 2 ^ 32) (ringAccess .store) = (.ok pa, t)
      ∧ s.on LANE.D1_STAT_BUSY n = true ∧ s.on LANE.D1_STAT_FAULTED n = false ∧ (s.gal n).d1Left = 0 ∧ bitAt (s.gal n).d1Word3 30 = false
      ∧ s.fatalHalt n = false)
    ∧ (∃ (s : State) (n : LaneId) (w : Writer) (v : _), v = s.d1Strobe n 16
      ∧ s.taken w (.lane n .lane) 0x35 v (galChk s n 0x35 v (s.staged (.lane n .lane) 0x35 v)))
    ∧ (∃ (s : State) (n : LaneId) (w : Writer) (v : _), v = s.d1Strobe n 17
      ∧ s.taken w (.lane n .lane) 0x35 v (galChk s n 0x35 v (s.staged (.lane n .lane) 0x35 v)))
    ∧ (∃ (s : State) (n : LaneId) (w : Writer) (v : _), v = s.d1Strobe n 18
      ∧ s.taken w (.lane n .lane) 0x35 v (galChk s n 0x35 v (s.staged (.lane n .lane) 0x35 v))) :=
  ⟨
    ⟨galUp, 0, ⟨5, 6, 7, 8⟩, [], 0, 0x1000, _, Prod.ext (eq_of_okIs (by decide +kernel)) rfl, by decide +kernel⟩,
    ⟨(galUp.upEng 0 fun e => { e with dtlb := [] , sp := { e.sp with mmuEn := false } }), 0, ⟨5, 6, 7, 8⟩, [], ⟨1, 0⟩, _,
      Prod.ext (eq_of_errIs (by decide +kernel)) rfl, by decide +kernel⟩,
    ⟨(galUp.put LANE.GAL_PBASE 0 2), 0, ⟨5, 6, 7, 8⟩, [], 0x1000, _, Prod.ext (eq_of_okIs (by decide +kernel)) rfl, by decide +kernel⟩,
    ⟨((galUp.put LANE.GAL_CTL_MODE 0 1).upGal 0 fun g => { g with wcount := 256 }), 0, ⟨5, 6, 7, 8⟩, [], by decide +kernel⟩,
    ⟨(galUp.upGal 0 fun g => { g with resumeFolio := true }), 0, ⟨5, 6, 7, 8⟩, [], 0x1000, _, Prod.ext (eq_of_okIs (by decide +kernel)) rfl,
      by decide +kernel⟩,
    ⟨(galUp.upGal 0 fun g => { g with d0Faulted := true }), 0, .monitor 0, by unfold State.taken; decide +kernel⟩,
    ⟨up, 0, .monitor 0, 0, by unfold State.taken; decide +kernel⟩,
    ⟨(galUp.upGal 0 fun g => { g with wcount := 5 }), 0, .monitor 0, 5, by unfold State.taken; decide +kernel⟩,
    ⟨d1Up, 0, 0x1000, _, Prod.ext (eq_of_okIs (by decide +kernel)) rfl, by decide +kernel⟩,
    ⟨d1Busy, 0, 0x1000, 0x1020, 16, 0x2000, 0x2020, _, _, Prod.ext (eq_of_okIs (by decide +kernel)) rfl,
      Prod.ext (eq_of_okIs (by decide +kernel)) rfl, by decide +kernel⟩,
    ⟨(d1Busy.put LANE.D1_CUR_SRC 0 0x5000), 0, ⟨fkNotValid, 0⟩, _, Prod.ext (eq_of_errIs (by decide +kernel)) rfl, by decide +kernel⟩,
    ⟨(d1Busy.upGal 0 fun g => { g with d1Left := 0 }), 0, 0x100C, _, Prod.ext (eq_of_okIs (by decide +kernel)) rfl, by decide +kernel⟩,
    ⟨d1Up, 0, .monitor 0, _, rfl, by unfold State.taken; decide +kernel⟩,
    ⟨(d1Up.put LANE.D1_STAT_FAULTED 0 1), 0, .monitor 0, _, rfl, by unfold State.taken; decide +kernel⟩,
    ⟨(d1Up.put LANE.D1_STAT_FAULTED 0 1), 0, .monitor 0, _, rfl, by unfold State.taken; decide +kernel⟩⟩

theorem witness_CompositorArithmeticCompletes :
    (∃ (s : State) (n : LaneId) (rd : BitVec 5) (rs1 : BitVec 5) (rs2 : BitVec 5) (a : Word) (b : Word) (c : Instr) (v : Word),
      a = (s.eng n).r rs1.toNat ∧ b = (s.eng n).r rs2.toNat ∧ s.engReady n = true ∧ rd.toNat < 24 ∧ rs1.toNat < 24 ∧ rs2.toNat < 24 ∧ (c,
      v) ∈ ([(.addR n rd rs1 rs2, a + b), (.subR n rd rs1 rs2, a - b), (.andR n rd rs1 rs2, a &&& b), (.orR n rd rs1 rs2, a ||| b),
      (.xorR n rd rs1 rs2, a ^^^ b), (.sll n rd rs1 rs2, a <<< bitsOf b 4 0), (.srl n rd rs1 rs2, a >>> bitsOf b 4 0), (.sra n rd rs1 rs2,
      a.sshiftRight (bitsOf b 4 0)), (.slt n rd rs1 rs2, if a.toInt < b.toInt then 1 else 0), (.sltu n rd rs1 rs2,
      if a.toNat < b.toNat then 1 else 0), (.mul n rd rs1 rs2, a * b), (.mulh n rd rs1 rs2, BitVec.ofInt 32 (a.toInt * b.toInt / 2 ^ 32)),
      (.mulhu n rd rs1 rs2, BitVec.ofNat 32 (a.toNat * b.toNat / 2 ^ 32)), (.fadd n rd rs1 rs2, f32Add a b), (.fsub n rd rs1 rs2, f32Sub a b),
      (.fmul n rd rs1 rs2, f32Mul a b), (.fdiv n rd rs1 rs2, f32Div a b), (.fmin n rd rs1 rs2, f32Min a b), (.fmax n rd rs1 rs2, f32Max a b),
      (.feq n rd rs1 rs2, wordOf (f32Eq a b)), (.flt n rd rs1 rs2, wordOf (f32Lt a b)), (.fle n rd rs1 rs2,
      wordOf (f32Le a b))] : List (Instr × Word)))
    ∧ (∃ (s : State) (n : LaneId) (rd : BitVec 5) (rs1 : BitVec 5) (rs2 : BitVec 5) (a : Word) (b : Word) (c : Instr) (v : Word),
      a = (s.eng n).r rs1.toNat ∧ b = (s.eng n).r rs2.toNat ∧ s.engReady n = true ∧ rd.toNat < 24 ∧ rs1.toNat < 24 ∧ rs2.toNat < 24 ∧ b ≠ 0 ∧ (c,
      v) ∈ ([(.div n rd rs1 rs2, a.sdiv b), (.divu n rd rs1 rs2, a / b), (.rem n rd rs1 rs2, a.srem b), (.remu n rd rs1 rs2,
      a % b)] : List (Instr × Word)))
    ∧ (∃ (s : State) (n : LaneId) (rd : BitVec 5) (rs1 : BitVec 5) (rs2 : BitVec 5) (a : Word) (b : Word) (c : Instr), a = (s.eng n).r rs1.toNat
      ∧ b = (s.eng n).r rs2.toNat ∧ b = 0 ∧ s.engReady n = true ∧ rd.toNat < 24 ∧ rs1.toNat < 24 ∧ rs2.toNat < 24 ∧ c ∈ ([.div n rd rs1 rs2,
      .divu n rd rs1 rs2, .rem n rd rs1 rs2, .remu n rd rs1 rs2] : List Instr))
    ∧ (∃ (s : State) (n : LaneId) (rd : BitVec 5) (rs1 : BitVec 5) (rs2 : BitVec 5) (a : Word) (b : Word) (sh : BitVec 5) (c : Instr) (v : Word),
      a = (s.eng n).r rs1.toNat ∧ b = (s.eng n).r rs2.toNat ∧ s.engReady n = true ∧ rd.toNat < 24 ∧ rs1.toNat < 24 ∧ (c, v) ∈ ([(.slli n rd rs1 sh,
      a <<< sh.toNat), (.srli n rd rs1 sh, a >>> sh.toNat), (.srai n rd rs1 sh, a.sshiftRight sh.toNat), (.clz n rd rs1,
      BitVec.ofNat 32 (clzFrom 32 a)), (.fcvtsw n rd rs1, f32OfInt a.toInt), (.fcvtws n rd rs1, f32ToInt a), (.fsqrt n rd rs1,
      f32Sqrt a)] : List (Instr × Word)))
    ∧ (∃ (s : State) (n : LaneId) (rd : BitVec 5) (rs1 : BitVec 5) (rs2 : BitVec 5) (a : Word) (b : Word) (imm : BitVec 16) (c : Instr) (v : Word),
      a = (s.eng n).r rs1.toNat ∧ b = (s.eng n).r rs2.toNat ∧ s.engReady n = true ∧ rd.toNat < 24 ∧ rs1.toNat < 24 ∧ (c, v) ∈ ([(.addi n rd rs1 imm,
      a + imm.signExtend 32), (.andi n rd rs1 imm, a &&& imm.zeroExtend 32), (.ori n rd rs1 imm, a ||| imm.zeroExtend 32), (.xori n rd rs1 imm,
      a ^^^ imm.zeroExtend 32), (.slti n rd rs1 imm, if a.toInt < (imm.signExtend 32).toInt then 1 else 0), (.sltiu n rd rs1 imm,
      if a.toNat < (imm.signExtend 32).toNat then 1 else 0), (.lui n rd imm, imm.zeroExtend 32 <<< 16)] : List (Instr × Word)))
    ∧ (∃ (s : State) (n : LaneId) (rd : BitVec 5) (rs1 : BitVec 5) (rs2 : BitVec 5) (a : Word) (b : Word), a = (s.eng n).r rs1.toNat
      ∧ b = (s.eng n).r rs2.toNat ∧ s.engReady n = true ∧ rd.toNat < 24 ∧ rs1.toNat < 24 ∧ 24 ≤ rs2.toNat) :=
  ⟨
    ⟨up, 0, 3, 1, 2, _, _, .addR 0 3 1 2, 13, rfl, rfl, by decide +kernel⟩,
    ⟨up, 0, 3, 1, 2, _, _, .div 0 3 1 2, 1, rfl, rfl, by decide +kernel⟩,
    ⟨up, 0, 3, 1, 0, _, _, .div 0 3 1 0, rfl, rfl, rfl, by decide +kernel⟩,
    ⟨up, 0, 3, 1, 2, _, _, 4, .slli 0 3 1 4, 128, rfl, rfl, by decide +kernel⟩,
    ⟨up, 0, 3, 1, 2, _, _, 4, .addi 0 3 1 4, 12, rfl, rfl, by decide +kernel⟩,
    ⟨up, 0, 3, 1, 24, _, _, rfl, rfl, by decide +kernel⟩⟩

theorem witness_CompositorFlowCompletes :
    (∃ (s : State) (n : LaneId) (e : Eng) (rs1 : BitVec 5) (rs2 : BitVec 5) (a : Word) (b : Word) (off : BitVec 16) (c : Instr) (taken : Bool),
      e = s.eng n ∧ a = e.r rs1.toNat ∧ b = e.r rs2.toNat ∧ (c, taken) ∈ ([(.beq n rs1 rs2 off, a == b), (.bne n rs1 rs2 off, a != b),
      (.blt n rs1 rs2 off, decide (a.toInt < b.toInt)), (.bge n rs1 rs2 off, !decide (a.toInt < b.toInt)), (.bltu n rs1 rs2 off,
      decide (a.toNat < b.toNat)), (.bgeu n rs1 rs2 off, !decide (a.toNat < b.toNat))] : List (Instr × Bool)) ∧ s.engReady n = true ∧ rs1.toNat < 24
      ∧ rs2.toNat < 24)
    ∧ (∃ (s : State) (n : LaneId) (e : Eng) (rs1 : BitVec 5) (rs2 : BitVec 5) (a : Word) (b : Word), e = s.eng n ∧ a = e.r rs1.toNat
      ∧ b = e.r rs2.toNat ∧ s.engReady n = true ∧ rs1.toNat < 24)
    ∧ (∃ (s : State) (n : LaneId) (e : Eng) (rs1 : BitVec 5) (rs2 : BitVec 5) (a : Word) (b : Word) (imm : BitVec 16), e = s.eng n
      ∧ a = e.r rs1.toNat ∧ b = e.r rs2.toNat ∧ s.engReady n = true ∧ rs1.toNat < 24 ∧ aligned4 (a + imm.signExtend 32) = true)
    ∧ (∃ (s : State) (n : LaneId) (e : Eng) (rs1 : BitVec 5) (rs2 : BitVec 5) (a : Word) (b : Word) (off : BitVec 26), e = s.eng n
      ∧ a = e.r rs1.toNat ∧ b = e.r rs2.toNat ∧ s.engReady n = true ∧ rs1.toNat < 24 ∧ e.regs.wres < 11 ∧ aligned4 (e.pc + disp26 off) = true)
    ∧ (∃ (s : State) (n : LaneId) (e : Eng) (rs1 : BitVec 5) (rs2 : BitVec 5) (a : Word) (b : Word) (imm : BitVec 16), e = s.eng n
      ∧ a = e.r rs1.toNat ∧ b = e.r rs2.toNat ∧ s.engReady n = true ∧ rs1.toNat < 24 ∧ e.regs.wres < 11 ∧ aligned4 (a + imm.signExtend 32) = true)
    ∧ (∃ (s : State) (n : LaneId) (e : Eng) (rs1 : BitVec 5) (rs2 : BitVec 5) (a : Word) (b : Word), e = s.eng n ∧ a = e.r rs1.toNat
      ∧ b = e.r rs2.toNat ∧ s.engReady n = true ∧ rs1.toNat < 24 ∧ 11 ≤ e.regs.wres)
    ∧ (∃ (s : State) (n : LaneId) (e : Eng) (rs1 : BitVec 5) (rs2 : BitVec 5) (a : Word) (b : Word), e = s.eng n ∧ a = e.r rs1.toNat
      ∧ b = e.r rs2.toNat ∧ s.engReady n = true ∧ rs1.toNat < 24 ∧ e.regs.cwp = e.regs.wold)
    ∧ (∃ (s : State) (n : LaneId) (e : Eng) (rs1 : BitVec 5) (rs2 : BitVec 5) (a : Word) (b : Word), e = s.eng n ∧ a = e.r rs1.toNat
      ∧ b = e.r rs2.toNat ∧ s.engReady n = true ∧ rs1.toNat < 24 ∧ e.regs.cwp ≠ e.regs.wold ∧ aligned4 (e.r 19) = true)
    ∧ (∃ (s : State) (n : LaneId) (e : Eng) (rs1 : BitVec 5) (rs2 : BitVec 5) (a : Word) (b : Word), e = s.eng n ∧ a = e.r rs1.toNat
      ∧ b = e.r rs2.toNat ∧ s.engReady n = true ∧ rs1.toNat < 24 ∧ e.sp.psr.mon = true ∧ e.regs.cwp ≠ e.regs.wold ∧ s.asyncFor n e.sp.epsr = none)
    ∧ (∃ (s : State) (n : LaneId) (e : Eng) (rs1 : BitVec 5) (rs2 : BitVec 5) (a : Word) (b : Word), e = s.eng n ∧ a = e.r rs1.toNat
      ∧ b = e.r rs2.toNat ∧ s.engReady n = true ∧ rs1.toNat < 24 ∧ e.sp.psr.mon = true ∧ e.regs.cwp = e.regs.wold)
    ∧ (∃ (s : State) (n : LaneId) (e : Eng) (rs1 : BitVec 5) (rs2 : BitVec 5) (a : Word) (b : Word), e = s.eng n ∧ a = e.r rs1.toNat
      ∧ b = e.r rs2.toNat ∧ s.engReady n = true ∧ rs1.toNat < 24 ∧ e.sp.psr.mon = false)
    ∧ (∃ (s : State) (n : LaneId) (e : Eng) (rs1 : BitVec 5) (rs2 : BitVec 5) (a : Word) (b : Word), e = s.eng n ∧ a = e.r rs1.toNat
      ∧ b = e.r rs2.toNat ∧ s.engReady n = true ∧ rs1.toNat < 24 ∧ e.sp.psr.mon = false ∧ s.on ENG.DBG_ATTACH n = true) :=
  ⟨
    ⟨up, 0, _, 1, 2, _, _, 1, .beq 0 1 2 1, false, rfl, rfl, rfl, by decide +kernel, by decide +kernel⟩,
    ⟨up, 0, _, 1, 2, _, _, rfl, rfl, rfl, by decide +kernel⟩,
    ⟨up, 0, _, 1, 2, _, _, 4, rfl, rfl, rfl, by decide +kernel⟩,
    ⟨up, 0, _, 1, 2, _, _, 1, rfl, rfl, rfl, by decide +kernel⟩,
    ⟨up, 0, _, 1, 2, _, _, 4, rfl, rfl, rfl, by decide +kernel⟩,
    ⟨(up.upEng 0 fun e => { e with regs := { e.regs with cwp := 10 } }), 0, _, 1, 2, _, _, rfl, rfl, rfl, by decide +kernel⟩,
    ⟨up, 0, _, 1, 2, _, _, rfl, rfl, rfl, by decide +kernel⟩,
    ⟨(up.upEng 0 fun e => { e with regs := { e.regs with cwp := 1 } }), 0, _, 1, 2, _, _, rfl, rfl, rfl, by decide +kernel⟩,
    ⟨monUp, 0, _, 1, 2, _, _, rfl, rfl, rfl, by decide +kernel⟩,
    ⟨(monUp.upEng 0 fun e => { e with regs := { e.regs with cwp := 0 } }), 0, _, 1, 2, _, _, rfl, rfl, rfl, by decide +kernel⟩,
    ⟨up, 0, _, 1, 2, _, _, rfl, rfl, rfl, by decide +kernel⟩,
    ⟨(up.put ENG.DBG_ATTACH 0 1), 0, _, 1, 2, _, _, rfl, rfl, rfl, by decide +kernel⟩⟩

theorem witness_CompositorMemoryCompletes :
    (∃ (s : State) (s1 : State) (n : LaneId) (rd : BitVec 5) (rs1 : BitVec 5) (rs2 : BitVec 5) (imm : BitVec 16) (va : Nat) (pa : Nat) (c : Instr) (k : Nat) (sg : Bool),
      s.engXlate n va .load = (.ok pa, s1) ∧ s.engReady n = true ∧ rd.toNat < 24 ∧ rs1.toNat < 24 ∧ rs2.toNat < 24 ∧ (c, k,
      sg) ∈ ([(.lw n rd rs1 imm, 4, false), (.lh n rd rs1 imm, 2, true), (.lhu n rd rs1 imm, 2, false), (.lb n rd rs1 imm, 1, true),
      (.lbu n rd rs1 imm, 1, false)] : List (Instr × Nat × Bool)) ∧ va = s.effAddr n rs1.toNat imm ∧ va % k = 0 ∧ regionOf pa ≠ .regs
      ∧ s1.eccHit n pa k = false)
    ∧ (∃ (s : State) (n : LaneId) (rd : BitVec 5) (rs1 : BitVec 5) (rs2 : BitVec 5) (imm : BitVec 16) (va : Nat), s.engReady n = true
      ∧ rd.toNat < 24 ∧ rs1.toNat < 24 ∧ rs2.toNat < 24 ∧ va = s.effAddr n rs1.toNat imm ∧ va % 4 ≠ 0)
    ∧ (∃ (s : State) (s1 : State) (n : LaneId) (rd : BitVec 5) (rs1 : BitVec 5) (rs2 : BitVec 5) (imm : BitVec 16) (va : Nat) (f : _),
      s.engXlate n va .load = (.error f, s1) ∧ s.engReady n = true ∧ rd.toNat < 24 ∧ rs1.toNat < 24 ∧ rs2.toNat < 24
      ∧ va = s.effAddr n rs1.toNat imm ∧ va % 4 = 0)
    ∧
      (∃ (s : State) (s1 : State) (n : LaneId) (rd : BitVec 5) (rs1 : BitVec 5) (rs2 : BitVec 5) (imm : BitVec 16) (va : Nat) (pa : Nat) (p : _) (off : _),
      s.engXlate n va .load = (.ok pa, s1) ∧ s.engReady n = true ∧ rd.toNat < 24 ∧ rs1.toNat < 24 ∧ rs2.toNat < 24 ∧ va = s.effAddr n rs1.toNat imm
      ∧ va % 4 = 0 ∧ regionOf pa = .regs ∧ regPlace pa = some (p, off) ∧ (ownPage n p || p == .mod || p == .reg) = true)
    ∧
      (∃ (s : State) (s1 : State) (n : LaneId) (rd : BitVec 5) (rs1 : BitVec 5) (rs2 : BitVec 5) (imm : BitVec 16) (va : Nat) (pa : Nat) (c : Instr) (k : Nat),
      s.engXlate n va .store = (.ok pa, s1) ∧ s.engReady n = true ∧ rd.toNat < 24 ∧ rs1.toNat < 24 ∧ rs2.toNat < 24 ∧ (c, k) ∈ ([(.sw n rs2 rs1 imm,
      4), (.sh n rs2 rs1 imm, 2), (.sb n rs2 rs1 imm, 1)] : List (Instr × Nat)) ∧ va = s.effAddr n rs1.toNat imm ∧ va % k = 0 ∧ regionOf pa ≠ .regs)
    ∧
      (∃ (s : State) (s1 : State) (n : LaneId) (rd : BitVec 5) (rs1 : BitVec 5) (rs2 : BitVec 5) (imm : BitVec 16) (va : Nat) (pa : Nat) (p : _) (off : _),
      s.engXlate n va .store = (.ok pa, s1) ∧ s.engReady n = true ∧ rd.toNat < 24 ∧ rs1.toNat < 24 ∧ rs2.toNat < 24 ∧ va = s.effAddr n rs1.toNat imm
      ∧ va % 4 = 0 ∧ regionOf pa = .regs ∧ regPlace pa = some (p, off) ∧ ownPage n p = true)
    ∧ (∃ (s : State) (s1 : State) (n : LaneId) (rd : BitVec 5) (rs1 : BitVec 5) (rs2 : BitVec 5) (pas : _),
      s.xlateWords n .store ((s.eng n).sp.ssp - 48).toNat 12 = (.ok pas, s1) ∧ s.engReady n = true ∧ rd.toNat < 24 ∧ rs1.toNat < 24 ∧ rs2.toNat < 24
      ∧ (s.eng n).sp.psr.mon = true ∧ (s.eng n).sp.cause ≠ 9 ∧ 2 < (s.eng n).regs.wres ∧ (s.eng n).shelf.length < 8)
    ∧ (∃ (s : State) (s1 : State) (n : LaneId) (rd : BitVec 5) (rs1 : BitVec 5) (rs2 : BitVec 5) (pas : _),
      s.xlateWords n .load (s.eng n).sp.ssp.toNat 12 = (.ok pas, s1) ∧ s.engReady n = true ∧ rd.toNat < 24 ∧ rs1.toNat < 24 ∧ rs2.toNat < 24
      ∧ (s.eng n).sp.psr.mon = true ∧ (s.eng n).regs.wres ≠ 12 ∧ (s.eng n).shelf = [] ∧ (s1.lane n).eccBad = [])
    ∧ (∃ (s : State) (s1 : State) (n : LaneId) (rd : BitVec 5) (rs1 : BitVec 5) (rs2 : BitVec 5) (va : Nat) (pa : Nat) (s2 : _),
      s.engXlate n va .load = (.ok pa, s1) ∧ s1.engXlate n va .store = (.ok pa, s2) ∧ s.engReady n = true ∧ rd.toNat < 24 ∧ rs1.toNat < 24
      ∧ rs2.toNat < 24 ∧ va = ((s.eng n).r rs1.toNat).toNat ∧ va % 4 = 0 ∧ (regionOf pa = .store ∨ regionOf pa = .dsram) ∧ s2.eccHit n pa 4 = false)
    ∧ (∃ (s : State) (n : LaneId) (rd : BitVec 5) (rs1 : BitVec 5) (rs2 : BitVec 5), s.engReady n = true ∧ rd.toNat < 24 ∧ rs1.toNat < 24
      ∧ rs2.toNat < 24 ∧ rd.toNat ≠ 0 ∧ rs1.toNat ≠ 0 ∧ rs2.toNat ≠ 0 ∧ rd ≠ rs1 ∧ rd ≠ rs2 ∧ rs1 ≠ rs2 ∧ (s.eng n).r rd.toNat = 0)
    ∧ (∃ (s : State) (s1 : State) (n : LaneId) (rd : BitVec 5) (rs1 : BitVec 5) (rs2 : BitVec 5) (pa : Nat) (pb : _) (s2 : _) (k : Nat) (e : Eng),
      e = s.eng n ∧ k = (if (e.r rd.toNat ||| e.r rs1.toNat ||| e.r rs2.toNat) &&& 3 = 0 then 4 else 1)
      ∧ s.engXlate n (e.r rs2.toNat).toNat .load = (.ok pa, s1) ∧ s1.engXlate n (e.r rs1.toNat).toNat .store = (.ok pb, s2) ∧ s.engReady n = true
      ∧ rd.toNat < 24 ∧ rs1.toNat < 24 ∧ rs2.toNat < 24 ∧ rd.toNat ≠ 0 ∧ rs1.toNat ≠ 0 ∧ rs2.toNat ≠ 0 ∧ rd ≠ rs1 ∧ rd ≠ rs2 ∧ rs1 ≠ rs2
      ∧ e.r rd.toNat ≠ 0 ∧ regionOf pa ≠ .regs ∧ regionOf pb ≠ .regs ∧ s2.eccHit n pa k = false) :=
  ⟨
    ⟨(mmuUp.upEng 0 fun e => { e with sp := { e.sp with psr := ⟨false, true, false, true, false⟩ } }), _, 0, 3, 1, 2, 4, 12, 0x100C, .lw 0 3 1 4, 4,
      false, Prod.ext (eq_of_okIs (by decide +kernel)) rfl, by decide +kernel⟩,
    ⟨(mmuUp.upEng 0 fun e => { e with sp := { e.sp with psr := ⟨false, true, false, true, false⟩ } }), 0, 3, 1, 2, 5, 13, by decide +kernel⟩,
    ⟨(up.upEng 0 fun e => { e with regs := { e.regs with x := #v[0, 0x7000000, 5, 0, 0, 0, 0, 0] } }), _, 0, 3, 1, 2, 4, 0x7000004, ⟨fkRegion, 0⟩,
      Prod.ext (eq_of_errIs (by decide +kernel)) rfl, by decide +kernel⟩,
    ⟨(up.upEng 0 fun e => { e with regs := { e.regs with x := #v[0, 0x4800000, 5, 0, 0, 0, 0, 0] } }), _, 0, 3, 1, 2, 4, 0x4800004, 0x4800004, .mod,
      1, Prod.ext (eq_of_okIs (by decide +kernel)) rfl, by decide +kernel⟩,
    ⟨(mmuUp.upEng 0 fun e => { e with sp := { e.sp with psr := ⟨false, true, false, true, false⟩ } }), _, 0, 3, 1, 2, 4, 12, 0x100C, .sw 0 2 1 4, 4,
      Prod.ext (eq_of_okIs (by decide +kernel)) rfl, by decide +kernel⟩,
    ⟨(up.upEng 0 fun e => { e with regs := { e.regs with x := #v[0, 0x4810000, 5, 0, 0, 0, 0, 0] } }), _, 0, 3, 1, 2, 4, 0x4810004, 0x4810004,
      (.lane 0 .lane), 1, Prod.ext (eq_of_okIs (by decide +kernel)) rfl, by decide +kernel⟩,
    ⟨(mmuUp.upEng 0 fun e => { e with sp := { e.sp with psr := ⟨false, true, true, false, false⟩, ssp := 0x1030 }, regs := { e.regs with cwp := 3 } }),
      _, 0, 3, 1, 2, [0x2000, 0x2004, 0x2008, 0x200C, 0x2010, 0x2014, 0x2018, 0x201C, 0x2020, 0x2024, 0x2028, 0x202C],
      Prod.ext (eq_of_okIs (by decide +kernel)) rfl, by decide +kernel⟩,
    ⟨(mmuUp.upEng 0 fun e => { e with sp := { e.sp with psr := ⟨false, true, true, false, false⟩, ssp := 0x1030 }, regs := { e.regs with cwp := 3 } }),
      _, 0, 3, 1, 2, [0x2030, 0x2034, 0x2038, 0x203C, 0x2040, 0x2044, 0x2048, 0x204C, 0x2050, 0x2054, 0x2058, 0x205C],
      Prod.ext (eq_of_okIs (by decide +kernel)) rfl, by decide +kernel⟩,
    ⟨(mmuUp.upEng 0 fun e => { e with sp := { e.sp with psr := ⟨false, true, false, true, false⟩ } }), _, 0, 3, 1, 2, 8, 0x1008, _,
      Prod.ext (eq_of_okIs (by decide +kernel)) rfl, Prod.ext (eq_of_okIs (by decide +kernel)) rfl, by decide +kernel⟩,
    ⟨(mmuUp.upEng 0 fun e => { e with sp := { e.sp with psr := ⟨false, true, false, true, false⟩ } }), 0, 3, 1, 2, by decide +kernel⟩,
    ⟨((mmuUp.upEng 0 fun e => { e with sp := { e.sp with psr := ⟨false, true, false, true, false⟩ } }).upEng 0 fun e => { e with regs := { e.regs with x := #v[0, 8, 5, 6, 0, 0, 0, 0] } }),
      _, 0, 3, 1, 2, 0x1005, 0x1008, _, _, _, rfl, rfl, Prod.ext (eq_of_okIs (by decide +kernel)) rfl,
      Prod.ext (eq_of_okIs (by decide +kernel)) rfl, by decide +kernel⟩⟩

theorem witness_CompositorSystemCompletes :
    (∃ (s : State) (n : LaneId) (e : Eng) (rd : BitVec 5) (rs1 : BitVec 5) (rs2 : BitVec 5) (a : Word) (b : Word) (sr : BitVec 12), e = s.eng n
      ∧ a = e.r rs1.toNat ∧ b = e.r rs2.toNat ∧ s.engReady n = true ∧ rd.toNat < 24 ∧ rs1.toNat < 24 ∧ rs2.toNat < 24
      ∧ (s.srNow n sr.toNat = some .ro ∨ s.srNow n sr.toNat = some .rw))
    ∧ (∃ (s : State) (n : LaneId) (e : Eng) (rd : BitVec 5) (rs1 : BitVec 5) (rs2 : BitVec 5) (a : Word) (b : Word), e = s.eng n ∧ a = e.r rs1.toNat
      ∧ b = e.r rs2.toNat ∧ s.engReady n = true ∧ rd.toNat < 24 ∧ rs1.toNat < 24 ∧ rs2.toNat < 24)
    ∧ (∃ (s : State) (n : LaneId) (e : Eng) (rd : BitVec 5) (rs1 : BitVec 5) (rs2 : BitVec 5) (a : Word) (b : Word) (sr : BitVec 12), e = s.eng n
      ∧ a = e.r rs1.toNat ∧ b = e.r rs2.toNat ∧ s.engReady n = true ∧ rd.toNat < 24 ∧ rs1.toNat < 24 ∧ rs2.toNat < 24 ∧ s.srNow n sr.toNat = none)
    ∧ (∃ (s : State) (n : LaneId) (e : Eng) (rd : BitVec 5) (rs1 : BitVec 5) (rs2 : BitVec 5) (a : Word) (b : Word) (sr : BitVec 12), e = s.eng n
      ∧ a = e.r rs1.toNat ∧ b = e.r rs2.toNat ∧ s.engReady n = true ∧ rd.toNat < 24 ∧ rs1.toNat < 24 ∧ rs2.toNat < 24
      ∧ s.srNow n sr.toNat = some .none)
    ∧ (∃ (s : State) (n : LaneId) (e : Eng) (rd : BitVec 5) (rs1 : BitVec 5) (rs2 : BitVec 5) (a : Word) (b : Word) (sr : BitVec 12), e = s.eng n
      ∧ a = e.r rs1.toNat ∧ b = e.r rs2.toNat ∧ s.engReady n = true ∧ rd.toNat < 24 ∧ rs1.toNat < 24 ∧ rs2.toNat < 24
      ∧ (s.srNow n sr.toNat = some .wo ∨ s.srNow n sr.toNat = some .rw) ∧ srBad sr.toNat a = false)
    ∧ (∃ (s : State) (n : LaneId) (e : Eng) (rd : BitVec 5) (rs1 : BitVec 5) (rs2 : BitVec 5) (a : Word) (b : Word), e = s.eng n ∧ a = e.r rs1.toNat
      ∧ b = e.r rs2.toNat ∧ s.engReady n = true ∧ rd.toNat < 24 ∧ rs1.toNat < 24 ∧ rs2.toNat < 24 ∧ e.sp.psr.mon = true
      ∧ ownSource n e.sp.evsel = true ∧ s.entryChk e.sp.evsel a = none)
    ∧
      (∃ (s : State) (n : LaneId) (e : Eng) (rd : BitVec 5) (rs1 : BitVec 5) (rs2 : BitVec 5) (a : Word) (b : Word) (c : Instr) (bit : Nat) (f : State → Nat → State),
      e = s.eng n ∧ a = e.r rs1.toNat ∧ b = e.r rs2.toNat ∧ (c, bit, f) ∈ ([(.setEn n rs1, 31, State.enSet), (.clrEn n rs1, 30, State.enClr),
      (.setPend n rs1, 29, State.pendSet), (.clrPend n rs1, 28, State.pendClr)] : List (Instr × Nat × (State → Nat → State))) ∧ a = bitMask bit bit
      ∧ s.engReady n = true ∧ rd.toNat < 24 ∧ rs1.toNat < 24 ∧ rs2.toNat < 24 ∧ e.sp.psr.mon = true ∧ ownSource n e.sp.evsel = true)
    ∧
      (∃ (s : State) (n : LaneId) (e : Eng) (rd : BitVec 5) (rs1 : BitVec 5) (rs2 : BitVec 5) (a : Word) (b : Word) (imm : BitVec 16) (c : Nat) (t : State),
      e = s.eng n ∧ a = e.r rs1.toNat ∧ b = e.r rs2.toNat ∧ s.takeQuoin (0x10 + n.val) (bitsOf a 7 0) = (c, t) ∧ s.engReady n = true ∧ rd.toNat < 24
      ∧ rs1.toNat < 24 ∧ rs2.toNat < 24 ∧ e.sp.psr.qw = false ∧ (c ≠ qBusy ∨ imm = 0))
    ∧ (∃ (s : State) (n : LaneId) (e : Eng) (rd : BitVec 5) (rs1 : BitVec 5) (rs2 : BitVec 5) (a : Word) (b : Word) (c : Nat) (t : State),
      e = s.eng n ∧ a = e.r rs1.toNat ∧ b = e.r rs2.toNat ∧ s.giveQuoin (0x10 + n.val) (bitsOf a 7 0) none = (c, t) ∧ s.engReady n = true
      ∧ rd.toNat < 24 ∧ rs1.toNat < 24 ∧ rs2.toNat < 24)
    ∧ (∃ (s : State) (n : LaneId) (e : Eng) (rd : BitVec 5) (rs1 : BitVec 5) (rs2 : BitVec 5) (a : Word) (b : Word) (c : Nat) (t : State),
      e = s.eng n ∧ a = e.r rs1.toNat ∧ b = e.r rs2.toNat ∧ s.giveQuoin (0x10 + n.val) (bitsOf a 7 0) (some (bitsOf b 15 0)) = (c, t)
      ∧ s.engReady n = true ∧ rd.toNat < 24 ∧ rs1.toNat < 24 ∧ rs2.toNat < 24)
    ∧ (∃ (s : State) (n : LaneId) (e : Eng) (rd : BitVec 5) (rs1 : BitVec 5) (rs2 : BitVec 5) (a : Word) (b : Word) (c : Nat) (t : State),
      e = s.eng n ∧ a = e.r rs1.toNat ∧ b = e.r rs2.toNat ∧ s.clearQuoin (0x10 + n.val) (bitsOf a 7 0) none = (c, t) ∧ s.engReady n = true
      ∧ rd.toNat < 24 ∧ rs1.toNat < 24 ∧ rs2.toNat < 24)
    ∧ (∃ (s : State) (n : LaneId) (e : Eng) (rd : BitVec 5) (rs1 : BitVec 5) (rs2 : BitVec 5) (a : Word) (b : Word) (c : Nat) (t : State),
      e = s.eng n ∧ a = e.r rs1.toNat ∧ b = e.r rs2.toNat ∧ s.clearQuoin (0x10 + n.val) (bitsOf a 7 0) (some (bitsOf b 15 0)) = (c, t)
      ∧ s.engReady n = true ∧ rd.toNat < 24 ∧ rs1.toNat < 24 ∧ rs2.toNat < 24)
    ∧ (∃ (s : State) (n : LaneId) (e : Eng) (rd : BitVec 5) (rs1 : BitVec 5) (rs2 : BitVec 5) (a : Word) (b : Word) (imm : BitVec 16) (d : Nat),
      e = s.eng n ∧ a = e.r rs1.toNat ∧ b = e.r rs2.toNat ∧ d = (a + imm.signExtend 32).toNat ∧ s.engReady n = true ∧ rd.toNat < 24 ∧ rs1.toNat < 24
      ∧ rs2.toNat < 24 ∧ 960 ≤ d ∧ d ≤ 1023 ∧ engineRings n.val d = true)
    ∧ (∃ (s : State) (n : LaneId) (e : Eng) (rd : BitVec 5) (rs1 : BitVec 5) (rs2 : BitVec 5) (a : Word) (b : Word) (imm : BitVec 16) (d : Nat),
      e = s.eng n ∧ a = e.r rs1.toNat ∧ b = e.r rs2.toNat ∧ d = (a + imm.signExtend 32).toNat ∧ s.engReady n = true ∧ rd.toNat < 24 ∧ rs1.toNat < 24
      ∧ rs2.toNat < 24 ∧ (d < 960 ∨ 1023 < d))
    ∧ (∃ (s : State) (n : LaneId) (e : Eng) (rd : BitVec 5) (rs1 : BitVec 5) (rs2 : BitVec 5) (a : Word) (b : Word) (imm : BitVec 16) (d : Nat),
      e = s.eng n ∧ a = e.r rs1.toNat ∧ b = e.r rs2.toNat ∧ d = (a + imm.signExtend 32).toNat ∧ s.engReady n = true ∧ rd.toNat < 24 ∧ rs1.toNat < 24
      ∧ rs2.toNat < 24 ∧ 960 ≤ d ∧ d ≤ 1023 ∧ engineRings n.val d = false)
    ∧ (∃ (s : State) (n : LaneId) (e : Eng) (rd : BitVec 5) (rs1 : BitVec 5) (rs2 : BitVec 5) (a : Word) (b : Word) (t : Nat), e = s.eng n
      ∧ a = e.r rs1.toNat ∧ b = e.r rs2.toNat ∧ t = e.sp.post[0].toNat * 2 ^ 32 + e.sp.post[1].toNat ∧ s.engReady n = true ∧ rd.toNat < 24
      ∧ rs1.toNat < 24 ∧ rs2.toNat < 24 ∧ s.postChk (0x10 + n.val) t e.sp.post[2] e.sp.post[3] = none)
    ∧ (∃ (s : State) (n : LaneId) (e : Eng) (rd : BitVec 5) (rs1 : BitVec 5) (rs2 : BitVec 5) (a : Word) (b : Word) (t : Nat) (c : Nat), e = s.eng n
      ∧ a = e.r rs1.toNat ∧ b = e.r rs2.toNat ∧ t = e.sp.post[0].toNat * 2 ^ 32 + e.sp.post[1].toNat ∧ s.engReady n = true ∧ rd.toNat < 24
      ∧ rs1.toNat < 24 ∧ rs2.toNat < 24 ∧ s.postChk (0x10 + n.val) t e.sp.post[2] e.sp.post[3] = some c)
    ∧
      (∃ (s : State) (n : LaneId) (e : Eng) (rd : BitVec 5) (rs1 : BitVec 5) (rs2 : BitVec 5) (a : Word) (b : Word) (gone : Nat) (late : Nat) (t : State),
      e = s.eng n ∧ a = e.r rs1.toNat ∧ b = e.r rs2.toNat ∧ s.cancelTag n.val (bitsOf e.sp.post[2] 11 0) = (gone, late, t) ∧ s.engReady n = true
      ∧ rd.toNat < 24 ∧ rs1.toNat < 24 ∧ rs2.toNat < 24)
    ∧ (∃ (s : State) (n : LaneId) (e : Eng) (rd : BitVec 5) (rs1 : BitVec 5) (rs2 : BitVec 5) (a : Word) (b : Word), e = s.eng n ∧ a = e.r rs1.toNat
      ∧ b = e.r rs2.toNat ∧ s.engReady n = true ∧ rd.toNat < 24 ∧ rs1.toNat < 24 ∧ rs2.toNat < 24 ∧ e.sp.psr.mon = true) :=
  ⟨
    ⟨up, 0, _, 3, 1, 2, _, _, 0x018, rfl, rfl, rfl, by decide +kernel⟩,
    ⟨up, 0, _, 3, 1, 2, _, _, rfl, rfl, rfl, by decide +kernel⟩,
    ⟨up, 0, _, 3, 1, 2, _, _, 0x040, rfl, rfl, rfl, by decide +kernel⟩,
    ⟨up, 0, _, 3, 1, 2, _, _, 0x002, rfl, rfl, rfl, by decide +kernel⟩,
    ⟨up, 0, _, 3, 1, 2, _, _, 0x007, rfl, rfl, rfl, by decide +kernel⟩,
    ⟨(monUp.upEng 0 fun e => { e with sp := { e.sp with evsel := 64 } }), 0, _, 3, 1, 2, _, _, rfl, rfl, rfl, by decide +kernel⟩,
    ⟨(monUp.upEng 0 fun e => { e with sp := { e.sp with evsel := 64 }, regs := { e.regs with x := #v[0, 0x80000000, 5, 0, 0, 0, 0, 0] } }), 0, _, 3,
      1, 2, _, _, .setEn 0 1, 31, State.enSet, rfl, rfl, rfl, .head _, rfl, by decide +kernel⟩,
    ⟨up, 0, _, 3, 1, 2, _, _, 0, _, _, rfl, rfl, rfl, Prod.ext (by decide +kernel) rfl, by decide +kernel⟩,
    ⟨up, 0, _, 3, 1, 2, _, _, _, _, rfl, rfl, rfl, Prod.ext (by decide +kernel) rfl, by decide +kernel⟩,
    ⟨up, 0, _, 3, 1, 2, _, _, _, _, rfl, rfl, rfl, Prod.ext (by decide +kernel) rfl, by decide +kernel⟩,
    ⟨up, 0, _, 3, 1, 2, _, _, _, _, rfl, rfl, rfl, Prod.ext (by decide +kernel) rfl, by decide +kernel⟩,
    ⟨up, 0, _, 3, 1, 2, _, _, _, _, rfl, rfl, rfl, Prod.ext (by decide +kernel) rfl, by decide +kernel⟩,
    ⟨(up.upEng 0 fun e => { e with regs := { e.regs with x := #v[0, 0x3C0, 5, 0, 0, 0, 0, 0] } }), 0, _, 3, 1, 2, _, _, 0, _, rfl, rfl, rfl, rfl,
      by decide +kernel⟩,
    ⟨(up.upEng 0 fun e => { e with regs := { e.regs with x := #v[0, 0x100, 5, 0, 0, 0, 0, 0] } }), 0, _, 3, 1, 2, _, _, 0, _, rfl, rfl, rfl, rfl,
      by decide +kernel⟩,
    ⟨(up.upEng 0 fun e => { e with regs := { e.regs with x := #v[0, 0x3C8, 5, 0, 0, 0, 0, 0] } }), 0, _, 3, 1, 2, _, _, 0, _, rfl, rfl, rfl, rfl,
      by decide +kernel⟩,
    ⟨(up.upEng 0 fun e => { e with sp := { e.sp with post := #v[0, 3000100000, 0x01000000, 0] } }), 0, _, 3, 1, 2, _, _, _, rfl, rfl, rfl, rfl,
      by decide +kernel⟩,
    ⟨up, 0, _, 3, 1, 2, _, _, _, errRange, rfl, rfl, rfl, rfl, by decide +kernel⟩,
    ⟨up, 0, _, 3, 1, 2, _, _, _, _, _, rfl, rfl, rfl, Prod.ext (by decide +kernel) rfl, by decide +kernel⟩,
    ⟨monUp, 0, _, 3, 1, 2, _, _, rfl, rfl, rfl, by decide +kernel⟩⟩

theorem witness_CompositorTrapAndDebugRowsComplete :
    (∃ (s : State) (n : LaneId) (t : _) (irq : _), s.fitted n = true ∧ s.asyncNow n = some (t, irq))
    ∧ (∃ (s : State) (n : LaneId) (v : _), wordLegal v = false ∧ s.engReady n = true)
    ∧ (∃ (s : State) (n : LaneId) (f : _) (t : _), s.engXlate n (s.eng n).pc.toNat .fetch = (.error f, t) ∧ s.engReady n = true)
    ∧ (∃ (s : State) (n : LaneId), s.fitted n = true ∧ (s.eng n).run = .running ∧ (s.eng n).qwait = none ∧ (s.eng n).movbUnits = 0
      ∧ s.asyncNow n = none ∧ s.bpMatch n = true)
    ∧ (∃ (s : State) (n : LaneId) (w : Writer) (v : _), v = s.dbgStrobe n 0
      ∧ s.taken w (.lane n .eng) 0x12 v (engChk n 0x12 v (s.staged (.lane n .eng) 0x12 v)) ∧ (s.eng n).run ≠ .halted)
    ∧ (∃ (s : State) (n : LaneId) (w : Writer) (v : _), v = s.dbgStrobe n 1
      ∧ s.taken w (.lane n .eng) 0x12 v (engChk n 0x12 v (s.staged (.lane n .eng) 0x12 v)) ∧ (s.eng n).run = .halted ∧ (s.eng n).haltCode = 1)
    ∧ (∃ (s : State) (n : LaneId) (w : Writer) (v : _), v = s.dbgStrobe n 2
      ∧ s.taken w (.lane n .eng) 0x12 v (engChk n 0x12 v (s.staged (.lane n .eng) 0x12 v)) ∧ (s.eng n).run = .halted ∧ (s.eng n).haltCode = 1)
    ∧ (∃ (s : State) (n : LaneId) (w : Writer) (v : _), s.taken w (.lane n .eng) 0x19 v (engChk n 0x19 v (s.staged (.lane n .eng) 0x19 v)))
    ∧ (∃ (s : State) (n : LaneId), s.fatalHalt n = true ∧ (s.eng n).fatalTold = false ∧ s.chaseUp = true)
    ∧ (∃ (s : State) (n : LaneId), s.fatalHalt n = true ∧ (s.eng n).fatalTold = true ∧ s.on LANE.HALT_POLICY n = true ∧ s.chaseUp = true
      ∧ (s.eng n).haltAt + 10 * msTicks ≤ s.clock) :=
  ⟨
    ⟨(up.upEng 0 fun e => { e with frisket := [⟨7, 1⟩] }), 0, ⟨0xB, 0, 7, 1⟩, none, by decide +kernel⟩,
    ⟨up, 0, 0xFFFFFFFF, by decide +kernel⟩,
    ⟨(mmuUp.upEng 0 fun e => { e with sp := { e.sp with psr := ⟨false, true, false, true, false⟩ } }), 0, ⟨1, 0⟩, _,
      Prod.ext (eq_of_errIs (by decide +kernel)) rfl, by decide +kernel⟩,
    ⟨(((up.put ENG.BP_EN 0 1).p ENG.BP 0 0 0x1000800).put ENG.DBG_ATTACH 0 1), 0, by decide +kernel⟩,
    ⟨up, 0, .host 0, _, rfl, by unfold State.taken; decide +kernel⟩,
    ⟨(up.upEng 0 fun e => { e with run := .halted, haltCode := 1 }), 0, .host 0, _, rfl, by unfold State.taken; decide +kernel⟩,
    ⟨(up.upEng 0 fun e => { e with run := .halted, haltCode := 1 }), 0, .host 0, _, rfl, by unfold State.taken; decide +kernel⟩,
    ⟨(up.upEng 0 fun e => { e with run := .halted, haltCode := 1 }), 0, .host 0, 5, by unfold State.taken; decide +kernel⟩,
    ⟨(up.upEng 0 fun e => { e with run := .halted, haltCode := 4 }), 0, by decide +kernel⟩,
    ⟨((up.upEng 0 fun e => { e with run := .halted, haltCode := 4, fatalTold := true }).put LANE.HALT_POLICY 0 1), 0, by decide +kernel⟩⟩

theorem witness_ServiceRowsComplete :
    (∃ (s : State) (p : State) (k : SessId) (v : _), p = s.popped ∧ bitAt v 31 = true ∧ svcCodes.contains (bitsOf v 7 0) = true ∧ s.chase.queue = []
      ∧ s.taken (.host k) .chase 0x20 v none)
    ∧ (∃ (s : State) (p : State) (n : _), p = s.popped ∧ s.fitted n = true ∧ (s.eng n).run = .running ∧ (s.eng n).sp.psr.mon = true
      ∧ s.chaseUp = true)
    ∧ (∃ (s : State) (r : SvcReq) (p : State) (k : _) (n : _) (b : _), p = s.popped ∧ p.pgmAsk r = .ok (k, n, b) ∧ s.serving 1 r
      ∧ p.pgmCheck n b = svOk)
    ∧ (∃ (s : State) (r : SvcReq) (p : State) (n : _) (want : _) (f : _), p = s.popped ∧ p.friskLane r = .ok n ∧ want = ⟨r.arg 1, r.arg 2, r.arg 3⟩
      ∧ f = (if r.engine.isSome then Frisket.min (Frisket.min want (p.ceiling n)) (p.loaderFrisket n) else Frisket.min want (p.ceiling n))
      ∧ s.serving 2 r ∧ limitBad (r.arg 1) hwMax.v = false ∧ limitBad (r.arg 2) hwMax.i = false ∧ limitBad (r.arg 3) hwMax.e = false
      ∧ (r.arg 4).toNat ≤ 86400)
    ∧ (∃ (s : State) (r : SvcReq) (p : State) (n : _), p = s.popped ∧ p.friskLane r = .ok n ∧ s.serving 3 r)
    ∧ (∃ (s : State) (r : SvcReq) (p : State) (n : _) (b : _), p = s.popped ∧ s.serving 4 r ∧ p.svcRight r 2 = true ∧ laneArg (r.arg 0) = some n
      ∧ p.svcLane r n none = true ∧ p.fitted n = true ∧ (p.lane n).link.locked = true ∧ p.stopped (.lane n .smu) = true ∧ p.flashBusy = false
      ∧ p.stagedBytes n (r.arg 1) (r.arg 2) = some b ∧ recFormatOk b n.val = true ∧ p.recDateOk b = true ∧ dateYear (recDue b) ≤ 2399)
    ∧ (∃ (s : State) (r : SvcReq) (p : State) (n : _) (b : _), p = s.popped ∧ s.serving 5 r ∧ r.who = 0 ∧ laneArg (r.arg 0) = some n
      ∧ p.fitted n = true ∧ p.flashBusy = false ∧ p.stagedBytes n (r.arg 1) (r.arg 2) = some b ∧ imgFormatOk b = true
      ∧ p.g MOD.BOOT_ROLLBACK 0 ≤ imgRollback b)
    ∧ (∃ (s : State) (r : SvcReq) (p : State) (n : _), p = s.popped ∧ s.serving 5 r ∧ r.who = 0 ∧ laneArg (r.arg 0) = some n ∧ p.fitted n = true
      ∧ p.flashBusy = true)
    ∧ (∃ (s : State) (r : SvcReq) (p : State), p = s.popped ∧ s.serving 6 r ∧ r.who = 0 ∧ p.g MOD.BOOT_ROLLBACK 0 < (r.arg 0).toNat
      ∧ (r.arg 0).toNat ≤ 63 ∧ (r.arg 0).toNat ≤ (p.slot p.bootedB).rollback ∧ p.on MOD.BOOT_CONFIRMED 0 = true)
    ∧ (∃ (s : State) (r : SvcReq) (p : State) (n : _), p = s.popped ∧ s.serving 8 r ∧ r.engine = some n)
    ∧ (∃ (s : State) (r : SvcReq) (p : State) (n : _), p = s.popped ∧ s.serving 9 r ∧ r.engine = some n)
    ∧ (∃ (s : State) (r : SvcReq) (p : State) (n : _), p = s.popped ∧ s.serving 0xA r ∧ r.engine = some n) :=
  ⟨
    ⟨up, _, 0, 0x80000001, rfl, by unfold State.taken; decide +kernel⟩,
    ⟨monUp, _, 0, rfl, by decide +kernel⟩,
    ⟨(asked ⟨0, 1, [0, 0x100, 288]⟩ pgmUp), ⟨0, 1, [0, 0x100, 288]⟩, _, 0, 0, pgmBytes, rfl, eq_of_okIs (by decide +kernel),
      by unfold State.serving; decide +kernel⟩,
    ⟨(asked ⟨0, 2, [0, 0x41200000, 0x3DCCCCCD, 0x3F800000, 60]⟩ up), ⟨0, 2, [0, 0x41200000, 0x3DCCCCCD, 0x3F800000, 60]⟩, _, 0, _, _, rfl,
      eq_of_okIs (by decide +kernel), rfl, rfl, by unfold State.serving; decide +kernel⟩,
    ⟨(asked ⟨0, 3, [0]⟩ up), ⟨0, 3, [0]⟩, _, 0, rfl, eq_of_okIs (by decide +kernel), by unfold State.serving; decide +kernel⟩,
    ⟨(asked ⟨0, 4, [0, 0x100, 256]⟩ (staged calBytes (dated up))), ⟨0, 4, [0, 0x100, 256]⟩, _, 0, calBytes, rfl,
      by unfold State.serving; decide +kernel⟩,
    ⟨(asked ⟨0, 5, [0, 0x100, 256]⟩ (staged imgBytes up)), ⟨0, 5, [0, 0x100, 256]⟩, _, 0, imgBytes, rfl, by unfold State.serving; decide +kernel⟩,
    ⟨(asked ⟨0, 5, [0, 0x100, 256]⟩ (up.upLog fun l => { l with clearTo := 50000000000 })), ⟨0, 5, [0, 0x100, 256]⟩, _, 0, rfl,
      by unfold State.serving; decide +kernel⟩,
    ⟨(asked ⟨0, 6, [2]⟩ (({ up with pwr := { up.pwr with slotA := { up.pwr.slotA with rollback := 9 } } } : State).put MOD.BOOT_CONFIRMED 0 1)), ⟨0,
      6, [2]⟩, _, rfl, by unfold State.serving; decide +kernel⟩,
    ⟨(asked ⟨16, 8, [1]⟩ up), ⟨16, 8, [1]⟩, _, 0, rfl, by unfold State.serving; decide +kernel⟩,
    ⟨(asked ⟨16, 9, [1]⟩ up), ⟨16, 9, [1]⟩, _, 0, rfl, by unfold State.serving; decide +kernel⟩,
    ⟨(asked ⟨16, 10, [1]⟩ up), ⟨16, 10, [1]⟩, _, 0, rfl, by unfold State.serving; decide +kernel⟩⟩

theorem witness_KeyGrantAndCalendarRowsComplete :
    (∃ (s : State) (w : Writer) (words : _) (v : _) (x : _), x = withBits (withBits v 8 8 1) 9 9 0 ∧ words.length = 8
      ∧ s.taken w .chase 0x27 x (pkeyChk words x))
    ∧ (∃ (s : State) (w : Writer) (v : _) (x : _), x = withBits (withBits v 9 9 1) 8 8 0 ∧ s.taken w .chase 0x27 x (pkeyChk [] x))
    ∧ (∃ (s : State) (w : Writer) (n : LaneId) (i : Fin 3) (v : _), s.taken w .chase (0x60 + 4 * n.val + i.val) v (ceilChk i.val v))
    ∧ (∃ (s : State) (n : LaneId) (h : _) (g : _), s.grantOf h n.val = some g ∧ g.over s.clock = true)
    ∧ (∃ (s : State), s.pwr.islandOn = true)
    ∧ (∃ (s : State), s.pwr.islandOn = true ∧ s.calSource = srcIsland)
    ∧ (∃ (s : State) (w : Writer), s.taken w .cal 0x15 1 (calChk 0x15 1 (s.staged .cal 0x15 1))) :=
  ⟨
    ⟨up, .host 0, [1, 2, 3, 4, 5, 6, 7, 8], 0, _, rfl, by unfold State.taken; decide +kernel⟩,
    ⟨up, .host 0, 0, _, rfl, by unfold State.taken; decide +kernel⟩,
    ⟨up, .host 0, 0, 0, 0x41200000, by unfold State.taken; decide +kernel⟩,
    ⟨({ up with grants := [⟨0, 0, 0x41200000, 0x3DCCCCCD, 0x3F800000, some 100, none⟩] } : State), 0, 0, ⟨0, 0, 0x41200000, 0x3DCCCCCD, 0x3F800000,
      some 100, none⟩, by decide +kernel⟩,
    ⟨up, by decide +kernel⟩,
    ⟨(dated up), by decide +kernel⟩,
    ⟨((up.put CAL.SET_DATE 0 0x07E80101).put CAL.SET_TIME 0 0), .host 0, by unfold State.taken; decide +kernel⟩⟩

theorem witness_LogRowsComplete :
    (∃ (s : State) (code : BitVec 12), s.chaseUp = true ∧ logCode code.toNat = true)
    ∧ (∃ (s : State), s.chaseUp = true ∧ s.log.bucketAt + 50 * msTicks ≤ s.clock)
    ∧ (∃ (s : State), s.chaseUp = true ∧ s.on LOG.STAT_WEAR_DUE 0 = true)
    ∧ (∃ (s : State), s.chaseUp = true ∧ s.on LOG.STAT_ERASING 0 = true ∧ s.log.buffer = [])
    ∧ (∃ (s : State), s.chaseUp = true ∧ s.on LOG.STAT_WEAR_DUE 0 = true ∧ s.log.dueAt + 4000 * msTicks ≤ s.clock ∧ s.on MOD.BG_LOG_WEAR 0 = false)
    ∧ (∃ (s : State) (w : Writer), s.on LOG.STAT_WEAR_DUE 0 = true ∧ s.taken w .log 0x11 0x10 (logChk w 0x11 0x10 (s.staged .log 0x11 0x10)))
    ∧ (∃ (s : State), s.chaseUp = true ∧ s.on LOG.STAT_WEAR_DUE 0 = true ∧ s.log.dueAt + 5000 * msTicks ≤ s.clock ∧ s.log.granted = false)
    ∧ (∃ (s : State) (w : Writer) (key : BitVec 16) (v : _), v = BitVec.ofNat 32 (key.toNat * 65536 + 1)
      ∧ s.taken w .log 0x11 v (logChk w 0x11 v (s.staged .log 0x11 v)))
    ∧ (∃ (s : State) (w : Writer) (key : BitVec 16) (v : _), v = BitVec.ofNat 32 (key.toNat * 65536 + 2)
      ∧ s.taken w .log 0x11 v (logChk w 0x11 v (s.staged .log 0x11 v)) ∧ s.log.buffer = [])
    ∧ (∃ (s : State) (k : SessId) (v : _), s.taken (.host k) .log 0x22 v (logChk (.host k) 0x22 v (s.staged .log 0x22 v)))
    ∧ (∃ (s : State) (k : SessId) (e : _), (s.logRead k).fetching = true ∧ s.chaseUp = true
      ∧ s.logFind (s.logRead k).fault ((s.logRead k).hi.toNat * 2 ^ 32 + (s.logRead k).lo.toNat) = some e)
    ∧ (∃ (s : State) (k : SessId), (s.logRead k).fetching = true ∧ s.chaseUp = true
      ∧ s.logFind (s.logRead k).fault ((s.logRead k).hi.toNat * 2 ^ 32 + (s.logRead k).lo.toNat) = none) :=
  ⟨
    ⟨up, 1, by decide +kernel⟩,
    ⟨up, by decide +kernel⟩,
    ⟨(up.put LOG.STAT_WEAR_DUE 0 1), by decide +kernel⟩,
    ⟨((up.put LOG.STAT_ERASING 0 1).upLog fun l => { l with buffer := [] }), by decide +kernel⟩,
    ⟨(up.put LOG.STAT_WEAR_DUE 0 1), by decide +kernel⟩,
    ⟨(up.put LOG.STAT_WEAR_DUE 0 1), .host 0, by unfold State.taken; decide +kernel⟩,
    ⟨(up.put LOG.STAT_WEAR_DUE 0 1), by decide +kernel⟩,
    ⟨up, .host 0, 0x5AA5, _, rfl, by unfold State.taken; decide +kernel⟩,
    ⟨(up.upLog fun l => { l with buffer := [] }), .host 0, 0x5AA5, _, rfl, by unfold State.taken; decide +kernel⟩,
    ⟨up, 0, 0, by unfold State.taken; decide +kernel⟩,
    ⟨((up.upRead 0 fun r => { r with fetching := true, fault := false, hi := 0, lo := 5 }).upLog fun l => { l with general := [⟨0, 5, 0, 1, 0, 0, 0, 0, 0, 0, []⟩] }),
      0, ⟨0, 5, 0, 1, 0, 0, 0, 0, 0, 0, []⟩, by decide +kernel⟩,
    ⟨(up.upRead 0 fun r => { r with fetching := true, fault := false, hi := 0, lo := 5 }), 0, by decide +kernel⟩⟩

theorem witness_SideBandRowsComplete :
    (∃ (s : State) (u : State), u = s.sbTake 0x00 0 0 ∧ s.sbFree)
    ∧ (∃ (s : State) (u : State) (p : _) (arg : _), u = s.sbTake 0x01 p arg ∧ s.sbFree ∧ p.toNat ≤ 5)
    ∧ (∃ (s : State) (u : State), u = s.sbTake 0x02 0 0 ∧ s.sbFree ∧ u.pwr.mode = .dormant)
    ∧ (∃ (s : State) (u : State), u = s.sbTake 0x02 0 0 ∧ s.sbFree ∧ u.pwr.mode ≠ .dormant)
    ∧ (∃ (s : State) (u : State) (arg : BitVec 16), u = s.sbTake 0x03 0 arg ∧ s.sbFree ∧ 992 ≤ arg.toNat ∧ arg.toNat ≤ 1023 ∧ inR u = true)
    ∧ (∃ (s : State) (u : State), u = s.sbTake 0x04 0 0x5AA5 ∧ s.sbFree ∧ u.awake = true)
    ∧ (∃ (s : State) (u : State) (arg : _) (t : _), u = s.sbTake 0x05 0 arg
      ∧ t = { u with sb := { u.sb with snapDate := u.wd (CAL.DATE.addr 0 0), snapTime := u.wd (CAL.TIME.addr 0 0), snapStat := u.wd (CAL.STAT_SET.addr 0 0) } }
      ∧ s.sbFree)
    ∧ (∃ (s : State) (u : State) (p : _) (arg : _), u = s.sbTake 0x05 p arg ∧ s.sbFree ∧ p ≠ 0 ∧ p.toNat ≤ 3)
    ∧ (∃ (s : State) (u : State) (arg : BitVec 16), u = s.sbTake 0x08 0 arg ∧ s.sbFree ∧ arg.toNat < 32)
    ∧ (∃ (s : State) (u : State) (p : _) (arg : _), u = s.sbTake 0x09 p arg ∧ s.sbFree ∧ p.toNat ≤ 31 ∧ cfgArgOk arg = true)
    ∧ (∃ (s : State) (u : State) (p : Byte) (arg : BitVec 16), u = s.sbTake 0x10 p arg ∧ s.sbFree ∧ p.toNat ≤ 127)
    ∧ (∃ (s : State) (u : State) (p : Byte) (arg : _), u = s.sbTake 0x11 p arg ∧ s.sbFree ∧ p.toNat ≤ 127)
    ∧ (∃ (s : State) (u : State), u = s.sbTake 0x12 0 0 ∧ s.sbFree)
    ∧ (∃ (s : State) (u : State) (op : Byte) (p : Byte) (arg : _), u = s.sbTake op.toNat p arg ∧ s.sbFree
      ∧ (sbOps.find? fun e => e.1 == op.toNat) = none)
    ∧ (∃ (s : State) (word : _) (pec : _), s.sbFree ∧ s.pecDiscards word pec = true)
    ∧ (∃ (s : State), s.sbFree)
    ∧ (∃ (s : State), s.sbFree ∧ s.awake = false ∧ s.sb.awakeFrom + 100 * 200000 ≤ s.clock)
    ∧ (∃ (s : State) (t : _), t = s.put SB.STAT_AWAKE 0 0 ∧ s.sbFree ∧ t.on SB.STAT_AWAKE 0 = false ∧ t.on SB.CFG_SLEEP 0 = true)
    ∧ (∃ (s : State) (w : _) (v : _), s.sbFree ∧ bitAt v 4 = true ∧ s.taken w .sb 0x12 v none) :=
  ⟨
    ⟨up, _, rfl, by unfold State.sbFree; decide +kernel⟩,
    ⟨up, _, 5, 5, rfl, by unfold State.sbFree; decide +kernel⟩,
    ⟨({ up with pwr := { up.pwr with mode := .dormant } } : State), _, rfl, by unfold State.sbFree; decide +kernel⟩,
    ⟨up, _, rfl, by unfold State.sbFree; decide +kernel⟩,
    ⟨up, _, 1023, rfl, by unfold State.sbFree; decide +kernel⟩,
    ⟨up, _, rfl, by unfold State.sbFree; decide +kernel⟩,
    ⟨up, _, 5, _, rfl, rfl, by unfold State.sbFree; decide +kernel⟩,
    ⟨up, _, 3, 5, rfl, by unfold State.sbFree; decide +kernel⟩,
    ⟨up, _, 31, rfl, by unfold State.sbFree; decide +kernel⟩,
    ⟨up, _, 1, 0x0010, rfl, by unfold State.sbFree; decide +kernel⟩,
    ⟨up, _, 127, 5, rfl, by unfold State.sbFree; decide +kernel⟩,
    ⟨up, _, 127, 5, rfl, by unfold State.sbFree; decide +kernel⟩,
    ⟨up, _, rfl, by unfold State.sbFree; decide +kernel⟩,
    ⟨up, _, 0x77, 1, 5, rfl, by unfold State.sbFree; decide +kernel⟩,
    ⟨(up.put SB.CFG_PEC_MODE 0 2), 5, none, by unfold State.sbFree; decide +kernel⟩,
    ⟨up, by unfold State.sbFree; decide +kernel⟩,
    ⟨({ up with pwr := { up.pwr with mode := .dormant, answers := false } } : State), by unfold State.sbFree; decide +kernel⟩,
    ⟨(up.put SB.CFG_SLEEP 0 1), _, rfl, by unfold State.sbFree; decide +kernel⟩,
    ⟨up, .host 0, 0x10, by unfold State.sbFree State.taken; decide +kernel⟩⟩

theorem witness_SideBandSlowAndReturnRowsComplete :
    (∃ (s : State) (u : State) (p : Byte) (arg : _) (e : _), u = s.sbTake 0x06 p arg ∧ s.sbFree ∧ p.toNat ≤ 63 ∧ u.pwr.shelf[p.toNat]? = some e)
    ∧ (∃ (s : State) (u : State) (p : Byte) (arg : _) (e : _), u = s.sbTake 0x07 p arg ∧ s.sbFree ∧ p.toNat ≤ 1
      ∧ u.logFind (p == 1) (beNat (u.sbIn 0 8)) = some e)
    ∧ (∃ (s : State) (u : State) (p : Byte) (arg : _), u = s.sbTake 0x07 p arg ∧ s.sbFree ∧ p.toNat ≤ 1
      ∧ u.logFind (p == 1) (beNat (u.sbIn 0 8)) = none)
    ∧ (∃ (s : State) (u : State), u = s.sbTake 0x20 0 0 ∧ s.sbFree ∧ inR u = true)
    ∧ (∃ (s : State) (u : State) (arg : _), u = s.sbTake 0x21 0 arg ∧ s.sbFree ∧ inR u = true ∧ u.chase.steward.locked = false
      ∧ (u.session 0).key = none)
    ∧ (∃ (s : State) (u : State) (arg : _) (k : _), u = s.sbTake 0x21 0 arg
      ∧ hmacSha256 (beBytes 32 k.toNat) (beBytes 32 u.chase.sbChallenge.toNat ++ u.sbIn 0 32 ++ [0]) = u.sbIn 32 32 ∧ s.sbFree ∧ inR u = true
      ∧ u.chase.steward.locked = false ∧ (u.session 0).key = some k)
    ∧ (∃ (s : State) (u : State) (arg : _) (k : _), u = s.sbTake 0x21 1 arg
      ∧ hmacSha256 (beBytes 32 k.toNat) (beBytes 32 u.chase.sbChallenge.toNat ++ u.sbIn 0 32 ++ [1]) = u.sbIn 32 32 ∧ s.sbFree ∧ inR u = true
      ∧ u.chase.steward.locked = false ∧ (u.session 0).key = some k ∧ (u.sbIn 0 32).all (fun b => b == 0) = true)
    ∧ (∃ (s : State) (u : State) (arg : _) (k : _), u = s.sbTake 0x21 0 arg
      ∧ hmacSha256 (beBytes 32 k.toNat) (beBytes 32 u.chase.sbChallenge.toNat ++ u.sbIn 0 32 ++ [0]) ≠ u.sbIn 32 32 ∧ s.sbFree ∧ inR u = true
      ∧ u.chase.steward.locked = false ∧ (u.session 0).key = some k)
    ∧ (∃ (s : State) (u : State) (p : Byte) (arg : _), u = s.sbTake 0x30 p arg ∧ s.sbFree ∧ p.toNat ≤ 1 ∧ inNoImage u = true)
    ∧ (∃ (s : State) (u : State) (p : Byte) (arg : BitVec 16) (b : _) (m : _), u = s.sbTake 0x31 p arg ∧ s.sbFree ∧ arg.toNat ≤ 4095
      ∧ inNoImage u = true ∧ u.sb.load = some (b, m))
    ∧ (∃ (s : State) (u : State) (b : _) (m : _), u = s.sbTake 0x32 0 0 ∧ s.sbFree ∧ inNoImage u = true ∧ u.sb.load = some (b, m)
      ∧ imgFormatOk (loadedImage m) = true ∧ u.g MOD.BOOT_ROLLBACK 0 ≤ imgRollback (loadedImage m))
    ∧ (∃ (s : State) (u : State), u = s.sbTake 0x40 0 0x5AA5 ∧ s.sbFree ∧ inR u = true ∧ u.on LOG.STAT_FROZEN 0 = false)
    ∧ (∃ (s : State) (u : State), u = s.sbTake 0x41 0 0 ∧ s.sbFree ∧ inR u = true ∧ u.chase.works.locked = false)
    ∧ (∃ (s : State) (t : _) (rsp : _), t = { s with sb := { s.sb with busy := some rsp } } ∧ s.sbFree)
    ∧ (∃ (s : State), s.sbFree ∧ s.chase.steward.locked = true ∧ s.chase.steward.at_ + lockoutTicks ≤ s.clock)
    ∧ (∃ (s : State), s.sbFree ∧ s.chase.works.locked = true ∧ s.chase.works.at_ + lockoutTicks ≤ s.clock)
    ∧ (∃ (s : State), s.sbFree ∧ s.awake = true ∧ s.g MOD.BOOT_STAGE 0 = stageInit ∧ s.chase.worksDue = true)
    ∧ (∃ (s : State), s.sbFree ∧ s.chaseUp = true ∧ s.on MOD.RETURN_WORKS 0 = true) :=
  ⟨
    ⟨({ up with pwr := { up.pwr with shelf := [⟨⟨0, 5, 0, 1, 0, 0, 0, 0, 0, 0, []⟩, true⟩] } } : State), _, 0, 5, ⟨⟨0, 5, 0, 1, 0, 0, 0, 0, 0, 0,
      []⟩, true⟩, rfl, by unfold State.sbFree; decide +kernel⟩,
    ⟨(inBuf (beBytes 8 5) (up.upLog fun l => { l with general := [⟨0, 5, 0, 1, 0, 0, 0, 0, 0, 0, []⟩] })), _, 0, 5, ⟨0, 5, 0, 1, 0, 0, 0, 0, 0, 0,
      []⟩, rfl, by unfold State.sbFree; decide +kernel⟩,
    ⟨(inBuf (beBytes 8 7) up), _, 0, 5, rfl, by unfold State.sbFree; decide +kernel⟩,
    ⟨up, _, rfl, by unfold State.sbFree; decide +kernel⟩,
    ⟨(up.upSess 0 fun x => { x with key := none }), _, 5, rfl, by unfold State.sbFree; decide +kernel⟩,
    ⟨(stewarded 5 0x7ec3f678c0f3ea4cfbb114b014b870bcea15b3ade38f9d8ac5e45d04279c9119), _, 5, 9, rfl,
      (congr (congrArg hmacSha256 (by decide +kernel)) (by decide +kernel)).trans (hmac_install.trans (by decide +kernel)),
      by unfold State.sbFree; decide +kernel⟩,
    ⟨(stewarded 0 0x0e575157f5e8a43388fe93c053ecd9c01f918f489d032424b4f55495a29b4f92), _, 5, 9, rfl,
      (congr (congrArg hmacSha256 (by decide +kernel)) (by decide +kernel)).trans (hmac_erase.trans (by decide +kernel)),
      by unfold State.sbFree; decide +kernel⟩,
    ⟨(stewarded 5 3), _, 5, 9, rfl,
      fun h => absurd (((congr (congrArg hmacSha256 (by decide +kernel)) (by decide +kernel)).trans hmac_install).symm.trans h) (by decide +kernel),
      by unfold State.sbFree; decide +kernel⟩,
    ⟨(({ up with sb := { up.sb with load := none } } : State).put MOD.BOOT_STAGE 0 stageNoImage), _, 0, 5, rfl,
      by unfold State.sbFree; decide +kernel⟩,
    ⟨(({ up with sb := { up.sb with load := some (false, []) } } : State).put MOD.BOOT_STAGE 0 stageNoImage), _, 0, 5, false, [], rfl,
      by unfold State.sbFree; decide +kernel⟩,
    ⟨(({ up with sb := { up.sb with load := some (false, (Memory.putBytes [] 0 imgBytes)) } } : State).put MOD.BOOT_STAGE 0 stageNoImage), _, false,
      (Memory.putBytes [] 0 imgBytes), rfl, by unfold State.sbFree; decide +kernel⟩,
    ⟨up, _, rfl, by unfold State.sbFree; decide +kernel⟩,
    ⟨up, _, rfl, by unfold State.sbFree; decide +kernel⟩,
    ⟨up, _, 0, rfl, by unfold State.sbFree; decide +kernel⟩,
    ⟨(up.upChase fun c => { c with steward := ⟨3, true, 0⟩ }), by unfold State.sbFree; decide +kernel⟩,
    ⟨(up.upChase fun c => { c with works := ⟨3, true, 0⟩ }), by unfold State.sbFree; decide +kernel⟩,
    ⟨((up.put MOD.BOOT_STAGE 0 3).upChase fun c => { c with worksDue := true }), by unfold State.sbFree; decide +kernel⟩,
    ⟨(up.put MOD.RETURN_WORKS 0 1), by unfold State.sbFree; decide +kernel⟩⟩

theorem witness_FixtureRowsComplete :
    (∃ (s : State) (w : Writer) (op : Nat) (v : _), bitsOf v 26 24 = op ∧ bitAt v 31 = true
      ∧ s.taken w .fix 0x11 v (fixChk 0x11 v (s.staged .fix 0x11 v)) ∧ fixChk 0x11 v s = none)
    ∧ (∃ (s : State) (x : _) (bs : List Byte) (c : _) (t : _),
      t = (s.bump FIX.BUS_CLEARS 0 0 c).put FIX.STAT_ATTEMPTS 0 (min (s.g FIX.STAT_ATTEMPTS 0 + 1) 255) ∧ s.awake = true ∧ s.fix.busy = some x
      ∧ x.op = 1 ∧ x.count = bs.length ∧ t.on MOD.SUPPLY_FX_FAULT 0 = false)
    ∧ (∃ (s : State) (x : _) (c : _) (t : _), t = (s.bump FIX.BUS_CLEARS 0 0 c).put FIX.STAT_ATTEMPTS 0 (min (s.g FIX.STAT_ATTEMPTS 0 + 1) 255)
      ∧ s.awake = true ∧ s.fix.busy = some x ∧ x.op ≠ 4 ∧ t.on MOD.SUPPLY_FX_FAULT 0 = false)
    ∧ (∃ (s : State) (x : _) (c : _) (t : _), t = (s.bump FIX.BUS_CLEARS 0 0 c).put FIX.STAT_ATTEMPTS 0 (min (s.g FIX.STAT_ATTEMPTS 0 + 1) 255)
      ∧ s.awake = true ∧ s.fix.busy = some x ∧ t.on MOD.SUPPLY_FX_FAULT 0 = false)
    ∧ (∃ (s : State) (x : _), s.awake = true ∧ s.fix.busy = some x ∧ x.at_ + s.g FIX.TIMEOUT_MS 0 * msTicks ≤ s.clock) :=
  ⟨
    ⟨(up.put FIX.PRESENT 0 1), .host 0, 1, 0x81000000, by unfold State.taken; decide +kernel⟩,
    ⟨({ up with fix := { up.fix with busy := some ⟨1, 2, 0, false, 0⟩ } } : State), ⟨1, 2, 0, false, 0⟩, [7, 8], 0, _, rfl, by decide +kernel⟩,
    ⟨({ up with fix := { up.fix with busy := some ⟨1, 2, 0, false, 0⟩ } } : State), ⟨1, 2, 0, false, 0⟩, 0, _, rfl, by decide +kernel⟩,
    ⟨({ up with fix := { up.fix with busy := some ⟨1, 2, 0, false, 0⟩ } } : State), ⟨1, 2, 0, false, 0⟩, 0, _, rfl, by decide +kernel⟩,
    ⟨({ up with fix := { up.fix with busy := some ⟨1, 2, 0, false, 0⟩ } } : State), ⟨1, 2, 0, false, 0⟩, by decide +kernel⟩⟩

theorem witness_ThermalRowsComplete :
    (∃ (s : State) (base : BitVec 16) (die : BitVec 16) (t : State), t = s.thermShow base die ∧ s.awake = true ∧ s.warnAt < celsius base
      ∧ t.on THERM.STAT_WARN 0 = false)
    ∧ (∃ (s : State) (base : BitVec 16) (die : BitVec 16) (t : State), t = s.thermShow base die ∧ s.awake = true ∧ celsius base < s.warnAt - 30)
    ∧ (∃ (s : State) (base : BitVec 16) (die : BitVec 16) (t : State), t = s.thermShow base die ∧ s.awake = true
      ∧ (700 < celsius base ∨ 1150 < celsius die) ∧ t.on THERM.STAT_SHED 0 = false)
    ∧ (∃ (s : State) (base : BitVec 16) (die : BitVec 16) (t : State), t = s.thermShow base die ∧ s.awake = true ∧ s.on THERM.STAT_SHED 0 = true
      ∧ celsius base < s.warnAt - 30 ∧ celsius die < 1000 ∧ t.pwr.mode = .quiet)
    ∧ (∃ (s : State) (base : BitVec 16) (die : BitVec 16) (t : State) (v : _), t = s.thermShow base die ∧ v = t.put THERM.STAT_SHED 0 0
      ∧ s.awake = true ∧ s.on THERM.STAT_SHED 0 = true ∧ celsius base < s.warnAt - 30 ∧ celsius die < 1000 ∧ v.pwr.mode = .run)
    ∧ (∃ (s : State) (n : LaneId) (base : BitVec 16) (die : BitVec 16) (t : State), t = s.thermShow base die ∧ s.farUp n = true ∧ 1100 < celsius die
      ∧ (s.p THERM.FAR 0 n.val die.toNat).isHot n = false ∧ ((s.p THERM.FAR 0 n.val die.toNat).setHot n true).on LANE.ISO_TRIPPED n = false)
    ∧ (∃ (s : State) (n : LaneId) (base : BitVec 16) (die : BitVec 16) (t : State), t = s.thermShow base die ∧ s.farUp n = true ∧ s.isHot n = true
      ∧ celsius die < 950) :=
  ⟨
    ⟨up, 900, 500, _, rfl, by decide +kernel⟩,
    ⟨up, 300, 500, _, rfl, by decide +kernel⟩,
    ⟨up, 900, 500, _, rfl, by decide +kernel⟩,
    ⟨(({ up with pwr := { up.pwr with mode := .quiet } } : State).put THERM.STAT_SHED 0 1), 300, 500, _, rfl, by decide +kernel⟩,
    ⟨(up.put THERM.STAT_SHED 0 1), 300, 500, _, _, rfl, rfl, by decide +kernel⟩,
    ⟨up, 0, 900, 1200, _, rfl, by decide +kernel⟩,
    ⟨(up.setHot 0 true), 0, 900, 500, _, rfl, by decide +kernel⟩⟩

end Sys2Proof.Tests
end

section
/-! PROOFS. The header that every page has and the pages of lanes that are not fitted (spec/00_scope.md R1, R2; spec/05_register_pages.md R93,
R117, R118, R122, R126, R128): what an accepted write of one word does, and that a page of an absent lane takes none. -/

namespace Sys2Proof

/-! ### The page map -/

/-- The event registers are near-side words on every page (R157). -/
theorem Page.mirrorAt_event (p : Page) {off : Nat} (h2 : 2 < off) (h16 : off < 0x10) : p.mirrorAt off = false := by
  cases p with
  | lane n k => cases k <;> simp only [Page.mirrorAt, Bool.or_eq_false_iff, beq_eq_false_iff_ne, decide_eq_false_iff_not] <;> omega
  | _ => rfl

theorem LaneKind.num_lt (k : LaneKind) : k.num < 8 := by cases k <;> decide

theorem LaneKind.ofNum_num (k : LaneKind) : LaneKind.ofNum k.num = k := by cases k <;> rfl

/-- The pages of lanes lie below 0xC0 (Table: Page map). -/
theorem Page.num_lane_lt (n : LaneId) (k : LaneKind) : (Page.lane n k).num < 0xC0 := by
  have hk := k.num_lt
  simp only [Page.num]
  omega

/-- The number of a lane page names that page. -/
theorem Page.ofNum_num_lane (n : LaneId) (k : LaneKind) : Page.ofNum (Page.lane n k).num = some (.lane n k) := by
  have hk := k.num_lt
  generalize hm : (Page.lane n k).num = m
  have hnum : m = 0x40 + 8 * n.val + k.num := hm.symm
  have hlane : (m - 0x40) / 8 % 16 = n.val := by omega
  have hkind : m % 8 = k.num := by omega
  rw [Page.ofNum, if_neg (by omega), if_neg (by omega), if_neg (by omega), if_neg (by omega), if_pos (by omega)]
  simp only [hlane, hkind, LaneKind.ofNum_num]

end Sys2Proof

namespace Sys2Proof.Machine

/-! ### Header words -/

/-- A header word reads as before after a write of another word of its page. -/
theorem State.hw_setHw_ne (s : State) (p : Page) {o o' : Nat} (v : Word) (h : o' ≠ o) : (s.setHw p o v).hw p o' = s.hw p o' :=
  State.wd_setWd_ne s v fun e => h (Nat.add_left_cancel e)

/-- Where an event bit goes rests on EV_SOURCE alone (R118). -/
theorem State.route_setHw_ne (s : State) (p : Page) {o : Nat} (v : Word) (b : Nat) (h : 0xA ≠ o) : (s.setHw p o v).route p b = s.route p b := by
  simp only [State.route, State.hw_setHw_ne s p v h]

@[simp] theorem bitList_zero : bitList 0 = [] := by decide

/-! ### EV_MASK_CLR and EV_SOURCE (R118) -/

/-- EV_MASK_CLR that unmasks no pending bit moves EV_MASK alone. -/
theorem evMaskClrEff_of_no_pending {p : Page} {v : Word} {s : State} (h : s.hw p 4 &&& s.hw p 7 &&& v &&& p.evBits = 0) :
    evMaskClrEff p v s = s.setHw p 7 (s.hw p 7 &&& ~~~(v &&& p.evBits)) := by
  simp only [evMaskClrEff, h, bitList_zero, List.foldl_nil]

/-- EV_MASK_CLR that unmasks one pending bit, which is routed to a source. -/
theorem evMaskClrEff_of_one_pending {p : Page} {v : Word} {b : Nat} {s : State}
    (h : bitList (s.hw p 4 &&& s.hw p 7 &&& v &&& p.evBits) = [b]) (hr : s.route p b ≠ 0xF) :
    evMaskClrEff p v s = (s.setHw p 7 (s.hw p 7 &&& ~~~(v &&& p.evBits))).occur (pageBase p + s.route p b) := by
  simp only [evMaskClrEff, h, List.foldl_cons, List.foldl_nil, State.route_setHw_ne s p _ b (show 0xA ≠ 7 by decide), if_neg hr]

/-- EV_SOURCE of a page with nothing pending moves no source. -/
theorem evSourceEff_of_no_pending {p : Page} {v : Word} {s : State} (h : s.hw p 4 = 0) : evSourceEff p v s = s.setHw p 0xA v := by
  have hb : bitList (s.hw p 4 &&& ~~~(s.hw p 7)) = [] := by rw [h]; exact (congrArg bitList BitVec.zero_and).trans bitList_zero
  simp only [evSourceEff, hb, List.filter_nil, List.foldl_nil]

/-! ### A press of one word -/

/-- An accepted write of an event register takes effect at once. -/
theorem pressOne_event {w : Writer} {p : Page} {off : Nat} {v proof : Word} {chk : State → Option Nat} {eff : State → State} {s : State}
    (h2 : 2 < off) (h16 : off < 0x10) (h : s.taken w p off v (chk (s.staged p off v))) :
    pressOne w p off v proof chk eff s = s.nearDone p eff :=
  pressOne_near (p.mirrorAt_event h2 h16) (by omega) h

/-- A word that the writer may write, and that is no TAKE outside the session's LANES, is a press of that word alone. -/
theorem State.pressAlone_of_writable {s : State} {w : Writer} {p : Page} {off : Nat} {v : Word} (ho : off < 256) (hw : s.writable w p off = true)
    (hq : p = .quoin → off = 0x10 → s.quoinBarred w v = false) : s.pressAlone w p off v = s.pressWords w [⟨p, off, v⟩] := by
  have hbar : (p == .quoin && off == 0x10 && s.quoinBarred w v) = false := by
    simpa only [Bool.and_eq_false_imp, Bool.and_eq_true, beq_iff_eq, and_imp] using hq
  simp only [State.pressAlone, hw, hbar, decide_eq_false (Nat.not_le.mpr ho), Bool.not_true, Bool.or_self, Bool.false_eq_true, if_false]

/-- A word that the writer may not write is not pressed. -/
theorem State.pressAlone_of_not_writable {s : State} {w : Writer} {p : Page} {off : Nat} {v : Word} (h : s.writable w p off = false) :
    s.pressAlone w p off v = s := by
  simp only [State.pressAlone, h, Bool.not_false, Bool.or_true, Bool.true_or, if_true]

/-- COUNTER_CLEAR of a word that holds a counter is a press of that word. -/
theorem exec_counterClear {w : Writer} {p : Page} {off : Nat} {v proof : Word} {s : State} (ho : off < 256) (hc : accMask p off .ctr ≠ 0) :
    exec (.counterClear w p off v proof) s
      = fin (pressOne w p off v proof (wordChk s w [] ⟨p, off, v⟩) (wordEff w ⟨p, off, v⟩ proof) s) := by
  simp only [exec, execCounterClear, hc, Nat.not_le.mpr ho, or_self, if_false]

/-- Settles O8: each event register by the near press of one word, the words of any offset by the press alone, and COUNTER_CLEAR by the side on
which the counter is. -/
theorem headerRowsComplete : Obligations.HeaderRowsComplete := by
  intro s w p hp
  refine ⟨fun v proof h => ?evClr, fun v h => ?evSet, fun v h => ?evMaskSet, fun v h hb => ?noneUnmasked, fun v b h hb hr => ?oneUnmasked,
    fun v h hb => ?evSource, fun v h => ?errClr, fun off v ho h hq => ?registerWrite, fun off v proof ho h16 hc hm h => ?nearCounter,
    fun n off v proof ho h16 hc hl hm h => ?farCounter⟩
  case evClr =>
    simp only [exec, execEvClr, hp, if_true, fin]
    rw [pressOne_event (by decide) (by decide) h]
    rfl
  case evSet =>
    simp only [exec, execEvSet, hp, if_true, fin]
    rw [pressOne_event (by decide) (by decide) h]
    rfl
  case evMaskSet =>
    simp only [exec, execEvMaskSet, hp, if_true, fin]
    rw [pressOne_event (by decide) (by decide) h]
    rfl
  case noneUnmasked =>
    simp only [exec, execEvMaskClr, hp, if_true, fin]
    rw [pressOne_event (by decide) (by decide) h, State.nearDone, evMaskClrEff_of_no_pending hb, State.nearDone]
  case oneUnmasked =>
    simp only [exec, execEvMaskClr, hp, if_true, fin]
    rw [pressOne_event (by decide) (by decide) h, State.nearDone, evMaskClrEff_of_one_pending hb hr, State.nearDone]
  case evSource =>
    simp only [exec, execEvSource, hp, if_true, fin]
    rw [pressOne_event (by decide) (by decide) h, State.nearDone, evSourceEff_of_no_pending hb, State.nearDone]
  case errClr =>
    simp only [exec, execErrClr, hp, if_true, fin, State.pressAlone_of_writable (show 2 < 256 by decide) h fun _ e => absurd e (by decide)]
  case registerWrite => simp only [exec, execRegisterWrite, fin, State.pressAlone_of_writable ho h hq]
  case nearCounter => rw [exec_counterClear ho hc, fin, pressOne_near hm (by omega) h]
  case farCounter => rw [exec_counterClear ho hc, fin, pressOne_far hl hm (fun e => absurd e (by omega)) h]

/-! ### The lanes that a TH8 does not have (R1) -/

theorem State.not_present_absentLane {s : State} {n : LaneId} (h8 : s.th8 = true) (hn : 8 ≤ n.val) (k : LaneKind) :
    s.present (.lane n k) = false := by
  simp only [State.present, Page.lane?, State.fitted, h8, Bool.not_true, Bool.false_or, decide_eq_false_iff_not]
  omega

/-- A page of an absent lane reads zeros (R99). -/
theorem State.readPage_of_not_present {s : State} {p : Page} (h : s.present p = false) (k : Option SessId) (off : Nat) : s.readPage k p off = 0 := by
  simp only [State.readPage, h, Bool.not_false, if_true]

/-- No writer may write a page of an absent lane. -/
theorem State.not_writable_of_not_present {s : State} {p : Page} (h : s.present p = false) (w : Writer) (off : Nat) :
    s.writable w p off = false := by
  simp only [State.writable, h, Bool.and_false, Bool.false_and]

theorem State.softResetDue_of_none {s : State} (h : s.pwr.softReset = false) : s.softResetDue = s := by
  simp only [State.softResetDue, h, Bool.false_eq_true, if_false]

/-- An address on a page of an absent lane is not writable (R99). -/
theorem State.not_addrWritable_absentLane {s : State} {n : LaneId} {k : LaneKind} {a : Nat} (hp : s.present (.lane n k) = false)
    (ha : a / 256 = (Page.lane n k).num) : s.addrWritable a = false := by
  have hlt := Page.num_lane_lt n k
  simp only [State.addrWritable, ha, Page.ofNum_num_lane, hp, Bool.or_false, decide_eq_false_iff_not]
  omega

/-! ### A WRITE that is refused (R96, R99) -/

/-- Check 5 fails for a WRITE with a word whose address is not writable. -/
theorem State.formeShape_of_not_addrWritable {s : State} {h : Hdr} {data : List Word} {a : Nat} {v : Word} (hm : (a, v) ∈ writePairs h data)
    (ha : s.addrWritable a = false) : s.formeShape opWr h data = false := by
  have hall : ((writePairs h data).all fun e => s.addrWritable e.1) = false := List.all_eq_false.mpr ⟨(a, v), hm, by simp only [ha]; decide⟩
  simp only [State.formeShape, hall, Bool.and_false, show opWr ≠ opRd by decide, if_true, if_false]

/-- A transaction that passes the first four checks and fails the fifth answers ADDR. -/
theorem State.formeStatus_of_bad_shape {s : State} {op : Nat} {h : Hdr} {data : List Word} {dcrc : BitVec 16} (hc : hdrCrc op h = h.hcrc.toNat)
    (ho : s.formeOpen op h = true) (hp : ((s.session h.session).isOpen && (s.session h.session).afterPlaneReset) = false)
    (hr : s.formeRetry op h = none) (hs : s.formeShape op h data = false) : s.formeStatus op h data dcrc = 4 := by
  simp only [State.formeStatus, hc, ho, hp, hr, hs, ne_eq, not_true_eq_false, Option.any_none, Bool.and_false, Bool.not_true, Bool.not_false,
    Bool.false_eq_true, if_false, if_true]

theorem Hdr.whole_eq {h : Hdr} (hw : h.part = .whole) : { h with part := .whole } = h := by rw [← hw]

theorem State.portFree_of_free {s : State} (h : s.forme.started = none) : s.portFree = s := by
  simp only [State.portFree, ← h]

/-- A whole transaction that finds the port free begins and runs to its end. -/
theorem State.transact_whole {s : State} {op : Nat} {h : Hdr} {data : List Word} {dcrc : BitVec 16} (ha : s.formeAnswers = true)
    (hf : s.forme.started = none) (hw : h.part = .whole) : s.transact op h data dcrc = s.finish (s.begin_ op h data) dcrc := by
  have he : s.entered op h data = some (s.begin_ op h data) := by
    simp only [State.entered, hf, hw, reduceCtorEq, if_false]
  simp only [State.transact, ha, he, hw, State.portFree_of_free hf, Bool.not_true, Bool.false_eq_true, if_false]

/-- What a transaction leaves that answers RIGHTS or ADDR and drives no data: the session's record, MODE_SEEN and the answer. -/
def State.refusedWrite (s : State) (t : Started) (st : Nat) : State :=
  { (s.formeRecord t.op t.h st 2).modeSeen t.h with forme := ⟨st, [], 0, tailBytes t.quad st t.h.seq, none⟩ }

theorem State.formeRecord_eq (s : State) (op : Nat) (h : Hdr) (st outcome : Nat) : ∃ x, s.formeRecord op h st outcome = { s with sess := x } := by
  unfold State.formeRecord
  split
  · exact ⟨s.sess, rfl⟩
  · exact ⟨_, rfl⟩

/-- A transaction with data from the host that answers RIGHTS or ADDR is not performed. -/
theorem State.finish_refusedWrite {s : State} {t : Started} {dcrc : BitVec 16} {st : Nat} (hst : s.endStatus t dcrc = st) (h34 : st = 3 ∨ st = 4)
    (hrd : readType t.op t.h = false) (hcut : t.cut = false) (hr : s.pwr.softReset = false) : s.finish t dcrc = s.refusedWrite t st := by
  have hran : ranWhole st = false := by rcases h34 with rfl | rfl <;> rfl
  have hcount : s.formeCounts t.h.session st = s := by rcases h34 with rfl | rfl <;> rfl
  have hreset : ((s.formeRecord t.op t.h st 2).modeSeen t.h).softResetDue = (s.formeRecord t.op t.h st 2).modeSeen t.h := by
    obtain ⟨x, hx⟩ := s.formeRecord_eq t.op t.h st 2
    rw [hx]
    exact State.softResetDue_of_none hr
  simp only [State.finish, State.refusedWrite, hst, hrd, hcut, hran, hcount, hreset, Bool.not_false, Bool.or_self, Bool.true_or, Bool.false_eq_true,
    if_true, if_false, List.isEmpty_nil]

/-- A register word rests on the register file alone. -/
theorem State.wd_congr {s t : State} (h : s.regs = t.regs) (a : Nat) : s.wd a = t.wd a := by
  unfold State.wd; rw [h]

/-- Of the register words only the one with MODE_SEEN moves. -/
theorem State.wd_modeSeen_ne (s : State) (h : Hdr) {a : Nat} (ha : a ≠ FORME.CFG_MODE_SEEN.addr 0 0) : (s.modeSeen h).wd a = s.wd a :=
  (State.wd_p s FORME.CFG_MODE_SEEN 0 0 _ a).trans (if_neg ha)

theorem State.wd_formeRecord (s : State) (op : Nat) (h : Hdr) (st outcome a : Nat) : (s.formeRecord op h st outcome).wd a = s.wd a := by
  obtain ⟨x, hx⟩ := s.formeRecord_eq op h st outcome
  rw [hx]
  exact State.wd_congr rfl a

/-- A refused WRITE moves no block of the part and no register but MODE_SEEN. -/
theorem State.refusedWrite_frame (s : State) (t : Started) (st : Nat) :
    (s.refusedWrite t st).lanes = s.lanes ∧ (s.refusedWrite t st).evg = s.evg ∧ (s.refusedWrite t st).quoins = s.quoins
      ∧ ∀ a, a ≠ FORME.CFG_MODE_SEEN.addr 0 0 → (s.refusedWrite t st).wd a = s.wd a := by
  obtain ⟨x, hx⟩ := s.formeRecord_eq t.op t.h st 2
  refine ⟨?lanes, ?evg, ?quoins, fun a ha => ?words⟩
  case lanes => simp only [State.refusedWrite, hx, State.modeSeen, State.put_lanes]
  case evg => simp only [State.refusedWrite, hx, State.modeSeen, State.put_evg]
  case quoins => simp only [State.refusedWrite, hx, State.modeSeen, State.put_quoins]
  case words =>
    calc (s.refusedWrite t st).wd a
        = ((s.formeRecord t.op t.h st 2).modeSeen t.h).wd a := State.wd_congr (by simp only [State.refusedWrite]) a
      _ = (s.formeRecord t.op t.h st 2).wd a := State.wd_modeSeen_ne _ _ ha
      _ = s.wd a := s.wd_formeRecord ..

/-- WRITE and WRITE_SCATTER with a whole transaction that answers RIGHTS or ADDR. -/
theorem exec_write_refused {s : State} {h : Hdr} {data : List Word} {dcrc : BitVec 16} {st : Nat} {c : Instr} (ha : s.formeAnswers = true)
    (hf : s.forme.started = none) (hw : h.part = .whole) (hr : s.pwr.softReset = false) (hst : s.formeStatus opWr h data dcrc = st)
    (h34 : st = 3 ∨ st = 4) (hc : c = .write h data dcrc ∨ c = .writeScatter h data dcrc) :
    exec c s = .next (s.refusedWrite (s.begin_ opWr h data) st).settle := by
  have hend : s.endStatus (s.begin_ opWr h data) dcrc = st := by
    rw [← hst, ← Hdr.whole_eq hw]
    rfl
  have ht : s.transact opWr h data dcrc = s.refusedWrite (s.begin_ opWr h data) st := by
    rw [State.transact_whole ha hf hw, State.finish_refusedWrite hend h34 rfl rfl hr]
  rcases hc with rfl | rfl
  · simp only [exec, execWrite, fin, ht]
  · simp only [exec, execWriteScatter, fin, ht]

/-- Settles O44: no page of an absent lane is present, so that it reads 0, is written by nobody, and has no writable address. -/
theorem absentLanePages : Obligations.AbsentLanePages := by
  intro s n kd h8 hn hr
  have hp := State.not_present_absentLane h8 hn kd
  refine ⟨fun k => State.readPage_of_not_present hp k 0, fun w off v => ?write, ?transaction⟩
  case write =>
    simp only [exec, execRegisterWrite, fin, State.pressAlone_of_not_writable (State.not_writable_of_not_present hp w off),
      State.softResetDue_of_none hr]
  case transaction =>
    intro h data dcrc a v ha hf hw hcrc hopen hplane hretry hm hpage c hc
    have hshape := State.formeShape_of_not_addrWritable hm (State.not_addrWritable_absentLane hp hpage)
    have hst : s.formeStatus opWr h data dcrc = 4 := State.formeStatus_of_bad_shape hcrc hopen hplane hretry hshape
    exact ⟨_, exec_write_refused ha hf hw hr hst (.inr rfl) hc, rfl, State.refusedWrite_frame ..⟩

end Sys2Proof.Machine
end

section
/-! PROOFS. The fixture controller (spec/02_connectors_supplies_isolation.md R35; spec/19_two_wire_ports.md R494 to R499): an accepted GO, the end
of an attempt of the operation in progress, and the deadline. -/

namespace Sys2Proof.Machine

/-! ### A GO that is accepted (R495, R497) -/

/-- A GO that its check does not refuse leaves WORST_US to its effect. -/
theorem fixTold_of_no_refusal {w : Writer} {v : Word} {s : State} (h : fixChk 0x11 v s = none) : fixTold w v s = s := by
  have hb : (fixChk 0x11 v s == some errBudget) = false := by rw [h]; rfl
  simp only [fixTold, hb, Bool.and_false, Bool.false_eq_true, if_false]

/-- The worst case of an operation is shown and the operation begins. -/
def State.fixBegun (s : State) (op : Nat) (v : Word) : State :=
  (s.fixWorst op (bitsOf v 23 16 + 1)).fixStart ⟨op, bitsOf v 23 16 + 1, bitsOf v 15 0, false, 0⟩

theorem fixEff_go {op : Nat} {v proof : Word} (hop : bitsOf v 26 24 = op) (hgo : bitAt v 31 = true) :
    fixEff 0x11 v proof = fun s => s.fixBegun op v := by
  funext s
  simp only [fixEff, hop, hgo, if_true, State.fixBegun]

/-- A GO that names the row's operation and that no check refuses. -/
theorem fixGo_accepted {op : Nat} {w : Writer} {v : Word} {s : State} (hop : bitsOf v 26 24 = op) (hgo : bitAt v 31 = true)
    (ht : s.taken w .fix 0x11 v (fixChk 0x11 v (s.staged .fix 0x11 v))) (hc : fixChk 0x11 v s = none) :
    fixGo op w v s = s.nearDone .fix fun s => s.fixBegun op v := by
  simp only [fixGo, if_pos hop, fixPress, if_true, fixTold_of_no_refusal hc]
  rw [pressOne_near rfl (by decide) ht, fixEff_go hop hgo]

/-! ### The end of an attempt (R496, R498) -/

/-- The attempt that ends is counted, and the bus clears that it made. -/
def State.fixCounted (s : State) (clears : Nat) : State :=
  (s.bump FIX.BUS_CLEARS 0 0 clears).put FIX.STAT_ATTEMPTS 0 (min (s.g FIX.STAT_ATTEMPTS 0 + 1) 255)

/-- FIX_ATTEMPT_END as the operation in progress can end an attempt. -/
theorem exec_fixAttemptEnd {r : FixEnd} {x : FixOp} {s : State} (ha : s.awake = true) (hb : s.fix.busy = some x) (hx : x.ends r = true) :
    exec (.fixAttemptEnd r) s = .next (s.fixEnd x r).settle := by
  simp only [exec, execFixAttemptEnd, fin, hb, ha, hx, Bool.and_self, if_true]

section
variable {s : State} {x : FixOp} {c : Nat} (hf : (s.fixCounted c).on MOD.SUPPLY_FX_FAULT 0 = false)
include hf

/-- A READ that read as many bytes as it asked for stores just these. -/
theorem State.fixEnd_good_read {bs : List Byte} (hop : x.op = opRead) (hn : x.count = bs.length) :
    s.fixEnd x (.good bs c) = ((s.fixCounted c).fixStore 0x40 bs).fixDone fxOk := by
  have hbytes : (bs ++ List.replicate x.count 0).take x.count = bs := by rw [hn, List.take_left]
  have hrec : x.op ≠ opRecord := by rw [hop]; decide
  rw [State.fixCounted] at hf ⊢
  simp only [State.fixEnd, fixClears, hf, Bool.false_eq_true, if_false, if_neg hrec, if_pos hop, hbytes]

theorem State.fixEnd_nakAddr : s.fixEnd x (.nakAddr c) = ((s.fixCounted c).bump FIX.NAKS 0).fixFail fxNakAddr := by
  rw [State.fixCounted] at hf ⊢
  simp only [State.fixEnd, fixClears, hf, Bool.false_eq_true, if_false]

theorem State.fixEnd_stuck : s.fixEnd x (.stuck c) = (s.fixCounted c).fixStuck := by
  rw [State.fixCounted] at hf ⊢
  simp only [State.fixEnd, fixClears, hf, Bool.false_eq_true, if_false]

end

/-! ### The deadline (R496) -/

theorem State.fixLate_of_due {x : FixOp} {s : State} (hb : s.fix.busy = some x) (hd : x.at_ + s.g FIX.TIMEOUT_MS 0 * msTicks ≤ s.clock) :
    s.fixLate = true := by
  simp only [State.fixLate, hb, hd, decide_true]

/-- FIX_DEADLINE of an operation past its deadline. -/
theorem exec_fixDeadline {good : Bool} {s : State} (ha : s.awake = true) (hl : s.fixLate = true) :
    exec (.fixDeadline good) s
      = .next (((if good then s.bump FIX.LATE_DISCARD 0 else s).bump FIX.LOWER_ABORTED 0).fixDone fxAborted).settle := by
  simp only [exec, execFixDeadline, fin, hl, ha, Bool.and_self, if_true]

/-- Settles O34: each GO by the press of its row, the end of an attempt by what ended it, and the deadline by whether the last byte was good. -/
theorem fixtureRowsComplete : Obligations.FixtureRowsComplete := by
  intro s w
  refine ⟨fun op v hop hgo ht hc => ?go, fun x bs c t ha hb hop hn ht hf => ?read, fun x c t ha hb hop ht hf => ?nak,
    fun x c t ha hb ht hf => ?stuck, fun x ha hb hd => exec_fixDeadline ha (State.fixLate_of_due hb hd),
    fun x ha hb hd => exec_fixDeadline ha (State.fixLate_of_due hb hd)⟩
  case go =>
    have hpress : fin (fixGo op w v s) = .next (s.nearDone .fix fun s => s.fixBegun op v).settle := by rw [fixGo_accepted hop hgo ht hc, fin]
    refine ⟨?_, ?_, ?_, ?_, ?_⟩ <;> (rintro rfl; exact hpress)
  case read =>
    subst ht
    rw [exec_fixAttemptEnd ha hb rfl, State.fixEnd_good_read hf hop hn, State.fixCounted]
  case nak =>
    subst ht
    have hends : x.ends (.nakAddr c) = true := bne_iff_ne.mpr hop
    rw [exec_fixAttemptEnd ha hb hends, State.fixEnd_nakAddr hf, State.fixCounted]
  case stuck =>
    subst ht
    rw [exec_fixAttemptEnd ha hb rfl, State.fixEnd_stuck hf, State.fixStuck, State.fixCounted]

end Sys2Proof.Machine
end

section
/-! PROOFS. Boot and readiness (spec/03_reset_and_bring_up.md R64 to R68, R76 to R79, R81): the check of a slot, Chase's start and its
confirmation, the end of a lane's self-test, and READY. -/

namespace Sys2Proof.Machine

/-! ### The check of a slot (R65, R67) -/

/-- BOOT_IMAGE_CHECK while STAGE names a slot is the check of that slot. -/
theorem exec_bootImageCheck (b : Bool) {s : State} (hr : s.pwr.mode = .run)
    (hs : s.g MOD.BOOT_STAGE 0 = if b then stageCheckB else stageCheckA) : exec .bootImageCheck s = .next (s.bootCheck b).settle := by
  have hrun : (s.pwr.mode != .run) = false := by rw [hr]; rfl
  cases b with
  | false =>
    have hA : s.g MOD.BOOT_STAGE 0 = stageCheckA := hs
    simp only [exec, execBootImageCheck, fin, hrun, hA, Bool.false_eq_true, if_false, if_true]
  | true =>
    have hB : s.g MOD.BOOT_STAGE 0 = stageCheckB := hs
    simp only [exec, execBootImageCheck, fin, hrun, hB, show stageCheckB ≠ stageCheckA by decide, Bool.false_eq_true, if_false, if_true]

/-- MOD.BOOT's mark of a slot that was refused at this boot. -/
def badMark (b : Bool) : Fld := if b then MOD.BOOT_B_BAD else MOD.BOOT_A_BAD

/-- An accepted slot boots; FALLBACK says whether the other was refused before it. -/
theorem State.bootCheck_accepted {s : State} {b : Bool} (ha : s.acceptsSlot b = true) :
    s.bootCheck b
      = ((s.put MOD.BOOT_IMAGE 0 (if b then 2 else 1)).put MOD.BOOT_FALLBACK 0 (b2n (s.on (badMark !b) 0))).put MOD.BOOT_STAGE 0 stageInit := by
  cases b <;> simp only [State.bootCheck, ha, badMark, if_true, Bool.not_true, Bool.not_false, Bool.false_eq_true, if_false]

/-- A refused slot is marked, and where the other was not refused it is checked next. -/
theorem State.bootCheck_refused_first {s : State} {b : Bool} (ha : s.acceptsSlot b = false) (ho : s.on (badMark !b) 0 = false) :
    s.bootCheck b = (s.put (badMark b) 0 1).put MOD.BOOT_STAGE 0 (if b then stageCheckA else stageCheckB) := by
  cases b with
  | false =>
    have hB : s.on MOD.BOOT_B_BAD 0 = false := ho
    simp only [State.bootCheck, ha, hB, badMark, Bool.false_eq_true, if_false]
  | true =>
    have hA : s.on MOD.BOOT_A_BAD 0 = false := ho
    simp only [State.bootCheck, ha, hA, badMark, Bool.false_eq_true, if_false, if_true]

/-- With both slots refused the boot has failed. -/
theorem State.bootFailed_bootCheck_refused_second {s : State} {b : Bool} (ha : s.acceptsSlot b = false) (ho : s.on (badMark !b) 0 = true) :
    (s.bootCheck b).pwr.bootFailed = true := by
  cases b with
  | false =>
    have hB : s.on MOD.BOOT_B_BAD 0 = true := ho
    simp only [State.bootCheck, ha, hB, Bool.false_eq_true, if_false, if_true]
  | true =>
    have hA : s.on MOD.BOOT_A_BAD 0 = true := ho
    simp only [State.bootCheck, ha, hA, Bool.false_eq_true, if_false, if_true]

/-! ### Chase runs (R66, R68) -/

theorem exec_chaseRunning {s : State} (ha : s.awake = true) (hs : s.g MOD.BOOT_STAGE 0 = stageInit) (hw : s.chase.worksDue = false) :
    exec .chaseRunning s = .next s.chaseStart.settle := by
  simp only [exec, execChaseRunning, fin, ha, hs, hw, beq_self_eq_true, Bool.not_false, Bool.and_self, if_true]

/-- The booted image is confirmed: CONFIRMED is set, and TRIES and the image that had failed are forgotten. -/
def State.bootConfirm (s : State) : State :=
  let s := (s.put MOD.BOOT_CONFIRMED 0 1).put MOD.BOOT_TRIES 0 0
  { s with pwr := { s.pwr with failedSlot := none } }

theorem exec_bootConfirmed {s : State} (hc : s.chaseUp = true) (ha : s.awake = true) (hd : s.pwr.runAt + confirmTicks ≤ s.clock) :
    exec .bootConfirmed s = .next s.bootConfirm.settle := by
  simp only [exec, execBootConfirmed, fin, hc, ha, hd, decide_true, Bool.and_self, if_true, State.bootConfirm]

/-- A field rests on the register file alone. -/
theorem State.g_congr {s t : State} (h : s.regs = t.regs) (f : Fld) (n i : Nat) : s.g f n i = t.g f n i := by
  simp only [State.g, State.wd_congr h]

theorem State.bootConfirm_regs (s : State) : s.bootConfirm.regs = ((s.put MOD.BOOT_CONFIRMED 0 1).put MOD.BOOT_TRIES 0 0).regs := by
  simp only [State.bootConfirm]

theorem State.bootConfirm_confirmed (s : State) : s.bootConfirm.g MOD.BOOT_CONFIRMED 0 = 1 := by
  have hapart : MOD.BOOT_TRIES.apart 0 0 MOD.BOOT_CONFIRMED 0 0 := .inr (.inl (by decide))
  rw [State.g_congr s.bootConfirm_regs, State.g_put_ne _ _ _ _ _ _ _ (by decide) hapart, State.g_put_same _ _ _ _ (by decide)]
  rfl

theorem State.bootConfirm_tries (s : State) : s.bootConfirm.g MOD.BOOT_TRIES 0 = 0 := by
  rw [State.g_congr s.bootConfirm_regs, State.g_put_same _ _ _ _ (by decide), Nat.zero_mod]

/-! ### The far-side self-test and READY (R76, R77, R79) -/

/-- The end of the self-test of a lane whose monitor has run before. -/
def State.selftestEnd (s : State) (n : LaneId) (bits : Nat) : State :=
  if bits = 0 then (s.put LANE.SELFTEST_DONE n 1).put LANE.SELFTEST_PASS n 1
  else ((s.put LANE.SELFTEST_DONE n 1).laneFails n bits 0x031).lanesCheck

section
variable {s : State} {n : LaneId} (hf : s.farUp n = true) (hp : s.phase n = phSelftest) (hl : (s.lane n).link.locked = true)
include hf hp hl

/-- With a calibration record check [10] passes, so that SELFTEST has the outcomes of the other eleven. -/
theorem exec_selftestComplete (failed : BitVec 12) (hc : s.chaseUp = true) (hr : s.calRec n ≠ none) (he : (s.eng n).run ≠ .reset) :
    exec (.selftestComplete n failed) s = .next (s.selftestEnd n (failed.toNat &&& 0xBFF)).settle := by
  have hcal : (s.calRec n).isNone = false := Option.isNone_eq_false_iff.mpr (Option.isSome_iff_ne_none.mpr hr)
  simp only [exec, execSelftestComplete, fin, hf, hp, hl, hc, hcal, he, beq_self_eq_true, Bool.and_self, Bool.false_eq_true, if_true, if_false,
    Nat.or_zero, State.selftestEnd]

theorem exec_laneReady (ht : s.on LANE.SELFTEST_PASS n = true) (hd : s.on LANE.STATE_DISCIPLINED n = true) :
    exec (.laneReady n) s = .next (s.becomeReady n).settle := by
  simp only [exec, execLaneReady, fin, hf, hp, hl, ht, hd, beq_self_eq_true, Bool.and_self, if_true]

end

theorem State.selftestEnd_passed (s : State) (n : LaneId) :
    s.selftestEnd n 0 = (s.put LANE.SELFTEST_DONE n 1).put LANE.SELFTEST_PASS n 1 :=
  if_pos rfl

theorem State.selftestEnd_failed {bits : Nat} (h : bits ≠ 0) (s : State) (n : LaneId) :
    s.selftestEnd n bits = ((s.put LANE.SELFTEST_DONE n 1).laneFails n bits 0x031).lanesCheck := if_neg h

/-- Settles O5: BOOT_IMAGE_CHECK by the slot that STAGE names and its acceptance, SELFTEST_COMPLETE by whether a check failed, and the other rows
by what each does once it acts. -/
theorem bootRowsComplete : Obligations.BootRowsComplete := by
  intro s n
  refine ⟨fun hr hs ha => ?bootsA, fun hr hs ha hb => ?refusedA, fun hr hs ha => ?bootsB, fun hr hs ha hb => ?refusedBoth, exec_chaseRunning,
    fun hc ha hd => ?confirmed, fun hf hp hl hc hr he => ?passed, fun failed hf hp hl hc hr he hb => ?failed, exec_laneReady⟩
  case bootsA => rw [exec_bootImageCheck false hr hs, State.bootCheck_accepted ha]; rfl
  case refusedA => rw [exec_bootImageCheck false hr hs, State.bootCheck_refused_first ha hb]; rfl
  case bootsB => rw [exec_bootImageCheck true hr hs, State.bootCheck_accepted ha]; rfl
  case refusedBoth => exact ⟨_, exec_bootImageCheck true hr hs, State.bootFailed_bootCheck_refused_second ha hb⟩
  case confirmed => exact ⟨_, exec_bootConfirmed hc ha hd, s.bootConfirm_confirmed, s.bootConfirm_tries, rfl⟩
  case passed =>
    have hbits : (0 : BitVec 12).toNat &&& 0xBFF = 0 := by decide
    rw [exec_selftestComplete hf hp hl 0 hc hr he, hbits, State.selftestEnd_passed]
  case failed => rw [exec_selftestComplete hf hp hl failed hc hr he, State.selftestEnd_failed hb]

end Sys2Proof.Machine
end

section
/-! PROOFS. Rights at the Forme port (spec/04_forme_port.md R96; spec/06_sessions_and_quoins.md R139): a WRITE that names a word outside its session's
rights. -/

namespace Sys2Proof.Machine

/-! ### Check 6 (R96, R139) -/

/-- Check 6 fails for a WRITE with a word that the session may not write. -/
theorem State.formeRights_of_not_mayWrite {s : State} {h : Hdr} {data : List Word} {a : Nat} {v : Word} (hm : (a, v) ∈ writePairs h data)
    (ha : s.mayWrite h.session a = false) : s.formeRights opWr h data = false := by
  have hall : ((writePairs h data).all fun e => s.mayWrite h.session e.1 && !(e.1 == Page.quoin.at_ 0x10 && s.quoinBarred (.host h.session) e.2))
      = false := List.all_eq_false.mpr ⟨(a, v), hm, by simp only [ha, Bool.false_and]; decide⟩
  simp only [State.formeRights, hall, show opWr ≠ opRd by decide, if_true, if_false]

/-- A transaction that passes the first five checks and fails the sixth answers RIGHTS. -/
theorem State.formeStatus_of_no_rights {s : State} {op : Nat} {h : Hdr} {data : List Word} {dcrc : BitVec 16} (hc : hdrCrc op h = h.hcrc.toNat)
    (ho : s.formeOpen op h = true) (hp : ((s.session h.session).isOpen && (s.session h.session).afterPlaneReset) = false)
    (hr : s.formeRetry op h = none) (hs : s.formeShape op h data = true) (hg : s.formeRights op h data = false) :
    s.formeStatus op h data dcrc = 3 := by
  simp only [State.formeStatus, hc, ho, hp, hr, hs, hg, ne_eq, not_true_eq_false, Option.any_none, Bool.and_false, Bool.not_true, Bool.not_false,
    Bool.false_eq_true, if_false, if_true]

/-- A refused WRITE reaches neither the impositions nor Chase nor the colophon log. -/
theorem State.refusedWrite_services (s : State) (t : Started) (st : Nat) :
    (s.refusedWrite t st).imp = s.imp ∧ (s.refusedWrite t st).chase = s.chase ∧ (s.refusedWrite t st).log = s.log := by
  obtain ⟨x, hx⟩ := s.formeRecord_eq t.op t.h st 2
  simp only [State.refusedWrite, hx, State.modeSeen, State.put_imp, State.put_chase, State.put_log, and_self]

/-- Settles O45: a word outside the session's rights fails check 6, and a WRITE that answers RIGHTS is not performed. -/
theorem noRightsNothingPressed : Obligations.NoRightsNothingPressed := by
  intro s h data dcrc a v ha hr hf hw hcrc hopen hplane hretry hshape hm hmay c hc
  have hst : s.formeStatus opWr h data dcrc = 3 :=
    State.formeStatus_of_no_rights hcrc hopen hplane hretry hshape (State.formeRights_of_not_mayWrite hm hmay)
  obtain ⟨hlanes, hevg, hquoins, hwords⟩ := s.refusedWrite_frame (s.begin_ opWr h data) 3
  obtain ⟨himp, hchase, hlog⟩ := s.refusedWrite_services (s.begin_ opWr h data) 3
  exact ⟨_, exec_write_refused ha hf hw hr hst (.inl rfl) hc, rfl, hlanes, hevg, hquoins, himp, hchase, hlog, hwords⟩

end Sys2Proof.Machine
end

section
/-! PROOFS. The Forme port's transactions that pass every check (spec/04_forme_port.md R92 to R108, R134, R138): what one leaves, by whether its data
come from the module or from the host, and the effect of each opcode. -/

namespace Sys2Proof.Machine

/-! ### Types of transaction (Table: Opcodes) -/

/-- No transaction is both write-type and read-type. -/
theorem not_readType_of_writeType {op : Nat} {h : Hdr} (hw : writeType op h = true) : readType op h = false := by
  simp only [writeType, Bool.or_eq_true, Bool.and_eq_true, Bool.not_eq_true', beq_iff_eq] at hw
  rcases hw with (((rfl | rfl) | rfl) | rfl) | ⟨rfl, hflag⟩
  case inr => simp only [readType, hflag, Bool.and_false]; rfl
  all_goals rfl

/-- A transaction that answers OK passes check 5. -/
theorem State.formeShape_of_status_ok {s : State} {op : Nat} {h : Hdr} {data : List Word} {dcrc : BitVec 16}
    (hst : s.formeStatus op h data dcrc = 0) : s.formeShape op h data = true := by
  cases hs : s.formeShape op h data with
  | true => rfl
  | false =>
    simp only [State.formeStatus, hs, Bool.not_false, if_true] at hst
    split at hst
    · cases hst
    split at hst
    · cases hst
    split at hst
    · cases hst
    split at hst <;> cases hst

/-- A NOP that answers OK has a header with no address and no length. -/
theorem Hdr.nop_of_status_ok {s : State} {h : Hdr} (hst : s.formeStatus opNop h [] 0 = 0) : Hdr.at_ h = 0 := by
  have hshape := State.formeShape_of_status_ok hst
  simp only [State.formeShape, show opNop ≠ opRd by decide, show opNop ≠ opWr by decide, show opNop ≠ opGalley by decide,
    show ¬(opNop = opStoreRd ∨ opNop = opStoreWr) by decide, show opNop ≠ opOpen by decide, or_true, if_true, if_false, Bool.and_eq_true,
    beq_iff_eq] at hshape
  exact hshape.2.1

theorem winLane_of_no_address {h : Hdr} (ha : Hdr.at_ h = 0) : winLane h = none := by
  simp only [winLane, ha]
  exact if_neg (by decide)

/-! ### What a transaction that passes leaves beside its effect -/

/-- The session's record and MODE_SEEN. -/
def State.passed (s : State) (op : Nat) (h : Hdr) (outcome : Nat) : State := (s.formeRecord op h 0 outcome).modeSeen h

/-- The port has answered OK with these data. -/
def State.answered (s : State) (out : List Word) (t : Started) : State :=
  { s with forme := ⟨0, out, if out.isEmpty then 0 else BitVec.ofNat 16 (dataCrc out), tailBytes t.quad 0 t.h.seq, none⟩ }

section
variable (s : State) (out : List Word) (t : Started)

@[simp] theorem State.answered_status : (s.answered out t).forme.status = 0 := rfl
@[simp] theorem State.answered_data : (s.answered out t).forme.data = out := rfl
@[simp] theorem State.answered_lanes : (s.answered out t).lanes = s.lanes := rfl
@[simp] theorem State.answered_evg : (s.answered out t).evg = s.evg := rfl
@[simp] theorem State.answered_quoins : (s.answered out t).quoins = s.quoins := rfl
@[simp] theorem State.wd_answered (a : Nat) : (s.answered out t).wd a = s.wd a := rfl
@[simp] theorem State.g_answered (f : Fld) (n i : Nat) : (s.answered out t).g f n i = s.g f n i := rfl
@[simp] theorem State.lane_answered (n : LaneId) : (s.answered out t).lane n = s.lane n := rfl
@[simp] theorem State.session_answered (k : SessId) : (s.answered out t).session k = s.session k := rfl

end

section
variable (s : State) (op : Nat) (h : Hdr) (outcome : Nat)

theorem State.passed_eq : ∃ x, s.passed op h outcome = State.modeSeen { s with sess := x } h := by
  obtain ⟨x, hx⟩ := s.formeRecord_eq op h 0 outcome
  exact ⟨x, by rw [State.passed, hx]⟩

@[simp] theorem State.passed_lanes : (s.passed op h outcome).lanes = s.lanes := by
  obtain ⟨x, hx⟩ := s.passed_eq op h outcome
  simp only [hx, State.modeSeen, State.put_lanes]
@[simp] theorem State.passed_evg : (s.passed op h outcome).evg = s.evg := by
  obtain ⟨x, hx⟩ := s.passed_eq op h outcome
  simp only [hx, State.modeSeen, State.put_evg]
@[simp] theorem State.passed_quoins : (s.passed op h outcome).quoins = s.quoins := by
  obtain ⟨x, hx⟩ := s.passed_eq op h outcome
  simp only [hx, State.modeSeen, State.put_quoins]
@[simp] theorem State.passed_pwr : (s.passed op h outcome).pwr = s.pwr := by
  obtain ⟨x, hx⟩ := s.passed_eq op h outcome
  simp only [hx, State.modeSeen, State.put_pwr]
@[simp] theorem State.passed_clock : (s.passed op h outcome).clock = s.clock := by
  obtain ⟨x, hx⟩ := s.passed_eq op h outcome
  simp only [hx, State.modeSeen, State.put_clock]
@[simp] theorem State.passed_stepNo : (s.passed op h outcome).stepNo = s.stepNo := by
  obtain ⟨x, hx⟩ := s.passed_eq op h outcome
  simp only [hx, State.modeSeen, State.put_stepNo]

theorem State.wd_passed_ne {a : Nat} (ha : a ≠ FORME.CFG_MODE_SEEN.addr 0 0) : (s.passed op h outcome).wd a = s.wd a := by
  rw [State.passed, State.wd_modeSeen_ne _ _ ha, State.wd_formeRecord]

theorem State.g_passed_ne {f : Fld} {n i : Nat} (ha : f.addr n i ≠ FORME.CFG_MODE_SEEN.addr 0 0) : (s.passed op h outcome).g f n i = s.g f n i := by
  rw [State.g, State.wd_passed_ne _ _ _ _ ha, State.g]

theorem State.session_passed_eq (k : SessId) : (s.passed op h outcome).session k = (s.formeRecord op h 0 outcome).session k := by
  simp only [State.session, State.passed, State.modeSeen, State.put_sess]

/-- Of its session a transaction changes the record alone (R100). -/
theorem State.session_passed : ∃ r, (s.passed op h outcome).session h.session = { s.session h.session with record := r } := by
  rw [State.session_passed_eq, State.formeRecord]
  split
  · exact ⟨_, rfl⟩
  · exact ⟨_, State.session_upSess_same ..⟩

/-- In an open session the record names this transaction (R100). -/
theorem State.record_passed (ho : (s.session h.session).isOpen = true) :
    ((s.passed op h outcome).session h.session).record = some ⟨hdrBytes op h, 0, outcome⟩ := by
  have hne : ¬((0 : Nat) = 1 ∨ (0 : Nat) = 7 ∨ (0 : Nat) = 8 ∨ (0 : Nat) = 6 ∨ (s.session h.session).isOpen = false) := by
    rw [ho]; decide
  rw [State.session_passed_eq, State.formeRecord, if_neg hne, State.session_upSess_same]

end

/-! ### Whole transactions that pass -/

@[simp] theorem State.begin_op (s : State) (op : Nat) (h : Hdr) (data : List Word) : (s.begin_ op h data).op = op := rfl
@[simp] theorem State.begin_data (s : State) (op : Nat) (h : Hdr) (data : List Word) : (s.begin_ op h data).data = data := rfl
@[simp] theorem State.begin_cut (s : State) (op : Nat) (h : Hdr) (data : List Word) : (s.begin_ op h data).cut = false := rfl
@[simp] theorem State.begin_since (s : State) (op : Nat) (h : Hdr) (data : List Word) : (s.begin_ op h data).since = s.stepNo := rfl
theorem State.begin_status (s : State) (op : Nat) (h : Hdr) (data : List Word) :
    (s.begin_ op h data).status = if readType op h then s.formeStatus op h data 0 else 0 := rfl
theorem State.begin_h {h : Hdr} (hw : h.part = .whole) (s : State) (op : Nat) (data : List Word) : (s.begin_ op h data).h = h := Hdr.whole_eq hw

section
variable {s : State} {op : Nat} {h : Hdr} {data : List Word} {dcrc : BitVec 16}
variable (ha : s.formeAnswers = true) (hf : s.forme.started = none) (hw : h.part = .whole)
include ha hf hw

/-- A read-type transaction that passes: its effect, and the data that it drove. -/
theorem State.transact_read (hrd : readType op h = true) (hst : s.formeStatus op h data 0 = 0) :
    s.transact op h data dcrc
      = (((s.passed op h 3).perform (s.begin_ op h data)).softResetDue).answered (s.endData (s.begin_ op h data)) (s.begin_ op h data) := by
  rw [State.transact_whole ha hf hw]
  simp only [State.finish, State.endStatus, State.formeCounts, State.passed, State.answered, ranWhole, State.begin_h hw, State.begin_op,
    State.begin_cut, State.begin_status, hrd, hst]
  rfl

/-- A write-type transaction that passes: its effect, and no data. -/
theorem State.transact_write (hwr : writeType op h = true) (hst : s.formeStatus op h data dcrc = 0) {u : State}
    (heff : (s.passed op h 1).perform (s.begin_ op h data) = u) :
    s.transact op h data dcrc = u.softResetDue.answered [] (s.begin_ op h data) := by
  subst heff
  rw [State.transact_whole ha hf hw]
  simp only [State.finish, State.endStatus, State.formeCounts, State.passed, State.answered, ranWhole, State.begin_h hw, State.begin_op,
    State.begin_cut, State.begin_data, hst, not_readType_of_writeType hwr]
  rfl

end

/-! ### Read-type transactions (R99, R103, R104, R134) -/

/-- A burst moves words of the galley or of lane store. -/
def isBurst (op : Nat) : Bool := op == opGalley || op == opStoreRd

theorem isBurst_iff {op : Nat} : isBurst op = true ↔ op = opGalley ∨ op = opStoreRd := by
  simp only [isBurst, Bool.or_eq_true, beq_iff_eq]

/-- A transaction that is no burst and that passes has its data as its data phase begins. -/
theorem State.begin_words {s : State} {op : Nat} {h : Hdr} {data : List Word} (hrd : readType op h = true) (hst : s.formeStatus op h data 0 = 0)
    (hb : isBurst op = false) : (s.begin_ op h data).words = s.formeData op h := by
  rw [isBurst] at hb
  simp only [State.begin_, hrd, hst, hb, if_true, if_false, Bool.not_true, bne_self_eq_false, Bool.or_self, Bool.false_eq_true]

/-- A whole burst has no words as its data phase begins. -/
theorem State.begin_words_burst {s : State} {op : Nat} {h : Hdr} {data : List Word} (hw : h.part = .whole) (hb : isBurst op = true) :
    (s.begin_ op h data).words = [] := by
  rw [isBurst] at hb
  simp only [State.begin_, hw, hb, if_true, Nat.zero_add, show 3 / 4 * 4 = 0 by decide, List.take_zero, ite_self]

theorem State.endData_plain (s : State) {t : Started} (hcut : t.cut = false) (hb : isBurst t.op = false) : s.endData t = t.words := by
  have hop : ¬(t.op = opGalley ∨ t.op = opStoreRd) := fun h => by rw [isBurst_iff.mpr h] at hb; cases hb
  simp only [State.endData, hcut, hop, if_false, Bool.false_eq_true]
  split <;> rfl

theorem State.endData_burst (s : State) {t : Started} {n : LaneId} (hcut : t.cut = false) (hb : isBurst t.op = true) (hn : winLane t.h = some n)
    (hws : t.words = []) : s.endData t = s.burstWords t.op n t.rcount (Hdr.len t.h) := by
  have hop : t.op = opGalley ∨ t.op = opStoreRd := isBurst_iff.mp hb
  simp only [State.endData, hcut, hn, hop, hws, if_true, if_false, Bool.false_eq_true, List.length_nil, List.drop_zero, List.nil_append]

/-- READ and NOP have no effect but their data. -/
theorem State.perform_read (s : State) {t : Started} (hop : t.op = opRd ∨ t.op = opNop) : s.perform t = s := by
  rcases hop with hop | hop <;> cases hwin : winLane t.h <;> simp only [State.perform, hop, hwin] <;> rfl

theorem State.perform_challenge (s : State) {t : Started} (hop : t.op = opOpen) (hflag : Hdr.flag t.h 0 = true) : s.perform t = s := by
  simp only [State.perform, hop, hflag, if_true]
  rfl

theorem State.perform_burst (s : State) {t : Started} {n : LaneId} (hb : isBurst t.op = true) (hn : winLane t.h = some n) :
    s.perform t = s.burstDone t.op t.h.session n t.rcount (Hdr.len t.h) := by
  have hop : t.op = opGalley ∨ t.op = opStoreRd := isBurst_iff.mp hb
  simp only [State.perform, hn, hop, if_true]
  rcases hop with hop | hop <;> rw [hop] <;> rfl

/-- A burst leaves at most ECC_ERR, and GAL_RSTART of its session (R103, R442). -/
theorem State.eccNote_eq (s : State) (n : LaneId) (as_ : List (Option Nat)) :
    s.eccNote n as_ = s ∨ s.eccNote n as_ = s.put STORE.STAT_ECC_ERR n 1 := by
  unfold State.eccNote
  split
  · exact .inr rfl
  · exact .inl rfl

theorem State.burstDone_frame (s : State) (op : Nat) (k : SessId) (n : LaneId) (first len : Nat) :
    (s.burstDone op k n first len).lanes = s.lanes ∧ (s.burstDone op k n first len).evg = s.evg
      ∧ (s.burstDone op k n first len).pwr = s.pwr := by
  unfold State.burstDone
  rcases s.eccNote_eq n (s.burstAddrs op n first len) with he | he <;> rw [he] <;> split <;> exact ⟨rfl, rfl, rfl⟩

/-- A galley burst notes in its session the slug from which it read (R442). -/
theorem State.galRstart_burstDone (s : State) (k : SessId) (n : LaneId) (first len : Nat) :
    sget (fun _ => 0) ((s.burstDone opGalley k n first len).session k).galRstart n.val = BitVec.ofNat 32 first := by
  simp only [State.burstDone, if_true, State.session_upSess_same, sget_sset_same]

section
variable {s : State} {op : Nat} {h : Hdr} (ha : s.formeAnswers = true) (hf : s.forme.started = none) (hw : h.part = .whole)
  (hr : s.pwr.softReset = false)
include ha hf hw hr

/-- A read-type transaction with no effect of its own. -/
theorem State.transact_plain_read (hrd : readType op h = true) (hst : s.formeStatus op h [] 0 = 0) (hb : isBurst op = false)
    (heff : ∀ u : State, u.perform (s.begin_ op h []) = u) :
    s.transact op h [] 0 = (s.passed op h 3).answered (s.formeData op h) (s.begin_ op h []) := by
  have hreset : (s.passed op h 3).softResetDue = s.passed op h 3 := State.softResetDue_of_none (by rw [State.passed_pwr, hr])
  rw [State.transact_read ha hf hw hrd hst, heff, hreset, State.endData_plain _ rfl hb, State.begin_words hrd hst hb]

/-- GALLEY_READ and STORE_READ. -/
theorem State.transact_burst {n : LaneId} (hb : isBurst op = true) (hn : winLane h = some n) (hst : s.formeStatus op h [] 0 = 0) :
    s.transact op h [] 0
      = ((s.passed op h 3).burstDone op h.session n (s.gal n).rcount (Hdr.len h)).answered
          (s.burstWords op n (s.gal n).rcount (Hdr.len h)) (s.begin_ op h []) := by
  have hh := State.begin_h hw s op []
  have hrd : readType op h = true := by
    simp only [isBurst, Bool.or_eq_true] at hb
    rcases hb with hb | hb <;> simp only [readType, hb, Bool.or_true, Bool.true_or]
  have hcount : (s.begin_ op h []).rcount = (s.gal n).rcount := by simp only [State.begin_, hn]
  have hn' : winLane (s.begin_ op h []).h = some n := by rw [hh, hn]
  have hdata := s.endData_burst (t := s.begin_ op h []) rfl hb hn' (State.begin_words_burst hw hb)
  have heff := (s.passed op h 3).perform_burst (t := s.begin_ op h []) hb hn'
  rw [hh, hcount] at hdata heff
  rw [State.transact_read ha hf hw hrd hst, hdata, heff, State.softResetDue_of_none]
  · rfl
  · rw [(State.burstDone_frame ..).2.2, State.passed_pwr, hr]

end

/-- Of the part, a read with no effect of its own moves MODE_SEEN alone. -/
theorem State.plainRead_frame (s : State) (op : Nat) (h : Hdr) (out : List Word) (t : Started) :
    ((s.passed op h 3).answered out t).lanes = s.lanes ∧ ((s.passed op h 3).answered out t).evg = s.evg
      ∧ ((s.passed op h 3).answered out t).quoins = s.quoins
      ∧ ∀ a, a ≠ FORME.CFG_MODE_SEEN.addr 0 0 → ((s.passed op h 3).answered out t).wd a = s.wd a :=
  ⟨by rw [State.answered_lanes, State.passed_lanes], by rw [State.answered_evg, State.passed_evg], by rw [State.answered_quoins, State.passed_quoins],
    fun a hne => by rw [State.wd_answered, State.wd_passed_ne _ _ _ _ hne]⟩

theorem State.formeData_nop (s : State) {h : Hdr} (hn : winLane h = none) : s.formeData opNop h = [] := by
  simp only [State.formeData, hn]
  rfl

/-- Settles O6: a read that is no burst changes its session's record and MODE_SEEN and drives the data of its opcode; a burst notes beside them where it
began. -/
theorem formeReadsComplete : Obligations.FormeReadsComplete := by
  intro s h ha hopen hr hf hw
  refine ⟨fun hst c hc => ?read, fun hst => ?nop, fun hst hflag _ => ?challenge, fun n hn hst => ?galley, fun n hn hst => ?store⟩
  case read =>
    have ht := State.transact_plain_read ha hf hw hr rfl hst rfl fun u => u.perform_read (.inl rfl)
    have hexec : exec c s = fin (s.transact opRd h [] 0) := by rcases hc with rfl | rfl <;> rfl
    rw [hexec, ht]
    have hrecord := s.record_passed opRd h 3 hopen
    exact ⟨_, rfl, rfl, rfl, by rw [State.session_answered, hrecord], s.plainRead_frame ..⟩
  case nop =>
    have ht := State.transact_plain_read ha hf hw hr rfl hst rfl fun u => u.perform_read (.inr rfl)
    have hexec : exec (.nop h) s = fin (s.transact opNop h [] 0) := rfl
    rw [hexec, ht, State.formeData_nop s (winLane_of_no_address (Hdr.nop_of_status_ok hst))]
    exact ⟨_, rfl, rfl, rfl, s.plainRead_frame ..⟩
  case challenge =>
    have hrd : readType opOpen h = true := by simp only [readType, hflag]; rfl
    have ht := State.transact_plain_read ha hf hw hr hrd hst rfl fun u => u.perform_challenge rfl hflag
    have hexec : exec (.sessionOpenChallenge h) s = fin (s.transact opOpen h [] 0) := rfl
    rw [hexec, ht]
    obtain ⟨hlanes, hevg, hquoins, _⟩ := s.plainRead_frame opOpen h (s.formeData opOpen h) (s.begin_ opOpen h [])
    exact ⟨_, rfl, rfl, rfl, hlanes, hevg, hquoins⟩
  case galley =>
    have hexec : exec (.galleyRead h) s = fin (s.transact opGalley h [] 0) := rfl
    rw [hexec, State.transact_burst ha hf hw hr rfl hn hst]
    obtain ⟨hlanes, hevg, _⟩ := (s.passed opGalley h 3).burstDone_frame opGalley h.session n (s.gal n).rcount (Hdr.len h)
    exact ⟨_, rfl, rfl, by rw [State.answered_lanes, hlanes, State.passed_lanes], by rw [State.answered_evg, hevg, State.passed_evg],
      rfl, State.galRstart_burstDone ..⟩
  case store =>
    have hexec : exec (.storeRead h) s = fin (s.transact opStoreRd h [] 0) := rfl
    rw [hexec, State.transact_burst ha hf hw hr rfl hn hst]
    obtain ⟨hlanes, hevg, _⟩ := (s.passed opStoreRd h 3).burstDone_frame opStoreRd h.session n (s.gal n).rcount (Hdr.len h)
    refine ⟨_, rfl, rfl, by rw [State.answered_lanes, hlanes, State.passed_lanes], by rw [State.answered_evg, hevg, State.passed_evg], ?_⟩
    simp only [State.answered_data, State.burstWords, State.burstAddrs, List.map_map]
    rfl

end Sys2Proof.Machine
end

section
/-! PROOFS. What raises, log entries, ending grants, quoins that become free and the close of a session leave of the sessions, of the Forme port and
of a soft reset that is due (spec/06_sessions_and_quoins.md R138, R146 to R150; spec/18_chase_services.md R462, R472 to R475). -/

namespace Sys2Proof.Machine

/-- The same sessions are open, a soft reset is due as before, and no transaction has begun. -/
def KeepsPort (s t : State) : Prop :=
  (∀ k : SessId, (t.session k).isOpen = (s.session k).isOpen) ∧ t.pwr.softReset = s.pwr.softReset
    ∧ (s.forme.started = none → t.forme.started = none)

namespace KeepsPort

/-! ### One update -/

theorem refl (s : State) : KeepsPort s s := ⟨fun _ => rfl, rfl, id⟩

theorem trans {s t u : State} (h : KeepsPort s t) (k : KeepsPort t u) : KeepsPort s u :=
  ⟨fun i => (k.1 i).trans (h.1 i), k.2.1.trans h.2.1, k.2.2 ∘ h.2.2⟩

theorem foldl {α : Type} {f : State → α → State} (hf : ∀ s a, KeepsPort s (f s a)) (l : List α) (s : State) : KeepsPort s (l.foldl f s) := by
  induction l generalizing s with
  | nil => exact .refl s
  | cons a r ih => exact (hf s a).trans (ih _)

/-- An update that touches neither the sessions nor the supplies nor the port. -/
theorem of_fields {s t : State} (hs : t.sess = s.sess) (hp : t.pwr = s.pwr) (hf : t.forme = s.forme) : KeepsPort s t :=
  ⟨fun _ => by rw [State.session, hs, State.session], by rw [hp], fun h => by rw [hf, h]⟩

theorem of_setWd (s : State) (a : Nat) (v : Word) : KeepsPort s (s.setWd a v) := of_fields rfl rfl rfl
theorem of_p (s : State) (f : Fld) (n i v : Nat) : KeepsPort s (s.p f n i v) := of_fields rfl rfl rfl
theorem of_put (s : State) (f : Fld) (n v : Nat) : KeepsPort s (s.put f n v) := of_fields rfl rfl rfl
theorem of_bump (s : State) (f : Fld) (n i k : Nat) : KeepsPort s (s.bump f n i k) := of_fields rfl rfl rfl
theorem of_upLane (s : State) (n : LaneId) (f : Lane → Lane) : KeepsPort s (s.upLane n f) := of_fields rfl rfl rfl
theorem of_upEng (s : State) (n : LaneId) (f : Eng → Eng) : KeepsPort s (s.upEng n f) := of_fields rfl rfl rfl
theorem of_upChase (s : State) (f : Chase → Chase) : KeepsPort s (s.upChase f) := of_fields rfl rfl rfl
theorem of_setQuoin (s : State) (q : Nat) (x : Quoin) : KeepsPort s (s.setQuoin q x) := of_fields rfl rfl rfl

theorem of_log (s : State) (l : Colophon) : KeepsPort s { s with log := l } := of_fields rfl rfl rfl

theorem of_upSess {f : Session → Session} (hf : ∀ x, (f x).isOpen = x.isOpen) (s : State) (k : SessId) : KeepsPort s (s.upSess k f) := by
  refine ⟨fun j => ?_, rfl, id⟩
  by_cases h : j = k
  · subst h; rw [State.session_upSess_same, hf]
  · rw [State.session_upSess_ne s f h]

theorem of_strike (s : State) (a : Nat) (m : Word) : KeepsPort s (s.strike a m) :=
  ⟨fun _ => rfl, rfl, fun h => by simp only [State.strike, FormeOut.strike, h, Option.map_none]⟩

/-! ### Occurrences and event bits -/

theorem of_setSrc (s : State) (i : Nat) (x : Src) : KeepsPort s (s.setSrc i x) := of_fields rfl rfl rfl
theorem of_setCoal (s : State) (c : Nat) (x : Coal) : KeepsPort s (s.setCoal c x) := of_fields rfl rfl rfl
theorem of_makePending (s : State) (i : Nat) : KeepsPort s (s.makePending i) := of_setSrc ..
theorem of_countAt (s : State) (c : Nat) (b : Bool) : KeepsPort s (s.countAt c b) := of_setCoal ..

theorem of_fire (s : State) (c : Nat) : KeepsPort s (s.fire c) := (foldl of_makePending _ s).trans (of_setCoal _ _ _)

theorem of_fireIfCounted (s : State) (c : Nat) : KeepsPort s (s.fireIfCounted c) := by
  unfold State.fireIfCounted
  split
  · exact of_fire s c
  · exact .refl s

theorem of_occur (s : State) (i : Nat) : KeepsPort s (s.occur i) := by
  unfold State.occur
  extract_lets x t
  split
  · exact .refl s
  have ht : KeepsPort s t := of_strike ..
  split
  · split
    · exact ht.trans (of_makePending t i)
    · exact ht
  split
  · split
    · exact (ht.trans (of_makePending t i)).trans (of_fire _ _)
    · exact ((ht.trans (of_setSrc t i _)).trans (of_countAt _ _ _)).trans (of_fireIfCounted _ _)
  · exact (ht.trans (of_countAt t _ _)).trans (of_fireIfCounted _ _)

theorem of_raise (s : State) (p : Page) (b : Nat) : KeepsPort s (s.raise p b) := by
  have hset : KeepsPort s ((s.setHw p 4 (s.hw p 4 ||| bitMask b b)).strike (p.at_ 5) (bitMask b b)) :=
    (of_setWd s _ _).trans (of_strike _ _ _)
  unfold State.raise
  extract_lets t
  split
  · exact hset
  · exact hset.trans (of_occur _ _)

theorem of_raiseMod (s : State) (b : Nat) : KeepsPort s (s.raiseMod b) := of_raise s .mod b

/-! ### Log entries -/

theorem of_dropEntry (s : State) : KeepsPort s s.dropEntry := by
  unfold State.dropEntry
  extract_lets t told l u
  have hu : KeepsPort s u := (of_bump s LOG.DROPPED 0 0 1).trans (of_log t _)
  split
  · exact hu
  · exact hu.trans (of_raise u .log 0)

theorem of_writeGeneral (s : State) (e : LogEntry) : KeepsPort s (s.writeGeneral e) := by
  unfold State.writeGeneral
  extract_lets l e' enters ahead g l' t t' u v
  have ht : KeepsPort s t := of_log s l'
  have ht' : KeepsPort s t' := by
    unfold t'
    split
    · exact ht.trans (of_bump ..)
    · exact ht
  have hu : KeepsPort s u := by
    unfold u
    split
    · exact (ht'.trans (of_log t' _)).trans (of_put { t' with log := { t'.log with dueAt := t'.clock } } LOG.STAT_WEAR_DUE 0 1)
    · exact ht'
  have hv : KeepsPort s v := hu.trans (of_put ..)
  split
  · split
    · exact hv
    · exact (hv.trans (of_log v _)).trans (of_raise { v with log := { v.log with fullTold := true } } .log 1)
  · exact hu

theorem of_intoGeneral (s : State) (e : LogEntry) : KeepsPort s (s.intoGeneral e) := by
  unfold State.intoGeneral
  split
  · exact of_writeGeneral s e
  split
  · exact of_fields rfl rfl rfl
  · exact of_dropEntry s

theorem of_intoFault (s : State) (e : LogEntry) : KeepsPort s (s.intoFault e) := by
  unfold State.intoFault
  split
  case isFalse => exact of_intoGeneral s _
  extract_lets l t u v
  have hu : KeepsPort s u := ((of_log s t.log).trans (of_put t LOG.STAT_FAULT_COUNT 0 _)).trans (of_raise ..)
  have hv : KeepsPort s v := hu.trans (of_put ..)
  split
  · split
    · exact hv
    · exact (hv.trans (of_log v _)).trans (of_raise { v with log := { v.log with faultFullTold := true } } .log 3)
  · exact hu

theorem of_shelve (s : State) (e : LogEntry) (b : Bool) : KeepsPort s (s.shelve e b) := by
  unfold State.shelve
  extract_lets p t
  have ht : KeepsPort s t := ⟨fun _ => rfl, rfl, id⟩
  exact ht.trans (of_put ..)

theorem of_offer (s : State) (e : LogEntry) : KeepsPort s (s.offer e) := by
  unfold State.offer
  extract_lets frozen u
  split
  · exact of_intoGeneral s e
  split
  · split
    · exact of_shelve ..
    · exact (of_shelve ..).trans (of_intoFault u e)
  split
  · exact of_bump ..
  split
  · exact of_dropEntry s
  · exact (of_put ..).trans (of_intoGeneral _ e)

theorem of_logIt (s : State) (code lane origin : Nat) : KeepsPort s (s.logIt code lane origin) := by
  have hfree : KeepsPort s s.freeDetail.2 := of_fields rfl rfl rfl
  exact hfree.trans (of_offer _ _)

/-! ### Grants that end (R462) -/

theorem of_setHv (s : State) (n : LaneId) (st : Nat) : KeepsPort s (s.setHv n st) := of_fields rfl rfl rfl

theorem of_abortResult (s : State) (n : LaneId) (cause : Nat) : KeepsPort s (s.abortResult n cause) := by
  unfold State.abortResult
  split
  · exact .refl s
  · exact of_fields rfl rfl rfl

theorem of_endCycle (s : State) (n : LaneId) (cause : Nat) : KeepsPort s (s.endCycle n cause) := by
  unfold State.endCycle
  split
  · exact ((of_fields rfl rfl rfl).trans (of_setHv ((s.markEnd n).put SMU.STAT_CAUSE n cause) n 5)).trans (of_abortResult _ _ _)
  split
  · exact (of_put ..).trans (of_abortResult _ _ _)
  · exact .refl s

theorem of_grantGone (s : State) (h : Nat) (n : LaneId) : KeepsPort s (s.grantGone h n) := by
  unfold State.grantGone State.friskEnded
  have hlog : KeepsPort s ((s.raise .chase 1).logIt 0x023 n.val h) := (of_raise ..).trans (of_logIt ..)
  split
  · exact hlog.trans (of_endCycle ..)
  · exact hlog

theorem of_endGrant (s : State) (h : Nat) (n : LaneId) : KeepsPort s (s.endGrant h n) := by
  unfold State.endGrant
  split
  · exact .refl s
  extract_lets kids t
  have ht : KeepsPort s t := of_fields rfl rfl rfl
  exact (ht.trans (of_grantGone t h n)).trans (foldl (fun s g => of_grantGone s _ n) _ _)

theorem of_endGrantsOf (s : State) (h : Nat) : KeepsPort s (s.endGrantsOf h) := foldl (fun s n => of_endGrant s h n) _ s

/-! ### Quoins that become free (R146 to R150) -/

theorem of_endWaits (s : State) (q : Nat) : KeepsPort s (s.endWaits q) := by
  unfold State.endWaits
  extract_lets waiting t u
  have hwait : ∀ u k, KeepsPort u (u.upSess k fun x => { x with wait := none, released := x.released ||| BitVec.ofNat 96 (2 ^ q) }) :=
    of_upSess fun _ => rfl
  have ht : KeepsPort s t := foldl hwait _ s
  have hu : KeepsPort s u := by
    unfold u
    split
    · exact ht.trans (of_strike ..)
    · exact ht
  split
  · exact hu
  · exact hu.trans (of_raise ..)

theorem of_breakOnly (s : State) (qs : List Nat) : KeepsPort s (s.breakOnly qs) := by
  unfold State.breakOnly
  extract_lets t u
  have ht : KeepsPort s t := foldl (fun s q => of_setQuoin s q _) _ s
  have hu : KeepsPort s u := by
    unfold u
    split
    · exact ht
    · exact ht.trans (of_raise ..)
  exact hu.trans (foldl of_endWaits _ _)

theorem of_halt (s : State) (n : LaneId) (code : Nat) : KeepsPort s (s.halt n code) := by
  unfold State.halt
  extract_lets now t u
  have hu : KeepsPort s u := of_fields rfl rfl rfl
  split
  · exact hu.trans (of_raise ..)
  · exact hu.trans (of_raise ..)

theorem of_suspendWait (s : State) (n : LaneId) : KeepsPort s (s.suspendWait n) := by
  unfold State.suspendWait
  split
  · exact .refl s
  · exact of_upEng ..

theorem of_debugHalt (s : State) (n : LaneId) (step : Bool) : KeepsPort s (s.debugHalt n step) := by
  unfold State.debugHalt
  extract_lets w t
  have ht : KeepsPort s t := ((of_suspendWait s n).trans (of_upEng ..)).trans (of_halt ..)
  split
  · exact ht.trans (of_raise ..)
  · exact ht

theorem of_afterInstr (s : State) (n : LaneId) (user trap : Bool) : KeepsPort s (s.afterInstr n user trap) := by
  unfold State.afterInstr
  extract_lets e t
  have ht : KeepsPort s t := of_upEng ..
  split
  · exact .refl s
  split
  · exact .refl s
  split
  · exact ht
  split
  · exact ht.trans (of_upEng ..)
  · exact ht.trans (of_debugHalt ..)

theorem of_takeQuoin (s : State) (h q : Nat) : KeepsPort s (s.takeQuoin h q).2 := by
  unfold State.takeQuoin
  split
  · exact .refl s
  split
  · exact .refl s
  split
  · exact .refl s
  split
  · exact (of_bump ..).trans (of_raise ..)
  split
  · exact of_setQuoin ..
  · exact .refl s

theorem of_endWait (s : State) (n : LaneId) (code : Nat) : KeepsPort s (s.endWait n code) := by
  unfold State.endWait
  split
  · exact .refl s
  · exact (of_upEng ..).trans (of_afterInstr ..)

theorem of_retryWait (s : State) (n : LaneId) (q : Nat) : KeepsPort s (s.retryWait n q) := by
  unfold State.retryWait
  split
  · exact .refl s
  split
  · exact .refl s
  rcases htake : s.takeQuoin (0x10 + n.val) q with ⟨c, u⟩
  have hu : KeepsPort s u := by simpa only [htake] using of_takeQuoin s (0x10 + n.val) q
  dsimp only
  split
  · exact hu.trans (of_endWait u n c)
  · exact .refl s

theorem of_engsRetry (s : State) (q : Nat) : KeepsPort s (s.engsRetry q) := foldl (fun s n => of_retryWait s n q) _ s

theorem of_retryFreed (old s : State) : KeepsPort s (State.retryFreed old s) := foldl of_engsRetry _ s

/-! ### The close of a session (R138) -/

theorem of_dropRequest (s : State) (k : SessId) : KeepsPort s (s.dropRequest k) := by
  unfold State.dropRequest
  split
  · exact of_upChase ..
  · exact .refl s

theorem of_closeRules (s : State) (k : SessId) : KeepsPort s (s.closeRules k) := by
  refine foldl (fun s r => ?_) _ s
  split
  · exact of_p ..
  · exact .refl s

theorem of_sessOutcome (s : State) (k : SessId) (c : Nat) : KeepsPort s (s.sessOutcome k c) :=
  ((of_p ..).trans (of_put ..)).trans (of_put ..)

theorem of_sessionChange (old s : State) : KeepsPort s (State.sessionChange old s) := by
  unfold State.sessionChange
  split
  · exact .refl s
  · exact of_raiseMod s 6

end KeepsPort

/-- A session that has been closed is not open, and a soft reset is due as before. -/
theorem State.closeSession_closed (s : State) (k : SessId) :
    ((s.closeSession k).session k).isOpen = false ∧ (s.closeSession k).pwr.softReset = s.pwr.softReset := by
  unfold State.closeSession
  extract_lets t u v
  have ht : KeepsPort s t := .of_breakOnly ..
  have hv : KeepsPort u ((v.closeRules k).logIt 0x011 noLane k.val) :=
    ((((KeepsPort.of_dropRequest u k).trans (.of_endGrantsOf ..)).trans (.of_closeRules ..)).trans (.of_logIt ..))
  have hu : (u.session k).isOpen = false := by rw [State.session_upSess_same]
  exact ⟨(hv.1 k).trans hu, hv.2.1.trans ht.2.1⟩

end Sys2Proof.Machine
end

section
/-! PROOFS. The Forme port's write-type transactions that pass every check, and those that fail their header's CRC or are cut off
(spec/04_forme_port.md R92 to R96, R100, R105, R107, R108; spec/07_event_gatherer.md R159, R163, R169, R170). -/

namespace Sys2Proof.Machine

/-! ### What counting an occurrence rests on -/

/-- The gatherer, the time and the settings of the coalescers are the same. -/
structure GatherAlike (s t : State) : Prop where
  evg : s.evg = t.evg
  clock : s.clock = t.clock
  stepNo : s.stepNo = t.stepNo
  bypass : ∀ c, s.g EVG.COAL_BYPASS 0 c = t.g EVG.COAL_BYPASS 0 c
  time : ∀ c, s.g EVG.COAL_TIME 0 c = t.g EVG.COAL_TIME 0 c
  count : ∀ c, s.g EVG.COAL_COUNT 0 c = t.g EVG.COAL_COUNT 0 c

namespace GatherAlike

variable {s t : State}

theorem src (h : GatherAlike s t) (i : Nat) : s.src i = t.src i := by rw [State.src, h.evg, State.src]
theorem coal (h : GatherAlike s t) (c : Nat) : s.coal c = t.coal c := by rw [State.coal, h.evg, State.coal]

theorem coalIdle (h : GatherAlike s t) (c : Nat) : s.coalIdle c = t.coalIdle c := by
  simp only [State.coalIdle, State.busyMembers, State.coalTicks, h.coal, h.evg, h.clock, h.time]
  rfl

theorem setSrc (h : GatherAlike s t) (i : Nat) (x : Src) : GatherAlike (s.setSrc i x) (t.setSrc i x) :=
  ⟨by simp only [State.setSrc, h.evg], h.clock, h.stepNo, h.bypass, h.time, h.count⟩

theorem setCoal (h : GatherAlike s t) (c : Nat) (x : Coal) : GatherAlike (s.setCoal c x) (t.setCoal c x) :=
  ⟨by simp only [State.setCoal, h.evg], h.clock, h.stepNo, h.bypass, h.time, h.count⟩

theorem strike (h : GatherAlike s t) (a : Nat) (m : Word) : GatherAlike (s.strike a m) (t.strike a m) :=
  ⟨h.evg, h.clock, h.stepNo, h.bypass, h.time, h.count⟩

theorem makePending (h : GatherAlike s t) (i : Nat) : GatherAlike (s.makePending i) (t.makePending i) := by
  unfold State.makePending
  rw [h.src, h.stepNo]
  exact h.setSrc i _

theorem fire (h : GatherAlike s t) (c : Nat) : GatherAlike (s.fire c) (t.fire c) := by
  have hfold (l : List Nat) : GatherAlike (l.foldl (fun s i => s.makePending i) s) (l.foldl (fun s i => s.makePending i) t) := by
    induction l generalizing s t with
    | nil => exact h
    | cons i r ih => exact ih (h.makePending i)
  unfold State.fire
  rw [h.coal, h.clock, h.evg]
  exact (hfold _).setCoal c _

theorem fireIfCounted (h : GatherAlike s t) (c : Nat) : GatherAlike (s.fireIfCounted c) (t.fireIfCounted c) := by
  unfold State.fireIfCounted
  rw [h.coal, h.count]
  split
  · exact h.fire c
  · exact h

theorem countAt (h : GatherAlike s t) (c : Nat) (b : Bool) : GatherAlike (s.countAt c b) (t.countAt c b) := by
  unfold State.countAt
  rw [h.coal, h.clock]
  exact h.setCoal c _

theorem occur (h : GatherAlike s t) (i : Nat) : GatherAlike (s.occur i) (t.occur i) := by
  have hs := h.strike (Page.evg.at_ (0xE0 + i / 32)) (bitMask (i % 32) (i % 32))
  have hon : ∀ c, (s.strike (Page.evg.at_ (0xE0 + i / 32)) (bitMask (i % 32) (i % 32))).on EVG.COAL_BYPASS 0 c
      = (t.strike (Page.evg.at_ (0xE0 + i / 32)) (bitMask (i % 32) (i % 32))).on EVG.COAL_BYPASS 0 c := fun c => by
    rw [State.on, hs.bypass, State.on]
  simp only [State.occur, h.src, hon, hs.coalIdle]
  split
  · exact h
  split
  · split
    · exact hs.makePending i
    · exact hs
  split
  · split
    · exact (hs.makePending i).fire _
    · exact ((hs.setSrc i _).countAt _ _).fireIfCounted _
  · exact (hs.countAt _ _).fireIfCounted _

theorem ring (h : GatherAlike s t) (i : Nat) : GatherAlike (s.ring i) (t.ring i) := by
  unfold State.ring
  rw [h.src]
  exact (h.setSrc i _).occur i

end GatherAlike

/-- The record of a session and MODE_SEEN are nothing to the gatherer. -/
theorem State.gatherAlike_passed (s : State) (op : Nat) (h : Hdr) (outcome : Nat) : GatherAlike (s.passed op h outcome) s where
  evg := s.passed_evg op h outcome
  clock := s.passed_clock op h outcome
  stepNo := s.passed_stepNo op h outcome
  bypass c := s.g_passed_ne op h outcome (by simp only [Fld.addr, EVG.COAL_BYPASS, FORME.CFG_MODE_SEEN]; omega)
  time c := s.g_passed_ne op h outcome (by simp only [Fld.addr, EVG.COAL_TIME, FORME.CFG_MODE_SEEN]; omega)
  count c := s.g_passed_ne op h outcome (by simp only [Fld.addr, EVG.COAL_COUNT, FORME.CFG_MODE_SEEN]; omega)

/-- A ring moves the gatherer and no other block. -/
theorem State.ring_frame (s : State) (i : Nat) : (s.ring i).lanes = s.lanes ∧ (s.ring i).quoins = s.quoins ∧ (s.ring i).pwr = s.pwr := by
  simp only [State.ring, State.occur_lanes, State.occur_quoins, State.occur_pwr, State.setSrc_lanes, State.setSrc_quoins, State.setSrc_pwr, and_self]

/-! ### The effects at the press -/

/-- The session with one response more behind those that wait (R136). -/
def Session.withResponse (x : Session) (r : BitVec 256) : Session := { x with responses := x.responses ++ [(r, x.lockout)] }

/-- A response is delivered: it waits behind the others, and the outcome is PENDING (R134, R136). -/
def State.delivered (s : State) (k : SessId) (r : BitVec 256) : State := (s.upSess k fun x => x.withResponse r).sessOutcome k soPending

/-- A session's host closes it, and waiting engines try the quoins that it held (R138, R148). -/
def State.hostClosed (s : State) (k : SessId) : State :=
  State.retryFreed s (State.sessionChange s ((s.closeSession k).sessOutcome k soClosed))

/-- A STORE_WRITE has put words into the buffer of lane n's window, for this address (R105). -/
def State.storeTaken (s : State) (n : LaneId) (addr : Nat) (ws : List Word) : State :=
  (s.landStore n).upLane n fun l => { l with storeWrite := some ⟨addr, ws⟩ }

section
variable (s u : State) {h : Hdr} (data : List Word) (hw : h.part = .whole)
include hw

theorem State.perform_write :
    u.perform (s.begin_ opWr h data) = u.pressWith (.host h.session) (pressList (writePairs h data)) (s.begin_ opWr h data).proof s.stepNo := by
  simp only [State.perform, State.begin_op, State.begin_data, State.begin_since, State.begin_h hw, if_true]

theorem State.perform_close :
    u.perform (s.begin_ opClose h data) = u.hostClosed h.session := by
  simp only [State.perform, State.begin_op, State.begin_h hw, show opClose ≠ opWr by decide, if_true, if_false, State.hostClosed]

theorem State.perform_response (hflag : Hdr.flag h 0 = false) :
    u.perform (s.begin_ opOpen h data) = u.delivered h.session (BitVec.ofNat 256 (wordsNat (fitData h data))) := by
  simp only [State.perform, State.begin_op, State.begin_data, State.begin_h hw, hflag, show opOpen ≠ opWr by decide,
    show opOpen ≠ opClose by decide, if_true, if_false, Bool.false_eq_true, Session.withResponse, State.delivered]

theorem State.perform_ring : u.perform (s.begin_ opRing h data) = u.ring (Hdr.at_ h) := by
  simp only [State.perform, State.begin_op, State.begin_h hw, show opRing ≠ opWr by decide, show opRing ≠ opClose by decide,
    show opRing ≠ opOpen by decide, if_true, if_false]

theorem State.perform_storeWrite {n : LaneId} (hn : winLane h = some n) :
    u.perform (s.begin_ opStoreWr h data) = u.storeTaken n (u.winBase n) (fitData h data) := by
  simp only [State.perform, State.begin_op, State.begin_data, State.begin_h hw, hn, show opStoreWr ≠ opWr by decide,
    show opStoreWr ≠ opClose by decide, show opStoreWr ≠ opOpen by decide, show opStoreWr ≠ opRing by decide, if_true, if_false, State.storeTaken]

end

/-! ### What these effects leave alone -/

theorem KeepsPort.of_putWord (s : State) (n : LaneId) (a : Nat) (v : Word) : KeepsPort s (s.putWord n a v) := of_fields rfl rfl rfl

theorem KeepsPort.of_landStore (s : State) (n : LaneId) : KeepsPort s (s.landStore n) := by
  cases hx : (s.lane n).storeWrite with
  | none =>
    rw [State.landStore, hx]
    exact .refl s
  | some x =>
    have hword (u : State) (e : Word × Nat) : KeepsPort u (u.putWord n (x.addr + 4 * e.2) e.1) := of_putWord ..
    have hwords := foldl hword (x.words.zip (List.range x.words.length)) s
    simp only [State.landStore, hx]
    exact hwords.trans (of_upLane ..)

theorem KeepsPort.of_storeTaken (s : State) (n : LaneId) (addr : Nat) (ws : List Word) : KeepsPort s (s.storeTaken n addr ws) :=
  (of_landStore s n).trans (of_upLane ..)

/-- An outcome lies in registers alone. -/
theorem State.sessOutcome_frame (s : State) (k : SessId) (c : Nat) :
    (s.sessOutcome k c).lanes = s.lanes ∧ (s.sessOutcome k c).quoins = s.quoins ∧ (s.sessOutcome k c).pwr = s.pwr
      ∧ (s.sessOutcome k c).sess = s.sess := by
  simp only [State.sessOutcome, State.put_lanes, State.put_quoins, State.put_pwr, State.put_sess, State.p_lanes, State.p_quoins, State.p_pwr,
    State.p_sess, and_self]

theorem State.g_sessOutcome (s : State) (k : SessId) (c : Nat) : (s.sessOutcome k c).g SESS.OUTCOME 0 k.val = c % 256 := by
  have hsession : MOD.SESSIONS_LAST_SESSION.apart 0 0 SESS.OUTCOME 0 k.val :=
    .inl (by simp only [Fld.addr, SESS.OUTCOME, MOD.SESSIONS_LAST_SESSION]; omega)
  have houtcome : MOD.SESSIONS_LAST_OUTCOME.apart 0 0 SESS.OUTCOME 0 k.val :=
    .inl (by simp only [Fld.addr, SESS.OUTCOME, MOD.SESSIONS_LAST_OUTCOME]; omega)
  rw [State.sessOutcome, State.g_put_ne _ _ _ _ _ _ _ rfl hsession, State.g_put_ne _ _ _ _ _ _ _ rfl houtcome, State.g_p_same _ _ _ _ _ rfl]
  rfl

section
variable (s : State) (k : SessId)

theorem State.delivered_frame (r : BitVec 256) :
    (s.delivered k r).lanes = s.lanes ∧ (s.delivered k r).quoins = s.quoins ∧ (s.delivered k r).pwr = s.pwr := by
  obtain ⟨hlanes, hquoins, hpwr, _⟩ := (s.upSess k fun x => x.withResponse r).sessOutcome_frame k soPending
  rw [State.delivered, hlanes, hquoins, hpwr, State.upSess_lanes, State.upSess_quoins, State.upSess_pwr]
  exact ⟨rfl, rfl, rfl⟩

/-- A session keeps the responses that wait before a new one (R136). -/
theorem State.responses_delivered (r : BitVec 256) :
    ((s.delivered k r).session k).responses = (s.session k).responses ++ [(r, (s.session k).lockout)] := by
  obtain ⟨_, _, _, hsess⟩ := (s.upSess k fun x => x.withResponse r).sessOutcome_frame k soPending
  rw [State.delivered, State.session, hsess, ← State.session, State.session_upSess_same, Session.withResponse]

theorem State.outcome_delivered (r : BitVec 256) : (s.delivered k r).g SESS.OUTCOME 0 k.val = soPending :=
  State.g_sessOutcome _ k soPending

/-- A session that its host closes is not open, and no soft reset falls due (R138). -/
theorem State.hostClosed_closed : ((s.hostClosed k).session k).isOpen = false ∧ (s.hostClosed k).pwr.softReset = s.pwr.softReset := by
  obtain ⟨hclosed, hreset⟩ := s.closeSession_closed k
  obtain ⟨hopen, hsoft, _⟩ := ((KeepsPort.of_sessOutcome (s.closeSession k) k soClosed).trans (.of_sessionChange s _)).trans (.of_retryFreed s _)
  exact ⟨(hopen k).trans hclosed, hsoft.trans hreset⟩

end

/-! ### Transactions that pass, by opcode -/

section
variable {s : State} {h : Hdr} (ha : s.formeAnswers = true) (hf : s.forme.started = none) (hw : h.part = .whole) (hr : s.pwr.softReset = false)
include ha hf hw

/-- WRITE and WRITE_SCATTER press their words together (R92). -/
theorem exec_write_ok {data : List Word} {dcrc : BitVec 16} (hst : s.formeStatus opWr h data dcrc = 0) {c : Instr}
    (hc : c = .write h data dcrc ∨ c = .writeScatter h data dcrc) :
    exec c s = .next (((((s.passed opWr h 1).pressWith (.host h.session) (pressList (writePairs h data)) (s.begin_ opWr h data).proof s.stepNo
      ).softResetDue).answered [] (s.begin_ opWr h data)).settle) := by
  have hexec : exec c s = fin (s.transact opWr h data dcrc) := by rcases hc with rfl | rfl <;> rfl
  rw [hexec, State.transact_write ha hf hw rfl hst (State.perform_write s _ data hw), fin]

include hr

/-- A write-type transaction whose effect makes no soft reset due. -/
theorem State.transact_press {op : Nat} {data : List Word} {dcrc : BitVec 16} (hwr : writeType op h = true)
    (hst : s.formeStatus op h data dcrc = 0) {u : State} (heff : (s.passed op h 1).perform (s.begin_ op h data) = u)
    (hsoft : u.pwr.softReset = (s.passed op h 1).pwr.softReset) : s.transact op h data dcrc = u.answered [] (s.begin_ op h data) := by
  rw [State.transact_write ha hf hw hwr hst heff, State.softResetDue_of_none (by rw [hsoft, State.passed_pwr, hr])]

theorem exec_storeWrite_ok {data : List Word} {dcrc : BitVec 16} {n : LaneId} (hn : winLane h = some n)
    (hst : s.formeStatus opStoreWr h data dcrc = 0) :
    exec (.storeWrite h data dcrc) s
      = .next (((s.passed opStoreWr h 1).storeTaken n (s.winBase n) (fitData h data)).answered [] (s.begin_ opStoreWr h data)).settle := by
  have hexec : exec (.storeWrite h data dcrc) s = fin (s.transact opStoreWr h data dcrc) := rfl
  have hbase : (s.passed opStoreWr h 1).winBase n = s.winBase n := by
    rw [State.winBase, s.g_passed_ne opStoreWr h 1 (by simp only [Fld.addr, STORE.WIN_BASE, FORME.CFG_MODE_SEEN]; omega), State.winBase]
  rw [hexec, State.transact_press ha hf hw hr rfl hst (State.perform_storeWrite s _ data hw hn) (KeepsPort.of_storeTaken ..).2.1, hbase, fin]

theorem exec_sessionOpenResponse_ok {data : List Word} {dcrc : BitVec 16} (hflag : Hdr.flag h 0 = false)
    (hst : s.formeStatus opOpen h data dcrc = 0) :
    exec (.sessionOpenResponse h data dcrc) s
      = .next (((s.passed opOpen h 1).delivered h.session (BitVec.ofNat 256 (wordsNat (fitData h data)))).answered []
          (s.begin_ opOpen h data)).settle := by
  have hexec : exec (.sessionOpenResponse h data dcrc) s = fin (s.transact opOpen h data dcrc) := rfl
  have hwr : writeType opOpen h = true := by simp only [writeType, hflag]; rfl
  have hsoft := ((s.passed opOpen h 1).delivered_frame h.session (BitVec.ofNat 256 (wordsNat (fitData h data)))).2.2
  rw [hexec, State.transact_press ha hf hw hr hwr hst (State.perform_response s _ data hw hflag) (by rw [hsoft]), fin]

theorem exec_sessionClose_ok (hst : s.formeStatus opClose h [] 0 = 0) :
    exec (.sessionClose h) s = .next (((s.passed opClose h 1).hostClosed h.session).answered [] (s.begin_ opClose h [])).settle := by
  have hexec : exec (.sessionClose h) s = fin (s.transact opClose h [] 0) := rfl
  rw [hexec, State.transact_press ha hf hw hr rfl hst (State.perform_close s _ [] hw) (State.hostClosed_closed ..).2, fin]

theorem exec_ring_ok (hst : s.formeStatus opRing h [] 0 = 0) :
    exec (.ring h) s = .next (((s.passed opRing h 1).ring (Hdr.at_ h)).answered [] (s.begin_ opRing h [])).settle := by
  have hexec : exec (.ring h) s = fin (s.transact opRing h [] 0) := rfl
  have hpwr := ((s.passed opRing h 1).ring_frame (Hdr.at_ h)).2.2
  rw [hexec, State.transact_press ha hf hw hr rfl hst (State.perform_ring s _ [] hw) (by rw [hpwr]), fin]

end

/-! ### Transactions that stop, fail or are cut off -/

/-- A transaction that is no burst and stops in its midst waits, with nothing pressed (R108). -/
theorem State.transact_stops {s : State} {op : Nat} {h : Hdr} {data : List Word} {dcrc : BitVec 16} {k : Nat} (ha : s.formeAnswers = true)
    (hf : s.forme.started = none) (hp : h.part = .begin k) (hb : isBurst op = false) :
    s.transact op h data dcrc = { s with forme := { s.forme with started := some { s.begin_ op h data with sent := min k (Hdr.len h) } } } := by
  have he : s.entered op h data = some (s.begin_ op h data) := by
    simp only [State.entered, hf, hp, reduceCtorEq, if_false]
  rw [isBurst] at hb
  simp only [State.transact, ha, he, hp, hb, Bool.not_true, Bool.and_false, Bool.false_eq_true, if_false]

/-- What a header that fails its CRC leaves: its counter, MODE_SEEN and the answer (R96). -/
def State.headerRefused (s : State) (h : Hdr) (quad : Bool) : State :=
  { (s.bump FORME.ERRS_HDR 0).modeSeen h with forme := ⟨1, [], 0, tailBytes quad 1 h.seq, none⟩ }

theorem State.transact_badHeader {s : State} {op : Nat} {h : Hdr} {data : List Word} {dcrc : BitVec 16} (ha : s.formeAnswers = true)
    (hf : s.forme.started = none) (hw : h.part = .whole) (hr : s.pwr.softReset = false) (hc : hdrCrc op h ≠ h.hcrc.toNat) :
    s.transact op h data dcrc = s.headerRefused h (s.begin_ op h data).quad := by
  have hst (x : BitVec 16) : s.formeStatus op h data x = 1 := by simp only [State.formeStatus, hc, ne_eq, not_false_eq_true, if_true]
  have hend : s.endStatus (s.begin_ op h data) dcrc = 1 := by
    simp only [State.endStatus, State.begin_h hw, State.begin_op, State.begin_data, State.begin_cut, State.begin_status, hst, Bool.false_eq_true,
      if_false]
    split <;> rfl
  have hreset : ((s.bump FORME.ERRS_HDR 0).modeSeen h).softResetDue = (s.bump FORME.ERRS_HDR 0).modeSeen h :=
    State.softResetDue_of_none (by simp only [State.modeSeen, State.put_pwr, State.bump_pwr, hr])
  rw [State.transact_whole ha hf hw]
  simp only [State.finish, State.headerRefused, hend, State.begin_h hw, State.formeCounts, State.formeRecord, ranWhole, hreset, true_or, if_true,
    if_false, beq_self_eq_true, Bool.or_true, show ((1 : Nat) == 0 || (1 : Nat) == 5) = false by decide, Bool.false_eq_true, List.isEmpty_nil]

theorem State.headerRefused_frame (s : State) (h : Hdr) (quad : Bool) :
    (s.headerRefused h quad).sess = s.sess ∧ (s.headerRefused h quad).lanes = s.lanes ∧ (s.headerRefused h quad).evg = s.evg
      ∧ (s.headerRefused h quad).quoins = s.quoins := by
  simp only [State.headerRefused, State.modeSeen, State.put_sess, State.put_lanes, State.put_evg, State.put_quoins, State.bump_sess,
    State.bump_lanes, State.bump_evg, State.bump_quoins, and_self]

theorem State.headerRefused_counts (s : State) (h : Hdr) (quad : Bool) :
    (s.headerRefused h quad).g FORME.ERRS_HDR 0 = min (s.g FORME.ERRS_HDR 0 + 1) (2 ^ FORME.ERRS_HDR.width - 1) := by
  have happ : FORME.CFG_MODE_SEEN.apart 0 0 FORME.ERRS_HDR 0 0 := .inl (by decide)
  calc (s.headerRefused h quad).g FORME.ERRS_HDR 0
      = ((s.bump FORME.ERRS_HDR 0).modeSeen h).g FORME.ERRS_HDR 0 :=
        State.g_congr (by simp only [State.headerRefused]) ..
    _ = (s.bump FORME.ERRS_HDR 0).g FORME.ERRS_HDR 0 := State.g_put_ne _ _ _ _ _ _ _ rfl happ
    _ = _ := State.g_bump_same _ _ _ _ _ rfl

/-- A write-type transaction that is cut off in its data would have passed: UNPRESSED counts it, and nothing is pressed (R107). -/
theorem State.cutOff_write {s : State} {op : Nat} {h : Hdr} {data : List Word} {dcrc : BitVec 16} (hw : h.part = .whole)
    (hwr : writeType op h = true) (hst : s.formeStatus op h data dcrc = 0) :
    s.cutOff (s.begin_ op h data) dcrc false = (s.passed op h 2).bump FORME.ERRS_UNPRESSED 0 := by
  simp only [State.cutOff, State.endStatus, State.passed, State.begin_h hw, State.begin_op, State.begin_data, State.begin_cut, hst, hwr,
    not_readType_of_writeType hwr]
  rfl

/-- FCS# rises in the data of a write-type transaction that finds the port free. -/
theorem exec_fcsEarlyRise_inData {s : State} {op : BitVec 8} {h : Hdr} {data : List Word} {dcrc : BitVec 16} (ha : s.formeAnswers = true)
    (hf : s.forme.started = none) (hw : h.part = .whole) (hwr : writeType op.toNat h = true) (hst : s.formeStatus op.toNat h data dcrc = 0) :
    exec (.fcsEarlyRise op h data dcrc .inData) s = .next ((s.passed op.toNat h 2).bump FORME.ERRS_UNPRESSED 0).settle := by
  have he : s.entered op.toNat h data = some (s.begin_ op.toNat h data) := by
    simp only [State.entered, hf, hw, reduceCtorEq, if_false]
  have hexec : exec (.fcsEarlyRise op h data dcrc .inData) s = execFcsEarlyRise op h data dcrc .inData s := rfl
  have hcut : exec (.fcsEarlyRise op h data dcrc .inData) s = fin (s.cutOff (s.begin_ op.toNat h data) dcrc false) := by
    rw [hexec]
    delta execFcsEarlyRise
    rw [he, ha, State.portFree_of_free hf]
    rfl
  rw [hcut, State.cutOff_write hw hwr hst, fin]

/-- Settles O7: a write-type transaction that passes has its opcode's effect, on the state with its record and MODE_SEEN; one that fails or is cut off
reaches its counter and these alone. -/
theorem formeWritesComplete : Obligations.FormeWritesComplete := by
  intro s h data dcrc ha hr hf hw
  refine ⟨fun hst c hc => ?write, fun k => ?stops, fun n hn hst => ?store, fun n x hx => ?lands, fun hst hflag => ?response, fun hst => ?close,
    fun hst _ => ?ring, fun op hcrc => ?header, fun op => ?inHeader, fun op hwr hst => ?inData⟩
  case write =>
    exact ⟨_, exec_write_ok ha hf hw hst hc, rfl, rfl, rfl⟩
  case stops =>
    have hexec : exec (.write { h with part := .begin k } data dcrc) s = fin (s.transact opWr { h with part := .begin k } data dcrc) := rfl
    rw [hexec, State.transact_stops ha hf rfl rfl]
    exact ⟨_, rfl, rfl, rfl⟩
  case store =>
    exact ⟨_, exec_storeWrite_ok ha hf hw hr hn hst, rfl, by rw [State.lane_answered, State.storeTaken, State.lane_upLane_same]⟩
  case lands =>
    have hexec : exec (.storeWriteComplete n) s = fin (s.landStore n) := rfl
    rw [hexec, State.landStore, hx]
    rfl
  case response =>
    obtain ⟨r, hsess⟩ := s.session_passed opOpen h 1
    obtain ⟨hlanes, hquoins, _⟩ := (s.passed opOpen h 1).delivered_frame h.session (BitVec.ofNat 256 (wordsNat (fitData h data)))
    refine ⟨_, exec_sessionOpenResponse_ok ha hf hw hr hflag hst, rfl, ?_, ?_, ?_, ?_⟩
    · rw [State.session_answered, State.responses_delivered, hsess]
    · rw [State.g_answered, State.outcome_delivered]
    · rw [State.answered_lanes, hlanes, State.passed_lanes]
    · rw [State.answered_quoins, hquoins, State.passed_quoins]
  case close =>
    exact ⟨_, exec_sessionClose_ok ha hf hw hr hst, rfl, by rw [State.session_answered, (State.hostClosed_closed ..).1]⟩
  case ring =>
    obtain ⟨hlanes, hquoins, _⟩ := (s.passed opRing h 1).ring_frame (Hdr.at_ h)
    refine ⟨_, exec_ring_ok ha hf hw hr hst, rfl, ?_, ?_, ?_⟩
    · rw [State.answered_lanes, hlanes, State.passed_lanes]
    · rw [State.answered_quoins, hquoins, State.passed_quoins]
    · rw [State.answered_evg, ((s.gatherAlike_passed opRing h 1).ring (Hdr.at_ h)).evg]
  case header =>
    have hexec : exec (.hdrCrc op h) s = fin (s.transact op.toNat h [] 0) := by simp only [exec, execHdrCrc, if_neg hcrc]
    rw [hexec, State.transact_badHeader ha hf hw hr hcrc]
    exact ⟨_, rfl, rfl, rfl, s.headerRefused_counts h _, s.headerRefused_frame h _⟩
  case inHeader =>
    have hexec : exec (.fcsEarlyRise op h data dcrc .inHeader) s = execFcsEarlyRise op h data dcrc .inHeader s := rfl
    rw [hexec]
    delta execFcsEarlyRise
    rw [ha]
    rfl
  case inData =>
    rw [exec_fcsEarlyRise_inData ha hf hw hwr hst]
    refine ⟨_, rfl, ?_, ?_, ?_, ?_⟩
    · rw [State.g_bump_same _ _ _ _ _ rfl, s.g_passed_ne op.toNat h 2 (by decide)]
    · rw [State.bump_lanes, State.passed_lanes]
    · rw [State.bump_evg, State.passed_evg]
    · rw [State.bump_quoins, State.passed_quoins]

end Sys2Proof.Machine
end

section
/-! PROOFS. The side-band commands that end at once (spec/19_two_wire_ports.md R478 to R493; spec/04_forme_port.md R108): a command that is taken runs
and is answered. -/

namespace Sys2Proof.Machine

/-! ### A command that ends at once (R479, R480) -/

/-- A command whose word is right, in a state that allows it, runs on the state that has taken it, and is answered. -/
theorem sbCommand_ends {op : Nat} {p : Byte} {arg : BitVec 16} {words : Nat} {where_ : State → Bool} {run : State → SbAnswer × State}
    {s u t : State} {a : SbAnswer} (hf : s.sbFree) (hu : u = s.sbTake op p arg) (hw : words = rcOk) (hs : where_ u = true) (hrun : run u = (a, t)) :
    sbCommand op p arg words where_ false run s = .next (t.sbReply a).settle := by
  subst hu
  rw [sbCommand_runs hf hw hs, hrun]
  rfl

theorem upTo_le {p : Byte} {k : Nat} (h : p.toNat ≤ k) : upTo p k = rcOk := if_pos h

theorem zeroAnd_zero {ok : Bool} (h : ok = true) : zeroAnd 0 ok = rcOk := if_pos ⟨rfl, h⟩

/-- Table: Side-band states. -/
theorem State.sbState_asleep {s : State} (h : s.awake = false) : s.sbState = .d := by
  simp only [State.sbState, h, Bool.not_false, if_true]

theorem State.sbState_awake {s : State} (h : s.awake = true) : (s.sbState != .d) = true := by
  simp only [State.sbState, h, Bool.not_true, Bool.false_eq_true, if_false]
  split <;> rfl

theorem sbState_not_b_of_inR {s : State} (h : inR s = true) : (s.sbState != .b) = true := by
  rw [inR, beq_iff_eq] at h
  rw [h]
  rfl

/-- A sleeping front end that is met wakes, and with SLEEP 1 it NAKs this transaction (R489). -/
theorem State.sbAddressed_asleep {s : State} (ha : s.on SB.STAT_AWAKE 0 = false) (hs : s.on SB.CFG_SLEEP 0 = true) :
    s.sbAddressed = (false, State.bump { (s.put SB.STAT_AWAKE 0 1) with sb := { s.sb with awakeFrom := s.clock, nakAt := some s.clock } }
      SB.WAKE_NAKS 0) := by
  have hkeep : (s.put SB.STAT_AWAKE 0 1).sbMet.on SB.CFG_SLEEP 0 = true := by
    have hmet : (s.put SB.STAT_AWAKE 0 1).sbMet.g SB.CFG_SLEEP 0 = (s.put SB.STAT_AWAKE 0 1).g SB.CFG_SLEEP 0 :=
      State.g_congr (by simp only [State.sbMet]) ..
    rw [State.on, hmet, State.g_put_ne _ _ _ _ _ _ _ rfl (.inl (by decide))]
    exact hs
  simp only [State.sbAddressed, ha, hkeep, Bool.false_eq_true, if_false, if_true]
  simp only [State.sbMet, State.put_sb, State.put_clock]

/-! ### The in-buffer (R481) -/

/-- Two bytes of the in-buffer, the first at the even place. -/
def State.sbStore (s : State) (p : Byte) (arg : BitVec 16) : State :=
  { s with sb := { s.sb with inBuf :=
      (s.sb.inBuf.setIfInBounds (2 * p.toNat) (BitVec.ofNat 8 (arg.toNat / 256))).setIfInBounds (2 * p.toNat + 1) (BitVec.ofNat 8 arg.toNat) } }

theorem State.sbStore_first (s : State) {p : Byte} (arg : BitVec 16) (hp : p.toNat ≤ 127) :
    (s.sbStore p arg).sb.inBuf[2 * p.toNat]? = some (BitVec.ofNat 8 (arg.toNat / 256)) := by
  rw [State.sbStore, Vector.getElem?_setIfInBounds_ne (by omega), Vector.getElem?_setIfInBounds_self_of_lt (by omega)]

theorem State.sbStore_second (s : State) {p : Byte} (arg : BitVec 16) (hp : p.toNat ≤ 127) :
    (s.sbStore p arg).sb.inBuf[2 * p.toNat + 1]? = some (BitVec.ofNat 8 arg.toNat) := by
  rw [State.sbStore, Vector.getElem?_setIfInBounds_self_of_lt (by omega)]

theorem State.sbStore_other (s : State) (p : Byte) (arg : BitVec 16) {j : Nat} (h0 : j ≠ 2 * p.toNat) (h1 : j ≠ 2 * p.toNat + 1) :
    (s.sbStore p arg).sb.inBuf[j]? = s.sb.inBuf[j]? := by
  rw [State.sbStore, Vector.getElem?_setIfInBounds_ne (Ne.symm h1), Vector.getElem?_setIfInBounds_ne (Ne.symm h0)]

/-! ### The plane reset (R63, R108) -/

/-- A plane reset gives up the transaction in progress. -/
theorem State.started_planeReset (s : State) (origin : Nat) : (s.planeReset origin).forme.started = none := by
  unfold State.planeReset
  extract_lets t u
  have hu : u.forme.started = none := by
    have hsess : ∀ (l : List SessId) (v : State), (l.foldl (fun (s : State) k => s.upSess k fun x =>
        { x with record := none, afterPlaneReset := x.isOpen }) v).forme = v.forme := by
      intro l
      induction l with
      | nil => exact fun _ => rfl
      | cons k r ih => exact fun v => ih _
    rw [hsess]
    rfl
  exact (KeepsPort.of_logIt u 0x052 noLane origin).2.2 hu

/-- Settles O32: each command is taken, its word is right and its state is allowed, so that it runs and is answered at once; the rows of the bus
and of the front end's sleep act without a command. -/
theorem sideBandRowsComplete : Obligations.SideBandRowsComplete := by
  intro s u hf
  have ⟨hisland, _, _, hbusy⟩ := hf
  refine ⟨fun hu => ?nop, fun p arg hp hu => ?status, fun hu hm => ?wake, fun hu hm => ?wakeElsewhere, fun arg h0 h1 hu hr => ?ring,
    fun hu ha => ?formeReset, fun arg t hu ht => ?calSnapshot, fun p arg h0 hp hu => ?calRead, fun arg harg hu => ?alertClear,
    fun p arg hp hc hu => ?setCfg, fun p arg hp hu => ?dataWr, fun p arg hp hu => ?dataRd, fun hu => ?bufClear, fun op p arg hop hu => ?unknown,
    fun word pec hd => ?pec, ?timeout, ?stretch, fun ha ht => ?sleep, fun t ht h0 h1 => ?addressWake, fun w v hv ht => ?alertSet⟩
  case nop =>
    rw [exec, execSbNop]
    exact sbCommand_ends hf hu rfl rfl rfl
  case status =>
    rw [exec, execSbStatus]
    exact sbCommand_ends hf hu (upTo_le hp) rfl rfl
  case wake =>
    rw [exec, execSbWake]
    exact sbCommand_ends hf hu rfl rfl (by rw [if_pos hm, sbOk])
  case wakeElsewhere =>
    rw [exec, execSbWake]
    exact sbCommand_ends hf hu rfl rfl (by rw [if_neg hm, sbOk])
  case ring =>
    rw [exec, execSbRing]
    exact sbCommand_ends hf hu (zeroAnd_zero (decide_eq_true ⟨h0, h1⟩)) (sbState_not_b_of_inR hr) (by rw [State.sbRing, if_pos hr, sbOk])
  case formeReset =>
    rw [exec, execSbFormeReset]
    exact ⟨sbCommand_ends hf hu (zeroAnd_zero (beq_self_eq_true _)) (State.sbState_awake ha) rfl, State.started_planeReset ..⟩
  case calSnapshot =>
    subst ht
    rw [exec, execSbCalRead]
    exact sbCommand_ends hf hu rfl rfl (by rw [if_pos rfl]; rfl)
  case calRead =>
    rw [exec, execSbCalRead]
    exact sbCommand_ends hf hu (upTo_le hp) rfl (by rw [if_neg h0])
  case alertClear =>
    rw [exec, execSbAlertClear]
    exact sbCommand_ends hf hu (zeroAnd_zero (decide_eq_true harg)) rfl (by rw [Nat.mod_eq_of_lt harg, sbOk])
  case setCfg =>
    rw [exec, execSbSetCfg]
    exact sbCommand_ends hf hu (by rw [if_pos (upTo_le hp), if_pos hc]) rfl rfl
  case dataWr =>
    rw [exec, execSbDataWr]
    exact ⟨u.sbStore p arg, sbCommand_ends hf hu (upTo_le hp) rfl rfl, u.sbStore_first arg hp, u.sbStore_second arg hp, rfl, rfl,
      fun j h0 h1 => u.sbStore_other p arg h0 h1⟩
  case dataRd =>
    rw [exec, execSbDataRd]
    exact sbCommand_ends hf hu (upTo_le hp) rfl rfl
  case bufClear =>
    rw [exec, execSbBufClear]
    exact sbCommand_ends hf hu rfl rfl rfl
  case unknown =>
    have hwords : rcUnknown ≠ rcOk := by decide
    simp only [exec, execSbUnknownCommand, hop, Bool.false_eq_true, if_false, sbCommand_words hf hwords, hu, fin]
  case pec =>
    rw [exec, execSbPec, hisland, hbusy, hd]
    rfl
  case timeout =>
    rw [exec, execSbBusTimeout, if_pos hisland, fin]
  case stretch =>
    rw [exec, execSbStretchAbort, if_pos hisland, fin]
  case sleep =>
    have hdue : s.sb.awakeFrom + 100 * msTicks ≤ s.clock := ht
    rw [exec, execSbSleep, hisland, State.sbState_asleep ha, decide_eq_true hdue]
    rfl
  case addressWake =>
    have hpower : t.pwr.islandOn = true := by rw [ht, State.put_pwr, hisland]
    rw [exec, execSbAddressWake, if_pos hpower, State.sbAddressed_asleep h0 h1, fin]
  case alertSet =>
    have heff : sbEff 0x12 v 0 = fun s => s.alert 4 := by
      funext s
      rw [sbEff, if_pos rfl, if_pos hv]
    rw [exec, execAlertSet, pressOne_near rfl (by decide) ht, heff, fin]

end Sys2Proof.Machine
end

section
/-! PROOFS. Refusals and counters of the register pages (spec/05_register_pages.md R119 to R121, R126): what PG_ERR holds after a refused word,
that a refusal moves nothing else, and that a counter saturates and takes no value but 0. -/

namespace Sys2Proof

/-- A field of a word that is given as a number. -/
theorem bitsOf_ofNat {x : Nat} (hx : x < 2 ^ 32) (hi lo : Nat) : bitsOf (BitVec.ofNat 32 x) hi lo = x / 2 ^ lo % 2 ^ (hi + 1 - lo) := by
  rw [bitsOf, BitVec.toNat_ofNat, Nat.mod_eq_of_lt hx, Nat.shiftRight_eq_div_pow]

/-- A bit of a word that is given as a number. -/
theorem bitAt_ofNat {x i : Nat} (hi : i < 32) : bitAt (BitVec.ofNat 32 x) i = decide (x / 2 ^ i % 2 = 1) := by
  rw [bitAt, BitVec.getLsbD_ofNat, decide_eq_true hi, Bool.true_and, Nat.testBit_eq_decide_div_mod_eq]

theorem Writer.code_lt (w : Writer) : w.code < 4 := by cases w <;> simp only [Writer.code, Nat.reduceLT]

end Sys2Proof

namespace Sys2Proof.Machine

/-! ### PG_ERR (R121) -/

/-- The word that PG_ERR takes from a refusal with code `c` (Table: PG_ERR). -/
def errWord (w : Writer) (off c : Nat) (more : Bool) : Word := BitVec.ofNat 32 (w.code * 2 ^ 17 + b2n more * 2 ^ 16 + off % 256 * 256 + c)

theorem errWord_fields (w : Writer) (off : Nat) {c : Nat} (more : Bool) (hc : c < 256) :
    bitsOf (errWord w off c more) 7 0 = c ∧ bitsOf (errWord w off c more) 15 8 = off % 256 ∧ bitAt (errWord w off c more) 16 = more
      ∧ bitsOf (errWord w off c more) 18 17 = w.code := by
  have hw := w.code_lt
  have hmore : b2n more < 2 := by cases more <;> decide
  have hlt : w.code * 2 ^ 17 + b2n more * 2 ^ 16 + off % 256 * 256 + c < 2 ^ 32 := by omega
  simp only [errWord, bitsOf_ofNat hlt, bitAt_ofNat (show 16 < 32 by decide)]
  refine ⟨by omega, by omega, ?_, by omega⟩
  have hbit : (w.code * 2 ^ 17 + b2n more * 2 ^ 16 + off % 256 * 256 + c) / 2 ^ 16 % 2 = b2n more := by omega
  rw [hbit]
  cases more <;> rfl

/-- Off the EVG page and the source table, a refusal is a write of PG_ERR of its page (R121, R122). -/
theorem State.recordErr_eq_setErr (s : State) (w : Writer) {p : Page} (off c : Nat) (more : Bool) (hp : Page.hasHeader p = true) (he : p ≠ .evg) :
    s.recordErr w p off c more = s.setErr w p off c more := by
  cases p with
  | table j => cases hp
  | evg => exact absurd rfl he
  | _ => rfl

/-- PG_ERR of the page holds the refusal, and every other register word is as it was. -/
theorem State.wd_setErr (s : State) (w : Writer) (p : Page) (off c : Nat) (more : Bool) (a : Nat) :
    (s.setErr w p off c more).wd a = if a = p.at_ 0xB then errWord w off c more else s.wd a := by
  rw [State.setErr, State.wd_strike, State.wd_setHw, errWord]

/-- A refusal off the EVG page and the source table moves no lane, no quoin and no register word but PG_ERR of its page, whose fields name it. -/
theorem State.recordErr_frame (s : State) (w : Writer) {p : Page} {off c : Nat} (hp : Page.hasHeader p = true) (he : p ≠ .evg) (ho : off < 256)
    (hc : c < 256) :
    (s.recordErr w p off c false).lanes = s.lanes ∧ (s.recordErr w p off c false).quoins = s.quoins
      ∧ (∀ a, a ≠ p.at_ 0xB → (s.recordErr w p off c false).wd a = s.wd a)
      ∧ bitsOf ((s.recordErr w p off c false).hw p 0xB) 7 0 = c ∧ bitsOf ((s.recordErr w p off c false).hw p 0xB) 15 8 = off
      ∧ bitAt ((s.recordErr w p off c false).hw p 0xB) 16 = false ∧ bitsOf ((s.recordErr w p off c false).hw p 0xB) 18 17 = w.code := by
  have hfields := errWord_fields w off false hc
  rw [Nat.mod_eq_of_lt ho] at hfields
  rw [State.recordErr_eq_setErr s w off c false hp he, State.hw, State.wd_setErr, if_pos rfl]
  exact ⟨rfl, rfl, fun a ha => by rw [State.wd_setErr, if_neg ha], hfields⟩

/-! ### A refused press of one word -/

/-- A press of one word that a check refuses is recorded, and does nothing else. -/
theorem pressOne_refused {w : Writer} {p : Page} {off c : Nat} {v proof : Word} {chk : State → Option Nat} {eff : State → State} {s : State}
    (h : s.writable w p off = true) (hj : s.judge w p off v (chk (s.staged p off v)) = some c) :
    pressOne w p off v proof chk eff s = s.recordErr w p off c false := pressAdj_refused _ _ _ _ _ _ _ _ _ _ h hj

theorem exec_evSource_refused {w : Writer} {p : Page} {v : Word} {c : Nat} {s : State} (hp : Page.hasHeader p = true)
    (h : s.writable w p 0xA = true) (hj : s.judge w p 0xA v (evSourceChk p v) = some c) :
    exec (.evSource w p v) s = .next (s.recordErr w p 0xA c false).settle := by
  simp only [exec, execEvSource, hp, if_true, fin, pressOne_refused (chk := fun _ => evSourceChk p v) h hj]

theorem exec_counterClear_refused {w : Writer} {p : Page} {off c : Nat} {v : Word} (proof : Word) {s : State} (ho : off < 256)
    (hc : accMask p off .ctr ≠ 0) (h : s.writable w p off = true)
    (hj : s.judge w p off v (wordChk s w [] ⟨p, off, v⟩ (s.staged p off v)) = some c) :
    exec (.counterClear w p off v proof) s = .next (s.recordErr w p off c false).settle := by
  rw [exec_counterClear ho hc, fin, pressOne_refused h hj]

/-- Settles O46: the refused press of an EV_SOURCE or of a counter word is recorded in PG_ERR of its page, and that is all it does. -/
theorem refusedWordChangesNothing : Obligations.RefusedWordChangesNothing := by
  intro s w p off v c hp he ho hc hw
  have hframe := s.recordErr_frame w hp he ho hc
  refine ⟨fun hoff hj => ?evSource, fun hctr hj => ?counterClear⟩
  case evSource =>
    subst hoff
    exact ⟨_, exec_evSource_refused hp hw hj, hframe⟩
  case counterClear => exact ⟨_, exec_counterClear_refused 0 ho hctr hw hj, hframe⟩

/-! ### Counters (R126) -/

/-- A bit written into a counter is refused with RANGE, where rights allow the write and the word holds no RWQ or RWS field, whose checks come
first (R5). -/
theorem State.judge_of_counter_bit {s : State} {w : Writer} {p : Page} {off : Nat} {v : Word} {chk : Option Nat}
    (hv : v &&& accMask p off .ctr ≠ 0) (hr : s.restricted w p off = 0) (hq : accMask p off .rwq = 0) (hs : accMask p off .rws = 0)
    (hc : chk ≠ some errRights) : s.judge w p off v chk = some errRange := by
  have hzero (x : Word) : x &&& 0 = 0 := BitVec.and_zero
  simp only [State.judge, hr, hq, hs, hv, hc, hzero, ne_eq, not_true_eq_false, not_false_eq_true, or_self, false_and, if_false, if_true]

/-- Settles O47: a counter that advances is cut off at its all-ones value, and a bit written into a counter fails the press with RANGE. -/
theorem countersSaturate : Obligations.CountersSaturate := by
  intro s f n i k hlo hhi
  have hbump := s.g_bump_same f n i k (Fld.ok_iff.mpr ⟨hlo, hhi⟩)
  refine ⟨hbump, fun hfull => ?stays, fun w p off v proof ho hw hv hr hq hs hchk => ?refused⟩
  case stays => rw [hbump, hfull, Nat.min_eq_right (Nat.le_add_right _ _)]
  case refused =>
    have hctr : accMask p off .ctr ≠ 0 := fun h => hv (by rw [h]; exact BitVec.and_zero)
    exact exec_counterClear_refused proof ho hctr hw (State.judge_of_counter_bit hv hr hq hs hchk)

end Sys2Proof.Machine
end

section
/-! PROOFS. What a log entry leaves alone (spec/18_chase_services.md R472 to R475; spec/22_field_failures_and_returns.md R516, R522). -/

namespace Sys2Proof.Machine

/-- The same state but for what an entry of the colophon log moves: the log with its page, the alert causes, the fault shelf, the gatherer
with what a transaction in progress may still clear, and the count of free values. -/
structure SameButLog (s t : State) : Prop where
  rest : ∃ c r p e l x, t = { s with freeCtr := c, regs := r, pwr := { s.pwr with shelf := p }, evg := e, log := l,
                                     forme := { s.forme with started := x } }
  words : ∀ a, a / 256 ≠ Page.log.num → a / 256 ≠ Page.sb.num → t.wd a = s.wd a

namespace SameButLog

theorem trans {s t u : State} (h : SameButLog s t) (k : SameButLog t u) : SameButLog s u := by
  obtain ⟨⟨_, _, _, _, _, _, rfl⟩, hwords⟩ := h
  obtain ⟨⟨_, _, _, _, _, _, rfl⟩, kwords⟩ := k
  exact ⟨⟨_, _, _, _, _, _, rfl⟩, fun a hlog hsb => (kwords a hlog hsb).trans (hwords a hlog hsb)⟩

theorem of_log (s : State) (l : Colophon) : SameButLog s { s with log := l } := ⟨⟨_, _, _, _, _, _, rfl⟩, fun _ _ _ => rfl⟩

/-- Writing a field of the LOG page or of the SB page. -/
theorem of_p (s : State) (f : Fld) (n i v : Nat) (h : f.addr n i / 256 = Page.log.num ∨ f.addr n i / 256 = Page.sb.num) :
    SameButLog s (s.p f n i v) := by
  refine ⟨⟨_, _, _, _, _, _, rfl⟩, fun a hlog hsb => ?_⟩
  rw [State.wd_p, if_neg]
  rintro rfl
  exact h.elim hlog hsb

theorem of_raise (s : State) (b : Nat) : SameButLog s (s.raise .log b) := by
  refine ⟨?_, fun a hlog _ => ?_⟩
  · obtain ⟨e, x, he⟩ := State.raise_eq s .log b
    rw [he]
    exact ⟨_, _, _, _, _, _, rfl⟩
  · rw [State.wd_raise, if_neg]
    rintro rfl
    exact hlog rfl

theorem of_dropEntry (s : State) : SameButLog s s.dropEntry := by
  unfold State.dropEntry
  extract_lets t told l u
  have hu : SameButLog s u := (of_p s LOG.DROPPED 0 0 _ (.inl rfl)).trans (of_log t _)
  split
  · exact hu
  · exact hu.trans (of_raise u 0)

theorem of_wearDue (s : State) : SameButLog s s.wearDue := (of_log s _).trans (of_p _ LOG.STAT_WEAR_DUE 0 0 1 (.inl rfl))

theorem of_writeGeneral (s : State) (e : LogEntry) : SameButLog s (s.writeGeneral e) := by
  unfold State.writeGeneral
  extract_lets l e' enters ahead g l' t t' u v
  have ht : SameButLog s t := of_log s l'
  have ht' : SameButLog s t' := by
    unfold t'
    split
    · exact ht.trans (of_p t LOG.WEAR_DEFERS 0 0 _ (.inl rfl))
    · exact ht
  have hu : SameButLog s u := by
    unfold u
    split
    · exact ht'.trans (of_wearDue t')
    · exact ht'
  have hv : SameButLog s v := hu.trans (of_p u LOG.STAT_GEN_FULL 0 0 1 (.inl rfl))
  split
  · split
    · exact hv
    · exact (hv.trans (of_log v _)).trans (of_raise { v with log := { v.log with fullTold := true } } 1)
  · exact hu

theorem of_intoGeneral (s : State) (e : LogEntry) : SameButLog s (s.intoGeneral e) := by
  unfold State.intoGeneral
  split
  · exact of_writeGeneral s e
  split
  · exact of_log s _
  · exact of_dropEntry s

theorem of_intoFault (s : State) (e : LogEntry) : SameButLog s (s.intoFault e) := by
  unfold State.intoFault
  split
  case isFalse => exact of_intoGeneral s _
  extract_lets l t u v
  have hu : SameButLog s u := ((of_log s t.log).trans (of_p t LOG.STAT_FAULT_COUNT 0 0 _ (.inl rfl))).trans (of_raise _ 2)
  have hv : SameButLog s v := hu.trans (of_p u LOG.STAT_FAULT_FULL 0 0 1 (.inl rfl))
  split
  · split
    · exact hv
    · exact (hv.trans (of_log v _)).trans (of_raise { v with log := { v.log with faultFullTold := true } } 3)
  · exact hu

theorem of_shelve (s : State) (e : LogEntry) (b : Bool) : SameButLog s (s.shelve e b) := by
  unfold State.shelve
  extract_lets p t
  have ht : SameButLog s t := ⟨⟨_, _, _, _, _, _, rfl⟩, fun _ _ _ => rfl⟩
  exact ht.trans (of_p t SB.STAT_PENDING 0 0 _ (.inr rfl))

theorem of_offer (s : State) (e : LogEntry) : SameButLog s (s.offer e) := by
  unfold State.offer
  extract_lets frozen u
  split
  · exact of_intoGeneral s e
  split
  · split
    · exact of_shelve ..
    · exact (of_shelve ..).trans (of_intoFault u e)
  split
  · exact of_p s LOG.DROPPED 0 0 _ (.inl rfl)
  split
  · exact of_dropEntry s
  · exact (of_p s LOG.BUCKET 0 0 _ (.inl rfl)).trans (of_intoGeneral _ e)

theorem of_logIt (s : State) (code lane origin : Nat) : SameButLog s (s.logIt code lane origin) := by
  have hfree : SameButLog s s.freeDetail.2 := ⟨⟨_, _, _, _, _, _, rfl⟩, fun _ _ _ => rfl⟩
  exact hfree.trans (of_offer _ _)

end SameButLog

@[simp] theorem State.logIt_lanes (s : State) (code lane origin : Nat) : (s.logIt code lane origin).lanes = s.lanes := by
  obtain ⟨_, _, _, _, _, _, h⟩ := (SameButLog.of_logIt s code lane origin).rest
  rw [h]

@[simp] theorem State.logIt_quoins (s : State) (code lane origin : Nat) : (s.logIt code lane origin).quoins = s.quoins := by
  obtain ⟨_, _, _, _, _, _, h⟩ := (SameButLog.of_logIt s code lane origin).rest
  rw [h]

@[simp] theorem State.logIt_sess (s : State) (code lane origin : Nat) : (s.logIt code lane origin).sess = s.sess := by
  obtain ⟨_, _, _, _, _, _, h⟩ := (SameButLog.of_logIt s code lane origin).rest
  rw [h]

@[simp] theorem State.session_logIt (s : State) (code lane origin : Nat) (k : SessId) :
    (s.logIt code lane origin).session k = s.session k := by
  simp only [State.session, State.logIt_sess]

end Sys2Proof.Machine
end

section
/-! PROOFS. Quoins: reading them after an update, and what engines that try a quoin again and waits that end leave of them
(spec/06_sessions_and_quoins.md R142 to R151). -/

namespace Sys2Proof.Machine

/-! ### Reading a quoin -/

theorem State.quoin_congr {s t : State} (h : t.quoins = s.quoins) (q : Nat) : t.quoin q = s.quoin q := by rw [State.quoin, h, State.quoin]

theorem State.quoin_setQuoin_same (s : State) {q : Nat} (hq : q < 96) (x : Quoin) : (s.setQuoin q x).quoin q = x := by
  simp only [State.quoin, State.setQuoin, Vector.getElem?_setIfInBounds_self_of_lt hq, Option.getD_some]

theorem State.quoin_setQuoin_ne (s : State) {q j : Nat} (h : j ≠ q) (x : Quoin) : (s.setQuoin q x).quoin j = s.quoin j := by
  simp only [State.quoin, State.setQuoin, Vector.getElem?_setIfInBounds_ne h.symm]

/-- Beyond the 96 quoins there is nothing to set. -/
theorem State.setQuoin_of_ge (s : State) {q : Nat} (hq : 96 ≤ q) (x : Quoin) : s.setQuoin q x = s := by
  rw [State.setQuoin, Vector.setIfInBounds_eq_of_size_le hq]

theorem State.setQuoin_quoins (s : State) (q : Nat) (x : Quoin) : (s.setQuoin q x).quoins = s.quoins.setIfInBounds q x := rfl
@[simp] theorem State.setQuoin_lanes (s : State) (q : Nat) (x : Quoin) : (s.setQuoin q x).lanes = s.lanes := rfl
@[simp] theorem State.setQuoin_sess (s : State) (q : Nat) (x : Quoin) : (s.setQuoin q x).sess = s.sess := rfl

/-! ### A wait that ends moves no quoin -/

@[simp] theorem State.halt_quoins (s : State) (n : LaneId) (code : Nat) : (s.halt n code).quoins = s.quoins := by
  unfold State.halt
  split <;> simp only [State.raise_quoins, State.bump_quoins, State.upEng_quoins]

@[simp] theorem State.suspendWait_quoins (s : State) (n : LaneId) : (s.suspendWait n).quoins = s.quoins := by
  unfold State.suspendWait
  split <;> rfl

@[simp] theorem State.debugHalt_quoins (s : State) (n : LaneId) (step : Bool) : (s.debugHalt n step).quoins = s.quoins := by
  unfold State.debugHalt
  split <;> simp only [State.raise_quoins, State.halt_quoins, State.upEng_quoins, State.suspendWait_quoins]

@[simp] theorem State.afterInstr_quoins (s : State) (n : LaneId) (user trap : Bool) : (s.afterInstr n user trap).quoins = s.quoins := by
  unfold State.afterInstr
  extract_lets e t
  have ht : t.quoins = s.quoins := rfl
  split
  · rfl
  split
  · rfl
  split
  · exact ht
  split
  · exact ht
  · rw [State.debugHalt_quoins, ht]

@[simp] theorem State.endWait_quoins (s : State) (n : LaneId) (code : Nat) : (s.endWait n code).quoins = s.quoins := by
  unfold State.endWait
  split
  · rfl
  · rw [State.afterInstr_quoins, State.upEng_quoins]

/-- The waits of sessions end in the sessions, in the gatherer and at the QUOIN page. -/
theorem State.endWaits_frame (s : State) (q : Nat) : (s.endWaits q).quoins = s.quoins ∧ (s.endWaits q).lanes = s.lanes := by
  have hfold (f : Session → Session) (ks : List SessId) (s : State) :
      (ks.foldl (fun s k => s.upSess k f) s).quoins = s.quoins ∧ (ks.foldl (fun s k => s.upSess k f) s).lanes = s.lanes := by
    induction ks generalizing s with
    | nil => exact ⟨rfl, rfl⟩
    | cons k ks ih => exact ih (s.upSess k f)
  unfold State.endWaits
  extract_lets waiting t u
  have hu : u.quoins = s.quoins ∧ u.lanes = s.lanes := by
    unfold u
    split
    · exact hfold ..
    · exact hfold ..
  split
  · exact hu
  · rw [State.raise_quoins, State.raise_lanes]
    exact hu

/-- Where no session waits for the quoin, no wait ends. -/
theorem State.endWaits_of_no_waiters {s : State} {q : Nat} (h : ∀ k : SessId, (s.session k).wait ≠ some q) : s.endWaits q = s := by
  have hnone : allSess.filter (fun k => (s.session k).wait == some q) = [] :=
    List.filter_eq_nil_iff.mpr fun k _ hk => h k (eq_of_beq hk)
  simp only [State.endWaits, hnone, List.foldl_nil, List.any_nil, Bool.false_eq_true, List.isEmpty_nil, if_true, if_false]

/-- Where no engine waits, none tries the quoin. -/
theorem State.engsRetry_of_no_waiters {s : State} (h : ∀ n : LaneId, (s.eng n).qwait = none) (q : Nat) : s.engsRetry q = s := by
  have hretry (n : LaneId) : s.retryWait n q = s := by rw [State.retryWait, h n]
  have hfold (ns : List LaneId) : ns.foldl (fun s n => s.retryWait n q) s = s := by
    induction ns with
    | nil => rfl
    | cons n ns ih => rw [List.foldl_cons, hretry, ih]
  exact hfold _

/-! ### Engines that take a quoin leave its marks -/

/-- Quoin q has the BROKEN flag and the generation that it had. -/
structure KeepsMarks (q : Nat) (s t : State) : Prop where
  broken : (t.quoin q).broken = (s.quoin q).broken
  gen : (t.quoin q).gen = (s.quoin q).gen

namespace KeepsMarks

variable {q : Nat}

theorem of_quoins {s t : State} (h : t.quoins = s.quoins) : KeepsMarks q s t := ⟨by rw [State.quoin_congr h], by rw [State.quoin_congr h]⟩

theorem trans {s t u : State} (h : KeepsMarks q s t) (k : KeepsMarks q t u) : KeepsMarks q s u := ⟨k.broken.trans h.broken, k.gen.trans h.gen⟩

/-- Whoever holds a quoin afterwards, and since when: its marks stay. -/
theorem of_setQuoin (s : State) (j : Nat) {x : Quoin} (hbroken : x.broken = (s.quoin j).broken) (hgen : x.gen = (s.quoin j).gen) :
    KeepsMarks q s (s.setQuoin j x) := by
  rcases Nat.lt_or_ge j 96 with hj | hj
  · by_cases h : q = j
    · subst h
      have hset : (s.setQuoin q x).quoin q = x := s.quoin_setQuoin_same hj x
      exact ⟨by rw [hset, hbroken], by rw [hset, hgen]⟩
    · have hset : (s.setQuoin j x).quoin q = s.quoin q := s.quoin_setQuoin_ne h x
      exact ⟨by rw [hset], by rw [hset]⟩
  · rw [State.setQuoin_of_ge s hj]
    exact of_quoins rfl

theorem of_takeQuoin (s : State) (h j : Nat) : KeepsMarks q s (s.takeQuoin h j).2 := by
  unfold State.takeQuoin
  split
  · exact of_quoins rfl
  split
  · exact of_quoins rfl
  split
  · exact of_quoins rfl
  split
  · exact of_quoins (by rw [State.raise_quoins, State.bump_quoins])
  split
  · exact of_setQuoin s j rfl rfl
  · exact of_quoins rfl

theorem of_retryWait (s : State) (n : LaneId) (j : Nat) : KeepsMarks q s (s.retryWait n j) := by
  unfold State.retryWait
  split
  · exact of_quoins rfl
  split
  · exact of_quoins rfl
  rcases htake : s.takeQuoin (0x10 + n.val) j with ⟨c, u⟩
  have hu : KeepsMarks q s u := by simpa only [htake] using of_takeQuoin s (0x10 + n.val) j
  dsimp only
  split
  · exact hu.trans (of_quoins (u.endWait_quoins n c))
  · exact of_quoins rfl

theorem of_engsRetry (s : State) (j : Nat) : KeepsMarks q s (s.engsRetry j) := by
  unfold State.engsRetry
  induction rotation (s.quoin j).lastLane generalizing s with
  | nil => exact of_quoins rfl
  | cons n ns ih => exact (of_retryWait s n j).trans (ih _)

theorem of_freed (s : State) (j : Nat) : KeepsMarks q s (s.freed j) :=
  (of_quoins (s.endWaits_frame j).1).trans (of_engsRetry _ j)

end KeepsMarks

/-- Where no engine waits, a freed quoin stays free: quoins and lanes are as they were. -/
theorem State.freed_frame {s : State} (h : ∀ n : LaneId, (s.eng n).qwait = none) (q : Nat) :
    (s.freed q).quoins = s.quoins ∧ (s.freed q).lanes = s.lanes := by
  obtain ⟨hquoins, hlanes⟩ := s.endWaits_frame q
  have heng (n : LaneId) : ((s.endWaits q).eng n).qwait = none := by rw [State.eng, State.lane, hlanes, ← State.lane, ← State.eng, h n]
  rw [State.freed, State.engsRetry_of_no_waiters heng]
  exact ⟨hquoins, hlanes⟩

/-- Where nobody waits, freeing a quoin does nothing more. -/
theorem State.freed_of_no_waiters {s : State} {q : Nat} (hsess : ∀ k : SessId, (s.session k).wait ≠ some q)
    (heng : ∀ n : LaneId, (s.eng n).qwait = none) : s.freed q = s := by
  rw [State.freed, State.endWaits_of_no_waiters hsess, State.engsRetry_of_no_waiters heng]

end Sys2Proof.Machine
end

section
/-! PROOFS. QUOIN.OP of a session or of Chase, and the shared operations behind it (spec/06_sessions_and_quoins.md R139, R143 to R153). -/

namespace Sys2Proof.Machine

/-! ### The shared operations -/

/-- A quoin that a requester has taken (R145, R148). -/
def Quoin.takenBy (x : Quoin) (h now : Nat) : Quoin :=
  { x with holder := h, since := now, lastLane := if 0x10 ≤ h ∧ h < 0x20 then h - 0x10 else x.lastLane }

/-- The outcome of a TAKE that takes (R145, R151). -/
def Quoin.takeCode (x : Quoin) : Nat := if x.broken then qTakenBroken else qTaken

theorem Quoin.takeCode_of_not_broken {x : Quoin} (h : x.broken = false) : x.takeCode = qTaken := by
  rw [Quoin.takeCode, h, if_neg Bool.false_ne_true]

theorem Quoin.takeCode_ne_busy (x : Quoin) : x.takeCode ≠ qBusy := by
  unfold Quoin.takeCode
  split <;> decide

theorem Quoin.takeCode_no_refusal (x : Quoin) : quoinRefusal x.takeCode = none := by
  unfold Quoin.takeCode
  split <;> rfl

/-- A TAKE of a free quoin with the right to it and no rank in the way (R145, R151). -/
theorem State.takeQuoin_free {s : State} {h q : Nat} (hp : s.quoinAbsent q = false) (hr : s.quoinRight h q = true)
    (hfree : (s.quoin q).holder = noHolder) (hne : noHolder ≠ h) (ho : s.outOfOrder h q = false) :
    s.takeQuoin h q = ((s.quoin q).takeCode, s.setQuoin q ((s.quoin q).takenBy h s.clock)) := by
  simp only [State.takeQuoin, hp, hr, hfree, ho, hne, Bool.not_true, Bool.false_eq_true, if_true, if_false, Quoin.takeCode, Quoin.takenBy]

/-- A quoin that its holder has given (R149). -/
def Quoin.given (x : Quoin) : Quoin := { x with holder := noHolder }

/-- A quoin whose BROKEN flag its holder has cleared (R149). -/
def Quoin.cleared (x : Quoin) : Quoin := { x with broken := false }

section
variable {s : State} {h q : Nat} {gen : Option Nat}

theorem State.giveQuoin_not_holder (hp : s.quoinAbsent q = false) (hh : (s.quoin q).holder ≠ h) : s.giveQuoin h q gen = (qNotHolder, s) := by
  rw [State.giveQuoin, hp, if_neg Bool.false_ne_true, if_pos hh]

theorem State.clearQuoin_not_holder (hp : s.quoinAbsent q = false) (hh : (s.quoin q).holder ≠ h) : s.clearQuoin h q gen = (qNotHolder, s) := by
  rw [State.clearQuoin, hp, if_neg Bool.false_ne_true, if_pos hh]

theorem State.giveQuoin_gen_mismatch (hp : s.quoinAbsent q = false) (hh : (s.quoin q).holder = h) (hc : gen.isSome = true)
    (hg : gen ≠ some (s.quoin q).gen) : s.giveQuoin h q gen = (qGenMismatch, s) := by
  rw [State.giveQuoin, hp, if_neg Bool.false_ne_true, if_neg (not_not_intro hh), if_pos ⟨hc, hg⟩]

theorem State.clearQuoin_gen_mismatch (hp : s.quoinAbsent q = false) (hh : (s.quoin q).holder = h) (hc : gen.isSome = true)
    (hg : gen ≠ some (s.quoin q).gen) : s.clearQuoin h q gen = (qGenMismatch, s) := by
  rw [State.clearQuoin, hp, if_neg Bool.false_ne_true, if_neg (not_not_intro hh), if_pos ⟨hc, hg⟩]

/-- No generation asked for, or the quoin's own, is no mismatch. -/
theorem no_gen_mismatch {g : Nat} (hg : gen = none ∨ gen = some g) : ¬(gen.isSome ∧ gen ≠ some g) := by
  rintro ⟨hsome, hne⟩
  rcases hg with rfl | rfl
  · cases hsome
  · exact hne rfl

theorem State.giveQuoin_given (hp : s.quoinAbsent q = false) (hh : (s.quoin q).holder = h) (hg : gen = none ∨ gen = some (s.quoin q).gen) :
    s.giveQuoin h q gen = (qGiven, (s.setQuoin q (s.quoin q).given).freed q) := by
  rw [State.giveQuoin, hp, if_neg Bool.false_ne_true, if_neg (not_not_intro hh), if_neg (no_gen_mismatch hg), Quoin.given]

theorem State.clearQuoin_cleared (hp : s.quoinAbsent q = false) (hh : (s.quoin q).holder = h) (hg : gen = none ∨ gen = some (s.quoin q).gen) :
    s.clearQuoin h q gen = (qCleared, s.setQuoin q (s.quoin q).cleared) := by
  rw [State.clearQuoin, hp, if_neg Bool.false_ne_true, if_neg (not_not_intro hh), if_neg (no_gen_mismatch hg), Quoin.cleared]

end

/-- The state that a quoin is left in by its GIVE, whoever waits: BROKEN and the generation stay (R149). -/
theorem KeepsMarks.of_given (s : State) (q : Nat) : KeepsMarks q s ((s.setQuoin q (s.quoin q).given).freed q) :=
  (of_setQuoin s q (x := (s.quoin q).given) rfl rfl).trans (of_freed _ q)

/-! ### Breaking one quoin (R150, R152) -/

/-- A quoin as a break leaves it. -/
def Quoin.broke (x : Quoin) : Quoin := { x with holder := noHolder, broken := true, gen := (x.gen + 1) % 65536 }

theorem State.breakQuoins_one {s : State} {q : Nat} (hsess : ∀ k : SessId, (s.session k).wait ≠ some q)
    (heng : ∀ n : LaneId, (s.eng n).qwait = none) : s.breakQuoins [q] = (s.setQuoin q (s.quoin q).broke).raise .quoin 1 := by
  have hwaits : ∀ k : SessId, (((s.setQuoin q (s.quoin q).broke).raise .quoin 1).session k).wait ≠ some q := fun k => by
    rw [State.session_raise]
    exact hsess k
  have hengs : ∀ n : LaneId, (((s.setQuoin q (s.quoin q).broke).raise .quoin 1).eng n).qwait = none := fun n => by
    rw [State.eng_raise]
    exact heng n
  simp only [State.breakQuoins, State.breakOnly, List.foldl_cons, List.foldl_nil, List.isEmpty_cons, Bool.false_eq_true, if_false]
  rw [← Quoin.broke, State.endWaits_of_no_waiters hwaits, State.engsRetry_of_no_waiters hengs]

/-- What tells of a draw: LAST_DRAW, DRAWS, a log entry, DRAWN (R150). -/
def State.drawTold (s : State) (q origin : Nat) : State :=
  (((s.setWd (QUOIN.LD_QUOIN.addr 0 0) (BitVec.ofNat 32 (((s.quoin q).gen + 1) % 65536 * 65536 + (s.quoin q).holder * 256 + q))).bump QUOIN.DRAWS 0
    ).logIt 0x016 ((quoinLane q).getD noLane) origin).raise .quoin 2

theorem State.drawTold_frame (s : State) (q origin : Nat) :
    (s.drawTold q origin).quoins = s.quoins ∧ (s.drawTold q origin).lanes = s.lanes ∧ (s.drawTold q origin).sess = s.sess := by
  have hquoins : (s.drawTold q origin).quoins = s.quoins := by
    rw [State.drawTold, State.raise_quoins, State.logIt_quoins, State.bump_quoins, State.setWd_quoins]
  have hlanes : (s.drawTold q origin).lanes = s.lanes := by
    rw [State.drawTold, State.raise_lanes, State.logIt_lanes, State.bump_lanes, State.setWd_lanes]
  have hsess : (s.drawTold q origin).sess = s.sess := by
    rw [State.drawTold, State.raise_sess, State.logIt_sess, State.bump_sess, State.setWd_sess]
  exact ⟨hquoins, hlanes, hsess⟩

theorem State.drawQuoin_eq (s : State) (q origin : Nat) : s.drawQuoin q origin = (s.drawTold q origin).breakQuoins [q] := by
  rw [State.drawQuoin, State.drawTold]

/-- A draw of a quoin for which nobody waits: the quoin breaks, and beside it only registers, the log and the gatherer move. -/
theorem State.drawQuoin_frame {s : State} {q : Nat} (origin : Nat) (hsess : ∀ k : SessId, (s.session k).wait ≠ some q)
    (heng : ∀ n : LaneId, (s.eng n).qwait = none) :
    (s.drawQuoin q origin).quoins = (s.setQuoin q (s.quoin q).broke).quoins ∧ (s.drawQuoin q origin).lanes = s.lanes
      ∧ (s.drawQuoin q origin).sess = s.sess := by
  obtain ⟨hquoins, hlanes, hsame⟩ := s.drawTold_frame q origin
  rw [State.drawQuoin_eq]
  generalize s.drawTold q origin = t at hquoins hlanes hsame
  have hsess' (k : SessId) : (t.session k).wait ≠ some q := by
    rw [State.session, hsame]
    exact hsess k
  have heng' (n : LaneId) : (t.eng n).qwait = none := by
    rw [State.eng, State.lane, hlanes]
    exact heng n
  rw [State.breakQuoins_one hsess' heng', State.raise_quoins, State.raise_lanes, State.raise_sess, State.setQuoin_lanes,
    State.setQuoin_sess, State.quoin_congr hquoins]
  exact ⟨by rw [State.setQuoin_quoins, State.setQuoin_quoins, hquoins], hlanes, hsame⟩

/-! ### The word of QUOIN.OP -/

/-- The generation that a word of QUOIN.OP asks for with CHECK_GEN (R149). -/
def quoinOpGen (v : Word) : Option Nat := if bitAt v 13 then some (bitsOf v 31 16) else none

theorem bitsOf_quoinOp {v x : Word} {op : Nat} (hx : x = withBits v 11 8 op) (hop : op < 16) : bitsOf x 11 8 = op := by
  rw [hx, bitsOf_withBits_same _ _ _ _ (by decide) (by decide)]
  exact Nat.mod_eq_of_lt hop

/-- Only a TAKE is barred by a session's LANES (R139). -/
theorem State.quoinBarred_of_no_take (s : State) (w : Writer) {x : Word} {op : Nat} (hop : bitsOf x 11 8 = op) (h1 : op ≠ 1) :
    s.quoinBarred w x = false := by
  cases w with
  | host k => simp only [State.quoinBarred, hop, beq_eq_false_iff_ne.mpr h1, Bool.and_false, Bool.false_and]
  | _ => rfl

/-- A session with the right to a quoin is not barred from it. -/
theorem State.quoinBarred_of_right {s : State} {k : SessId} {x : Word} (h : s.quoinRight k.val (bitsOf x 7 0) = true) :
    s.quoinBarred (.host k) x = false := by
  rw [Bool.eq_false_iff]
  intro hbar
  simp only [State.quoinBarred, Bool.and_eq_true, decide_eq_true_eq, bne_iff_ne, Bool.not_eq_true'] at hbar
  obtain ⟨⟨⟨⟨hk, _⟩, hlane⟩, _⟩, hbit⟩ := hbar
  have hk0 : ¬(k.val = 0 ∨ k.val = 0x20) := by
    have hne : k.val ≠ 0 := fun e => hk (Fin.ext e)
    omega
  rw [State.quoinRight, if_neg hk0, if_pos k.isLt, if_neg (Nat.not_lt.mpr hlane), hbit] at h
  cases h

section
variable {s u : State} {h q c : Nat} {x : Word}

theorem State.sessionQuoin_take (hop : bitsOf x 11 8 = 1) (hq : bitsOf x 7 0 = q) (htake : s.takeQuoin h q = (c, u)) (hc : c ≠ qBusy) :
    s.sessionQuoin h x = (c, u) := by
  simp only [State.sessionQuoin, hop, hq, htake, hc, false_and, if_false]

theorem State.sessionQuoin_give (s : State) (h : Nat) (hop : bitsOf x 11 8 = 2) (hq : bitsOf x 7 0 = q) :
    s.sessionQuoin h x = s.giveQuoin h q (quoinOpGen x) := by
  simp only [State.sessionQuoin, hop, hq, quoinOpGen]

theorem State.sessionQuoin_clear (s : State) (h : Nat) (hop : bitsOf x 11 8 = 3) (hq : bitsOf x 7 0 = q) :
    s.sessionQuoin h x = s.clearQuoin h q (quoinOpGen x) := by
  simp only [State.sessionQuoin, hop, hq, quoinOpGen]

theorem State.sessionQuoin_draw (hop : bitsOf x 11 8 = 4) (hq : bitsOf x 7 0 = q) (hp : s.quoinAbsent q = false)
    (hheld : (s.quoin q).holder ≠ noHolder) : s.sessionQuoin 0 x = (qDrawn, s.drawQuoin q 0) := by
  simp only [State.sessionQuoin, hop, hq, hp, hheld, Bool.false_eq_true, ne_eq, not_true_eq_false, if_false]

theorem State.sessionQuoin_cancel {k : SessId} (hop : bitsOf x 11 8 = 5) (hq : bitsOf x 7 0 = q) (hp : s.quoinAbsent q = false)
    (hwait : (s.session k).wait = some q) :
    s.sessionQuoin k.val x = (qWaitCancelled, s.upSess k fun x => { x with wait := none }) := by
  have hk : (⟨k.val % 8, Nat.mod_lt _ (by decide)⟩ : SessId) = k := Fin.ext (Nat.mod_eq_of_lt k.isLt)
  simp only [State.sessionQuoin, hop, hq, hp, hk, hwait, k.isLt, Bool.false_eq_true, and_self, if_true, if_false]

end

/-! ### What an operation that is not refused ends with -/

/-- PRESSED and APPLIED are a word of the page's header (R128). -/
theorem State.pressedOn_frame (s : State) (p : Page) (b : Bool) :
    (s.pressedOn p b).quoins = s.quoins ∧ (s.pressedOn p b).lanes = s.lanes ∧ (s.pressedOn p b).sess = s.sess := by
  unfold State.pressedOn
  split
  · exact ⟨rfl, rfl, rfl⟩
  · exact ⟨State.setHw_quoins .., State.setHw_lanes .., State.setHw_sess ..⟩

/-- The operation on quoin q has come to outcome c: a session's QUOIN.RESULT tells it, and the word counts as accepted (R128, R144). -/
def State.quoinEnded (s : State) (w : Writer) (q c : Nat) : State :=
  (if hk : w.holder < 8 then s.upSess ⟨w.holder, hk⟩ fun x => { x with result := BitVec.ofNat 32 ((s.quoin q).gen * 65536 + q * 256 + c) }
    else s).pressedOn .quoin true

@[simp] theorem State.quoinEnded_quoins (s : State) (w : Writer) (q c : Nat) : (s.quoinEnded w q c).quoins = s.quoins := by
  rw [State.quoinEnded, (State.pressedOn_frame ..).1]
  split
  · exact State.upSess_quoins ..
  · rfl

@[simp] theorem State.quoinEnded_lanes (s : State) (w : Writer) (q c : Nat) : (s.quoinEnded w q c).lanes = s.lanes := by
  rw [State.quoinEnded, (State.pressedOn_frame ..).2.1]
  split
  · exact State.upSess_lanes ..
  · rfl

@[simp] theorem State.quoin_quoinEnded (s : State) (w : Writer) (q c j : Nat) : (s.quoinEnded w q c).quoin j = s.quoin j :=
  State.quoin_congr (s.quoinEnded_quoins w q c) j

theorem State.session_quoinEnded (s : State) (k : SessId) (q c : Nat) :
    (s.quoinEnded (.host k) q c).session k = { s.session k with result := BitVec.ofNat 32 ((s.quoin q).gen * 65536 + q * 256 + c) } := by
  have hk : (Writer.host k).holder < 8 := k.isLt
  rw [State.quoinEnded, dif_pos hk, State.session, (State.pressedOn_frame ..).2.2]
  exact s.session_upSess_same k fun x => { x with result := BitVec.ofNat 32 ((s.quoin q).gen * 65536 + q * 256 + c) }

/-- Chase has no QUOIN.RESULT. -/
theorem State.quoinEnded_chase_sess (s : State) (q c : Nat) : (s.quoinEnded .chase q c).sess = s.sess := by
  rw [State.quoinEnded, (State.pressedOn_frame ..).2.2, dif_neg (by decide)]

/-- A word of QUOIN.OP that is taken, and whose operation comes to an outcome that refuses nothing. -/
theorem quoinPress_ends {w : Writer} {op q c : Nat} {v x : Word} {s u : State} (hx : x = withBits v 11 8 op) (hq : bitsOf x 7 0 = q)
    (hbar : s.quoinBarred w x = false) (h : s.taken w .quoin 0x10 x (quoinOpChk x)) (hrun : s.sessionQuoin w.holder x = (c, u))
    (hc : quoinRefusal c = none) : fin (quoinPress w op v s) = .next (u.quoinEnded w q c).settle := by
  obtain ⟨hw, hj⟩ := h
  simp only [quoinPress, ← hx, hw, hbar, hj, quoinOpEff, quoinOpDo, hrun, hc, hq, Bool.not_true, Bool.or_self, Bool.false_eq_true, if_false, fin,
    State.quoinEnded]

/-- An operation that finds the quoin otherwise than it asks for: nothing of the quoins and lanes moves, and a session is told. -/
theorem State.quoinEnded_frame (s : State) (w : Writer) (q c : Nat) :
    (s.quoinEnded w q c).quoins = s.quoins ∧ (s.quoinEnded w q c).lanes = s.lanes
      ∧ ∀ k, w = .host k → ((s.quoinEnded w q c).session k).result = BitVec.ofNat 32 ((s.quoin q).gen * 65536 + q * 256 + c) := by
  refine ⟨s.quoinEnded_quoins w q c, s.quoinEnded_lanes w q c, ?_⟩
  rintro k rfl
  rw [State.session_quoinEnded]

/-! ### GIVE and CLEAR_BROKEN (R149) -/

/-- A word without CHECK_GEN, or with the quoin's own generation. -/
theorem quoinOpGen_agrees {x : Word} {g : Nat} (h : bitAt x 13 = false ∨ bitsOf x 31 16 = g) : quoinOpGen x = none ∨ quoinOpGen x = some g := by
  cases hb : bitAt x 13
  · exact .inl (by simp only [quoinOpGen, hb, Bool.false_eq_true, if_false])
  · have hg : bitsOf x 31 16 = g := h.resolve_left (by rw [hb]; exact Bool.noConfusion)
    exact .inr (by simp only [quoinOpGen, hb, if_true, hg])

/-- Settles O48: the shared operations go by R149, and a word of QUOIN.OP that is taken runs them. -/
theorem giveAndClearRules : Obligations.GiveAndClearRules := by
  intro s q hq96 hp
  refine ⟨fun w op v x c hc hx hq htaken => ?word, fun h gen => ?shared⟩
  case shared =>
    refine ⟨fun hh => ⟨State.giveQuoin_not_holder hp hh, State.clearQuoin_not_holder hp hh⟩,
      fun hh hsome hg => ⟨State.giveQuoin_gen_mismatch hp hh hsome hg, State.clearQuoin_gen_mismatch hp hh hsome hg⟩, fun hh hg => ?_⟩
    rw [State.giveQuoin_given hp hh hg, State.clearQuoin_cleared hp hh hg]
    have hmarks := KeepsMarks.of_given s q
    dsimp only
    exact ⟨rfl, hmarks.broken, hmarks.gen, rfl⟩
  case word =>
    -- both commands press their word, and the word runs the shared operation
    obtain ⟨hexec, hop, hrun⟩ : exec c s = fin (quoinPress w op v s) ∧ (op = 2 ∨ op = 3)
        ∧ s.sessionQuoin w.holder x = if op = 2 then s.giveQuoin w.holder q (quoinOpGen x) else s.clearQuoin w.holder q (quoinOpGen x) := by
      simp only [List.mem_cons, Prod.mk.injEq, List.not_mem_nil, or_false] at hc
      rcases hc with ⟨rfl, rfl⟩ | ⟨rfl, rfl⟩
      · exact ⟨rfl, .inl rfl, State.sessionQuoin_give s _ (bitsOf_quoinOp hx (by decide)) hq⟩
      · exact ⟨rfl, .inr rfl, State.sessionQuoin_clear s _ (bitsOf_quoinOp hx (by decide)) hq⟩
    have hbar : s.quoinBarred w x = false := s.quoinBarred_of_no_take w (bitsOf_quoinOp hx (by omega)) (by omega)
    rw [hexec]
    refine ⟨fun hh => ?notHolder, fun hh hcheck hne => ?mismatch, fun hgive hh hg => ?given, fun hclear hh hg => ?cleared⟩
    case notHolder =>
      rw [State.giveQuoin_not_holder hp hh, State.clearQuoin_not_holder hp hh, ite_self] at hrun
      exact ⟨_, quoinPress_ends hx hq hbar htaken hrun rfl, s.quoinEnded_frame w q qNotHolder⟩
    case mismatch =>
      have hsome : quoinOpGen x = some (bitsOf x 31 16) := by rw [quoinOpGen, if_pos hcheck]
      have hgen : quoinOpGen x ≠ some (s.quoin q).gen := fun h => hne (Option.some.inj (hsome.symm.trans h))
      have hasked : (quoinOpGen x).isSome = true := by rw [hsome, Option.isSome_some]
      rw [State.giveQuoin_gen_mismatch hp hh hasked hgen, State.clearQuoin_gen_mismatch hp hh hasked hgen, ite_self] at hrun
      exact ⟨_, quoinPress_ends hx hq hbar htaken hrun rfl, s.quoinEnded_frame w q qGenMismatch⟩
    case given =>
      rw [if_pos hgive, State.giveQuoin_given hp hh (quoinOpGen_agrees hg)] at hrun
      have hmarks := KeepsMarks.of_given s q
      refine ⟨_, quoinPress_ends hx hq hbar htaken hrun rfl, ?_⟩
      rw [State.quoin_quoinEnded]
      refine ⟨hmarks.broken, hmarks.gen, fun heng => ?_⟩
      have hfreed := (State.freed_frame (s := s.setQuoin q (s.quoin q).given) heng q).1
      rw [State.quoin_congr hfreed, State.quoin_setQuoin_same s hq96, Quoin.given]
    case cleared =>
      rw [if_neg (by omega), State.clearQuoin_cleared hp hh (quoinOpGen_agrees hg)] at hrun
      refine ⟨_, quoinPress_ends hx hq hbar htaken hrun rfl, ?_⟩
      rw [State.quoin_quoinEnded, State.quoin_setQuoin_same s hq96, Quoin.cleared]

/-! ### Every row of QUOIN.OP (R143 to R153) -/

/-- An operation that has set quoin q to `x`, and moved no other quoin and no lane, as its end leaves it. -/
theorem State.quoinEnded_of_set {s u : State} {q : Nat} {x : Quoin} (hq : q < 96) (hquoins : u.quoins = (s.setQuoin q x).quoins)
    (hlanes : u.lanes = s.lanes) (w : Writer) (c : Nat) :
    (u.quoinEnded w q c).quoin q = x
      ∧ (∀ k, w = .host k → ((u.quoinEnded w q c).session k).result = BitVec.ofNat 32 (x.gen * 65536 + q * 256 + c))
      ∧ (u.quoinEnded w q c).lanes = s.lanes ∧ ∀ j, j ≠ q → (u.quoinEnded w q c).quoin j = s.quoin j := by
  have hquoin : u.quoin q = x := by rw [State.quoin_congr hquoins, State.quoin_setQuoin_same s hq]
  refine ⟨by rw [State.quoin_quoinEnded, hquoin], ?_, by rw [State.quoinEnded_lanes, hlanes], fun j hj => ?_⟩
  · rintro k rfl
    rw [State.session_quoinEnded, hquoin]
  · rw [State.quoin_quoinEnded, State.quoin_congr hquoins, State.quoin_setQuoin_ne s hj]

/-- A quoin of the 96 that the part has, and that is held for longer than its limit (R152). -/
theorem State.overHeld_of_late {s : State} {q : Nat} (hp : s.quoinAbsent q = false) (hheld : (s.quoin q).holder ≠ noHolder)
    (hlate : (s.quoin q).since + (s.quoin q).limit * 200000 < s.clock) : s.overHeld q = true := by
  simp only [State.overHeld, hp, bne_iff_ne.mpr hheld, decide_eq_true hlate, Bool.not_false, Bool.and_self]

/-- Settles O10: each word of QUOIN.OP runs its operation, whose outcome the quoin and QUOIN.RESULT show. -/
theorem quoinRowsComplete : Obligations.QuoinRowsComplete := by
  intro s k v q hq96 hp
  refine ⟨fun x hx hq htaken hright hfree horder hbroken => ?take, fun x hx hq htaken hfree horder => ?chaseTake,
    fun x hx hq hcheck htaken hheld hsess heng => ?give, fun x hx hq hcheck htaken hheld => ?clear,
    fun x hk0 hx hq htaken hheld hsess heng => ?draw, fun x hx hq htaken hwait => ?cancel, fun hheld hlate => ?expiry,
    fun w v htaken => ?config, fun n x hx hdue hbusy => ?timeout⟩
  case take =>
    have hk : noHolder ≠ k.val := Nat.ne_of_gt (Nat.lt_trans k.isLt (by decide))
    have htake := State.takeQuoin_free hp hright hfree hk horder
    have hrun := State.sessionQuoin_take (bitsOf_quoinOp hx (by decide)) hq htake (Quoin.takeCode_ne_busy _)
    rw [Quoin.takeCode_of_not_broken hbroken] at hrun
    have hbar : s.quoinBarred (.host k) x = false := State.quoinBarred_of_right (by rw [hq, hright])
    obtain ⟨hquoin, hresult, hframe⟩ := State.quoinEnded_of_set (s := s) hq96 rfl rfl (.host k) qTaken
    exact ⟨_, quoinPress_ends hx hq hbar htaken hrun rfl, by rw [hquoin, Quoin.takenBy], by rw [hquoin, Quoin.takenBy], hresult k rfl, hframe⟩
  case chaseTake =>
    have htake := State.takeQuoin_free hp rfl hfree (by decide) horder
    have hrun := State.sessionQuoin_take (bitsOf_quoinOp hx (by decide)) hq htake (Quoin.takeCode_ne_busy _)
    obtain ⟨hquoin, _, hframe⟩ := State.quoinEnded_of_set (s := s) hq96 rfl rfl .chase (s.quoin q).takeCode
    exact ⟨_, quoinPress_ends hx hq rfl htaken hrun (Quoin.takeCode_no_refusal _), by rw [hquoin, Quoin.takenBy],
      State.quoinEnded_chase_sess .., hframe⟩
  case give =>
    have hop := bitsOf_quoinOp hx (by decide)
    have hrun := State.sessionQuoin_give s k.val hop hq
    rw [State.giveQuoin_given hp hheld (quoinOpGen_agrees (.inl hcheck)),
      State.freed_of_no_waiters (s := s.setQuoin q (s.quoin q).given) hsess heng] at hrun
    obtain ⟨hquoin, hresult, hframe⟩ := State.quoinEnded_of_set (s := s) hq96 rfl rfl (.host k) qGiven
    exact ⟨_, quoinPress_ends hx hq (s.quoinBarred_of_no_take _ hop (by decide)) htaken hrun rfl, by rw [hquoin, Quoin.given],
      by rw [hquoin, Quoin.given], hresult k rfl, hframe⟩
  case clear =>
    have hop := bitsOf_quoinOp hx (by decide)
    have hrun := State.sessionQuoin_clear s k.val hop hq
    rw [State.clearQuoin_cleared hp hheld (quoinOpGen_agrees (.inl hcheck))] at hrun
    obtain ⟨hquoin, hresult, hframe⟩ := State.quoinEnded_of_set (s := s) hq96 rfl rfl (.host k) qCleared
    exact ⟨_, quoinPress_ends hx hq (s.quoinBarred_of_no_take _ hop (by decide)) htaken hrun rfl, by rw [hquoin, Quoin.cleared],
      by rw [hquoin, Quoin.cleared, hheld], hresult k rfl, hframe⟩
  case draw =>
    subst hk0
    have hop := bitsOf_quoinOp hx (by decide)
    have hrun := State.sessionQuoin_draw hop hq hp hheld
    obtain ⟨hquoins, hlanes, _⟩ := State.drawQuoin_frame 0 hsess heng
    obtain ⟨hquoin, hresult, hframe⟩ := State.quoinEnded_of_set hq96 hquoins hlanes (.host 0) qDrawn
    refine ⟨_, quoinPress_ends hx hq (s.quoinBarred_of_no_take _ hop (by decide)) htaken hrun rfl, ?_⟩
    rw [hquoin]
    exact ⟨rfl, rfl, rfl, hresult 0 rfl, hframe⟩
  case cancel =>
    have hop := bitsOf_quoinOp hx (by decide)
    have hrun := State.sessionQuoin_cancel hop hq hp hwait
    refine ⟨_, quoinPress_ends hx hq (s.quoinBarred_of_no_take _ hop (by decide)) htaken hrun rfl, ?_⟩
    rw [State.session_quoinEnded, State.quoinEnded_quoins, State.quoinEnded_lanes, State.upSess_quoins, State.upSess_lanes,
      State.quoin_congr (State.upSess_quoins ..), State.session_upSess_same]
    exact ⟨rfl, rfl, rfl, rfl⟩
  case expiry => rw [exec, execHoldLimitExpiry, if_pos (State.overHeld_of_late hp hheld hlate), fin]
  case config => rw [exec, execQuoinCfg, if_neg (Nat.not_le.mpr hq96), pressOne_near rfl (by omega) htaken, fin]
  case timeout =>
    rcases htake : s.takeQuoin (0x10 + n.val) x.quoin with ⟨c, u⟩
    have hc : c = qBusy := by rw [← hbusy, htake]
    have hnot : ¬(qBusy = qTaken ∨ qBusy = qTakenBroken) := by decide
    simp only [exec, execTakeqTimeout, hx, Nat.not_lt.mpr hdue, htake, hc, hnot, if_false, fin]

end Sys2Proof.Machine
end

section
/-! PROOFS. Judging a response, lockouts, forced closes and keys of sessions (spec/06_sessions_and_quoins.md R133 to R138). -/

namespace Sys2Proof.Machine

/-! ### RESULT_Sk: the word that holds OUTCOME, FAILS and ATTEMPTS of a session -/

/-- A field of RESULT_Sk reads the same where the word is the same. -/
theorem State.g_result_congr {s t : State} {k : SessId} (f : Fld) (hf : f.addr 0 k.val = SESS.OUTCOME.addr 0 k.val)
    (h : t.wd (SESS.OUTCOME.addr 0 k.val) = s.wd (SESS.OUTCOME.addr 0 k.val)) : t.g f 0 k.val = s.g f 0 k.val := by
  rw [State.g, hf, h, State.g, hf]

section
variable (s : State) (k : SessId)

theorem resultAddr_page : SESS.OUTCOME.addr 0 k.val / 256 = Page.sess.num := by
  have hk := k.isLt
  simp only [Fld.addr, SESS.OUTCOME, Page.num]
  omega

theorem State.wd_result_logIt (code lane origin : Nat) :
    (s.logIt code lane origin).wd (SESS.OUTCOME.addr 0 k.val) = s.wd (SESS.OUTCOME.addr 0 k.val) := by
  refine (SameButLog.of_logIt s code lane origin).words _ ?_ ?_ <;> rw [resultAddr_page] <;> decide

theorem State.wd_result_sessionChange (old : State) :
    (State.sessionChange old s).wd (SESS.OUTCOME.addr 0 k.val) = s.wd (SESS.OUTCOME.addr 0 k.val) := by
  have hmod : SESS.OUTCOME.addr 0 k.val ≠ Page.mod.at_ 4 := by simp only [Fld.addr, SESS.OUTCOME, Page.at_, Page.num]; omega
  unfold State.sessionChange
  split
  · rfl
  · rw [State.raiseMod, State.wd_raise, if_neg hmod]

theorem State.session_sessionChange (old : State) : (State.sessionChange old s).session k = s.session k := by
  unfold State.sessionChange
  split
  · rfl
  · exact s.session_raise .mod 6 k

theorem State.session_sessOutcome (c : Nat) : (s.sessOutcome k c).session k = s.session k := by
  rw [State.session, (s.sessOutcome_frame k c).2.2.2, ← State.session]

/-- An outcome leaves the fields above it in RESULT_Sk (R136). -/
theorem State.g_sessOutcome_above (c : Nat) (f : Fld) (hf : f.addr 0 k.val = SESS.OUTCOME.addr 0 k.val) (hlo : SESS.OUTCOME.hi < f.lo) :
    (s.sessOutcome k c).g f 0 k.val = s.g f 0 k.val := by
  have hsession : MOD.SESSIONS_LAST_SESSION.apart 0 0 f 0 k.val :=
    .inl (by rw [hf]; simp only [Fld.addr, SESS.OUTCOME, MOD.SESSIONS_LAST_SESSION]; omega)
  have houtcome : MOD.SESSIONS_LAST_OUTCOME.apart 0 0 f 0 k.val :=
    .inl (by rw [hf]; simp only [Fld.addr, SESS.OUTCOME, MOD.SESSIONS_LAST_OUTCOME]; omega)
  rw [State.sessOutcome, State.g_put_ne _ _ _ _ _ _ _ rfl hsession, State.g_put_ne _ _ _ _ _ _ _ rfl houtcome,
    State.g_p_ne _ _ _ _ _ _ _ _ rfl (.inr (.inl hlo))]

/-! ### The steps of a judgement (R134 to R137) -/

/-- Chase has taken the first response that waits. -/
def State.responseTaken : State := s.upSess k fun x => { x with responses := x.responses.drop 1 }

/-- Chase has judged it: ATTEMPTS has advanced and the challenge is a new one (R137). -/
def State.judged : State := ((s.responseTaken k).sessAttempt k).newChallenge k

/-- It was wrong: FAILS counts it, the outcome and the log tell it (R136, R137). -/
def State.judgedWrong : State :=
  (((s.judged k).p SESS.FAILS 0 k.val ((s.judged k).g SESS.FAILS 0 k.val + 1)).sessOutcome k soBadResponse).logIt 0x012 noLane k.val

/-- The third failure in a row locks the session out (R137). -/
def State.lockedIfThird : State := if 3 ≤ s.g SESS.FAILS 0 k.val then s.lockSession k else s

/-- It was right, and the session was closed: it opens with no run of failures (R136). -/
def State.judgedRight : State := (((s.judged k).openSession k).p SESS.FAILS 0 k.val 0).sessOutcome k soOpened

/-- Of a session, a new challenge changes the challenge; of the registers, nothing (R134). -/
theorem State.session_newChallenge : ∃ c, (s.newChallenge k).session k = { s.session k with challenge := c } :=
  ⟨_, State.session_upSess_same _ k _⟩

theorem State.g_newChallenge (f : Fld) (n i : Nat) : (s.newChallenge k).g f n i = s.g f n i := State.g_congr rfl f n i

theorem State.session_judged : ∃ c, (s.judged k).session k = { s.session k with responses := (s.session k).responses.drop 1, challenge := c } := by
  obtain ⟨c, hc⟩ := ((s.responseTaken k).sessAttempt k).session_newChallenge k
  refine ⟨c, ?_⟩
  rw [State.judged, hc, State.sessAttempt, State.session, State.p_sess, ← State.session, State.responseTaken, State.session_upSess_same]

theorem State.fails_judged : (s.judged k).g SESS.FAILS 0 k.val = s.g SESS.FAILS 0 k.val := by
  rw [State.judged, State.g_newChallenge, State.sessAttempt, State.g_p_ne _ _ _ _ _ _ _ _ rfl (.inr (.inr (by decide))), State.responseTaken,
    State.g_upSess]

theorem State.attempts_judged : (s.judged k).g SESS.ATTEMPTS 0 k.val = (s.g SESS.ATTEMPTS 0 k.val + 1) % 256 := by
  rw [State.judged, State.g_newChallenge, State.sessAttempt, State.g_p_same _ _ _ _ _ rfl, State.responseTaken, State.g_upSess]
  exact Nat.mod_mod _ 256

end

section
variable {s : State} {k : SessId} {r : BitVec 256} {key : BitVec 256}

/-- Taking a response leaves what it is judged by: lockout, key and challenge. -/
theorem State.responseTaken_keeps (s : State) (k : SessId) (key : BitVec 256) :
    ((s.responseTaken k).session k).lockout = (s.session k).lockout ∧ ((s.responseTaken k).session k).key = (s.session k).key
      ∧ (s.responseTaken k).goodResponse k key = s.goodResponse k key := by
  rw [State.goodResponse, State.responseTaken, State.session_upSess_same, State.goodResponse]
  exact ⟨rfl, rfl, rfl⟩

theorem State.judgeResponse_barred :
    s.judgeResponse k r true = ((s.responseTaken k).newChallenge k).sessOutcome k soLockedOut := by
  rw [State.judgeResponse, State.responseTaken, Bool.true_or, if_pos rfl]

theorem State.judgeResponse_right (hlock : (s.session k).lockout = false) (hkey : (s.session k).key = some key)
    (hclosed : (s.session k).isOpen = false) (hgood : s.goodResponse k key = beBytes 32 r.toNat) :
    s.judgeResponse k r false = State.sessionChange s (s.judgedRight k) := by
  obtain ⟨hlock', hkey', hgood'⟩ := s.responseTaken_keeps k key
  obtain ⟨c, hjudged⟩ := s.session_judged k
  have hclosed' : ((s.judged k).session k).isOpen = false := by rw [hjudged, hclosed]
  rw [hlock] at hlock'
  rw [hkey] at hkey'
  rw [hgood] at hgood'
  simp only [State.judged, State.responseTaken] at hlock' hkey' hgood' hclosed'
  simp only [State.judgeResponse, hlock', hkey', hgood', hclosed', Bool.or_self, Bool.false_eq_true, decide_true, if_true, if_false]
  rfl

theorem State.judgeResponse_wrong (hlock : (s.session k).lockout = false) (hkey : (s.session k).key = some key)
    (hbad : s.goodResponse k key ≠ beBytes 32 r.toNat) :
    s.judgeResponse k r false = (s.judgedWrong k).lockedIfThird k := by
  obtain ⟨hlock', hkey', hgood'⟩ := s.responseTaken_keeps k key
  rw [hlock] at hlock'
  rw [hkey] at hkey'
  rw [← hgood'] at hbad
  simp only [State.responseTaken] at hlock' hkey' hbad
  simp only [State.judgeResponse, hlock', hkey', hbad, Bool.or_self, Bool.false_eq_true, decide_false, if_false]
  rfl

end

/-! ### What a judgement leaves (R136, R137) -/

section
variable (s : State) (k : SessId)

theorem State.g_result_logIt (code lane origin : Nat) (f : Fld) (hf : f.addr 0 k.val = SESS.OUTCOME.addr 0 k.val) :
    (s.logIt code lane origin).g f 0 k.val = s.g f 0 k.val := State.g_result_congr f hf (s.wd_result_logIt k code lane origin)

theorem State.session_p (f : Fld) (n i v : Nat) : (s.p f n i v).session k = s.session k := rfl

theorem State.judgedRight_session :
    ((s.judgedRight k).session k).isOpen = true ∧ ((s.judgedRight k).session k).responses = (s.session k).responses.drop 1 := by
  obtain ⟨c, hc⟩ := s.session_judged k
  rw [State.judgedRight, State.session_sessOutcome, State.session_p, State.openSession, State.session_logIt, State.session_upSess_same, hc]
  exact ⟨rfl, rfl⟩

theorem State.judgedRight_result :
    (s.judgedRight k).g SESS.OUTCOME 0 k.val = soOpened ∧ (s.judgedRight k).g SESS.FAILS 0 k.val = 0
      ∧ (s.judgedRight k).g SESS.ATTEMPTS 0 k.val = (s.g SESS.ATTEMPTS 0 k.val + 1) % 256 := by
  refine ⟨State.g_sessOutcome _ k soOpened, ?fails, ?attempts⟩
  case fails => rw [State.judgedRight, State.g_sessOutcome_above _ _ _ SESS.FAILS rfl (by decide), State.g_p_same _ _ _ _ _ rfl, Nat.zero_mod]
  case attempts =>
    rw [State.judgedRight, State.g_sessOutcome_above _ _ _ SESS.ATTEMPTS rfl (by decide),
      State.g_p_ne _ _ _ _ _ _ _ _ rfl (.inr (.inl (by decide))), State.openSession, State.g_result_logIt _ _ _ _ _ SESS.ATTEMPTS rfl,
      State.g_upSess, State.attempts_judged]

theorem State.judgedWrong_session :
    ((s.judgedWrong k).session k).isOpen = (s.session k).isOpen ∧ ((s.judgedWrong k).session k).lockout = (s.session k).lockout := by
  obtain ⟨c, hc⟩ := s.session_judged k
  rw [State.judgedWrong, State.session_logIt, State.session_sessOutcome, State.session_p, hc]
  exact ⟨rfl, rfl⟩

theorem State.judgedWrong_result :
    (s.judgedWrong k).g SESS.OUTCOME 0 k.val = soBadResponse
      ∧ (s.judgedWrong k).g SESS.FAILS 0 k.val = (s.g SESS.FAILS 0 k.val + 1) % 256 := by
  rw [State.judgedWrong, State.g_result_logIt _ _ _ _ _ SESS.OUTCOME rfl, State.g_result_logIt _ _ _ _ _ SESS.FAILS rfl, State.g_sessOutcome,
    State.g_sessOutcome_above _ _ _ SESS.FAILS rfl (by decide), State.g_p_same _ _ _ _ _ rfl, State.fails_judged]
  exact ⟨rfl, rfl⟩

/-- A lockout that begins tells the log of it, and leaves the outcome. -/
theorem State.lockSession_frame :
    ((s.lockSession k).session k).lockout = true ∧ (s.lockSession k).g SESS.OUTCOME 0 k.val = s.g SESS.OUTCOME 0 k.val := by
  rw [State.lockSession, State.session_logIt, State.session_upSess_same, State.g_result_logIt _ _ _ _ _ SESS.OUTCOME rfl, State.g_upSess]
  exact ⟨rfl, rfl⟩

/-- A response that is not judged is gone, with a new challenge in place of the one that it answered (R137). -/
theorem State.barred_session :
    ((((s.responseTaken k).newChallenge k).sessOutcome k soLockedOut).session k).isOpen = (s.session k).isOpen
      ∧ ((((s.responseTaken k).newChallenge k).sessOutcome k soLockedOut).session k).responses = (s.session k).responses.drop 1 := by
  obtain ⟨c, hc⟩ := (s.responseTaken k).session_newChallenge k
  rw [State.session_sessOutcome, hc, State.responseTaken, State.session_upSess_same]
  exact ⟨rfl, rfl⟩

end

/-- The first response that waits is judged while Chase runs. -/
theorem exec_responseJudgement {s : State} {k : SessId} {r : BitVec 256} {barred : Bool} {rest : List (BitVec 256 × Bool)}
    (hc : s.chaseUp = true) (hr : (s.session k).responses = (r, barred) :: rest) :
    exec (.responseJudgement k) s = .next (s.judgeResponse k r barred).settle := by
  simp only [exec, execResponseJudgement, hr, hc, if_true, fin]

/-- Settles O9: a judgement by its outcomes, and the other commands by the press of their word. -/
theorem sessionRowsComplete : Obligations.SessionRowsComplete := by
  intro s k w
  refine ⟨fun r rest key hc hr hlock hkey hclosed hgood => ?right, fun r rest key hc hr hlock hkey hbad hfails => ?wrong,
    fun r rest key hc hr hlock hkey hbad hfails => ?third, fun r rest hc hr => ?barred, fun hlock hdue => ?lockoutEnd,
    fun v htaken => ?forceClose, fun words v x hx htaken => ?keyLoad, fun v x hx htaken => ?keyErase⟩
  case right =>
    obtain ⟨hopen, hrest⟩ := s.judgedRight_session k
    obtain ⟨houtcome, hfails, hattempts⟩ := s.judgedRight_result k
    have hword := (s.judgedRight k).wd_result_sessionChange k s
    refine ⟨_, by rw [exec_responseJudgement hc hr, State.judgeResponse_right hlock hkey hclosed hgood], ?_⟩
    rw [State.session_sessionChange, State.g_result_congr SESS.OUTCOME rfl hword, State.g_result_congr SESS.FAILS rfl hword,
      State.g_result_congr SESS.ATTEMPTS rfl hword]
    exact ⟨hopen, by rw [hrest, hr, List.drop_one, List.tail_cons], houtcome, hfails, hattempts⟩
  case wrong =>
    obtain ⟨hopen, hsame⟩ := s.judgedWrong_session k
    obtain ⟨houtcome, hcount⟩ := s.judgedWrong_result k
    rw [Nat.mod_eq_of_lt (by omega)] at hcount
    have hnot : ¬3 ≤ (s.judgedWrong k).g SESS.FAILS 0 k.val := by omega
    exact ⟨_, by rw [exec_responseJudgement hc hr, State.judgeResponse_wrong hlock hkey hbad, State.lockedIfThird, if_neg hnot], hopen, houtcome,
      hcount, hsame.trans hlock⟩
  case third =>
    obtain ⟨houtcome, hcount⟩ := s.judgedWrong_result k
    obtain ⟨hlocked, hkept⟩ := (s.judgedWrong k).lockSession_frame k
    have hthree : 3 ≤ (s.judgedWrong k).g SESS.FAILS 0 k.val := by omega
    exact ⟨_, by rw [exec_responseJudgement hc hr, State.judgeResponse_wrong hlock hkey hbad, State.lockedIfThird, if_pos hthree], hlocked,
      hkept.trans houtcome⟩
  case barred =>
    obtain ⟨hopen, hrest⟩ := s.barred_session k
    refine ⟨_, by rw [exec_responseJudgement hc hr, State.judgeResponse_barred], hopen, by rw [hrest, hr, List.drop_one, List.tail_cons],
      State.g_sessOutcome _ k soLockedOut, ?_⟩
    rw [State.g_sessOutcome_above _ _ _ SESS.FAILS rfl (by decide), State.g_newChallenge, State.responseTaken, State.g_upSess]
  case lockoutEnd => rw [exec, execLockoutEnd, hlock, decide_eq_true hdue, Bool.and_self, if_pos rfl, fin]
  case forceClose => rw [exec, execForceClose, pressOne_near rfl (by decide) htaken, fin]
  case keyLoad => rw [exec, execKeyLoad, ← hx, keyPress, pressOne_near rfl (by decide) htaken, fin]
  case keyErase => rw [exec, execKeyErase, ← hx, keyPress, pressOne_near rfl (by decide) htaken, fin]

end Sys2Proof.Machine
end

section
/-! PROOFS. What the state at reset holds (the Reset columns of spec/16_compositor.md to spec/19_two_wire_ports.md; R142, R390, R413, R415,
R461, R493). -/

namespace Sys2Proof.Machine

/-! ### Reading the reset state -/

/-- Every register but SUPPLY and RESET_CAUSE of the MOD page is at its Reset column. -/
theorem State.wd_reset {a : Nat} (hsupply : a ≠ 0x16) (hcause : a ≠ 0x19) : State.reset.wd a = resetWord a := by
  simp only [State.wd, State.reset, sget, beq_eq_false_iff_ne.mpr hsupply, beq_eq_false_iff_ne.mpr hcause, Bool.false_eq_true, if_false]

theorem State.lane_reset (n : LaneId) : State.reset.lane n = Lane.reset := Vector.getElem_replicate ..

theorem State.session_reset (k : SessId) : State.reset.session k = Session.reset := Vector.getElem_replicate ..

theorem State.quoin_reset (q : Fin 96) : State.reset.quoin q.val = Quoin.resetAt q.val := by
  simp only [State.quoin, State.reset, Vector.getElem?_eq_getElem q.isLt, Vector.getElem_ofFn, Option.getD_some]

/-- The ceilings of a lane's grants, in Table: CHASE.CEIL (R461). -/
theorem resetWord_ceilings (n : LaneId) :
    resetWord (CHASE.CEIL_VMAX.addr 0 n.val) = 0x447A0000 ∧ resetWord (CHASE.CEIL_IMAX.addr 0 n.val) = 0x3B03126F
      ∧ resetWord (CHASE.CEIL_EMAX.addr 0 n.val) = 0x41200000 := by
  revert n
  decide

/-- Settles O43: each value stands in the Reset column of its word, or in the block as it is reset. -/
theorem resetHoldsTheSpecsValues : Obligations.ResetHoldsTheSpecsValues := by
  have hbucket : State.reset.g LOG.BUCKET 0 = 0x4B0 := by decide
  have hwarn : State.reset.g CAL.WARN_DAYS 0 = 0x1E := by decide
  have hpolicy : State.reset.g CAL.POLICY 0 = 0 := by decide
  have hsb : State.reset.wd (SB.CFG_SLEEP.addr 0 0) = 0x100 := by decide
  refine ⟨hbucket, hwarn, hpolicy, hsb, rfl, fun n => ?ceilings, fun n => ?engine, fun q => ?quoin, fun k => ?session, rfl, rfl⟩
  case ceilings =>
    have hword (f : Fld) (hf : f.page = Page.chase.num) (i : Nat) : State.reset.wd (f.addr 0 i) = resetWord (f.addr 0 i) := by
      apply State.wd_reset <;> simp only [Fld.addr, hf, Page.num] <;> omega
    rw [hword _ rfl, hword _ rfl, hword _ rfl]
    exact resetWord_ceilings n
  case engine =>
    rw [State.eng, State.gal, State.lane_reset]
    exact ⟨rfl, rfl, rfl, rfl, rfl⟩
  case quoin =>
    rw [State.quoin_reset]
    exact ⟨rfl, rfl⟩
  case session =>
    rw [State.session_reset]
    rfl

end Sys2Proof.Machine
end

section
/-! PROOFS. What settles after every command (spec/07_event_gatherer.md R172, R173; spec/16_compositor.md R400, R413): every command ends by
settling, what settling moves, and that the state at reset has settled. -/

namespace Sys2Proof.Machine

/-! ### Every command ends by settling -/

/-- The outcome is that of a command which has come to its end: what settles has settled. -/
def EndsSettled (o : Out) : Prop := ∃ u : State, o = .next u.settle

theorem endsSettled_fin (u : State) : EndsSettled (fin u) := ⟨u, rfl⟩

/-- A choice between two outcomes that end by settling is one of them. -/
theorem endsSettled_ite {b : Bool} {x y : Out} (hx : EndsSettled x) (hy : EndsSettled y) : EndsSettled (if b then x else y) := by
  cases b
  · exact hy
  · exact hx

/-- Every command ends by settling: its meaning says so in each arm, with a case split of its own only in two. -/
theorem exec_endsSettled (c : Instr) (s : State) : EndsSettled (exec c s) := by
  cases c with
  | discrepancyClear w pair proof =>
    cases pair with
    | loop n => exact endsSettled_fin _
    | permit => exact endsSettled_fin _
  | sbUnknownCommand op p arg => exact endsSettled_ite (endsSettled_fin s) (endsSettled_fin _)
  | _ => exact endsSettled_fin _

/-- So does a step: a command, or a tick on an empty queue. -/
theorem step_endsSettled (s : State) : EndsSettled (step s) := by
  unfold step
  split
  · exact endsSettled_fin _
  · exact exec_endsSettled ..

/-- Settles O40: a step ends by settling, and what has settled is settled. -/
theorem everyStepSettles : Obligations.EveryStepSettles := by
  intro s t h
  obtain ⟨u, hu⟩ := step_endsSettled s
  obtain rfl : u.settle = t := Host.Outcome.next.inj (hu.symm.trans h)
  exact settled_settle u

/-! ### What settling moves -/

/-- The rest of what settles touches the lanes, the FIRQ lines and the count of steps. -/
theorem State.settleRest_eq (s : State) : s.settleRest =
    { s with lanes := s.wakeEngs.lanes, stepNo := s.stepNo + 1,
             evg := { s.evg with firqA := s.wakeEngs.settleFirqs.evg.firqA, firqB := s.wakeEngs.settleFirqs.evg.firqB } } := by
  simp only [State.settleRest, State.settleFirqs, State.wakeEngs]

/-- Waking a lane's compositor changes its run state alone. -/
theorem State.lane_wakeEngs_eq (s : State) (n : LaneId) :
    s.wakeEngs.lane n = { s.lane n with eng := { s.eng n with run := (s.wakeEngs.lane n).eng.run } } := by
  rw [State.lane_wakeEngs]
  split <;> rfl

theorem State.wakeDue_iff (s : State) (n : LaneId) :
    s.wakeDue n = true ↔ (s.eng n).run = .idle ∧ ((s.top (3 + n.val)).isSome = true ∨ (s.asyncNow n).isSome = true) := by
  simp only [State.wakeDue, Bool.and_eq_true, Bool.or_eq_true, beq_iff_eq]

/-- The compositor runs where it was to wake, and stays as it was elsewhere. -/
theorem State.run_wakeEngs (s : State) (n : LaneId) :
    (s.wakeEngs.lane n).eng.run = if (s.eng n).run = .idle ∧ ((s.top (3 + n.val)).isSome = true ∨ (s.asyncNow n).isSome = true)
      then .running else (s.eng n).run := by
  rw [State.lane_wakeEngs]
  simp only [← State.wakeDue_iff]
  split <;> rfl

/-- Settles O42: with no debug halt due settling is waking the compositors and what the FIRQ lines come to. -/
theorem settleLeavesTheRestAlone : Obligations.SettleLeavesTheRestAlone := by
  intro s hquiet
  refine ⟨s.wakeEngs.lanes, s.wakeEngs.settleFirqs.evg.firqA, s.wakeEngs.settleFirqs.evg.firqB, ?frame, fun n => ?lanes⟩
  case frame => rw [settle_of_quiet hquiet, State.settleRest_eq]
  case lanes =>
    have hlane : s.wakeEngs.lanes[n] = s.wakeEngs.lane n := rfl
    rw [hlane]
    exact ⟨s.lane_wakeEngs_eq n, s.run_wakeEngs n⟩

/-! ### The state at reset -/

theorem State.eng_reset (n : LaneId) : State.reset.eng n = Eng.reset := by rw [State.eng, State.lane_reset]; rfl

/-- Settles O41: at reset every compositor is in reset, no source is listed, and no memory lists a byte. -/
theorem resetIsSettled : Obligations.ResetIsSettled := by
  refine ⟨⟨fun n hrun => ?notIdle, rfl, rfl⟩, fun n => ?quiet, fun n => ?memory⟩
  case notIdle =>
    rw [State.eng_reset] at hrun
    cases hrun
  case quiet =>
    rw [State.haltDue, State.eng_reset]
    rfl
  case memory =>
    rw [State.lane_reset]
    exact Memory.wf_nil

end Sys2Proof.Machine
end

section
/-! PROOFS. The gatherer's choice and its completion (spec/07_event_gatherer.md R164, R168): what is deliverable to a target, which of the
deliverable sources TOP names, and FORCE_DONE. -/

namespace Sys2Proof.Machine

/-! ### Lists whose keys rise -/

/-- Keys that rise from a bound lie at or above it. -/
theorem srising_le_key {lo : Nat} {m : Sparse β} (h : srising lo m = true) : ∀ e ∈ m, lo ≤ e.1 := by
  induction m generalizing lo with
  | nil => simp
  | cons x r ih =>
    simp only [srising, Bool.and_eq_true, decide_eq_true_eq] at h
    obtain ⟨hx, hr⟩ := h
    exact List.forall_mem_cons.mpr ⟨hx, fun e he => by have := ih hr e he; omega⟩

/-- In a rising list every key lies below those after it. -/
theorem srising_pairwise {lo : Nat} {m : Sparse β} (h : srising lo m = true) : m.Pairwise fun e f => e.1 < f.1 := by
  induction m generalizing lo with
  | nil => exact .nil
  | cons x r ih =>
    simp only [srising, Bool.and_eq_true, decide_eq_true_eq] at h
    exact .cons (fun e he => srising_le_key h.2 e he) (ih h.2)

/-- A write keeps a rising list rising. -/
theorem srising_sset [DecidableEq β] (d : Nat → β) {m : Sparse β} (k : Nat) (v : β) (h : srising 0 m = true) :
    srising 0 (sset d m k v) = true := by
  unfold sset
  split
  · exact srising_filter _ h
  · exact srising_sput v h (Nat.zero_le k)

/-- So does the one operation that changes a source. -/
theorem State.srising_setSrc (s : State) (i : Nat) (x : Src) (h : srising 0 s.evg.srcs = true) : srising 0 (s.setSrc i x).evg.srcs = true :=
  srising_sset (fun _ => Src.reset) i x h

/-! ### What is deliverable (R164) -/

/-- PRIO `p` lies above the highest PRIO `m` of the ACTIVE sources, if there is one. -/
def prioAbove (m : Option Nat) (p : Nat) : Prop := ∀ q ∈ m, q < p

theorem prioAbove_none (p : Nat) : prioAbove none p ↔ True := iff_true_intro fun _ hq => nomatch hq

theorem prioAbove_some (q p : Nat) : prioAbove (some q) p ↔ q < p :=
  ⟨fun h => h q rfl, fun h _ hq => Option.some.inj hq ▸ h⟩

/-- One step of `State.activePrio`: the highest PRIO so far, and one more source. -/
def activeStep (t : Nat) (m : Option Nat) (e : Nat × Src) : Option Nat :=
  if e.2.st = .active ∧ e.2.claimedAt = t then (match m with | none => some e.2.prio | some p => some (max p e.2.prio)) else m

theorem State.activePrio_eq (s : State) (t : Nat) : s.activePrio t = s.evg.srcs.foldl (activeStep t) none := rfl

/-- PRIO lies above one more source's where it did before, and above that source's if it is ACTIVE at the target. -/
theorem prioAbove_activeStep (t : Nat) (m : Option Nat) (e : Nat × Src) (p : Nat) :
    prioAbove (activeStep t m e) p ↔ prioAbove m p ∧ (e.2.st = .active → e.2.claimedAt = t → e.2.prio < p) := by
  unfold activeStep
  split
  · next h =>
    obtain ⟨hst, hat⟩ := h
    have hact : (e.2.st = .active → e.2.claimedAt = t → e.2.prio < p) ↔ e.2.prio < p := ⟨fun hlt => hlt hst hat, fun hlt _ _ => hlt⟩
    rw [hact]
    cases m with
    | none => simp only [prioAbove_none, prioAbove_some, true_and]
    | some q => simp only [prioAbove_some, Nat.max_lt]
  · next h =>
    have hvacuous : e.2.st = .active → e.2.claimedAt = t → e.2.prio < p := fun hst hat => absurd ⟨hst, hat⟩ h
    exact (and_iff_left hvacuous).symm

theorem prioAbove_foldl_activeStep (t p : Nat) (l : Sparse Src) (m : Option Nat) :
    prioAbove (l.foldl (activeStep t) m) p
      ↔ prioAbove m p ∧ ∀ e ∈ l, e.2.st = .active → e.2.claimedAt = t → e.2.prio < p := by
  induction l generalizing m with
  | nil => simp
  | cons e r ih => rw [List.foldl_cons, ih, prioAbove_activeStep, List.forall_mem_cons, and_assoc]

/-- PRIO lies above that of every source ACTIVE at the target. -/
theorem State.prioAbove_activePrio (s : State) (t p : Nat) :
    prioAbove (s.activePrio t) p ↔ ∀ e ∈ s.evg.srcs, e.2.st = .active → e.2.claimedAt = t → e.2.prio < p := by
  rw [State.activePrio_eq, prioAbove_foldl_activeStep, prioAbove_none, true_and]

theorem State.deliverable_iff (s : State) (t : Nat) (x : Src) :
    s.deliverable t x = true ↔ x.st = .pending ∧ x.target = t ∧ s.g EVG.TCTL_THRESH 0 t ≤ x.prio
      ∧ ∀ e ∈ s.evg.srcs, e.2.st = .active → e.2.claimedAt = t → e.2.prio < x.prio := by
  rw [← State.prioAbove_activePrio]
  unfold State.deliverable
  cases s.activePrio t <;> simp [prioAbove_none, prioAbove_some, and_assoc]

/-! ### Which source TOP names (R164) -/

/-- The source listed as `a` comes before the one listed as `e`, or is the same: a higher PRIO, then an earlier step, then a lower number. -/
def outranks (a e : Nat × Src) : Prop :=
  e.2.prio < a.2.prio ∨ (e.2.prio = a.2.prio ∧ (a.2.since < e.2.since ∨ (a.2.since = e.2.since ∧ a.1 ≤ e.1)))

theorem outranks_refl (a : Nat × Src) : outranks a a := .inr ⟨rfl, .inr ⟨rfl, Nat.le_refl _⟩⟩

theorem outranks_trans {a b c : Nat × Src} (hab : outranks a b) (hbc : outranks b c) : outranks a c := by
  unfold outranks at *
  omega

/-- Two sources that come before each other have one number. -/
theorem outranks_antisymm {a b : Nat × Src} (hab : outranks a b) (hba : outranks b a) : a.1 = b.1 := by
  unfold outranks at *
  omega

/-- One step of `State.top`: the source chosen so far, and one more. -/
def topStep (d : Src → Bool) (m : Option (Nat × Src)) (e : Nat × Src) : Option (Nat × Src) :=
  if d e.2 then
    match m with
    | none => some e
    | some (j, y) => if y.prio < e.2.prio || (y.prio == e.2.prio && decide (e.2.since < y.since)) then some e else some (j, y)
  else m

/-- The choice among the deliverable sources of a list. -/
def topEntry (d : Src → Bool) (l : Sparse Src) : Option (Nat × Src) := l.foldl (topStep d) none

theorem State.top_eq (s : State) (t : Nat) : s.top t = (topEntry (s.deliverable t) s.evg.srcs).map (·.1) := rfl

theorem topStep_undeliverable {d : Src → Bool} {e : Nat × Src} (m : Option (Nat × Src)) (h : d e.2 = false) : topStep d m e = m := by
  simp only [topStep, h, Bool.false_eq_true, if_false]

theorem topStep_none {d : Src → Bool} {e : Nat × Src} (h : d e.2 = true) : topStep d none e = some e := by
  simp only [topStep, h, if_true]

/-- Of the source chosen so far and one with a higher number, the step takes the one that comes first. -/
theorem topStep_some {d : Src → Bool} {a e : Nat × Src} (h : d e.2 = true) (hlt : a.1 < e.1) :
    (topStep d (some a) e = some e ∧ outranks e a) ∨ (topStep d (some a) e = some a ∧ outranks a e) := by
  simp only [topStep, h, if_true, Bool.or_eq_true, Bool.and_eq_true, decide_eq_true_eq, beq_iff_eq, outranks]
  split
  · left; exact ⟨rfl, by omega⟩
  · right; exact ⟨rfl, by omega⟩

/-- `r` is the choice of the deliverable sources of a list: none where there is none, and else one that comes before all others. -/
def IsTop (d : Src → Bool) (l : Sparse Src) : Option (Nat × Src) → Prop
  | none => ∀ e ∈ l, d e.2 = false
  | some a => a ∈ l ∧ d a.2 = true ∧ ∀ e ∈ l, d e.2 = true → outranks a e

/-- One more source, with a higher number than all before it. -/
theorem IsTop.append_topStep {d : Src → Bool} {l : Sparse Src} {r : Option (Nat × Src)} {e : Nat × Src} (hr : IsTop d l r)
    (hlt : ∀ a ∈ l, a.1 < e.1) : IsTop d (l ++ [e]) (topStep d r e) := by
  cases he : d e.2 with
  | false =>
    rw [topStep_undeliverable r he]
    cases r with
    | none => exact List.forall_mem_append.mpr ⟨hr, by simpa using he⟩
    | some a =>
      obtain ⟨hmem, hdel, hbest⟩ := hr
      exact ⟨List.mem_append_left _ hmem, hdel, List.forall_mem_append.mpr ⟨hbest, by simp [he]⟩⟩
  | true =>
    have hlast : e ∈ l ++ [e] := List.mem_append_right _ (List.mem_singleton_self e)
    cases r with
    | none =>
      rw [topStep_none he]
      refine ⟨hlast, he, List.forall_mem_append.mpr ⟨fun b hb hdb => ?_, by simpa using fun _ => outranks_refl e⟩⟩
      exact absurd hdb (by simp [hr b hb])
    | some a =>
      obtain ⟨hmem, hdel, hbest⟩ := hr
      rcases topStep_some he (hlt a hmem) with ⟨heq, hfirst⟩ | ⟨heq, hfirst⟩ <;> rw [heq]
      · exact ⟨hlast, he, List.forall_mem_append.mpr
          ⟨fun b hb hdb => outranks_trans hfirst (hbest b hb hdb), by simpa using fun _ => outranks_refl e⟩⟩
      · exact ⟨List.mem_append_left _ hmem, hdel, List.forall_mem_append.mpr ⟨hbest, by simpa using fun _ => hfirst⟩⟩

/-- The choice so far, carried on over the rest of a rising list. -/
theorem IsTop.append_foldl {d : Src → Bool} {l rest : Sparse Src} {r : Option (Nat × Src)} (hr : IsTop d l r)
    (h : (l ++ rest).Pairwise fun e f => e.1 < f.1) : IsTop d (l ++ rest) (rest.foldl (topStep d) r) := by
  induction rest generalizing l r with
  | nil => rwa [List.append_nil]
  | cons e rest ih =>
    obtain ⟨-, -, hlt⟩ := List.pairwise_append.mp h
    rw [List.append_cons] at h ⊢
    exact ih (hr.append_topStep fun a ha => hlt a ha e List.mem_cons_self) h

/-- The choice among the sources of a rising list is what R164 asks. -/
theorem isTop_topEntry (d : Src → Bool) {l : Sparse Src} (h : l.Pairwise fun e f => e.1 < f.1) : IsTop d l (topEntry d l) :=
  IsTop.append_foldl (l := []) (r := none) (fun _ he => nomatch he) h

/-- There is no choice exactly where nothing is deliverable. -/
theorem IsTop.eq_none_iff {d : Src → Bool} {l : Sparse Src} {r : Option (Nat × Src)} (h : IsTop d l r) :
    r = none ↔ ∀ e ∈ l, d e.2 = false := by
  cases r with
  | none => exact iff_of_true rfl h
  | some a =>
    obtain ⟨hmem, hdel, -⟩ := h
    simp only [reduceCtorEq, false_iff]
    exact fun hno => by simp [hno a hmem] at hdel

/-- The number chosen is that of the one deliverable source that comes before all others. -/
theorem IsTop.number_iff {d : Src → Bool} {l : Sparse Src} {r : Option (Nat × Src)} (h : IsTop d l r) (i : Nat) :
    r.map (·.1) = some i ↔ ∃ x, (i, x) ∈ l ∧ d x = true ∧ ∀ e ∈ l, d e.2 = true → outranks (i, x) e := by
  constructor
  · intro hi
    obtain ⟨a, rfl, rfl⟩ := Option.map_eq_some_iff.mp hi
    exact ⟨a.2, h⟩
  · rintro ⟨x, hmem, hdel, hbest⟩
    cases r with
    | none => exact absurd hdel (by simp [h _ hmem])
    | some a =>
      obtain ⟨hamem, hadel, habest⟩ := h
      exact congrArg some (outranks_antisymm (habest _ hmem hdel) (hbest a hamem hadel))

/-- Settles O49: the fold over the PRIOs of the ACTIVE sources is a bound, the fold over the deliverable sources keeps the one that comes
first. -/
theorem topOfTheGatherer : Obligations.TopOfTheGatherer := by
  intro s t hrising
  have htop := isTop_topEntry (s.deliverable t) (srising_pairwise hrising)
  refine ⟨s.deliverable_iff t, ?_, fun i => ?_, fun i x => s.srising_setSrc i x hrising⟩
  · rw [State.top_eq, Option.map_eq_none_iff]
    exact htop.eq_none_iff
  · rw [State.top_eq]
    exact htop.number_iff i

/-! ### FORCE_DONE (R168) -/

/-- A word that acts by a bit its writer may not write is refused with RIGHTS, before every other check (R5). -/
theorem State.judge_restricted {s : State} {w : Writer} {p : Page} {off b : Nat} {v : Word} (chk : Option Nat) (hv : bitAt v b = true)
    (ha : (actMask p off).getLsbD b = true) (hr : (s.restricted w p off).getLsbD b = true) : s.judge w p off v chk = some errRights := by
  have hact : ∀ chg : Word, (chg ||| (v &&& actMask p off)) &&& s.restricted w p off ≠ 0 := by
    intro chg h0
    have hbit := congrArg (·.getLsbD b) h0
    have hvb : v.getLsbD b = true := hv
    simp [hvb, ha, hr] at hbit
  exact if_pos (.inl (hact _))

/-- Every bit of FORCE_DONE is closed to all writers but the steward. -/
theorem State.restricted_forceDone (s : State) {w : Writer} (h : w.steward = false) {b : Nat} (hb : b < 32) :
    (s.restricted w .evg 0x15).getLsbD b = true := by
  have hall : (stewardMask .evg 0x15).getLsbD b = true := by
    rw [show stewardMask .evg 0x15 = BitVec.allOnes 32 from by decide, BitVec.getLsbD_allOnes, decide_eq_true hb]
  cases w with
  | host k =>
    have hk : k ≠ 0 := by simpa [Writer.steward] using h
    simp only [State.restricted, if_neg hk, BitVec.getLsbD_or, hall, Bool.true_or]
  | user n => simp only [State.restricted, BitVec.getLsbD_or, hall, Bool.true_or]
  | monitor n => simp only [State.restricted, BitVec.getLsbD_or, hall, Bool.true_or]
  | chase => simp only [State.restricted, BitVec.getLsbD_or, hall, Bool.true_or]

theorem doneEff_do {v : Word} (t : Nat) (h : bitAt v 31 = true) : doneEff t v = fun s => s.complete t (bitsOf v 9 0) := by
  funext s; simp only [doneEff, h, if_true]

theorem forceDoneEff_do {v : Word} (h : bitAt v 31 = true) : forceDoneEff v = fun s => s.complete (bitsOf v 20 16) (bitsOf v 9 0) := by
  funext s; simp only [forceDoneEff, h, if_true]

/-- Settles O50: FORCE_DONE and DONE are accepted words of the EVG page with one effect, and FORCE_DONE is closed to any other writer. -/
theorem forceDoneRule : Obligations.ForceDoneRule := by
  intro s v hdo
  refine ⟨fun htaken => ?steward, fun w b x hx hsource htarget htaken => ?ownDone, fun w hw hwritable => ?others⟩
  case steward =>
    have hpress := pressOne_near (proof := 0) (chk := fun _ => forceDoneChk v) (eff := forceDoneEff v) rfl (by decide) htaken
    simp only [exec, execForceDone, fin]
    rw [hpress, forceDoneEff_do hdo]
  case ownDone =>
    have hpress := pressOne_near (proof := 0) (chk := fun _ => none) (eff := doneEff (b2n b) x) rfl (by omega) htaken
    simp only [exec, execDone, fin]
    rw [hpress, doneEff_do _ hx, hsource, htarget]
  case others =>
    have hjudge := State.judge_restricted (forceDoneChk v) hdo (by decide) (s.restricted_forceDone hw (by decide))
    have hpress := pressOne_refused (proof := 0) (chk := fun _ => forceDoneChk v) (eff := forceDoneEff v) hwritable hjudge
    simp only [exec, execForceDone, fin, hpress]

end Sys2Proof.Machine
end

section
/-! PROOFS. The system instructions of the compositor (spec/07_event_gatherer.md R158, R159, R161, R166; spec/16_compositor.md R391 to R395, R401
to R404; spec/17_traps_memory_dma.md R433): what an engine that is ready does with one instruction, and each row by the operation it runs. -/

namespace Sys2Proof.Machine

/-! ### One instruction of a ready engine (R386, R389, R395) -/

theorem codeOk_of_lt {c : Nat} (h : c < 24) : codeOk c = true := decide_eq_true h

/-- A ready engine executes an instruction whose register codes name registers. -/
theorem State.instr_ready {s : State} {n : LaneId} {w : Word} {cs : List Nat} {body : State → State} (h : s.engReady n = true)
    (hcs : ∀ c ∈ cs, c < 24) : s.instr n w cs body = (body s).afterInstr n (!(s.eng n).sp.psr.mon) := by
  have hok : cs.all codeOk = true := List.all_eq_true.mpr fun c hc => codeOk_of_lt (hcs c hc)
  simp only [State.instr, h, hok, Bool.not_true, Bool.false_eq_true, if_false, if_true]

/-- Nothing follows an instruction at monitor privilege (R408). -/
theorem State.afterInstr_monitor (s : State) (n : LaneId) : s.afterInstr n false = s := by
  simp only [State.afterInstr, Bool.not_false, Bool.true_or, if_true]

/-- An instruction of monitor privilege, at monitor privilege (R393). -/
theorem State.monInstr_ready {s : State} {n : LaneId} {w : Word} {cs : List Nat} {body : State → State} (h : s.engReady n = true)
    (hcs : ∀ c ∈ cs, c < 24) (hmon : (s.eng n).sp.psr.mon = true) : s.monInstr n w cs body = body s := by
  rw [State.monInstr, State.instr_ready h hcs]
  simp only [hmon, if_true, Bool.not_true, State.afterInstr_monitor]

/-! ### Special registers (R391 to R394) -/

section
variable {s : State} {n : LaneId} {sr : Nat}

/-- A register that the privilege may read. -/
theorem State.rds_ready {rd : Nat} (h : s.engReady n = true) (hrd : rd < 24) (hsr : s.srNow n sr = some .ro ∨ s.srNow n sr = some .rw) :
    s.rds n rd sr = ((s.srCapture n sr).ret n rd (s.srRead n sr)).afterInstr n (!(s.eng n).sp.psr.mon) := by
  rw [State.rds, State.instr_ready h (by simpa using hrd)]
  rcases hsr with hsr | hsr <;> simp only [hsr]

/-- A number in no table. -/
theorem State.rds_unlisted {rd : Nat} (h : s.engReady n = true) (hrd : rd < 24) (hsr : s.srNow n sr = none) :
    s.rds n rd sr = (s.illegal n (encI 0x31 rd 0 sr)).afterInstr n (!(s.eng n).sp.psr.mon) := by
  rw [State.rds, State.instr_ready h (by simpa using hrd)]
  simp only [hsr]

/-- A register that is closed to the privilege. -/
theorem State.rds_closed {rd : Nat} (h : s.engReady n = true) (hrd : rd < 24) (hsr : s.srNow n sr = some .none) :
    s.rds n rd sr = (s.privTrap n (encI 0x31 rd 0 sr)).afterInstr n (!(s.eng n).sp.psr.mon) := by
  rw [State.rds, State.instr_ready h (by simpa using hrd)]
  simp only [hsr]

/-- A register that the privilege may write, and a value in its range. -/
theorem State.wrs_ready {rs1 : Nat} {a : Word} (h : s.engReady n = true) (hrs1 : rs1 < 24) (ha : a = (s.eng n).r rs1)
    (hsr : s.srNow n sr = some .wo ∨ s.srNow n sr = some .rw) (hbad : srBad sr a = false) :
    s.wrs n sr rs1 = ((s.srWrite n sr a).nextPc n).afterInstr n (!(s.eng n).sp.psr.mon) := by
  subst ha
  rw [State.wrs, State.instr_ready h (by simpa using hrs1)]
  rcases hsr with hsr | hsr <;> simp only [hsr, hbad, Bool.false_eq_true, if_false]

/-- A register that both privileges access in one way. -/
theorem State.srNow_of_both {x : SrAcc} (h : srAccess sr = some (x, x)) : s.srNow n sr = some x := by
  simp only [State.srNow, h, Option.map_some, ite_self]

/-- The access of monitor privilege. -/
theorem State.srNow_of_monitor {x y : SrAcc} (h : srAccess sr = some (x, y)) (hmon : (s.eng n).sp.psr.mon = true) : s.srNow n sr = some y := by
  simp only [State.srNow, h, Option.map_some, hmon, if_true]

/-- EVENTRY of a source of the lane's own, with an entry that passes its checks (R161). -/
theorem State.eventryPut_accepted {v : Word} (hown : ownSource n (s.eng n).sp.evsel = true) (hchk : s.entryChk (s.eng n).sp.evsel v = none) :
    s.eventryPut n v = entryEff (s.eng n).sp.evsel v s := by
  simp only [State.eventryPut, hown, hchk, Bool.not_true, Bool.false_eq_true, if_false]

/-- EVCTL of a source of the lane's own with one of its four bits (R162, R391). -/
theorem State.evctlPut_one (hown : ownSource n (s.eng n).sp.evsel = true) :
    s.evctlPut n (bitMask 31 31) = s.enSet (s.eng n).sp.evsel ∧ s.evctlPut n (bitMask 30 30) = s.enClr (s.eng n).sp.evsel
      ∧ s.evctlPut n (bitMask 29 29) = s.pendSet (s.eng n).sp.evsel ∧ s.evctlPut n (bitMask 28 28) = s.pendClr (s.eng n).sp.evsel := by
  have hput (v : Word) : s.evctlPut n v = (let i := (s.eng n).sp.evsel
      let s := if bitAt v 31 then s.enSet i else s
      let s := if bitAt v 30 then s.enClr i else s
      let s := if bitAt v 29 then s.pendSet i else s
      if bitAt v 28 then s.pendClr i else s) := by
    simp only [State.evctlPut, hown, Bool.not_true, Bool.false_eq_true, if_false]
  simp only [hput]
  exact ⟨rfl, rfl, rfl, rfl⟩

/-- A row of EVCTL at monitor privilege: the word has the row's bit alone. -/
theorem State.evctl_ready {rs1 bit : Nat} {t : State} (h : s.engReady n = true) (hrs1 : rs1 < 24) (hmon : (s.eng n).sp.psr.mon = true)
    (ha : (s.eng n).r rs1 = bitMask bit bit) (hbit : bit < 32) (hput : s.evctlPut n (bitMask bit bit) = t) :
    s.evctl n rs1 bit = t.nextPc n := by
  subst hput
  have hset : bitAt (bitMask bit bit) bit = true := by simp [bitAt, bitMask_getLsbD bit bit bit (Nat.le_refl bit) hbit]
  have hwo : s.srNow n 0x020 = some .wo := State.srNow_of_monitor rfl hmon
  rw [State.evctl, ha, if_pos hset, State.wrs_ready h hrs1 ha.symm (.inl hwo) rfl]
  simp only [hmon, Bool.not_true, State.afterInstr_monitor]
  rfl

end

/-! ### Quoins (R401) -/

section
variable {s t : State} {n : LaneId} {c : Nat}

/-- TAKEQ whose attempt is its last: it was not busy, or no limit is left to wait. -/
theorem State.takeq_ends {rd rs1 : Nat} {imm : BitVec 16} (h : s.engReady n = true) (hrd : rd < 24) (hrs1 : rs1 < 24)
    (hqw : (s.eng n).sp.psr.qw = false) (htake : s.takeQuoin (0x10 + n.val) (bitsOf ((s.eng n).r rs1) 7 0) = (c, t)) (hc : c ≠ qBusy ∨ imm = 0) :
    s.takeq n rd rs1 imm = (t.retQuoin n rd c (bitsOf ((s.eng n).r rs1) 7 0)).afterInstr n (!(s.eng n).sp.psr.mon) := by
  have hlast (b : Bool) : ¬(c = qBusy ∧ imm.toNat ≠ 0 ∧ b = false) := by
    rintro ⟨hbusy, hlimit, -⟩
    rcases hc with hc | rfl
    · exact hc hbusy
    · exact hlimit rfl
  rw [State.takeq, State.instr_ready h (by simp [hrd, hrs1])]
  simp only [hqw, htake, hlast, Bool.false_eq_true, and_false, if_false]

/-- GIVEQ and CLRQ in either form: the operation, and its result word. -/
theorem State.qop_ready {funct rd rs1 rs2 : Nat} (h : s.engReady n = true) (hrd : rd < 24) (hrs1 : rs1 < 24) (hrs2 : rs2 < 24)
    (hop : (if funct < 2 then s.giveQuoin (0x10 + n.val) (bitsOf ((s.eng n).r rs1) 7 0)
          (if funct % 2 = 1 then some (bitsOf ((s.eng n).r rs2) 15 0) else none)
        else s.clearQuoin (0x10 + n.val) (bitsOf ((s.eng n).r rs1) 7 0)
          (if funct % 2 = 1 then some (bitsOf ((s.eng n).r rs2) 15 0) else none)) = (c, t)) :
    s.qop n funct rd rs1 rs2 = (t.retQuoin n rd c (bitsOf ((s.eng n).r rs1) 7 0)).afterInstr n (!(s.eng n).sp.psr.mon) := by
  rw [State.qop, State.instr_ready h (by simp [hrd, hrs1, hrs2])]
  simp only [hop]

end

/-! ### Doorbells and impressions (R159, R402, R403) -/

section
variable {s : State} {n : LaneId}

/-- RING: the doorbell that it names rings, or the refusal is recorded. -/
theorem State.engRing_ready {rs1 d : Nat} {imm : BitVec 16} (h : s.engReady n = true) (hrs1 : rs1 < 24)
    (hd : d = ((s.eng n).r rs1 + imm.signExtend 32).toNat) :
    s.engRing n rs1 imm = (State.nextPc (if d < 960 ∨ 1023 < d then s.setErr (s.engWriter n) .evg (d % 256) errRange false
      else if !engineRings n.val d then s.setErr (s.engWriter n) .evg (d % 256) errRights false else s.ring d) n).afterInstr n
        (!(s.eng n).sp.psr.mon) := by
  subst hd
  rw [State.engRing, State.instr_ready h (by simpa using hrs1)]
  rfl

/-- POST of an impression that passes its checks: it is posted, and rd receives 0. -/
theorem State.engPost_accepted {rd t : Nat} (h : s.engReady n = true) (hrd : rd < 24)
    (ht : t = (s.eng n).sp.post[0].toNat * 2 ^ 32 + (s.eng n).sp.post[1].toNat)
    (hchk : s.postChk (0x10 + n.val) t (s.eng n).sp.post[2] (s.eng n).sp.post[3] = none) :
    s.engPost n rd = ((s.putImpression (0x10 + n.val) t (s.eng n).sp.post[2] (s.eng n).sp.post[3]).ret n rd 0).afterInstr n
      (!(s.eng n).sp.psr.mon) := by
  subst ht
  rw [State.engPost, State.instr_ready h (by simpa using hrd)]
  simp only [hchk]

/-- POST of an impression that a check refuses: rd receives the code. -/
theorem State.engPost_refused {rd t c : Nat} (h : s.engReady n = true) (hrd : rd < 24)
    (ht : t = (s.eng n).sp.post[0].toNat * 2 ^ 32 + (s.eng n).sp.post[1].toNat)
    (hchk : s.postChk (0x10 + n.val) t (s.eng n).sp.post[2] (s.eng n).sp.post[3] = some c) :
    s.engPost n rd = (s.ret n rd (BitVec.ofNat 32 c)).afterInstr n (!(s.eng n).sp.psr.mon) := by
  subst ht
  rw [State.engPost, State.instr_ready h (by simpa using hrd)]
  simp only [hchk]

/-- PCANCEL: the counts of what is gone and of what was too late. -/
theorem State.engCancel_ready {rd gone late : Nat} {t : State} (h : s.engReady n = true) (hrd : rd < 24)
    (hcancel : s.cancelTag n.val (bitsOf (s.eng n).sp.post[2] 11 0) = (gone, late, t)) :
    s.engCancel n rd = (t.ret n rd (BitVec.ofNat 32 (gone * 65536 + late))).afterInstr n (!(s.eng n).sp.psr.mon) := by
  rw [State.engCancel, State.instr_ready h (by simpa using hrd)]
  simp only [hcancel]

end

/-- Settles O27: each row is its instruction executed by a ready engine, in the case of its operation that the clause names. -/
theorem compositorSystemCompletes : Obligations.CompositorSystemCompletes := by
  intro s n e rd rs1 rs2 a b h he hrd hrs1 hrs2 ha hb
  subst he ha hb
  have hring {imm : BitVec 16} {d : Nat} (hd : d = ((s.eng n).r rs1.toNat + imm.signExtend 32).toNat) := State.engRing_ready h hrs1 hd
  refine ⟨fun sr hsr => ?rds, ?rtLo, fun sr hsr => ?rdsUnlisted, fun sr hsr => ?rdsClosed, fun sr hsr hbad => ?wrs, ?evclaim, ?evdone,
    fun hmon hown hchk => ?eventry, fun c bit f hrow hmon hown ha => ?evctl, fun imm c t hqw htake hc => ?takeq, fun c t hgive => ?giveq,
    fun c t hgive => ?giveqG, fun c t hclear => ?clrq, fun c t hclear => ?clrqG, fun imm d hd hlo hhi hmay => ?ring,
    fun imm d hd hout => ?ringRange, fun imm d hd hlo hhi hmay => ?ringRights, fun t ht hchk => ?post, fun t c ht hchk => ?postRefused,
    fun gone late t hcancel => ?pcancel, ?fence, fun hmon => ?tlbi, fun hmon => ?tlbia⟩
  case rds => exact congrArg fin (State.rds_ready h hrd hsr)
  case rtLo => exact congrArg fin (State.rds_ready h hrd (.inl (State.srNow_of_both rfl)))
  case rdsUnlisted => exact congrArg fin (State.rds_unlisted h hrd hsr)
  case rdsClosed => exact congrArg fin (State.rds_closed h hrd hsr)
  case wrs => exact congrArg fin (State.wrs_ready h hrs1 rfl hsr hbad)
  case evclaim => exact congrArg fin (State.wrs_ready h hrs1 rfl (.inl (State.srNow_of_both rfl)) rfl)
  case evdone => exact congrArg fin (State.wrs_ready h hrs1 rfl (.inl (State.srNow_of_both rfl)) rfl)
  case eventry =>
    have hput := State.wrs_ready h hrs1 rfl (.inr (State.srNow_of_monitor (sr := 0x01F) rfl hmon)) rfl
    rw [hmon, Bool.not_true, State.afterInstr_monitor] at hput
    simp only [exec, execEventryWrite, fin, hput, ← State.eventryPut_accepted hown hchk]
    rfl
  case evctl =>
    obtain ⟨hEnSet, hEnClr, hPendSet, hPendClr⟩ := State.evctlPut_one hown
    simp only [List.mem_cons, Prod.mk.injEq, List.not_mem_nil, or_false] at hrow
    obtain ⟨rfl, rfl, rfl⟩ | ⟨rfl, rfl, rfl⟩ | ⟨rfl, rfl, rfl⟩ | ⟨rfl, rfl, rfl⟩ := hrow
    · exact congrArg fin (State.evctl_ready h hrs1 hmon ha (by decide) hEnSet)
    · exact congrArg fin (State.evctl_ready h hrs1 hmon ha (by decide) hEnClr)
    · exact congrArg fin (State.evctl_ready h hrs1 hmon ha (by decide) hPendSet)
    · exact congrArg fin (State.evctl_ready h hrs1 hmon ha (by decide) hPendClr)
  case takeq => exact congrArg fin (State.takeq_ends h hrd hrs1 hqw htake hc)
  case giveq => exact congrArg fin (State.qop_ready (funct := 0) (rs2 := 0) h hrd hrs1 (by decide) hgive)
  case giveqG => exact congrArg fin (State.qop_ready (funct := 1) h hrd hrs1 hrs2 hgive)
  case clrq => exact congrArg fin (State.qop_ready (funct := 2) (rs2 := 0) h hrd hrs1 (by decide) hclear)
  case clrqG => exact congrArg fin (State.qop_ready (funct := 3) h hrd hrs1 hrs2 hclear)
  case ring =>
    have hin : ¬(d < 960 ∨ 1023 < d) := by omega
    simp only [exec, execEngineRing, fin, hring hd, if_neg hin, hmay, Bool.not_true, Bool.false_eq_true, if_false]
  case ringRange => simp only [exec, execEngineRing, fin, hring hd, if_pos hout]
  case ringRights =>
    have hin : ¬(d < 960 ∨ 1023 < d) := by omega
    simp only [exec, execEngineRing, fin, hring hd, if_neg hin, hmay, Bool.not_false, if_true]
  case post => exact congrArg fin (State.engPost_accepted h hrd ht hchk)
  case postRefused => exact congrArg fin (State.engPost_refused h hrd ht hchk)
  case pcancel => exact congrArg fin (State.engCancel_ready h hrd hcancel)
  case fence => exact congrArg fin (State.instr_ready h (by simp))
  case tlbi =>
    have hTlbi : s.upEng n (fun e => e.tlbi (e.r rs1.toNat).toNat) = s.upEng n fun e => e.tlbi ((s.eng n).r rs1.toNat).toNat :=
      State.upEng_congr s n rfl
    simp only [exec, execTlbi, fin, State.monInstr_ready h (show ∀ c ∈ [rs1.toNat], c < 24 by simpa using hrs1) hmon, hTlbi]
  case tlbia => exact congrArg fin (State.monInstr_ready h (by simp) hmon)

end Sys2Proof.Machine
end

section
/-! PROOFS. Registration time (spec/08_registration.md R178 to R185, R193, R195, R198, R199): RT and its extension, RT_INC, steps, the switch, UTC
and the errors of the lanes. -/

namespace Sys2Proof.Machine

/-! ### The extension of RT (R180) -/

/-- RT_HI takes the pass through zero that was pending, and REG.EV bit 0 rises. -/
def State.wrapServed (s : State) : State :=
  ((s.put REG.RT_HI 0 ((s.g REG.RT_HI 0 + 1) % 2 ^ 32)).put REG.WRAP_PENDING 0 0).raise .reg 0

theorem exec_rtHiIncrement {s : State} (h : s.on REG.WRAP_PENDING 0 = true) : exec .rtHiIncrement s = .next s.wrapServed.settle := by
  simp only [exec, execRtHiIncrement, fin, h, if_true, State.wrapServed]

/-- Of the registers, what is not RT_HI, WRAP_PENDING or REG.EV reads as before. -/
theorem State.g_wrapServed_ne (s : State) {f : Fld} {n i : Nat} (hhi : REG.RT_HI.apart 0 0 f n i) (hpend : REG.WRAP_PENDING.apart 0 0 f n i)
    (hev : f.addr n i ≠ Page.reg.at_ 4) : s.wrapServed.g f n i = s.g f n i := by
  rw [State.wrapServed, State.g_raise _ _ _ _ _ _ hev, State.g_put_ne _ _ _ _ _ _ _ rfl hpend, State.g_put_ne _ _ _ _ _ _ _ rfl hhi]

theorem State.wrapServed_rtHi (s : State) : s.wrapServed.g REG.RT_HI 0 = (s.g REG.RT_HI 0 + 1) % 2 ^ 32 := by
  have hapart : REG.WRAP_PENDING.apart 0 0 REG.RT_HI 0 0 := .inl (by decide)
  rw [State.wrapServed, State.g_raise _ _ _ _ _ _ (by decide), State.g_put_ne _ _ _ _ _ _ _ rfl hapart, State.g_put_same _ _ _ _ rfl]
  exact Nat.mod_mod ..

theorem State.wrapServed_pending (s : State) : s.wrapServed.g REG.WRAP_PENDING 0 = 0 := by
  rw [State.wrapServed, State.g_raise _ _ _ _ _ _ (by decide), State.g_put_same _ _ _ _ rfl, Nat.zero_mod]

theorem State.wrapServed_frame (s : State) : s.wrapServed.lanes = s.lanes ∧ s.wrapServed.clock = s.clock := by
  simp only [State.wrapServed, State.raise_lanes, State.raise_clock, State.put_lanes, State.put_clock, and_self]

/-! ### Steps (R184, R185) -/

/-- What goes to every locked lane moves the lanes alone. -/
theorem State.toLanes_eq (s : State) (it : Item) : ∃ ls, s.toLanes it = { s with lanes := ls } := by
  have key : ∀ (ns : List LaneId) (t : State),
      ∃ ls, t.forLanes ns (fun n s => if (s.lane n).link.locked then s.sendDown n it else s) = { t with lanes := ls } := by
    intro ns
    induction ns with
    | nil => exact fun t => ⟨t.lanes, rfl⟩
    | cons n ns ih =>
      intro t
      rw [State.forLanes, List.foldl_cons]
      split
      · exact ih (t.sendDown n it)
      · exact ih t
  exact key allLanes s

/-- A step that nothing holds is announced for an instant at least 100 µs ahead. -/
theorem State.announce_decided {s : State} {r : StepReq} (ahead : Nat) (hdec : s.ru.decided = some r) (hann : s.ru.announced = none)
    (hfree : (s.g REG.STEP_POLICY 0 == 0 && s.anyArmed) = false) :
    ∃ ls, s.announce ahead = { s with lanes := ls, ru := { s.ru with decided := none, announced := some (r, s.rt64 + max ahead stepAhead) } } := by
  simp only [State.announce, hdec, hann, hfree, Option.isSome_none, Bool.false_eq_true, if_false]
  exact State.toLanes_eq ..

/-- A lane whose own time has reached the instant of its step takes it. -/
theorem exec_laneStepApply {s : State} {n : LaneId} {d : Int} {at_ : Nat} (hup : s.farUp n = true) (hstep : (s.lane n).stepAt = some (d, at_))
    (hdue : at_ ≤ s.laneTime n) : exec (.laneStepApply n) s = .next (s.laneStep n).settle := by
  simp only [exec, execLaneStepApply, fin, hstep, hup, hdue, decide_true, Bool.and_self, if_true]

/-! ### The words of the REG page (R179, R184, R193, R195) -/

/-- A word of the REG page takes effect at once. -/
theorem regPress_near {w : Writer} {off : Nat} {v proof : Word} {s : State} (h2 : off ≠ 2)
    (h : s.taken w .reg off v (regChk s off v (s.staged .reg off v))) : regPress w off v proof s = s.nearDone .reg (regEff off v proof) :=
  pressOne_near rfl h2 h

/-! ### The switch (R193) -/

@[simp] theorem State.rtShow_ru (s : State) : s.rtShow.ru = s.ru := by
  simp only [State.rtShow, State.ppsSettle]
  split <;> split <;> simp only [State.raise_ru, State.put_ru]

/-- The slew of a switch that is over leaves no switch, and raises SWITCH_DONE. -/
theorem State.switchDone_done (s : State) (rem : Int) :
    (s.switchDone rem).ru.switching = false ∧ bitAt ((s.switchDone rem).hw .reg 4) 4 = true := by
  refine ⟨?_, State.hw_raise_same _ _ _ (by decide)⟩
  rw [State.switchDone, State.raise_ru, State.rtShow_ru]

theorem exec_switchComplete {s : State} (hsw : s.ru.switching = true) (hleft : absInt s.slewLeft ≤ (s.g REG.LOCK_NS 0 : Int)) :
    exec .switchComplete s = .next (s.switchDone s.slewLeft).settle := by
  simp only [exec, execSwitchComplete, fin, hsw, hleft, decide_true, Bool.true_or, Bool.and_self, if_true]

/-! ### Time in the lanes (R199) -/

/-- The error of lane n as it stands in its word of REG. -/
def State.laneErrShown (s : State) (n : LaneId) (err : BitVec 16) : State :=
  (s.p REG.LANE_ERR 0 n.val err.toNat).p REG.LANE_ERR_VALID 0 n.val 1

theorem exec_laneErrUpdate {s : State} {n : LaneId} (err : BitVec 16) (hlive : s.live n = true) (hstale : (s.lane n).link.stale = false) :
    exec (.laneErrUpdate n err) s = .next (s.laneErrShown n err).settle := by
  simp only [exec, execLaneErrUpdate, fin, hlive, hstale, Bool.not_false, Bool.and_self, if_true, State.laneErrShown]

theorem State.laneErrShown_err (s : State) (n : LaneId) (err : BitVec 16) : (s.laneErrShown n err).g REG.LANE_ERR 0 n.val = err.toNat := by
  have hapart : REG.LANE_ERR_VALID.apart 0 n.val REG.LANE_ERR 0 n.val := .inr (.inr (by decide))
  rw [State.laneErrShown, State.g_p_ne _ _ _ _ _ _ _ _ rfl hapart, State.g_p_same _ _ _ _ _ rfl]
  exact Nat.mod_eq_of_lt (show err.toNat < 2 ^ REG.LANE_ERR.width from err.isLt)

theorem State.laneErrShown_valid (s : State) (n : LaneId) (err : BitVec 16) : (s.laneErrShown n err).g REG.LANE_ERR_VALID 0 n.val = 1 := by
  rw [State.laneErrShown, State.g_p_same _ _ _ _ _ rfl]
  rfl

theorem State.laneErrShown_frame (s : State) (n : LaneId) (err : BitVec 16) :
    (s.laneErrShown n err).lanes = s.lanes ∧ (s.laneErrShown n err).evg = s.evg := by
  simp only [State.laneErrShown, State.p_lanes, State.p_evg, and_self]

/-- Settles O12: time runs as the commands of the counter say, a word of the REG page takes effect at once, and the other rows do what each does
once it acts. -/
theorem registrationRowsComplete : Obligations.RegistrationRowsComplete := by
  intro s w
  refine ⟨fun ha hp => ?wrap, fun hp => ?hiIncrement, fun ha => ?second, fun v h => ?incWrite, fun h => ?stepGo,
    fun ahead r hdec hann hpol => ?announce, fun r at_ ha hann => ?instant, fun n d at_ hup hstep hdue => ?laneStep, fun v h c hc => ?cfg,
    fun hsw hleft => ?switched, fun v h => ?utc, fun n err hlive hstale => ?laneErr⟩
  case wrap => simp only [exec, execRtWrap, fin, ha, hp, Bool.not_false, Bool.and_self, if_true]
  case hiIncrement =>
    exact ⟨s.wrapServed, exec_rtHiIncrement hp, s.wrapServed_rtHi, s.wrapServed_pending,
      s.g_wrapServed_ne (.inl (by decide)) (.inl (by decide)) (by decide), State.hw_raise_same _ _ _ (by decide),
      s.wrapServed_frame⟩
  case second => simp only [exec, execRtSecond, fin, ha, if_true, State.oneSecond]
  case incWrite =>
    rw [exec, execRtIncWrite, regPress_near (by decide) h]
    rfl
  case stepGo =>
    rw [exec, execStepGo, regPress_near (by decide) h]
    rfl
  case announce =>
    have hfree : (s.g REG.STEP_POLICY 0 == 0 && s.anyArmed) = false := by rw [hpol]; rfl
    obtain ⟨ls, hls⟩ := State.announce_decided ahead hdec hann hfree
    refine ⟨s.announce ahead, rfl, ?_⟩
    rw [hls]
    exact ⟨rfl, rfl, rfl⟩
  case instant => simp only [exec, execStepInstant, fin, hann, ha, if_true]
  case laneStep =>
    rw [exec_laneStepApply hup hstep hdue, State.laneStep, hstep]
  case cfg =>
    have hpress : regPress w 0x14 v 0 s = s.nearDone .reg (regCfgEff v) := regPress_near (by decide) h
    obtain rfl | rfl := hc
    · rw [exec, execSelectWrite, hpress, fin]
    · rw [exec, execModeWrite, hpress, fin]
  case switched => exact ⟨_, exec_switchComplete hsw hleft, s.switchDone_done s.slewLeft⟩
  case utc =>
    rw [exec, execUtcWrite, regPress_near (by decide) h]
    rfl
  case laneErr => exact ⟨_, exec_laneErrUpdate err hlive hstale, s.laneErrShown_err n err, s.laneErrShown_valid n err,
    s.laneErrShown_frame n err⟩

end Sys2Proof.Machine
end

section
/-! PROOFS. PTP and the Ethernet port (spec/08_registration.md R186 to R191, R196, R197): frames and messages that are taken, frames that go out, and
what each kind of message leaves. -/

namespace Sys2Proof.Machine

/-! ### The two domains -/

section
variable (s : State) (b : Bool) (f : PtpDom → PtpDom)

@[simp] theorem State.dom_upDom_same : (s.upDom b f).dom b = f (s.dom b) := by cases b <;> rfl
@[simp] theorem State.upDom_regs : (s.upDom b f).regs = s.regs := by cases b <;> rfl
@[simp] theorem State.upDom_ru : (s.upDom b f).ru = s.ru := by cases b <;> rfl
@[simp] theorem State.upDom_lanes : (s.upDom b f).lanes = s.lanes := by cases b <;> rfl
@[simp] theorem State.g_upDom (x : Fld) (n i : Nat) : (s.upDom b f).g x n i = s.g x n i := State.g_congr (s.upDom_regs b f) x n i

end

@[simp] theorem State.dom_p (s : State) (f : Fld) (n i v : Nat) (b : Bool) : (s.p f n i v).dom b = s.dom b := by cases b <;> rfl
@[simp] theorem State.dom_bump (s : State) (f : Fld) (n i k : Nat) (b : Bool) : (s.bump f n i k).dom b = s.dom b := by cases b <;> rfl
@[simp] theorem State.dom_fresh (s : State) (b : Bool) : s.fresh.2.dom b = s.dom b := by cases b <;> rfl

/-! ### Frames (R196, R197) -/

/-- A frame that is heard and accepted is taken. -/
theorem State.takeFrame_accepted {s : State} {h : EthHead} {f : State → State} (hhears : s.hears = true) (hacc : s.accepts h = true) :
    s.takeFrame h f = f s := by
  simp only [State.takeFrame, hhears, hacc, Bool.not_true, Bool.false_eq_true, if_false, if_true]

theorem State.awake_of_hears {s : State} (h : s.hears = true) : s.awake = true := by
  rw [State.hears, Bool.and_eq_true] at h
  exact h.1

/-- The same state but for the registers and for the transmitter. -/
def SameButNet (s t : State) : Prop := ∃ r x, t = { s with regs := r, ru := { s.ru with net := x } }

namespace SameButNet

theorem refl (s : State) : SameButNet s s := ⟨s.regs, s.ru.net, rfl⟩

theorem trans {s t u : State} (h : SameButNet s t) (k : SameButNet t u) : SameButNet s u := by
  obtain ⟨_, _, rfl⟩ := h
  obtain ⟨_, _, rfl⟩ := k
  exact ⟨_, _, rfl⟩

section
variable {s t : State} (h : SameButNet s t)
include h

theorem lanes : t.lanes = s.lanes := by obtain ⟨_, _, rfl⟩ := h; rfl
theorem evg : t.evg = s.evg := by obtain ⟨_, _, rfl⟩ := h; rfl
theorem clock : t.clock = s.clock := by obtain ⟨_, _, rfl⟩ := h; rfl
theorem echo : t.ru.echo = s.ru.echo := by obtain ⟨_, _, rfl⟩ := h; rfl
theorem dom (b : Bool) : t.dom b = s.dom b := by obtain ⟨_, _, rfl⟩ := h; cases b <;> rfl

end

theorem of_frameOut (s : State) (at_ : Nat) (f : List Byte) (rest : List (Bool × List Byte)) : SameButNet s (s.frameOut at_ f rest) := by
  rw [State.frameOut, State.bump_eq, State.p, State.setWd]
  exact ⟨_, _, rfl⟩

theorem of_netLoop (k : Nat) (s : State) : SameButNet s (netLoop k s) := by
  induction k generalizing s with
  | zero => exact refl s
  | succ k ih =>
    rw [netLoop]
    split
    · exact refl s
    · split
      · exact (of_frameOut ..).trans (ih _)
      · exact refl s

/-- A frame that goes out, or that waits. -/
theorem of_netSend (s : State) (trig : Bool) (dest etype : Nat) (body : List Byte) : SameButNet s (s.netSend trig dest etype body) := by
  rw [State.netSend]
  split
  · exact refl s
  · have hrun : SameButNet s s.netRun := of_netLoop ..
    extract_lets u f n q
    split
    · exact hrun.trans (of_frameOut ..)
    · exact hrun.trans ⟨u.regs, _, rfl⟩

end SameButNet

/-! ### Messages (R186, R187) -/

/-- A message of domain b has been received, and counts in this second. -/
def State.heard (s : State) (b : Bool) : State := (s.bump NET.RX_FRAMES 0).upDom b fun p => { p with msgs := p.msgs + 1 }

section
variable (s : State) (b : Bool)

theorem State.dom_heard : (s.heard b).dom b = { s.dom b with msgs := (s.dom b).msgs + 1 } := by
  rw [State.heard, State.dom_upDom_same, State.dom_bump]

theorem State.heard_lanes : (s.heard b).lanes = s.lanes := by rw [State.heard, State.upDom_lanes, State.bump_lanes]

theorem State.fromParent_heard (m : PtpMsg) : (s.heard b).fromParent b m = s.fromParent b m := by
  simp only [State.fromParent, State.dom_heard]

theorem State.rxStamp_heard (m : PtpMsg) : (s.heard b).rxStamp m = s.rxStamp m := by
  have hapart : NET.RX_FRAMES.apart 0 0 NET.RX_CORR 0 0 := .inl (by decide)
  have hcorr : (s.heard b).g NET.RX_CORR 0 = s.g NET.RX_CORR 0 := by
    rw [State.heard, State.g_upDom, State.g_bump_ne _ _ _ _ _ _ _ _ rfl hapart]
  have hru : (s.heard b).ru = s.ru := by rw [State.heard, State.upDom_ru, State.bump_ru]
  simp only [State.rxStamp, hcorr, hru]

end

/-- The message is dropped as R187 says: it is counted, and PTP.EV bit 4 rises. -/
def State.msgLost (s : State) (b : Bool) : State := ((s.bump NET.RX_FRAMES 0).bump PTP.DROPPED 0 (b2n b)).raise .ptp 4

section
variable {s : State} {m : PtpMsg} {b : Bool} {f : Bool → State → State} (hhears : s.hears = true) (hacc : s.accepts m.head = true)
  (hdom : s.msgDomain m = some b)
include hhears hacc hdom

theorem State.takeMsg_taken (hdrop : (s.bump NET.RX_FRAMES 0).msgDropped b m = false) : s.takeMsg m f = f b (s.heard b) := by
  simp only [State.takeMsg, State.takeFrame_accepted hhears hacc, hdom, hdrop, Bool.false_eq_true, if_false, State.heard]

theorem State.takeMsg_dropped (hdrop : (s.bump NET.RX_FRAMES 0).msgDropped b m = true) : s.takeMsg m f = s.msgLost b := by
  simp only [State.takeMsg, State.takeFrame_accepted hhears hacc, hdom, hdrop, if_true, State.msgLost]

end

/-- Each reception names the kind of its message, which the message has. -/
theorem PtpMsg.kind_eq {m : PtpMsg} {k : Nat} (h : m.kind = k) : { m with kind := k } = m := by subst h; rfl

theorem State.msgLost_dropped (s : State) (b : Bool) :
    (s.msgLost b).g PTP.DROPPED 0 (b2n b) = min (s.g PTP.DROPPED 0 (b2n b) + 1) (2 ^ PTP.DROPPED.width - 1) := by
  have hapart : NET.RX_FRAMES.apart 0 0 PTP.DROPPED 0 (b2n b) := .inl (by cases b <;> decide)
  have hev : PTP.DROPPED.addr 0 (b2n b) ≠ Page.ptp.at_ 4 := by cases b <;> decide
  rw [State.msgLost, State.g_raise _ _ _ _ _ _ hev, State.g_bump_same _ _ _ _ _ rfl, State.g_bump_ne _ _ _ _ _ _ _ _ rfl hapart]

theorem State.msgLost_lanes (s : State) (b : Bool) : (s.msgLost b).lanes = s.lanes := by
  simp only [State.msgLost, State.raise_lanes, State.bump_lanes]

/-! ### Sync and Follow_Up (Table: PTP messages) -/

/-- A two-step Sync of the parent, received at t2, waits for its Follow_Up. -/
def State.syncWaits (s : State) (b : Bool) (m : PtpMsg) (t2 : Int) : State :=
  ((s.p PTP.ONE_STEP 0 (b2n b) 0).p PTP.LOG_SYNC 0 (b2n b) (wrapInt 8 m.logInt)).upDom b fun p => { p with sync := some (m.seq, t2, m.corr) }

theorem State.syncWaits_oneStep (s : State) (b : Bool) (m : PtpMsg) (t2 : Int) : (s.syncWaits b m t2).g PTP.ONE_STEP 0 (b2n b) = 0 := by
  have hapart : PTP.LOG_SYNC.apart 0 (b2n b) PTP.ONE_STEP 0 (b2n b) := .inr (.inl (by decide))
  rw [State.syncWaits, State.g_upDom, State.g_p_ne _ _ _ _ _ _ _ _ rfl hapart, State.g_p_same _ _ _ _ _ rfl, Nat.zero_mod]

theorem State.syncWaits_dom (s : State) (b : Bool) (m : PtpMsg) (t2 : Int) :
    (s.syncWaits b m t2).dom b = { s.dom b with sync := some (m.seq, t2, m.corr) } := by
  simp only [State.syncWaits, State.dom_upDom_same, State.dom_p]

theorem State.syncWaits_lanes (s : State) (b : Bool) (m : PtpMsg) (t2 : Int) : (s.syncWaits b m t2).lanes = s.lanes := by
  simp only [State.syncWaits, State.upDom_lanes, State.p_lanes]

/-- t2 - t1 less correction stands, while no path delay is known. -/
theorem State.msTaken_no_delay {s : State} {b : Bool} (x : Int) (h : (s.dom b).delay = none) :
    s.msTaken b x = s.upDom b fun p => { p with ms := some x } := by
  simp only [State.msTaken, State.dom_upDom_same, h]

/-! ### Delay_Req and Delay_Resp (R188, R189) -/

/-- The Delay_Resp of the domain's Delay_Req gives the mean path delay d. -/
def State.delayMeasured (s : State) (b : Bool) (m : PtpMsg) (d : Int) : State :=
  ((s.upDom b fun p => { p with req := none, t3 := none, delay := some d, reqLog := m.logInt }).p PTP.PATH_DELAY 0 (b2n b) (wrapInt 32 d)).bump
    PTP.DRESP_RX 0 (b2n b)

theorem State.delayMeasured_dom (s : State) (b : Bool) (m : PtpMsg) (d : Int) :
    (s.delayMeasured b m d).dom b = { s.dom b with req := none, t3 := none, delay := some d, reqLog := m.logInt } := by
  simp only [State.delayMeasured, State.dom_bump, State.dom_p, State.dom_upDom_same]

theorem State.delayMeasured_lanes (s : State) (b : Bool) (m : PtpMsg) (d : Int) : (s.delayMeasured b m d).lanes = s.lanes := by
  simp only [State.delayMeasured, State.bump_lanes, State.p_lanes, State.upDom_lanes]

theorem wrapInt_lt (k : Nat) (i : Int) : wrapInt k i < 2 ^ k := by
  have hpos : 0 < ((2 ^ k : Nat) : Int) := Int.natCast_pos.mpr (Nat.two_pow_pos k)
  have hlt := Int.emod_lt_of_pos i hpos
  have hnonneg := Int.emod_nonneg i (Int.ne_of_gt hpos)
  rw [wrapInt]
  omega

theorem State.delayMeasured_pathDelay (s : State) (b : Bool) (m : PtpMsg) (d : Int) :
    (s.delayMeasured b m d).g PTP.PATH_DELAY 0 (b2n b) = wrapInt 32 d := by
  have hapart : PTP.DRESP_RX.apart 0 (b2n b) PTP.PATH_DELAY 0 (b2n b) := .inl (by cases b <;> decide)
  rw [State.delayMeasured, State.g_bump_ne _ _ _ _ _ _ _ _ rfl hapart, State.g_p_same _ _ _ _ _ rfl]
  exact Nat.mod_eq_of_lt (wrapInt_lt 32 d)

/-- A Delay_Req has gone out: its Delay_Resp is awaited, and the next falls due after a random time. -/
def State.requestOut (s : State) (b : Bool) (seq : Nat) : State :=
  s.fresh.2.upDom b fun p =>
    { p with req := some seq, t3 := none, reqAt := some s.clock, reqDue := s.clock + s.fresh.1.toNat * (2 * logTicks p.reqLog) / 2 ^ 32 }

theorem State.requestOut_dom (s : State) (b : Bool) (seq : Nat) : (s.requestOut b seq).dom b =
    { s.dom b with req := some seq, t3 := none, reqAt := some s.clock,
                   reqDue := s.clock + s.fresh.1.toNat * (2 * logTicks (s.dom b).reqLog) / 2 ^ 32 } := by
  rw [State.requestOut, State.dom_upDom_same, State.dom_fresh]

theorem State.requestOut_lanes (s : State) (b : Bool) (seq : Nat) : (s.requestOut b seq).lanes = s.lanes := by
  rw [State.requestOut, State.upDom_lanes, State.fresh]

theorem State.mayRequest_of_due {s : State} {b : Bool} (hhears : s.hears = true) (hen : s.on PTP.EN 0 (b2n b) = true)
    (hparent : (s.dom b).parent ≠ none) (hdue : (s.dom b).reqDue ≤ s.clock)
    (hrate : ∀ at_, (s.dom b).reqAt = some at_ → at_ + 1562500 ≤ s.clock) : s.mayRequest b = true := by
  have hsome : (s.dom b).parent.isSome = true := Option.isSome_iff_ne_none.mpr hparent
  simp only [State.mayRequest, hhears, hen, hsome, hdue, decide_true, Bool.and_self, Bool.true_and]
  split
  · next at_ hat => exact decide_eq_true (hrate at_ hat)
  · rfl

/-- A Delay_Req that may go out does so on a transport other than UDP alone. -/
theorem exec_delayReqSend {s : State} {b : Bool} (seq : BitVec 16) (hmay : s.mayRequest b = true) (ht : s.g PTP.TRANSPORT 0 (b2n b) ≠ 1) :
    ∃ u, SameButNet s u ∧ exec (.delayReqSend b seq) s = .next (u.requestOut b seq.toNat).settle := by
  have hgo : (s.g PTP.TRANSPORT 0 (b2n b) != 1) = true := bne_iff_ne.mpr ht
  simp only [exec, execDelayReqSend, fin, hmay, hgo, Bool.true_or, Bool.and_self, if_true, if_neg ht]
  split
  · exact ⟨_, (SameButNet.of_netSend ..).trans (.of_netSend ..), rfl⟩
  · exact ⟨_, .of_netSend .., rfl⟩

/-! ### Announce (R186) -/

/-- Domain b knows these masters, and shows how many they are. -/
def State.mastersKnown (s : State) (b : Bool) (l : List Foreign) : State := (s.takeMasters b l).p PTP.FOREIGN 0 (b2n b) l.length

theorem State.mastersKnown_dom (s : State) (b : Bool) (l : List Foreign) :
    ∃ a, (s.mastersKnown b l).dom b = { s.dom b with foreign := l, parent := bestMaster l, annAt := a } :=
  ⟨_, (State.dom_p ..).trans (State.dom_upDom_same ..)⟩

theorem State.mastersKnown_lanes (s : State) (b : Bool) (l : List Foreign) : (s.mastersKnown b l).lanes = s.lanes := by
  rw [State.mastersKnown, State.p_lanes, State.takeMasters, State.upDom_lanes]

/-! ### Each kind of message, where it is taken -/

section
variable {s : State} {m : PtpMsg} {b : Bool} (hhears : s.hears = true) (hacc : s.accepts m.head = true) (hdom : s.msgDomain m = some b)
  (hdrop : (s.bump NET.RX_FRAMES 0).msgDropped b m = false)
include hhears hacc hdom hdrop

theorem exec_ptpSyncRx {t2 : Int} (hk : m.kind = 0) (hparent : s.fromParent b m = true) (hstamp : s.rxStamp m = some t2) (htwo : m.twoStep = true) :
    exec (.ptpSyncRx m) s = .next ((s.heard b).syncWaits b m t2).settle := by
  rw [exec, execPtpSyncRx, PtpMsg.kind_eq hk, State.takeMsg_taken hhears hacc hdom hdrop]
  simp only [fin, State.fromParent_heard, hparent, State.rxStamp_heard, hstamp, htwo, Bool.not_true, Bool.false_eq_true, if_false, if_true,
    State.syncWaits, b2n]

theorem exec_ptpFollowUpRx {t2 c : Int} (hk : m.kind = 8) (hparent : s.fromParent b m = true) (hsync : (s.dom b).sync = some (m.seq, t2, c)) :
    exec (.ptpFollowUpRx m) s
      = .next (((s.heard b).upDom b fun p => { p with sync := none }).msTaken b (t2 - m.origin - m.corr - c)).settle := by
  rw [exec, execPtpFollowUpRx, PtpMsg.kind_eq hk, State.takeMsg_taken hhears hacc hdom hdrop]
  simp only [fin, State.fromParent_heard, hparent, State.dom_heard, hsync, Bool.not_true, Bool.false_eq_true, if_false, if_true]

theorem exec_ptpDelayRespRx {t3 x : Int} (hk : m.kind = 9) (hparent : s.fromParent b m = true) (hreq : (s.dom b).req = some m.seq)
    (ht3 : (s.dom b).t3 = some t3) (hms : (s.dom b).ms = some x) :
    exec (.ptpDelayRespRx m) s = .next ((s.heard b).delayMeasured b m (halfUp (x + (m.origin - m.corr - t3)))).settle := by
  rw [exec, execPtpDelayRespRx, PtpMsg.kind_eq hk, State.takeMsg_taken hhears hacc hdom hdrop]
  simp only [fin, State.fromParent_heard, hparent, State.dom_heard, hreq, ht3, hms, and_self, if_true, State.delayMeasured]

/-- The masters that are known after an Announce of another master than the best. -/
theorem exec_ptpAnnounceRx {l : List Foreign} (hk : m.kind = 0xB) (hl : l = enterMaster (s.dom b).foreign ⟨m.clockId, m.port, m.set⟩)
    (hother : ((s.heard b).mastersKnown b l).fromParent b m = false) :
    exec (.ptpAnnounceRx m) s = .next ((s.heard b).mastersKnown b l).settle := by
  rw [State.mastersKnown] at hother
  rw [exec, execPtpAnnounceRx, PtpMsg.kind_eq hk, State.takeMsg_taken hhears hacc hdom hdrop]
  simp only [fin, State.dom_heard, ← hl, hother, Bool.not_false, if_true, State.mastersKnown]

end

/-! ### The Ethernet port (R196, R197) -/

/-- An echo request has been taken with at most 64 bytes of its payload. -/
def State.echoTaken (s : State) (payload : List Byte) : State :=
  { s.bump NET.RX_FRAMES 0 with ru := { s.ru with echo := payload.take 64 } }

theorem State.echoTaken_frame (s : State) (payload : List Byte) :
    (s.echoTaken payload).ru.echo = payload.take 64 ∧ (s.echoTaken payload).lanes = s.lanes ∧ (s.echoTaken payload).evg = s.evg := by
  simp only [State.echoTaken, State.bump_lanes, State.bump_evg, and_self]

theorem exec_icmpEcho {s : State} {h : EthHead} {ip : Word} (hhears : s.hears = true) (hacc : s.accepts h = true) (hmine : s.isMine ip = true)
    (sip ident : Word) (payload : List Byte) :
    ∃ u, SameButNet (s.echoTaken payload) u ∧ exec (.icmpEcho h sip ip ident payload false) s = .next u.settle := by
  simp only [exec, execIcmpEcho, fin, State.takeFrame_accepted hhears hacc, hmine, Bool.not_false, Bool.and_self, if_true]
  exact ⟨_, .of_netSend .., rfl⟩

/-- Settles O13: a message is taken by the domain that it names and does what its kind says, and the timeouts and the frames of the port act as
soon as their conditions hold. -/
theorem ptpAndNetRowsComplete : Obligations.PtpAndNetRowsComplete := by
  intro s m b h hhears hmsg hacc
  have hawake : s.awake = true := State.awake_of_hears hhears
  refine ⟨fun t2 hk hdom hdrop hparent hstamp htwo => ?sync, fun t2 c hk hdom hdrop hparent hsync hdelay => ?followUp,
    fun t3 x hk hdom hdrop hparent hreq ht3 hms => ?delayResp, fun l hk hdom hdrop hl hbest => ?announce, ?capture, fun hdom hdrop => ?drop,
    fun seq hen hparent hdue hrate ht => ?delayReq, fun f l hparent hl hdue => ?announceTimeout, fun hdue => ?offsetTimeout,
    fun hst hdue => ?holdoverExpiry, fun signal aneg full mdix hup hdown => ?linkDown, fun sip ip hmine => ?arp,
    fun sip ip ident payload hmine => ?echo, ?dropGood, ?dropBad⟩
  case sync =>
    refine ⟨_, exec_ptpSyncRx hhears hmsg hdom hdrop hk hparent hstamp htwo, ?_, ?_, State.syncWaits_oneStep ..,
      (State.syncWaits_lanes ..).trans (s.heard_lanes b)⟩
    · rw [State.syncWaits_dom]
    · rw [State.syncWaits_dom, State.dom_heard]
  case followUp =>
    have hnone : (((s.heard b).upDom b fun p => { p with sync := none }).dom b).delay = none := by
      rw [State.dom_upDom_same, State.dom_heard, hdelay]
    refine ⟨_, exec_ptpFollowUpRx hhears hmsg hdom hdrop hk hparent hsync, ?_⟩
    simp only [State.msTaken_no_delay _ hnone, State.dom_upDom_same, State.upDom_lanes, State.heard_lanes, and_self]
  case delayResp =>
    refine ⟨_, exec_ptpDelayRespRx hhears hmsg hdom hdrop hk hparent hreq ht3 hms, ?_, ?_, State.delayMeasured_pathDelay ..,
      (State.delayMeasured_lanes ..).trans (s.heard_lanes b)⟩ <;> rw [State.delayMeasured_dom]
  case announce =>
    obtain ⟨a, hknown⟩ := (s.heard b).mastersKnown_dom b l
    have hother : ((s.heard b).mastersKnown b l).fromParent b m = false := by
      rw [State.fromParent, hknown]
      exact hbest
    refine ⟨_, exec_ptpAnnounceRx hhears hmsg hdom hdrop hk hl hother, ?_, ?_, (State.mastersKnown_lanes ..).trans (s.heard_lanes b)⟩ <;>
      rw [hknown]
  case capture =>
    simp only [exec, execPtpTimestampCapture, fin, hhears, Bool.not_true, Bool.false_eq_true, if_false, Option.isNone_none, captureMax]
  case drop =>
    refine ⟨s.msgLost b, ?_, State.hw_raise_same _ _ _ (by decide), s.msgLost_dropped b, s.msgLost_lanes b⟩
    rw [exec, execPtpMessageDrop, State.takeMsg_dropped hhears hmsg hdom hdrop, fin]
  case delayReq =>
    obtain ⟨u, hu, hexec⟩ := exec_delayReqSend seq (State.mayRequest_of_due hhears hen hparent hdue hrate) ht
    refine ⟨_, hexec, ?_, ?_, ?_, ?_, (State.requestOut_lanes ..).trans hu.lanes⟩ <;> rw [State.requestOut_dom]
    · rw [hu.clock]
    · rw [hu.dom]
  case announceTimeout =>
    subst hl
    simp only [exec, execAnnounceTimeout, fin, hparent, hdue, if_true]
  case offsetTimeout => rw [exec, execSyncOffsetTimeout, if_pos hdue, fin]
  case holdoverExpiry => rw [exec, execHoldoverExpiry, if_pos ⟨hst, hdue⟩, fin]
  case linkDown =>
    simp only [exec, execEthLinkChange, fin, hawake, hup, hdown, Bool.not_true, Bool.false_eq_true, if_false]
    rfl
  case arp => simp only [exec, execArpRx, fin, State.takeFrame_accepted hhears hacc, hmine, if_true]
  case echo =>
    obtain ⟨u, hu, hexec⟩ := exec_icmpEcho hhears hacc hmine sip ident payload
    obtain ⟨hecho, hlanes, hevg⟩ := s.echoTaken_frame payload
    exact ⟨u, hexec, hu.echo.trans hecho, hu.lanes.trans hlanes, hu.evg.trans hevg⟩
  case dropGood =>
    simp only [exec, execEthFrameDrop, fin, hhears, Bool.not_true, Bool.false_eq_true, if_false, if_true, State.dropFrame]
  case dropBad => simp only [exec, execEthFrameDrop, fin, hhears, Bool.not_true, Bool.false_eq_true, if_false]

end Sys2Proof.Machine
end

section
/-! PROOFS. Impositions and the SYNC page (spec/09_impositions.md R203 to R224, R538): accepted words of the two pages, posts, launches on time, skips
and reports, and the bytes of a trigger frame. -/

namespace Sys2Proof.Machine

/-! ### Accepted words (R208, R217, R224) -/

/-- An accepted PG_CTL word of a page with no mirrored field there: ERR_CLR acts at once, and then the word's own effect. -/
theorem pressOne_ctl_near {w : Writer} {p : Page} {v proof : Word} {chk : State → Option Nat} {eff : State → State} {s : State}
    (hm : p.mirrorAt 2 = false) (hh : Page.hasHeader p = true) (h : s.taken w p 2 v (chk (s.staged p 2 v))) :
    pressOne w p 2 v proof chk eff s = s.nearDone p fun s => eff (if bitAt v 31 then s.setHw p 0xB 0 else s) := by
  obtain ⟨hwritable, hjudge⟩ := h
  have hnear : p.farWord 2 v = false := by rw [Page.farWord, hm, Bool.false_and]
  have heff : s.acceptWord w p 2 v proof eff = eff (if bitAt v 31 then s.setHw p 0xB 0 else s) := by
    simp only [State.acceptWord, hh, hnear, and_true, true_and, Bool.false_eq_true, if_false]
    cases p.lane? <;> rfl
  rw [pressOne, pressAdj_accepted _ _ _ _ _ _ _ _ _ hwritable hjudge, heff, Page.inForceAtOnce, hnear]
  rfl

theorem impEff_disarm (w : Writer) : impEff w 0x11 1 0 = fun s => s.unarmAll := rfl

theorem impEff_run (w : Writer) (v : Word) : impEff w 2 v 0 = fun s => (storeEff .imp 2 v 0 s).impStopped := rfl

theorem impEff_cancel (w : Writer) {v : Word} (hdo : bitAt v 31 = true) : impEff w 0x12 v 0 = fun s =>
    (((s.cancelTag (bitsOf v 20 16) (bitsOf v 11 0)).2.2).put IMP.RES_CANCELLED 0 (s.cancelTag (bitsOf v 20 16) (bitsOf v 11 0)).1).put
      IMP.RES_TOO_LATE 0 (s.cancelTag (bitsOf v 20 16) (bitsOf v 11 0)).2.1 := by
  funext s
  have heff : impEff w 0x12 v 0 s = impCancelEff v s := rfl
  rw [heff, impCancelEff, hdo]
  rfl

theorem syncEff_release (v : Word) : syncEff 0x14 v 0 = fun s =>
    State.syncShow { s with imp := { s.imp with syncFifo := s.imp.syncFifo.drop (bitsOf v 4 0) } } := rfl

/-! ### Posting and arming (R206, R207, R209) -/

/-- The state of a press that has written the four words of post slot p. -/
def State.slotWritten (s : State) (p : Nat) (ws : List Word) : State :=
  State.pressedOn ((ws.zip (List.range 4)).foldl (fun s e => storeEff .imp (0x80 + 4 * p + e.2) e.1 0 s) s) .imp true

/-- TIME as the words of post slot p give it. -/
def State.slotInstant (s : State) (p : Nat) : Nat := (s.slotWord p 0).toNat * 2 ^ 32 + (s.slotWord p 1).toNat

/-- A posting press whose post passes the five checks. -/
theorem State.impPost_accepted {s s1 : State} {w : Writer} {p : Nat} {ws : List Word} (hwritable : s.writable w .imp (0x80 + 4 * p) = true)
    (hs1 : s1 = s.slotWritten p ws) (hact : impAction (s1.slotWord p 2) ≠ 0)
    (hchk : s1.postChk w.holder (s1.slotInstant p) (s1.slotWord p 2) (s1.slotWord p 3) = none) :
    s.impPost w p ws = (s1.putImpression w.holder (s1.slotInstant p) (s1.slotWord p 2) (s1.slotWord p 3)).notePost w (bitMask p p) := by
  subst hs1
  rw [State.slotInstant] at hchk ⊢
  rw [State.slotWritten] at hact hchk ⊢
  simp only [State.impPost, hwritable, hact, State.postSlot, hchk, Bool.not_true, Bool.false_eq_true, if_false, if_true]

/-- The feeder arms the first waiting impression where every condition of R209 holds. -/
theorem State.feed_arms {s : State} {sh m : Nat} {x : Impression} (hx : s.firstWaiting sh m = some x) (hrun : s.run .imp = true)
    (htime : x.time ≤ s.rt64 + second) (hroom : (s.armedIn m).length < slotMax) (hready : s.groupReady m = true)
    (hann : s.ru.announced = none) : s.feed sh m = (s.setImpression { x with armed := x.armed ++ [m] }).sendArm m x.id := by
  simp only [State.feed, hx, hrun, htime, hroom, hready, hann, decide_true, Option.isNone_none, Bool.and_self, if_true]

/-! ### Launching on time (R210, R212) -/

theorem State.launchKind_onTime {s : State} {late : Int} (h : late ≤ s.lateTol) : s.launchKind none late = .onTime :=
  if_neg (Int.not_lt.mpr h)

theorem State.launchAt_onTime {s : State} {n : LaneId} {x : Impression} (h : s.slotDiff n.val x ≤ s.lateTol) : s.launchAt n x = x.time :=
  if_neg (Int.not_lt.mpr h)

/-- A launch within LATE_TOL of the impression that is next, by an action that no block refuses. -/
theorem State.launchNext_unrefused {s : State} {m action : Nat} {x : Impression} (act : Impression → State → State) (hx : s.nextDue m = some x)
    (ha : impAction x.w2 = action) (hl : s.slotDiff m x ≤ s.lateTol) :
    s.launchNext m action (fun x s => (none, act x s)) = (act x s).slotDone m x .onTime :=
  launchNext_onTime hx ha (State.launchKind_onTime hl)

theorem exec_mark {s : State} {n : LaneId} {x : Impression} (hup : s.farUp n = true) (hx : s.nextDue n.val = some x) (ha : impAction x.w2 = 0xA)
    (hl : s.slotDiff n.val x ≤ s.lateTol) :
    exec (.mark n) s
      = .next ((s.slug n 0x3E 0 (BitVec.ofNat 32 x.time) (BitVec.ofNat 32 (impTag x.w2)) x.arg).slotDone n.val x .onTime).settle := by
  rw [exec, execMark, if_pos hup, State.launchNext_unrefused
    (fun x s => s.slug n markSource 0 (BitVec.ofNat 32 (s.launchAt n x)) (BitVec.ofNat 32 (impTag x.w2)) x.arg) hx ha hl,
    State.launchAt_onTime hl, markSource, fin]

/-- A RING of the module slots, or of a lane whose far side is up. -/
theorem exec_impRing {s : State} {m : Nat} {x : Impression} (hm : m = 16 ∨ ∃ n : LaneId, m = n.val ∧ s.farUp n = true)
    (hx : s.nextDue m = some x) (ha : impAction x.w2 = 0xB) (hl : s.slotDiff m x ≤ s.lateTol) :
    exec (.impRing m) s = .next ((s.ring (bitsOf x.arg 9 0)).slotDone m x .onTime).settle := by
  have hlaunch := State.launchNext_unrefused (fun x s => s.ring (bitsOf x.arg 9 0)) hx ha hl
  rw [exec, execImpRing]
  rcases hm with rfl | ⟨n, rfl, hup⟩
  · rw [dif_neg (by decide), if_pos (show 16 = moduleSlots from rfl), hlaunch, fin]
  · rw [dif_pos n.isLt, if_pos hup, hlaunch, fin]

theorem exec_syncOut {s : State} {x : Impression} (hx : s.nextDue 16 = some x) (ha : impAction x.w2 = 0x20) (hl : s.slotDiff 16 x ≤ s.lateTol) :
    exec .syncOut s = .next ((s.syncOut (b2n (bitsOf x.arg 1 0 != 0))
      (if bitsOf x.arg 1 0 = 2 then some (s.clock + bitsOf x.arg 31 16 * 20) else none)).slotDone 16 x .onTime).settle := by
  rw [exec, execSyncOut, moduleSlots, State.launchNext_unrefused (fun x s => s.syncOut (b2n (bitsOf x.arg 1 0 != 0))
    (if bitsOf x.arg 1 0 = 2 then some (s.clock + bitsOf x.arg 31 16 * pulseTicks) else none)) hx ha hl, pulseTicks, fin]

/-- The trigger frame that an impression launches (Table: Trigger frame). -/
def Impression.trigFrame (x : Impression) : TrigFrame :=
  ⟨bitsOf x.arg 15 0, impTag x.w2, (x.time + bitsOf x.arg 31 16 * 1000000) % 2 ^ 64, x.time⟩

/-- A trigger frame that is noted and set on its way. -/
def State.trigLaunched (s : State) (f : TrigFrame) : State :=
  State.netSend { s with imp := { s.imp with trigSent := if s.on NET.UP 0 then some f else s.imp.trigSent } } true trigDest trigType f.body

theorem exec_ethLaunch {s : State} {x : Impression} (hx : s.nextDue 16 = some x) (ha : impAction x.w2 = 0x21)
    (hl : s.slotDiff 16 x ≤ s.lateTol) : exec .ethLaunch s = .next ((s.trigLaunched x.trigFrame).slotDone 16 x .onTime).settle :=
  congrArg fin (State.launchNext_unrefused (fun x s => s.trigLaunched x.trigFrame) hx ha hl)

/-! ### Skips and reports (R212, R538) -/

/-- Chase counts at once what becomes of an impression that no slot holds. -/
theorem State.skipOne_unheld {s : State} {m : Nat} {x : Impression} (kind : LaunchKind) (h : m ∉ x.slots) :
    s.skipOne m x kind = (s.setImpression { x with todo := x.todo.filter (· != m) }).countLaunch ⟨x.sheet, x.w2, x.arg, kind, []⟩ :=
  if_neg fun hc => h (List.contains_iff_mem.mp hc)

theorem State.countLaunch_onTime {s : State} {r : LaunchRep} (h : r.kind = .onTime) : s.countLaunch r = s.bump IMP.LAUNCHED 0 := by
  simp only [State.countLaunch, h]

theorem exec_launchReport_onTime {s : State} {n : LaneId} {r : LaunchRep} {rest : List LaunchRep} (hr : (s.lane n).reports = r :: rest)
    (hk : r.kind = .onTime) (hlive : s.live n = true) :
    exec (.launchReport n) s = .next ((((s.upLane n fun l => { l with reports := rest }).imageLaunch n r).bump IMP.LAUNCHED 0)).settle := by
  simp only [exec, execLaunchReport, fin, hr, hlive, hk, State.countLaunch_onTime hk, Bool.not_true, Bool.false_eq_true, if_false]

/-! ### SYNC_IN (R216, R217) -/

/-- An edge that is captured in the FIFO. -/
def State.syncCaptured (s : State) (rising : Bool) : State :=
  State.syncShow { s with imp := { s.imp with syncFifo := s.imp.syncFifo ++ [(rising, s.rt64)], lastEdge := some s.rt64 } }

/-- The first edge, with VIO in a window, both edges selected and room in the FIFO. -/
theorem exec_syncInEdge {s : State} (rising : Bool) (hawake : s.awake = true) (hvio : vioLevel s.pwr.vio ≠ 0) (hcfg : s.g SYNC.IN_CFG 0 = 3)
    (hfirst : s.imp.lastEdge = none) (hroom : s.imp.syncFifo.length < 16) :
    exec (.syncInEdge rising) s
      = .next (((s.syncCaptured rising).raise .sync 0).fireRules (if rising then 0 else 1) 0 s.rt64).settle := by
  have hlevel : (vioLevel s.pwr.vio == 0) = false := beq_eq_false_iff_ne.mpr hvio
  have hfull : decide (syncMax ≤ s.imp.syncFifo.length) = false := decide_eq_false (Nat.not_le.mpr hroom)
  simp only [exec, execSyncInEdge, fin, hawake, hlevel, hcfg, hfirst, hfull, BEq.rfl, Bool.or_true, ite_self, Bool.not_true, Bool.or_self,
    Bool.false_eq_true, if_false, State.syncCaptured]

/-! ### Bytes of a trigger frame (R222, R223) -/

@[simp] theorem length_beBytes (k v : Nat) : (beBytes k v).length = k := by rw [beBytes, List.length_map, List.length_range]

theorem beBytes_succ (k v : Nat) : beBytes (k + 1) v = beBytes k (v / 256) ++ [BitVec.ofNat 8 v] := by
  have hhigh : ∀ i ∈ List.range k, BitVec.ofNat 8 (v / 256 ^ (k - i)) = BitVec.ofNat 8 (v / 256 / 256 ^ (k - 1 - i)) := by
    intro i hi
    have hexp : k - i = (k - 1 - i) + 1 := by have := List.mem_range.mp hi; omega
    rw [hexp, Nat.pow_succ', Nat.div_div_eq_div_mul]
  rw [beBytes, beBytes, List.range_succ, List.map_append, Nat.add_sub_cancel, List.map_congr_left hhigh]
  simp only [List.map_cons, List.map_nil, Nat.sub_self, Nat.pow_zero, Nat.div_one]

/-- Bytes spell the number they were made of, cut to their count. -/
theorem beNat_beBytes (k v : Nat) : beNat (beBytes k v) = v % 256 ^ k := by
  induction k generalizing v with
  | zero => rw [Nat.pow_zero, Nat.mod_one]; rfl
  | succ k ih =>
    have hlast : beNat (beBytes k (v / 256) ++ [BitVec.ofNat 8 v]) = beNat (beBytes k (v / 256)) * 256 + v % 256 := by
      simp only [beNat, List.foldl_append, List.foldl_cons, List.foldl_nil, BitVec.toNat_ofNat]
    rw [beBytes_succ, hlast, ih, Nat.pow_succ', Nat.mod_mul]
    omega

/-- The number that a word or a longer string of bits spells in as many bytes as it has. -/
theorem beNat_beBytes_toNat {k n : Nat} (x : BitVec n) (h : 2 ^ n = 256 ^ k) : beNat (beBytes k x.toNat) = x.toNat := by
  rw [beNat_beBytes, ← h, Nat.mod_eq_of_lt x.isLt]

/-- A trigger frame from the Ethertype on: GROUP, TAG and LAUNCH, and what follows them. -/
def trigBytes (group tag : BitVec 16) (launch : BitVec 64) (rest : List Byte) : List Byte :=
  [0x88, 0xB5, 1, 1] ++ beBytes 2 group.toNat ++ beBytes 2 tag.toNat ++ beBytes 8 launch.toNat ++ rest

section
variable (group tag : BitVec 16) (launch : BitVec 64) (rest : List Byte)

theorem trigBytes_kind : beNat (((trigBytes group tag launch rest).drop 0).take 4) = trigType * 65536 + 0x0101 := rfl

theorem trigBytes_group : beNat (((trigBytes group tag launch rest).drop 4).take 2) = group.toNat := by
  have hpart : ((trigBytes group tag launch rest).drop 4).take 2 = beBytes 2 group.toNat := by simp [trigBytes]
  rw [hpart, beNat_beBytes_toNat group rfl]

theorem trigBytes_tag : beNat (((trigBytes group tag launch rest).drop 6).take 2) = tag.toNat := by
  have hpart : ((trigBytes group tag launch rest).drop 6).take 2 = beBytes 2 tag.toNat := by simp [trigBytes]
  rw [hpart, beNat_beBytes_toNat tag rfl]

theorem trigBytes_launch : beNat (((trigBytes group tag launch rest).drop 8).take 8) = launch.toNat := by
  have hpart : ((trigBytes group tag launch rest).drop 8).take 8 = beBytes 8 launch.toNat := by
    simp [trigBytes, List.drop_append, List.drop_of_length_le]
  rw [hpart, beNat_beBytes_toNat launch rfl]

/-- A trigger frame that is heard and accepted. -/
theorem exec_triggerFrameRx {s : State} {h : EthHead} (hhears : s.hears = true) (hacc : s.accepts h = true) :
    exec (.triggerFrameRx h (trigBytes group tag launch rest)) s
      = .next (((((((((s.bump NET.RX_FRAMES 0).put IMP.TRIG_GROUP 0 group.toNat).put IMP.TRIG_TAG 0 tag.toNat).put IMP.TRIG_LAUNCH_HI 0
          (launch.toNat / 2 ^ 32)).put IMP.TRIG_LAUNCH_LO 0 (launch.toNat % 2 ^ 32)).bump IMP.TRIG_RX 0).raise .imp 7).fireRules 2 group.toNat
          launch.toNat)).settle := by
  simp only [exec, execTriggerFrameRx, fin, State.takeFrame_accepted hhears hacc, trigBytes_kind, trigBytes_group, trigBytes_tag,
    trigBytes_launch, if_true]

end

/-- Settles O14: the words of the two pages by their presses, the launches by the impression that is next, and the other rows by what they find
first. -/
theorem impositionRowsComplete : Obligations.ImpositionRowsComplete := by
  intro s w n m x
  refine ⟨fun k p w0 w1 w2 w3 s1 hwritable hs1 hact hchk => ?post, fun h => ?disarm, fun v hdo h => ?cancel, fun v h => ?run,
    fun sh hx hrun htime hroom hready hann => ?arm, exec_mark, exec_impRing (.inl rfl), fun hup => exec_impRing (.inr ⟨n, rfl, hup⟩),
    exec_syncOut, fun f hup hx ha hl hf => ?launch, fun t ht hend => ?pulseEnd, fun sh hx hslot => ?skip, fun sh hx hslot => ?expired,
    fun r rest => exec_launchReport_onTime, exec_syncInEdge, fun v h => ?release, fun hhigh hend => ?ppsEnd,
    fun h group tag launch rest hawake hup hacc => ?trigger⟩
  case post => rw [exec, execImpPost, State.impPost_accepted hwritable hs1 hact hchk, fin]; rfl
  case disarm => rw [exec, execImpDisarm, impPress, pressOne_near rfl (by decide) h, impEff_disarm, fin]
  case cancel => rw [exec, execImpCancel, impPress, pressOne_near rfl (by decide) h, impEff_cancel w hdo, fin]
  case run => rw [exec, execImpRun, impPress, pressOne_ctl_near rfl rfl h, impEff_run, fin]
  case arm => rw [exec, execFeederArm, State.feed_arms hx hrun htime hroom hready hann, fin]
  case launch =>
    subst hf
    rw [exec_ethLaunch hx ha hl, State.trigLaunched, hup]
    rfl
  case pulseEnd => simp only [exec, execSyncOutPulseEnd, fin, ht, hend, if_true, State.syncOut]
  case skip => simp only [exec, execImpressionSkip, fin, inTransit, hx, State.skipOne_unheld _ hslot]
  case expired =>
    have hfirst : s.firstTodo sh m (fun x => !inTransit m x && decide (2 * (second : Int) ≤ s.lateness m x)) = some x := hx
    simp only [exec, execImpressionExpired, fin, hfirst, State.skipOne_unheld _ hslot]
  case release => rw [exec, execInRelease, pressOne_near rfl (by decide) h, syncEff_release, fin]
  case ppsEnd => simp only [exec, execPpsPulseEnd, fin, msTicks, hhigh, hend, decide_true, Bool.and_self, if_true]
  case trigger =>
    have hhears : s.hears = true := by rw [State.hears, hawake, hup, Bool.and_self]
    exact exec_triggerFrameRx group tag launch rest hhears hacc

end Sys2Proof.Machine
end

section
/-! PROOFS. The source-measure unit in time (spec/10_source_measure.md R230, R231, R236, R238 to R242, R245 to R248, R251; R507, R510): the transitions
of the HV state machine, results, auto-zero runs, and the launches of a preset and of RUN = 0. -/

namespace Sys2Proof.Machine

section
variable {s : State} {n : LaneId}

/-! ### The SMU's own record -/

theorem State.g_upSmu (f : Smu → Smu) (x : Fld) (m i : Nat) : (s.upSmu n f).g x m i = s.g x m i := rfl

theorem State.smu_upSmu (f : Smu → Smu) : (s.upSmu n f).smu n = f (s.smu n) := congrArg Lane.smu (s.lane_upLane_same n _)

/-! What gathering flags for a result leaves unchanged (R230, R248). -/

theorem State.g_flagResult (bits : Nat) (x : Fld) (m i : Nat) : (s.flagResult n bits).g x m i = s.g x m i := by
  rw [State.flagResult]
  split
  · rw [State.g_upSmu]
  · rfl

theorem State.evg_flagResult (bits : Nat) : (s.flagResult n bits).evg = s.evg := by
  rw [State.flagResult]
  split <;> rfl

theorem State.azForced_flagResult (bits : Nat) : ((s.flagResult n bits).smu n).azForced = (s.smu n).azForced := by
  rw [State.flagResult]
  split
  · rw [State.smu_upSmu]
  · rfl

/-! ### The HV state machine (R240, R241) -/

theorem State.hvStood_iff {st t : Nat} : s.hvStood n st t = true ↔ s.farUp n = true ∧ s.g SMU.STAT_STATE n = st ∧ t ≤ s.hvFor n := by
  simp only [State.hvStood, Bool.and_eq_true, beq_iff_eq, decide_eq_true_eq, and_assoc]

theorem State.inCycle_iff : s.inCycle n = true ↔ 1 ≤ s.g SMU.STAT_STATE n ∧ s.g SMU.STAT_STATE n ≤ 4 := by
  simp only [State.inCycle, Bool.and_eq_true, decide_eq_true_eq]

theorem State.abortResult_normalEnd : s.abortResult n 0 = s := if_pos (.inl rfl)

/-- A cycle in progress that a cause other than a normal end or HIPOT's trip ends: DISCHARGE with the cause, and no result. -/
theorem State.endCycle_aborts {cause : Nat} (hin : s.inCycle n = true) (hcause : ¬ (cause = 0 ∨ cause = 10)) :
    s.endCycle n cause = (((((s.markEnd n).put SMU.STAT_CAUSE n cause).setHv n 5).put SMU.RES_STAT_VALID n 0).put SMU.RES_STAT_VERDICT n 3).upSmu n
      fun x => { x with resultDue := false } := by
  rw [State.endCycle, if_pos hin, State.abortResult, if_neg hcause]

/-- RAMP or DWELL ends normally through RAMP_DOWN. -/
theorem State.hvStop_drives (h : s.g SMU.STAT_STATE n = 2 ∨ s.g SMU.STAT_STATE n = 3) :
    s.hvStop n 0 = ((s.markEnd n).put SMU.STAT_CAUSE n 0).setHv n 4 := by
  rw [State.hvStop, if_neg (by omega), if_pos h, State.abortResult_normalEnd]

theorem State.g_dwellEnds (x : Fld) (m i : Nat) : (s.dwellEnds n).g x m i = s.g x m i := rfl

theorem exec_hvArmingTimeout (hup : s.farUp n = true) (hst : s.g SMU.STAT_STATE n = 1) (htime : 400000 ≤ s.hvFor n) :
    exec (.hvArmingTimeout n) s = .next (s.endCycle n 11).settle := by
  have hstood : s.hvStood n 1 (2 * msTicks) = true := State.hvStood_iff.mpr ⟨hup, hst, htime⟩
  rw [exec, execHvArmingTimeout, if_pos hstood, fin]

theorem exec_rampTimeout (hup : s.farUp n = true) (hst : s.g SMU.STAT_STATE n = 2) (hover : s.rampOver n = true) :
    exec (.rampTimeout n) s = .next (s.endCycle n 11).settle := by
  have hstood : s.hvStood n 2 0 = true := State.hvStood_iff.mpr ⟨hup, hst, Nat.zero_le _⟩
  rw [exec, execRampTimeout, hstood, hover, Bool.and_self, if_pos rfl, fin]

theorem exec_dwellElapsed (hup : s.farUp n = true) (hst : s.g SMU.STAT_STATE n = 3) (hdwell : s.g SMU.DWELL_MS n ≠ 0)
    (htime : s.g SMU.DWELL_MS n * 200000 ≤ s.hvFor n) :
    exec (.dwellElapsed n) s = .next ((((s.dwellEnds n).markEnd n).put SMU.STAT_CAUSE n 0).setHv n 4).settle := by
  have hstood : s.hvStood n 3 (s.g SMU.DWELL_MS n * msTicks) = true := State.hvStood_iff.mpr ⟨hup, hst, htime⟩
  have hdwells : (s.dwellEnds n).g SMU.STAT_STATE n = 3 := (State.g_dwellEnds _ _ _).trans hst
  rw [exec, execDwellElapsed, hstood, bne_iff_ne.mpr hdwell, Bool.and_self, if_pos rfl, State.hvStop_drives (.inr hdwells), fin]

theorem exec_dischargeFault (hup : s.farUp n = true) (hst : s.g SMU.STAT_STATE n = 5) (htime : 60000000 ≤ s.hvFor n) (hready : s.phase n = 3) :
    exec (.dischargeFault n) s = .next (((s.setHv n 6).farSmu n 10).laneFails n 0x10 0x032).settle := by
  have hstood : s.hvStood n 5 (300 * msTicks) = true := State.hvStood_iff.mpr ⟨hup, hst, htime⟩
  rw [exec, execDischargeFault, hstood, hready, phReady, BEq.rfl, Bool.and_self, if_pos rfl, fin]

/-! ### Auto-zero (R247, R248, R507, R510) -/

/-- A run that goes ahead of the foreground: it is forced, counts in AZ_PREEMPTS and marks the result that it falls into. -/
def State.azForcedRun (s : State) (n : LaneId) : State :=
  (State.flagResult ((s.put SMU.STAT_AZ_RUNNING n 1).upSmu n fun x => { x with azForced := true, azGranted := false, azFrom := s.clock }) n
    0x90).bump SMU.AZ_PREEMPTS n

theorem exec_azForced (hup : s.farUp n = true) (hdue : s.on SMU.STAT_AZ_DUE n = true) (hrun : s.on SMU.STAT_AZ_RUNNING n = false)
    (hover : 600 ≤ s.g SMU.AZ_OVERDUE_S n) : exec (.azForced n) s = .next (s.azForcedRun n).settle := by
  simp only [exec, execAzForced, fin, bgForced, hup, hdue, hrun, hover, decide_true, Bool.not_false, Bool.and_self, if_true,
    State.azForcedRun]

section
variable (s n)

theorem State.azForcedRun_running : (s.azForcedRun n).g SMU.STAT_AZ_RUNNING n = 1 := by
  have hapart : SMU.AZ_PREEMPTS.apart n 0 SMU.STAT_AZ_RUNNING n 0 := .inl (by simp only [Fld.addr, SMU.AZ_PREEMPTS, SMU.STAT_AZ_RUNNING]; omega)
  rw [State.azForcedRun, State.g_bump_ne _ _ _ _ _ _ _ _ rfl hapart, State.g_flagResult, State.g_upSmu, State.g_put_same _ _ _ _ rfl]
  rfl

theorem State.azForcedRun_forced : ((s.azForcedRun n).smu n).azForced = true := by
  rw [State.azForcedRun, State.smu, State.lane_bump, ← State.smu, State.azForced_flagResult, State.smu_upSmu]

theorem State.azForcedRun_counted :
    (s.azForcedRun n).g SMU.AZ_PREEMPTS n = min (s.g SMU.AZ_PREEMPTS n + 1) (2 ^ SMU.AZ_PREEMPTS.width - 1) := by
  have hapart : SMU.STAT_AZ_RUNNING.apart n 0 SMU.AZ_PREEMPTS n 0 := .inl (by simp only [Fld.addr, SMU.AZ_PREEMPTS, SMU.STAT_AZ_RUNNING]; omega)
  rw [State.azForcedRun, State.g_bump_same _ _ _ _ _ rfl, State.g_flagResult, State.g_upSmu, State.g_put_ne _ _ _ _ _ _ _ rfl hapart]

/-- A forced run raises no event of its own. -/
theorem State.azForcedRun_evg : (s.azForcedRun n).evg = s.evg := State.evg_flagResult 0x90

end

/-! ### The launches (R205, R251) -/

/-- A launch that the block refuses is reported with the block's code, however late it is. -/
theorem launchNext_refused {m action c : Nat} {act : Impression → State → Option Nat × State} {x : Impression} {t : State}
    (hx : s.nextDue m = some x) (ha : impAction x.w2 = action) (hact : act x s = (some c, t)) :
    s.launchNext m action act = t.slotDone m x (.refused c) := by
  simp only [State.launchNext, hx, ha, if_true, hact, State.launchKind]

theorem smuRunEff_stop (s : State) (n : LaneId) : smuRunEff n 0 s = if s.run (.lane n .smu) then s.smuRunOff n else s := if_neg (by decide)

section
variable {x : Impression} {t : State}

theorem exec_smuStep_onTime (hup : s.farUp n = true) (hx : s.nextDue n.val = some x) (ha : impAction x.w2 = 1) (hl : s.slotDiff n.val x ≤ s.lateTol)
    (hstep : s.smuStep n x.poster (bitsOf x.arg 3 0) = (none, t)) : exec (.smuStep n) s = .next (t.slotDone n.val x .onTime).settle := by
  have hkind : s.launchKind (s.smuStep n x.poster (bitsOf x.arg 3 0)).1 (s.slotDiff n.val x) = .onTime := by
    rw [hstep, State.launchKind_onTime hl]
  rw [exec, execSmuStep, if_pos hup, launchNext_onTime hx ha hkind, hstep, fin]

theorem exec_smuStep_refused {c : Nat} (hup : s.farUp n = true) (hx : s.nextDue n.val = some x) (ha : impAction x.w2 = 1)
    (hstep : s.smuStep n x.poster (bitsOf x.arg 3 0) = (some c, t)) :
    exec (.smuStep n) s = .next (t.slotDone n.val x (.refused c)).settle := by
  rw [exec, execSmuStep, if_pos hup, launchNext_refused hx ha hstep, fin]

theorem exec_smuOff (hup : s.farUp n = true) (hx : s.nextDue n.val = some x) (ha : impAction x.w2 = 2) (hl : s.slotDiff n.val x ≤ s.lateTol) :
    exec (.smuOff n) s = .next ((if s.run (.lane n .smu) then s.smuRunOff n else s).slotDone n.val x .onTime).settle := by
  rw [exec, execSmuOff, if_pos hup, State.launchNext_unrefused (fun _ s => smuRunEff n 0 s) hx ha hl, smuRunEff_stop, fin]

end

end

/-- Settles O16: each row finds its conditions met where it acts; the rows that end a cycle go through what the end of a cycle is. -/
theorem smuRunsComplete : Obligations.SmuRunsComplete := by
  intro s n hup
  refine ⟨fun hst hheld htime => ?armed, fun c st hc hst hover => ?timeout, exec_dwellElapsed hup, exec_dischargeFault hup,
    fun v i v2 i2 stamp hready => ?result, fun harc => ?arcEnd, fun hrange => ?rangeEnd, fun t hdue => ?azDue,
    fun hdue hidle hfree hsoon => ?azStart, fun t hrun htime => ?azComplete, fun hdue hover => ?azNotice, fun hdue hidle hover => ?azForced,
    fun x t hx ha hl => exec_smuStep_onTime hup hx ha hl, fun x t c => exec_smuStep_refused hup, fun x => exec_smuOff hup⟩
  case armed =>
    simp only [exec, execHvArmingComplete, fin, msTicks, hup, hst, hheld, htime, BEq.rfl, decide_true, Bool.not_false, Bool.and_self, if_true]
  case timeout =>
    simp only [List.mem_cons, Prod.mk.injEq, List.not_mem_nil, or_false] at hc
    have hstate : st = 1 ∨ st = 2 := hc.imp And.right And.right
    have hcycle : s.inCycle n = true := State.inCycle_iff.mpr (by omega)
    rw [← State.endCycle_aborts hcycle (by decide)]
    rcases hc with ⟨rfl, rfl⟩ | ⟨rfl, rfl⟩
    · exact exec_hvArmingTimeout hup hst hover
    · exact exec_rampTimeout hup hst hover
  case result => rw [exec, execSmuResult, hup, hready, Bool.and_self, if_pos rfl, fin]
  case arcEnd => simp only [exec, execArcExcursionEnd, fin, sampleTicks, hup, harc, decide_true, Bool.and_self, if_true]
  case rangeEnd => simp only [exec, execRangeChangeEnd, fin, msTicks, hup, hrange, decide_true, Bool.and_self, if_true]
  case azDue =>
    have hcond : (decide (60 ≤ s.g SMU.AZ_AGE_S n) || decide (20 < (t.toInt - (s.smu n).azTemp).natAbs)) = true := by
      simpa only [Bool.or_eq_true, decide_eq_true_eq] using hdue
    rw [exec, execAzDue, hup, hcond, Bool.and_self, if_pos rfl, fin]
  case azStart => simp only [exec, execAzRunStart, fin, hup, hdue, hidle, hfree, hsoon, Bool.not_false, Bool.and_self, if_true]
  case azComplete => simp only [exec, execAzRunComplete, fin, msTicks, hup, hrun, htime, decide_true, Bool.and_self, if_true]
  case azNotice =>
    have hsecond : bgForced ≤ s.g SMU.AZ_OVERDUE_S n + 1 := Nat.succ_le_succ hover
    simp only [exec, execAzNotice, fin, hup, hdue, hsecond, decide_true, Bool.and_self, if_true]
  case azForced =>
    exact ⟨s.azForcedRun n, exec_azForced hup hdue hidle hover, s.azForcedRun_running n, s.azForcedRun_forced n, s.azForcedRun_counted n,
      s.azForcedRun_evg n⟩

end Sys2Proof.Machine
end

section
/-! PROOFS. The registers and windows of the compositor (spec/16_compositor.md R389, R390): what a register reads after a write of one, and what the
passing of parameters and results between two windows moves. -/

namespace Sys2Proof.Machine

namespace EngRegs

/-! ### Reading after a write (R389) -/

section
variable (r : EngRegs) {w w' c c' : Nat} (v : Word)

@[simp] theorem cwp_wr (w c : Nat) : (r.wr w c v).cwp = r.cwp := by
  unfold wr
  split
  · rfl
  · split <;> rfl

@[simp] theorem wold_wr (w c : Nat) : (r.wr w c v).wold = r.wold := by
  unfold wr
  split
  · rfl
  · split <;> rfl

/-- A shared register reads back through every window. -/
theorem rd_wr_shared (h0 : 0 < c) (h8 : c < 8) (w w' : Nat) : (r.wr w c v).rd w' c = v := by
  simp only [rd, wr, Nat.ne_of_gt h0, h8, if_true, if_false, Vector.getElem?_setIfInBounds_self_of_lt, Option.getD_some]

/-- A register of a window reads back through that window. -/
theorem rd_wr_windowed (hw : w < 12) (h8 : 8 ≤ c) (h24 : c < 24) : (r.wr w c v).rd w c = v := by
  have h0 : c ≠ 0 := by omega
  have hcode : c - 8 < 16 := by omega
  simp only [rd, wr, h0, Nat.not_lt.mpr h8, if_false, Vector.getElem?_setIfInBounds_self_of_lt hw,
    Vector.getElem?_setIfInBounds_self_of_lt hcode, Option.getD_some]

/-- A register that is written reads back through the same window; x0 is none. -/
theorem rd_wr_same (hw : w < 12) (h0 : 0 < c) (h24 : c < 24) : (r.wr w c v).rd w c = v := by
  rcases Nat.lt_or_ge c 8 with h8 | h8
  · exact rd_wr_shared r v h0 h8 w w
  · exact rd_wr_windowed r v hw h8 h24

/-- Writing a register of one window leaves every other window. -/
theorem rd_wr_window_ne (h8 : 8 ≤ c) (hw : w' ≠ w) (c' : Nat) : (r.wr w c v).rd w' c' = r.rd w' c' := by
  have h0 : c ≠ 0 := by omega
  simp only [rd, wr, h0, Nat.not_lt.mpr h8, if_false, Vector.getElem?_setIfInBounds_ne hw.symm]

/-- Writing a register leaves every register of another code, in every window. -/
theorem rd_wr_code_ne (hc : c' ≠ c) (w w' : Nat) : (r.wr w c v).rd w' c' = r.rd w' c' := by
  rcases Nat.eq_zero_or_pos c with rfl | h0
  · rfl
  rcases Nat.lt_or_ge c 8 with h8 | h8
  · simp only [rd, wr, Nat.ne_of_gt h0, h8, if_true, if_false, Vector.getElem?_setIfInBounds_ne hc.symm]
  by_cases hw : w' = w
  case neg => exact rd_wr_window_ne r v h8 hw c'
  subst hw
  have hwin : r.wr w' c v = { r with win := r.win.setIfInBounds w' ((r.win[w']?.getD (Vector.replicate 16 0)).setIfInBounds (c - 8) v) } := by
    simp only [wr, Nat.ne_of_gt h0, Nat.not_lt.mpr h8, if_false]
  rw [hwin]
  unfold rd
  split
  · rfl
  split
  · rfl
  · have hcode : c - 8 ≠ c' - 8 := by omega
    by_cases hin : w' < 12
    · simp only [Vector.getElem?_setIfInBounds_self_of_lt hin, Option.getD_some, Vector.getElem?_setIfInBounds_ne hcode]
    · simp only [Vector.getElem?_eq_none (Nat.le_of_not_lt hin), Option.getD_none]

/-- The one register of the one window that a write of a windowed register changes. -/
theorem rd_wr (hw : w < 12) (h8 : 8 ≤ c) (h24 : c < 24) : (r.wr w c v).rd w' c' = if w' = w ∧ c' = c then v else r.rd w' c' := by
  split
  case isTrue h =>
    obtain ⟨rfl, rfl⟩ := h
    exact rd_wr_windowed r v hw h8 h24
  case isFalse h =>
    by_cases hw' : w' = w
    · exact rd_wr_code_ne r v (fun hc => h ⟨hw', hc⟩) w w'
    · exact rd_wr_window_ne r v h8 hw' c'

end

/-! ### Parameters and results between two windows (R389, R398) -/

section
variable (r : EngRegs) {f t : Nat}

/-- Four registers of window `f`, from code `a` on, copied into window `t` from code `b` on. -/
def copyFour (f t a b : Nat) : EngRegs := [0, 1, 2, 3].foldl (fun r i => r.wr t (b + i) (r.rd f (a + i))) r

theorem passDown_eq (f t : Nat) : r.passDown f t = r.copyFour f t 20 8 := rfl
theorem passUp_eq (f t : Nat) : r.passUp f t = r.copyFour f t 8 20 := rfl

@[simp] theorem cwp_copyFour (f t a b : Nat) : (r.copyFour f t a b).cwp = r.cwp := by
  simp only [copyFour, List.foldl_cons, List.foldl_nil, cwp_wr]

@[simp] theorem wold_copyFour (f t a b : Nat) : (r.copyFour f t a b).wold = r.wold := by
  simp only [copyFour, List.foldl_cons, List.foldl_nil, wold_wr]

/-- The four registers of window `t` take what the four of window `f` held; every other register reads as before. -/
theorem rd_copyFour {a b : Nat} (ht : t < 12) (hb : 8 ≤ b) (hb24 : b + 4 ≤ 24) (hab : a + 4 ≤ b ∨ b + 4 ≤ a) (w c : Nat) :
    (r.copyFour f t a b).rd w c = if w = t ∧ b ≤ c ∧ c < b + 4 then r.rd f (a + (c - b)) else r.rd w c := by
  have hsource (x : EngRegs) (i j : Nat) (v : Word) (hi : i < 4) (hj : j < 4) : (x.wr t (b + i) v).rd f (a + j) = x.rd f (a + j) :=
    rd_wr_code_ne x v (by omega) t f
  simp only [copyFour, List.foldl_cons, List.foldl_nil, hsource, Nat.reduceLT]
  by_cases hw : w = t
  case neg =>
    have hother (x : EngRegs) (j : Nat) (v : Word) : (x.wr t (b + j) v).rd w c = x.rd w c := rd_wr_window_ne x v (by omega) hw c
    simp only [hother, hw, false_and, if_false]
  subst hw
  by_cases hc : b ≤ c ∧ c < b + 4
  · obtain ⟨i, hi, rfl⟩ : ∃ i, i < 4 ∧ c = b + i := ⟨c - b, by omega, by omega⟩
    have hcode (x : EngRegs) (j : Nat) (v : Word) (hj : j < 4) : (x.wr w (b + j) v).rd w (b + i) = if i = j then v else x.rd w (b + i) := by
      rw [rd_wr x v ht (by omega) (by omega)]
      simp only [true_and, Nat.add_left_cancel_iff]
    simp only [hcode, hc, and_self, if_true, Nat.add_sub_cancel_left, Nat.reduceLT]
    obtain rfl | rfl | rfl | rfl : i = 0 ∨ i = 1 ∨ i = 2 ∨ i = 3 := by omega
    all_goals rfl
  · have hcode (x : EngRegs) (j : Nat) (v : Word) (hj : j < 4) : (x.wr w (b + j) v).rd w c = x.rd w c := rd_wr_code_ne x v (by omega) w w
    simp only [hcode, hc, and_false, if_false, Nat.reduceLT]

/-- The passing of parameters down changes a0 to a3 of the new window alone: they take b0 to b3 of the old one. -/
theorem rd_passDown (ht : t < 12) (w c : Nat) :
    (r.passDown f t).rd w c = if w = t ∧ 8 ≤ c ∧ c < 12 then r.rd f (20 + (c - 8)) else r.rd w c :=
  rd_copyFour r ht (by decide) (by decide) (.inr (by decide)) w c

/-- The passing of results up changes b0 to b3 of the window that is returned to: they take a0 to a3 of the one that is left. -/
theorem rd_passUp (ht : t < 12) (w c : Nat) :
    (r.passUp f t).rd w c = if w = t ∧ 20 ≤ c ∧ c < 24 then r.rd f (8 + (c - 20)) else r.rd w c :=
  rd_copyFour r ht (by decide) (by decide) (.inl (by decide)) w c

@[simp] theorem cwp_passDown (f t : Nat) : (r.passDown f t).cwp = r.cwp := cwp_copyFour ..
@[simp] theorem wold_passDown (f t : Nat) : (r.passDown f t).wold = r.wold := wold_copyFour ..
@[simp] theorem cwp_passUp (f t : Nat) : (r.passUp f t).cwp = r.cwp := cwp_copyFour ..
@[simp] theorem wold_passUp (f t : Nat) : (r.passUp f t).wold = r.wold := wold_copyFour ..

/-- What passes down and comes straight back up is what stood there: outside the window that it passed through, nothing has changed. -/
theorem rd_passUp_passDown (hf : f < 12) (ht : t < 12) {w : Nat} (hw : w ≠ t) (c : Nat) :
    ((r.passDown f t).passUp t f).rd w c = r.rd w c := by
  rw [rd_passUp _ hf]
  split
  case isTrue h =>
    obtain ⟨rfl, h20, h24⟩ := h
    rw [rd_passDown _ ht, if_pos ⟨rfl, by omega, by omega⟩]
    congr 1
    omega
  case isFalse => rw [rd_passDown _ ht, if_neg (fun h => hw h.1)]

end

end EngRegs

/-- Settles O51: x1 to x7 lie outside the windows, the other sixteen registers in the vector of their window, and x0 nowhere. -/
theorem windowedRegisters : Obligations.WindowedRegisters := by
  intro r w w' c c' v hw _ hc _
  exact ⟨rfl, rfl, fun h0 => r.rd_wr_same v hw h0 hc, fun h0 h8 => r.rd_wr_shared v h0 h8 w w', fun hne => r.rd_wr_code_ne v hne w w',
    fun h8 hne => r.rd_wr_window_ne v h8 hne c', r.cwp_wr v w c, r.wold_wr v w c⟩

end Sys2Proof.Machine
end

section
/-! PROOFS. Lane memory (spec/16_compositor.md R386): bytes that are stored read back, low byte first, and everything else stays. -/

namespace Sys2Proof.Machine

/-! ### Little-endian bytes -/

@[simp] theorem length_leBytes (k v : Nat) : (leBytes k v).length = k := by
  induction k generalizing v with
  | zero => rfl
  | succ k ih => rw [leBytes, List.length_cons, ih]

/-- The number that the bytes of a number spell is the number, cut to as many bytes. -/
theorem leNat_leBytes (k v : Nat) : leNat (leBytes k v) = v % 256 ^ k := by
  induction k generalizing v with
  | zero => rw [leBytes, leNat, Nat.pow_zero, Nat.mod_one]
  | succ k ih => rw [leBytes, leNat, ih, BitVec.toNat_ofNat, show 256 ^ (k + 1) = 256 * 256 ^ k from Nat.pow_succ', Nat.mod_mul]

/-- The byte at place `i`. -/
theorem getElem?_leBytes (k v i : Nat) : (leBytes k v)[i]? = if i < k then some (BitVec.ofNat 8 (v / 256 ^ i)) else none := by
  induction k generalizing v i with
  | zero => rfl
  | succ k ih =>
    cases i with
    | zero => simp only [leBytes, List.getElem?_cons_zero, Nat.succ_pos, if_true, Nat.pow_zero, Nat.div_one]
    | succ i => simp only [leBytes, List.getElem?_cons_succ, ih, Nat.succ_lt_succ_iff, Nat.pow_succ', Nat.div_div_eq_div_mul]

/-- The bytes of a word are its bits, eight by eight. -/
theorem ofNat_div_eq_extractLsb' (v : Word) (i : Nat) : BitVec.ofNat 8 (v.toNat / 256 ^ i) = v.extractLsb' (8 * i) 8 := by
  apply BitVec.eq_of_toNat_eq
  rw [BitVec.toNat_ofNat, BitVec.extractLsb'_toNat, Nat.shiftRight_eq_div_pow, Nat.pow_mul]

/-! ### Reading what was stored -/

/-- A byte that was stored reads back. -/
theorem Memory.rd_putBytes_inside (m : Bytes) (a : Nat) (bs : List Byte) {i : Nat} (h : i < bs.length) :
    Memory.rd (Memory.putBytes m a bs) (a + i) = bs[i]?.getD 0 := by
  rw [Memory.rd_putBytes, if_pos ⟨Nat.le_add_right a i, Nat.add_lt_add_left h a⟩, Nat.add_sub_cancel_left]

theorem Memory.bytes_putBytes_same (m : Bytes) (a : Nat) (bs : List Byte) : Memory.bytes (Memory.putBytes m a bs) a bs.length = bs := by
  apply List.ext_getElem
  · simp only [Memory.bytes, List.length_map, List.length_range]
  · intro i _ h
    simp only [Memory.bytes, List.getElem_map, List.getElem_range, Memory.rd_putBytes_inside m a bs h, List.getElem?_eq_getElem h,
      Option.getD_some]

section
variable (s : State) (n : LaneId) (a : Nat)

@[simp] theorem State.mem_putMem (bs : List Byte) : ((s.putMem n a bs).lane n).mem = Memory.putBytes (s.lane n).mem a bs :=
  congrArg Lane.mem (s.lane_upLane_same n _)

/-- A byte of a store of the low bytes of a word. -/
theorem State.rd_putMem_leBytes (v : Word) {k i : Nat} (h : i < k) :
    Memory.rd ((s.putMem n a (leBytes k v.toNat)).lane n).mem (a + i) = v.extractLsb' (8 * i) 8 := by
  rw [State.mem_putMem, Memory.rd_putBytes_inside _ _ _ (by rwa [length_leBytes]), getElem?_leBytes, if_pos h, Option.getD_some,
    ofNat_div_eq_extractLsb']

/-- A byte outside a store reads as before. -/
theorem State.rd_putMem_outside (bs : List Byte) {b : Nat} (h : b < a ∨ a + bs.length ≤ b) :
    Memory.rd ((s.putMem n a bs).lane n).mem b = Memory.rd (s.lane n).mem b := by
  rw [State.mem_putMem, Memory.rd_putBytes_outside _ _ _ h]

theorem State.lane_putMem_ne (bs : List Byte) {m : LaneId} (h : m ≠ n) : (s.putMem n a bs).lane m = s.lane m := s.lane_upLane_ne _ h

theorem State.memWord_putWord_same (v : Word) : (s.putWord n a v).memWord n a = v := by
  have hbytes : Memory.bytes ((s.putWord n a v).lane n).mem a 4 = leBytes 4 v.toNat := by
    have h := Memory.bytes_putBytes_same (s.lane n).mem a (leBytes 4 v.toNat)
    rwa [length_leBytes, ← State.mem_putMem] at h
  rw [State.memWord, State.memNat, hbytes, leNat_leBytes]
  exact BitVec.eq_of_toNat_eq (by rw [BitVec.toNat_ofNat]; omega)

/-- A store keeps every lane's memory in its canonical form. -/
theorem State.memoriesOk_putMem (bs : List Byte) (h : MemoriesOk s) : MemoriesOk (s.putMem n a bs) := by
  intro m
  by_cases hm : m = n
  · subst hm
    rw [State.mem_putMem]
    exact Memory.wf_putBytes a bs (h m)
  · rw [State.lane_putMem_ne s n a bs hm]
    exact h m

end

/-- Settles O53: what is stored reads back byte by byte, and a store reaches no other byte and no other lane. -/
theorem memoryReadBack : Obligations.MemoryReadBack := by
  intro s n a v bs
  exact ⟨s.memWord_putWord_same n a v, s.rd_putMem_leBytes n a v (i := 0) (by decide), s.rd_putMem_leBytes n a v (i := 3) (by decide),
    fun _ => s.rd_putMem_outside n a bs, fun _ => s.lane_putMem_ne n a bs, s.memoriesOk_putMem n a bs⟩

end Sys2Proof.Machine
end

section
/-! PROOFS. Halts, trap entries and the end of an instruction of the compositor (spec/16_compositor.md R407 to R410; spec/17_traps_memory_dma.md R414 to
R416), and what settling leaves of a lane on which no debug halt is asked for. -/

namespace Sys2Proof.Machine

@[simp] theorem EngRegs.rd_withCwp (r : EngRegs) (k w c : Nat) : EngRegs.rd { r with cwp := k } w c = r.rd w c := rfl

/-- What a ready engine is: it runs, and it waits for nothing (R417). -/
theorem State.running_of_ready {s : State} {n : LaneId} (h : s.engReady n = true) : (s.eng n).run = .running ∧ (s.eng n).qwait = none := by
  simp only [State.engReady, Bool.and_eq_true, beq_iff_eq, Option.isNone_iff_eq_none] at h
  obtain ⟨⟨⟨⟨⟨-, hrun⟩, hwait⟩, -⟩, -⟩, -⟩ := h
  exact ⟨hrun, hwait⟩

/-! ### Halts (R407) -/

section
variable (s : State) (n : LaneId)

/-- The engine as it is halted. -/
def Eng.halted (e : Eng) (code now : Nat) : Eng :=
  { e with run := .halted, haltCode := code, haltAt := now, haltReq := false, stepReq := false, stepDone := false, noInt := false,
           fatalTold := false, movbUnits := 0, movbMid := false }

theorem State.eng_halt (code : Nat) : (s.halt n code).eng n = (s.eng n).halted code s.clock := by
  unfold State.halt
  split <;> simp only [State.eng_raise, State.eng_bump, State.eng_upEng_same, Eng.halted]

theorem State.lane_halt_ne (code : Nat) {m : LaneId} (h : m ≠ n) : (s.halt n code).lane m = s.lane m := by
  unfold State.halt
  split <;> simp only [State.lane_raise, State.lane_bump, State.upEng, State.lane_upLane_ne s _ h]

theorem State.suspendWait_of_no_wait {s : State} {n : LaneId} (h : (s.eng n).qwait = none) : s.suspendWait n = s := by
  unfold State.suspendWait
  rw [h]

theorem State.lane_suspendWait_ne {m : LaneId} (h : m ≠ n) : (s.suspendWait n).lane m = s.lane m := by
  unfold State.suspendWait
  split
  · rfl
  · exact s.lane_upLane_ne _ h

theorem State.clock_suspendWait : (s.suspendWait n).clock = s.clock := by
  unfold State.suspendWait
  split <;> rfl

theorem State.lane_debugHalt_ne (step : Bool) {m : LaneId} (h : m ≠ n) : (s.debugHalt n step).lane m = s.lane m := by
  unfold State.debugHalt
  extract_lets w u
  have hu : u.lane m = s.lane m := by
    unfold u
    rw [State.lane_halt_ne _ _ _ h, State.upEng, State.lane_upLane_ne _ _ h, State.lane_suspendWait_ne _ _ h]
  split
  · rw [State.lane_raise, hu]
  · exact hu

theorem State.eng_debugHalt (step : Bool) : (s.debugHalt n step).eng n =
    Eng.halted { (s.suspendWait n).eng n with run := .running, stepDone := false, qhalt := (s.eng n).qwait } 1 s.clock := by
  unfold State.debugHalt
  split <;> simp only [State.eng_raise, State.eng_halt, State.eng_upEng_same, ← State.clock_suspendWait s n] <;> rfl

/-- A DEBUG halt, whatever it interrupts. -/
theorem State.debugHalt_halted (step : Bool) : ((s.debugHalt n step).eng n).run = .halted ∧ ((s.debugHalt n step).eng n).haltCode = 1 := by
  rw [State.eng_debugHalt]
  exact ⟨rfl, rfl⟩

/-- A DEBUG halt of an engine that waits for nothing moves neither its registers nor its PC. -/
theorem State.debugHalt_frame {s : State} {n : LaneId} (step : Bool) (h : (s.eng n).qwait = none) :
    ((s.debugHalt n step).eng n).regs = (s.eng n).regs ∧ ((s.debugHalt n step).eng n).sp = (s.eng n).sp
      ∧ ((s.debugHalt n step).eng n).pc = (s.eng n).pc := by
  rw [State.eng_debugHalt, State.suspendWait_of_no_wait h]
  exact ⟨rfl, rfl, rfl⟩

end

/-! ### What follows an instruction (R408) -/

section
variable {s : State} {n : LaneId}

theorem State.afterInstr_halted (user trap : Bool) (h : (s.eng n).run = .halted) : s.afterInstr n user trap = s := by
  simp only [State.afterInstr, h, BEq.rfl, Bool.or_true, if_true]

theorem State.afterInstr_trapped (hrun : (s.eng n).run ≠ .halted) (hmon : (s.eng n).sp.psr.mon = true) : s.afterInstr n true = s := by
  have hrun' : ((s.eng n).run == .halted) = false := beq_eq_false_iff_ne.mpr hrun
  simp only [State.afterInstr, hrun', hmon, Bool.not_true, Bool.not_false, Bool.or_false, Bool.and_self, Bool.false_eq_true, if_true, if_false]

/-- After an instruction at user privilege that leaves it so, and after a TRAP: the next one is matched against the breakpoints again. -/
theorem State.afterInstr_user {trap : Bool} (hrun : (s.eng n).run ≠ .halted) (hmon : (s.eng n).sp.psr.mon = false ∨ trap = true)
    (hstep : (s.eng n).stepReq = false) : s.afterInstr n true trap = s.upEng n fun e => { e with bpSkip := false } := by
  have hrun' : ((s.eng n).run == .halted) = false := beq_eq_false_iff_ne.mpr hrun
  have hgo : ((s.eng n).sp.psr.mon && !trap) = false := by
    rcases hmon with h | h
    · rw [h, Bool.false_and]
    · rw [h, Bool.not_true, Bool.and_false]
  simp only [State.afterInstr, hrun', hgo, hstep, Bool.not_true, Bool.not_false, Bool.or_false, Bool.false_eq_true, if_true, if_false]

/-- A STEP halts with DEBUG once its one instruction has executed. -/
theorem State.afterInstr_step (hrun : (s.eng n).run ≠ .halted) (hmon : (s.eng n).sp.psr.mon = false) (hstep : (s.eng n).stepReq = true) :
    s.afterInstr n true = (s.upEng n fun e => { e with bpSkip := false }).debugHalt n true := by
  have hrun' : ((s.eng n).run == .halted) = false := beq_eq_false_iff_ne.mpr hrun
  simp only [State.afterInstr, hrun', hmon, hstep, Bool.not_true, Bool.or_false, Bool.false_and, Bool.false_eq_true, if_false]

end

/-- Settles O58: the four ends of an instruction are the branches of what follows it. -/
theorem compositorStepEnds : Obligations.CompositorStepEnds := by
  intro s n trap
  refine ⟨?monitor, State.afterInstr_halted true trap, State.afterInstr_trapped, fun hrun hmon => State.afterInstr_user hrun (.inl hmon),
    fun hrun hmon hstep => ?step⟩
  case monitor => simp only [State.afterInstr, Bool.not_false, Bool.true_or, if_true]
  case step =>
    rw [State.afterInstr_step hrun hmon hstep]
    exact ⟨rfl, State.debugHalt_halted ..⟩

/-! ### BRK (R410) -/

section
variable {s : State} {n : LaneId}

/-- BRK at user privilege with ATTACH: a DEBUG halt behind it, and BP_HIT. -/
def State.broken (s : State) (n : LaneId) : State := ((s.nextPc n).debugHalt n (s.eng n).stepReq).raise (.lane n .eng) 1

theorem State.eng_nextPc : (s.nextPc n).eng n = { s.eng n with pc := (s.eng n).pc + 4 } := s.eng_upEng_same n _

theorem State.broken_halted : ((s.broken n).eng n).run = .halted ∧ ((s.broken n).eng n).haltCode = 1 := by
  rw [State.broken, State.eng_raise]
  exact State.debugHalt_halted ..

theorem State.broken_frame (h : (s.eng n).qwait = none) :
    ((s.broken n).eng n).regs = (s.eng n).regs ∧ ((s.broken n).eng n).sp = (s.eng n).sp ∧ ((s.broken n).eng n).pc = (s.eng n).pc + 4 := by
  have hwait : ((s.nextPc n).eng n).qwait = none := by rw [State.eng_nextPc, h]
  rw [State.broken, State.eng_raise]
  simpa only [State.eng_nextPc] using State.debugHalt_frame (s.eng n).stepReq hwait

theorem State.brk_user (h : s.engReady n = true) (hmon : (s.eng n).sp.psr.mon = false) (hattach : s.on ENG.DBG_ATTACH n = true) :
    s.brk n = (s.broken n).afterInstr n true := by
  rw [State.brk, State.instr_ready h (by simp)]
  simp only [hmon, hattach, Bool.not_false, Bool.and_self, if_true, State.broken]

theorem State.brk_illegal (h : s.engReady n = true) (hclosed : (s.eng n).sp.psr.mon = true ∨ s.on ENG.DBG_ATTACH n = false) :
    s.brk n = (s.illegal n (encR 0x30 0 0 0 6)).afterInstr n (!(s.eng n).sp.psr.mon) := by
  have hcond : (!(s.eng n).sp.psr.mon && s.on ENG.DBG_ATTACH n) = false := by
    rcases hclosed with h | h
    · rw [h, Bool.not_true, Bool.false_and]
    · rw [h, Bool.and_false]
  rw [State.brk, State.instr_ready h (by simp)]
  simp only [hcond, Bool.false_eq_true, if_false]

end

/-- Settles O57: BRK is a DEBUG halt, after which nothing follows, or an illegal instruction. -/
theorem breakInstructionRule : Obligations.BreakInstructionRule := by
  intro s n h
  refine ⟨fun hmon hattach => ⟨s.broken n, ?halts, ?rest⟩, fun hclosed => congrArg fin (State.brk_illegal h hclosed)⟩
  case halts => rw [exec, execBrk, State.brk_user h hmon hattach, State.afterInstr_halted _ _ State.broken_halted.1, fin]
  case rest =>
    obtain ⟨hregs, hsp, hpc⟩ := State.broken_frame (State.running_of_ready h).2
    exact ⟨State.broken_halted.1, State.broken_halted.2, hpc, State.hw_raise_same _ _ _ (by decide), hregs, hsp⟩

/-! ### Trap entry (R415, R416) -/

section
variable {s : State} {n : LaneId} (x : TrapInfo)

theorem State.eng_takeTrap (h : (s.eng n).qwait = none) : (s.takeTrap n x).eng n = (s.eng n).enter x := by
  simp only [State.takeTrap, State.eng_bump, State.eng_put, State.eng_upEng_same, State.suspendWait_of_no_wait h]

theorem State.lane_takeTrap_ne {m : LaneId} (h : m ≠ n) : (s.takeTrap n x).lane m = s.lane m := by
  simp only [State.takeTrap, State.lane_bump, State.lane_put, State.upEng, State.lane_upLane_ne _ _ h, State.lane_suspendWait_ne _ _ h]

theorem State.mem_takeTrap (h : (s.eng n).qwait = none) : ((s.takeTrap n x).lane n).mem = (s.lane n).mem := by
  simp only [State.takeTrap, State.lane_bump, State.lane_put, State.mem_upEng, State.suspendWait_of_no_wait h]

theorem EngRegs.next_lt (r : EngRegs) : r.next < 12 := Nat.mod_lt _ (by decide)
theorem EngRegs.prev_lt (r : EngRegs) : r.prev < 12 := Nat.mod_lt _ (by decide)

theorem Eng.wold_enter (e : Eng) : (e.enter x).regs.wold = e.regs.wold := e.regs.wold_passDown e.regs.cwp e.regs.next

/-- The parameters of the handler are the results that the trapped window would pass up. -/
theorem Eng.r_enter (e : Eng) {i : Nat} (hi : i < 4) : (e.enter x).r (8 + i) = e.r (20 + i) := by
  have h := EngRegs.rd_passDown e.regs (f := e.regs.cwp) e.regs.next_lt e.regs.next (8 + i)
  rw [if_pos ⟨rfl, by omega, by omega⟩, Nat.add_sub_cancel_left] at h
  exact h

/-- Every window but the handler's stays. -/
theorem Eng.rd_enter_ne (e : Eng) {w : Nat} (hw : w ≠ e.regs.next) (c : Nat) : (e.enter x).regs.rd w c = e.regs.rd w c := by
  have h := EngRegs.rd_passDown e.regs (f := e.regs.cwp) e.regs.next_lt w c
  rwa [if_neg fun h => hw h.1] at h

end

/-- A value that is no multiple of 0x200, or lies outside the instruction SRAM, is none that TVEC takes (R415). -/
theorem srBad_tvec {v : Word} (h : v.toNat % 0x200 ≠ 0 ∨ v.toNat < 0x4000000 ∨ 0x4010000 ≤ v.toNat) : srBad 0x006 v = true := by
  have hlow : (v &&& 0x1FF#32).toNat = v.toNat % 0x200 := by
    rw [BitVec.toNat_and]
    exact Nat.and_two_pow_sub_one_eq_mod v.toNat 9
  simp only [srBad, Bool.or_eq_true, bne_iff_ne, decide_eq_true_eq]
  rcases h with h | h | h
  · exact .inl (.inl fun hv => h (hlow.symm.trans (congrArg BitVec.toNat hv)))
  · exact .inl (.inr h)
  · exact .inr h

/-- A value out of its register's range is an illegal instruction (R391). -/
theorem State.wrs_bad {s : State} {n : LaneId} {sr rs1 : Nat} (h : s.engReady n = true) (hrs1 : rs1 < 24)
    (hsr : s.srNow n sr = some .rw) (hbad : srBad sr ((s.eng n).r rs1) = true) :
    s.wrs n sr rs1 = (s.illegal n (encI 0x32 0 rs1 sr)).afterInstr n (!(s.eng n).sp.psr.mon) := by
  rw [State.wrs, State.instr_ready h (by simpa using hrs1)]
  simp only [hsr, hbad, if_true]

/-- Settles O55: a trap entry is what Eng.enter makes of the engine, and the range of TVEC is checked before it is written. -/
theorem trapEntryRule : Obligations.TrapEntryRule := by
  intro s n x e he hwait _
  subst he
  refine ⟨?entry, fun rs1 a h hmon hrs1 ha hout => ?tvec⟩
  case entry =>
    rw [State.eng_takeTrap x hwait]
    refine ⟨⟨rfl, rfl, rfl, rfl, rfl⟩, rfl, rfl, ?wold, fun i hi => ?params, fun w c _ hw _ => ?windows, rfl, fun m hm => ?lanes, ?memory⟩
    case wold => exact (s.eng n).wold_enter x
    case params => exact Eng.r_enter x (s.eng n) hi
    case windows => exact Eng.rd_enter_ne x (s.eng n) hw c
    case lanes => exact State.lane_takeTrap_ne x hm
    case memory => exact State.mem_takeTrap x hwait
  case tvec =>
    subst ha
    have hsr : s.srNow n 0x006 = some .rw := State.srNow_of_monitor rfl hmon
    have hwrs := State.wrs_bad h hrs1 hsr (srBad_tvec hout)
    rw [hmon, Bool.not_true, State.afterInstr_monitor] at hwrs
    exact congrArg fin hwrs

end Sys2Proof.Machine
end

section
/-! PROOFS. A trap and its return (spec/16_compositor.md R389; spec/17_traps_memory_dma.md R415, R418): what settling leaves of a lane on which no
debug halt is asked for, and the engine that a TRAP and the handler's RTT leave. -/

namespace Sys2Proof.Machine

/-! ### What settling leaves of a lane (R400, R407) -/

section
variable {s : State} {n : LaneId}

/-- Debug halts that are due on other lanes leave a lane alone. -/
theorem State.lane_haltEngs (h : (s.eng n).haltReq = false) : s.haltEngs.lane n = s.lane n := by
  have key : ∀ (ls : List LaneId) (t : State), t.lane n = s.lane n →
      (t.forLanes ls fun n s => if s.haltDue n then s.debugHalt n (s.eng n).stepDone else s).lane n = s.lane n := by
    intro ls
    induction ls with
    | nil => exact fun t ht => ht
    | cons m ls ih =>
      intro t ht
      refine ih _ ?_
      dsimp only
      split
      case isFalse => exact ht
      case isTrue hdue =>
        have hne : n ≠ m := by
          rintro rfl
          have hreq : (t.eng n).haltReq = false := by rw [State.eng, ht]; exact h
          simp only [State.haltDue, hreq, Bool.false_and, Bool.false_eq_true] at hdue
        rw [State.lane_debugHalt_ne _ _ _ hne, ht]
  exact key allLanes s rfl

theorem State.lane_settleRest : s.settleRest.lane n = s.wakeEngs.lane n := by
  simp only [State.settleRest, State.settleFirqs, State.lane]

/-- Of a lane whose engine no debug halt is asked for, settling changes the run state of the engine at most. -/
theorem State.lane_settle (h : (s.eng n).haltReq = false) : ∃ r, s.settle.lane n = { s.lane n with eng := { s.eng n with run := r } } := by
  have hlane := State.lane_haltEngs h
  have heng : s.haltEngs.eng n = s.eng n := congrArg Lane.eng hlane
  refine ⟨(s.haltEngs.wakeEngs.lane n).eng.run, ?_⟩
  rw [State.settle, State.lane_settleRest, State.lane_wakeEngs_eq, hlane, heng]

theorem State.eng_settle (h : (s.eng n).haltReq = false) : ∃ r, s.settle.eng n = { s.eng n with run := r } := by
  obtain ⟨r, hr⟩ := State.lane_settle h
  exact ⟨r, congrArg Lane.eng hr⟩

/-- With no debug halt asked for on any lane, none is due. -/
theorem quiet_of_no_request (h : ∀ m : LaneId, (s.eng m).haltReq = false) : Quiet s := fun m => by
  simp only [State.haltDue, h m, Bool.false_and]

end

/-! ### TRAP (R415) -/

section
variable {s : State} {n : LaneId}

/-- A synchronous trap of an instruction at user privilege, where traps are enabled and a window is free. -/
theorem State.syncTrap_user (x : TrapInfo) (hte : (s.eng n).sp.psr.te = true) (hmon : (s.eng n).sp.psr.mon = false)
    (hres : (s.eng n).regs.wres ≤ 11) : s.syncTrap n x = s.takeTrap n x := by
  have hfree : ¬ 12 ≤ (s.eng n).regs.wres := by omega
  simp only [State.syncTrap, hte, hmon, hfree, Bool.not_true, Bool.false_eq_true, false_and, if_false]

theorem State.trapInstr_ready (h : s.engReady n = true) (imm : BitVec 16) :
    s.trapInstr n imm
      = (s.syncTrap n ⟨0xD, (s.eng n).pc + 4, imm.zeroExtend 32, 0⟩).afterInstr n (!(s.eng n).sp.psr.mon) true := by
  simp only [State.trapInstr, h, Bool.not_true, Bool.false_eq_true, if_false]
  rfl

/-- The engine behind a TRAP at user privilege has entered the handler. -/
theorem State.eng_trapInstr_settle (imm : BitVec 16) (h : s.engReady n = true) (hte : (s.eng n).sp.psr.te = true)
    (hmon : (s.eng n).sp.psr.mon = false) (hres : (s.eng n).regs.wres ≤ 11) (hstep : (s.eng n).stepReq = false)
    (hreq : (s.eng n).haltReq = false) :
    ∃ r, (s.trapInstr n imm).settle.eng n
      = { (s.eng n).enter ⟨0xD, (s.eng n).pc + 4, imm.zeroExtend 32, 0⟩ with run := r, bpSkip := false } := by
  have htaken := State.eng_takeTrap ⟨0xD, (s.eng n).pc + 4, imm.zeroExtend 32, 0⟩ (State.running_of_ready h).2
  have htrap : s.trapInstr n imm
      = (s.takeTrap n ⟨0xD, (s.eng n).pc + 4, imm.zeroExtend 32, 0⟩).upEng n fun e => { e with bpSkip := false } := by
    rw [State.trapInstr_ready h, hmon, State.syncTrap_user _ hte hmon hres]
    refine State.afterInstr_user ?_ (.inr rfl) ?_
    · rw [htaken]; exact EngRun.noConfusion
    · rw [htaken]; exact hstep
  have heng := State.eng_upEng_same (s.takeTrap n ⟨0xD, (s.eng n).pc + 4, imm.zeroExtend 32, 0⟩) n fun e => { e with bpSkip := false }
  rw [htaken, ← htrap] at heng
  obtain ⟨r, hr⟩ := State.eng_settle (s := s.trapInstr n imm) (n := n) (by rw [heng]; exact hreq)
  exact ⟨r, by rw [hr, heng]⟩

/-! ### RTT (R418) -/

/-- RTT at monitor privilege, with a window to return to and nothing pending that EPSR would allow. -/
theorem State.rtt_back (h : s.engReady n = true) (hmon : (s.eng n).sp.psr.mon = true) (hwin : (s.eng n).regs.cwp ≠ (s.eng n).regs.wold)
    (hnone : s.asyncFor n (s.eng n).sp.epsr = none) : s.rtt n = s.upEng n Eng.back := by
  rw [State.rtt, State.instr_ready h (by simp)]
  simp only [hmon, hwin, hnone, Bool.not_true, Bool.false_eq_true, if_false, State.afterInstr_monitor]

end

/-! ### The handler returns at once -/

/-- With at most eleven resident windows the trap-reserve window is not the oldest one. -/
theorem EngRegs.next_ne_wold {r : EngRegs} (hcwp : r.cwp < 12) (hwold : r.wold < 12) (h : r.wres ≤ 11) : r.next ≠ r.wold := by
  unfold EngRegs.next
  unfold EngRegs.wres at h
  omega

/-- Back from the trap-reserve window, the current window is the one that was trapped. -/
theorem EngRegs.prev_next {r : EngRegs} (hcwp : r.cwp < 12) : (r.next + 11) % 12 = r.cwp := by
  unfold EngRegs.next
  omega

section
variable (e : Eng) (x : TrapInfo)

theorem Eng.regs_enter : (e.enter x).regs = { e.regs.passDown e.regs.cwp e.regs.next with cwp := e.regs.next } := rfl

theorem Eng.regs_back : e.back.regs = { e.regs.passUp e.regs.cwp e.regs.prev with cwp := e.regs.prev } := rfl

theorem Eng.prev_enter (hcwp : e.regs.cwp < 12) : (e.enter x).regs.prev = e.regs.cwp := by
  rw [Eng.regs_enter, EngRegs.prev]
  exact EngRegs.prev_next hcwp

theorem Eng.cwp_back_enter (hcwp : e.regs.cwp < 12) : (e.enter x).back.regs.cwp = e.regs.cwp := by
  rw [Eng.regs_back, Eng.prev_enter e x hcwp]

theorem Eng.wold_back_enter : (e.enter x).back.regs.wold = e.regs.wold := by
  rw [Eng.regs_back, EngRegs.wold_passUp, Eng.wold_enter]

/-- Every window but the trap-reserve one is as it was. -/
theorem Eng.rd_back_enter (hcwp : e.regs.cwp < 12) {w : Nat} (hw : w ≠ e.regs.next) (c : Nat) :
    (e.enter x).back.regs.rd w c = e.regs.rd w c := by
  rw [Eng.regs_back, Eng.prev_enter e x hcwp, EngRegs.rd_withCwp, EngRegs.rd_passUp _ hcwp, Eng.regs_enter]
  simp only [EngRegs.rd_withCwp]
  rw [← EngRegs.rd_passUp _ hcwp, EngRegs.rd_passUp_passDown e.regs hcwp e.regs.next_lt hw]

end

/-- Settles O56: the entry and the return are inverse but for the trap-reserve window, and settling moves none of what they restore. -/
theorem trapAndReturnRestore : Obligations.TrapAndReturnRestore := by
  intro s s1 s2 n e imm he h hmon hte hres hcwp hwold hstep hreq hs1 hready hnone hs2
  subst he
  let x : TrapInfo := ⟨0xD, (s.eng n).pc + 4, imm.zeroExtend 32, 0⟩
  obtain rfl : (s.trapInstr n imm).settle = s1 := Host.Outcome.next.inj hs1
  obtain ⟨r, hentered⟩ := State.eng_trapInstr_settle imm h hte hmon hres hstep hreq
  have hwin : ((s.eng n).enter x).regs.cwp ≠ ((s.eng n).enter x).regs.wold := by
    rw [Eng.wold_enter]
    exact EngRegs.next_ne_wold hcwp hwold hres
  generalize (s.trapInstr n imm).settle = s1 at *
  have hrtt := State.rtt_back hready (by rw [hentered]; rfl) (by rw [hentered]; exact hwin) hnone
  have heng : (s1.rtt n).eng n = Eng.back { (s.eng n).enter x with run := r, bpSkip := false } := by
    rw [hrtt, State.eng_upEng_same, hentered]
  obtain rfl : (s1.rtt n).settle = s2 := Host.Outcome.next.inj hs2
  obtain ⟨r', hsettled⟩ := State.eng_settle (s := s1.rtt n) (n := n) (by rw [heng]; exact hreq)
  rw [hsettled, heng]
  have hnext : (s.eng n).regs.cwp ≠ (s.eng n).regs.next := by
    unfold EngRegs.next
    omega
  refine ⟨rfl, rfl, Eng.cwp_back_enter _ x hcwp, Eng.wold_back_enter _ x, fun c _ => ?current, fun w c _ hw _ => Eng.rd_back_enter _ x hcwp hw c⟩
  case current =>
    have hcurrent : Eng.r (Eng.back ((s.eng n).enter x)) c = (s.eng n).r c := by
      rw [Eng.r, Eng.cwp_back_enter _ x hcwp, Eng.rd_back_enter _ x hcwp hnext, Eng.r]
    exact hcurrent

end Sys2Proof.Machine
end

section
/-! PROOFS. The register and immediate operations of the compositor (spec/16_compositor.md R389, R395 to R397): the result of each, and what an
operation on registers leaves unchanged. -/

namespace Sys2Proof.Machine

/-- What holds of every row of a table of pairs holds of every pair that stands in it. -/
theorem forall_row {α β : Type} {l : List (α × β)} {P : α → β → Prop} (h : ∀ x ∈ l, P x.1 x.2) : ∀ a b, (a, b) ∈ l → P a b :=
  fun a b hm => h (a, b) hm

/-! ### Results (Table: ALU and floating-point functs) -/

theorem wordOf_decide (p : Prop) [Decidable p] : wordOf (decide p) = if p then 1 else 0 := by
  simp only [wordOf, decide_eq_true_eq]

theorem wordOf_ltS (a b : Word) : wordOf (ltS a b) = if a.toInt < b.toInt then 1 else 0 := wordOf_decide _
theorem wordOf_ltU (a b : Word) : wordOf (ltU a b) = if a.toNat < b.toNat then 1 else 0 := wordOf_decide _

section
variable {s : State} {n : LaneId} {funct rd rs1 rs2 : Nat} {v : Word}

/-- The state behind an operation that puts `v` into rd. -/
def State.retired (s : State) (n : LaneId) (rd : Nat) (v : Word) : State := (s.ret n rd v).afterInstr n (!(s.eng n).sp.psr.mon)

theorem State.alu_ready (h : s.engReady n = true) (hrd : rd < 24) (hrs1 : rs1 < 24) (hrs2 : rs2 < 24)
    (hv : aluOf funct ((s.eng n).r rs1) ((s.eng n).r rs2) = some v) : s.alu n funct rd rs1 rs2 = s.retired n rd v := by
  rw [State.alu, State.instr_ready h (by simp [hrd, hrs1, hrs2])]
  simp only [hv, State.retired]

/-- A division by zero raises trap 0x0C (R397). -/
theorem State.alu_divZero (h : s.engReady n = true) (hrd : rd < 24) (hrs1 : rs1 < 24) (hrs2 : rs2 < 24)
    (hv : aluOf funct ((s.eng n).r rs1) ((s.eng n).r rs2) = none) :
    s.alu n funct rd rs1 rs2 = (s.syncTrap n ⟨0xC, (s.eng n).pc, 0, 0⟩).afterInstr n (!(s.eng n).sp.psr.mon) := by
  rw [State.alu, State.instr_ready h (by simp [hrd, hrs1, hrs2])]
  simp only [hv]

/-- A code that names no register is an illegal instruction (R389). -/
theorem State.instr_badCode {w : Word} {cs : List Nat} {body : State → State} {c : Nat} (h : s.engReady n = true) (hc : c ∈ cs)
    (hbad : 24 ≤ c) : s.instr n w cs body = (s.illegal n w).afterInstr n (!(s.eng n).sp.psr.mon) := by
  have hcodes : cs.all codeOk = false := List.all_eq_false.mpr ⟨c, hc, by simp only [codeOk, decide_eq_true_eq]; omega⟩
  simp only [State.instr, h, hcodes, Bool.not_true, Bool.false_eq_true, if_false]

theorem State.fpu_ready (h : s.engReady n = true) (hrd : rd < 24) (hrs1 : rs1 < 24) (hrs2 : rs2 < 24)
    (hv : fpuOf funct ((s.eng n).r rs1) ((s.eng n).r rs2) = v) : s.fpu n funct rd rs1 rs2 = s.retired n rd v := by
  subst hv
  exact State.instr_ready h (by simp [hrd, hrs1, hrs2])

/-- The result of a shift by the amount in the rs2 field. -/
def immShiftOf (funct : Nat) (a : Word) (sh : Nat) : Word :=
  if funct = 0x011 then a <<< sh else if funct = 0x012 then a >>> sh else a.sshiftRight sh

theorem State.shiftImm_ready {sh : Nat} (h : s.engReady n = true) (hrd : rd < 24) (hrs1 : rs1 < 24)
    (hv : immShiftOf funct ((s.eng n).r rs1) sh = v) : s.shiftImm n funct rd rs1 sh = s.retired n rd v := by
  subst hv
  exact State.instr_ready h (by simp [hrd, hrs1])

theorem State.unary_ready (h : s.engReady n = true) (hrd : rd < 24) (hrs1 : rs1 < 24) (hv : unaryOf funct ((s.eng n).r rs1) = v) :
    s.unary n funct rd rs1 = s.retired n rd v := by
  subst hv
  exact State.instr_ready h (by simp [hrd, hrs1])

theorem State.aluImm_ready {imm : BitVec 16} (h : s.engReady n = true) (hrd : rd < 24) (hrs1 : rs1 < 24)
    (hv : immOf funct ((s.eng n).r rs1) imm = v) : s.aluImm n funct rd rs1 imm = s.retired n rd v := by
  subst hv
  exact State.instr_ready h (by simp [hrd, hrs1])

theorem State.lui_ready {imm : BitVec 16} (h : s.engReady n = true) (hrd : rd < 24) :
    s.lui n rd imm = s.retired n rd (imm.zeroExtend 32 <<< 16) := State.instr_ready h (by simp [hrd])

end

/-- Settles O24: each row is its operation executed by a ready engine, with the result that the table gives its funct or opcode. -/
theorem compositorArithmeticCompletes : Obligations.CompositorArithmeticCompletes := by
  intro s n rd rs1 rs2 a b h hrd hrs1 ha hb
  subst ha hb
  have alu {funct v} (hrs2 : rs2.toNat < 24) (hv : aluOf funct ((s.eng n).r rs1.toNat) ((s.eng n).r rs2.toNat) = some v) :=
    congrArg fin (State.alu_ready h hrd hrs1 hrs2 hv)
  have fpu {funct v} (hrs2 : rs2.toNat < 24) (hv : fpuOf funct ((s.eng n).r rs1.toNat) ((s.eng n).r rs2.toNat) = v) :=
    congrArg fin (State.fpu_ready h hrd hrs1 hrs2 hv)
  have shift {funct sh v} (hv : immShiftOf funct ((s.eng n).r rs1.toNat) sh = v) := congrArg fin (State.shiftImm_ready h hrd hrs1 hv)
  have unary {funct v} (hv : unaryOf funct ((s.eng n).r rs1.toNat) = v) := congrArg fin (State.unary_ready h hrd hrs1 hv)
  have immediate {op imm v} (hv : immOf op ((s.eng n).r rs1.toNat) imm = v) := congrArg fin (State.aluImm_ready h hrd hrs1 hv)
  refine ⟨fun c v hrs2 => ?two, fun c v hrs2 hb => ?division, fun c hrs2 hb => ?divZero, fun sh => ?one, fun imm => ?immediates,
    fun hrs2 => congrArg fin (State.instr_badCode h (by simp) hrs2)⟩
  case two =>
    revert c v
    refine forall_row ?_
    simp only [List.forall_mem_cons]
    exact ⟨alu hrs2 rfl, alu hrs2 rfl, alu hrs2 rfl, alu hrs2 rfl, alu hrs2 rfl, alu hrs2 rfl, alu hrs2 rfl, alu hrs2 rfl,
      alu hrs2 (congrArg some (wordOf_ltS _ _)), alu hrs2 (congrArg some (wordOf_ltU _ _)), alu hrs2 rfl, alu hrs2 rfl, alu hrs2 rfl,
      fpu hrs2 rfl, fpu hrs2 rfl, fpu hrs2 rfl, fpu hrs2 rfl, fpu hrs2 rfl, fpu hrs2 rfl, fpu hrs2 rfl, fpu hrs2 rfl, fpu hrs2 rfl, List.forall_mem_nil _⟩
  case division =>
    revert c v
    refine forall_row ?_
    simp only [List.forall_mem_cons]
    exact ⟨alu hrs2 (if_neg hb), alu hrs2 (if_neg hb), alu hrs2 (if_neg hb), alu hrs2 (if_neg hb), List.forall_mem_nil _⟩
  case divZero =>
    have divZero {funct} (hv : aluOf funct ((s.eng n).r rs1.toNat) ((s.eng n).r rs2.toNat) = none) :=
      congrArg fin (State.alu_divZero h hrd hrs1 hrs2 hv)
    revert c
    simp only [List.forall_mem_cons]
    exact ⟨divZero (if_pos hb), divZero (if_pos hb), divZero (if_pos hb), divZero (if_pos hb), List.forall_mem_nil _⟩
  case one =>
    refine forall_row ?_
    simp only [List.forall_mem_cons]
    exact ⟨shift rfl, shift rfl, shift rfl, unary rfl, unary rfl, unary rfl, unary rfl, List.forall_mem_nil _⟩
  case immediates =>
    refine forall_row ?_
    simp only [List.forall_mem_cons]
    exact ⟨immediate rfl, immediate rfl, immediate rfl, immediate rfl, immediate (wordOf_ltS _ _), immediate (wordOf_ltU _ _),
      congrArg fin (State.lui_ready h hrd), List.forall_mem_nil _⟩

end Sys2Proof.Machine
end

section
/-! PROOFS. What a register operation and a store of the compositor leave unchanged (spec/16_compositor.md R386, R389, R395, R396, R404). -/

namespace Sys2Proof.Machine

/-! ### What settling leaves unchanged -/

/-- The same state but for the run states of the compositors, the gatherer and the count of steps. -/
structure SameButRuns (u t : State) : Prop where
  regs : t.regs = u.regs
  image : t.image = u.image
  quoins : t.quoins = u.quoins
  sess : t.sess = u.sess
  log : t.log = u.log
  chase : t.chase = u.chase
  lane : ∀ m, ∃ r, t.lane m = { u.lane m with eng := { u.eng m with run := r } }

/-- With no debug halt asked for, settling wakes compositors and moves the FIRQ lines, no more. -/
theorem sameButRuns_settle {u : State} (h : ∀ m : LaneId, (u.eng m).haltReq = false) : SameButRuns u u.settle := by
  have hrest := settle_of_quiet (quiet_of_no_request h)
  rw [State.settleRest_eq] at hrest
  exact ⟨by rw [hrest], by rw [hrest], by rw [hrest], by rw [hrest], by rw [hrest], by rw [hrest], fun m => State.lane_settle (h m)⟩

namespace SameButRuns
variable {u t : State} (h : SameButRuns u t) (m : LaneId)
include h

theorem eng : ∃ r, t.eng m = { u.eng m with run := r } := by
  obtain ⟨r, hr⟩ := h.lane m
  exact ⟨r, congrArg Lane.eng hr⟩

theorem mem : (t.lane m).mem = (u.lane m).mem := by
  obtain ⟨r, hr⟩ := h.lane m
  rw [hr]

theorem engRegs : (t.eng m).regs = (u.eng m).regs := by
  obtain ⟨r, hr⟩ := h.eng m
  rw [hr]

theorem engSp : (t.eng m).sp = (u.eng m).sp := by
  obtain ⟨r, hr⟩ := h.eng m
  rw [hr]

theorem engPc : (t.eng m).pc = (u.eng m).pc := by
  obtain ⟨r, hr⟩ := h.eng m
  rw [hr]

end SameButRuns

/-! ### The end of an instruction that is not stepped -/

section
variable {s : State} {n : LaneId}

theorem State.upEng_of_fixed {f : Eng → Eng} (h : f (s.eng n) = s.eng n) : s.upEng n f = s :=
  (s.upEng_congr n (g := fun e => { e with tlb := (s.eng n).tlb, dtlb := (s.eng n).dtlb }) h).trans (s.upEng_self n)

/-- Behind an instruction that leaves the engine running, and in its privilege, the breakpoint mark may have cleared. -/
theorem State.afterInstr_unstepped (hrun : (s.eng n).run ≠ .halted) (hstep : (s.eng n).stepReq = false) :
    ∃ b, s.afterInstr n (!(s.eng n).sp.psr.mon) = s.upEng n fun e => { e with bpSkip := b } := by
  cases hmon : (s.eng n).sp.psr.mon with
  | false => exact ⟨false, State.afterInstr_user hrun (.inl hmon) hstep⟩
  | true =>
    refine ⟨(s.eng n).bpSkip, ?_⟩
    rw [Bool.not_true, State.afterInstr_monitor]
    exact (State.upEng_of_fixed rfl).symm

theorem State.haltReq_upEng {f : Eng → Eng} (hf : ∀ e, (f e).haltReq = e.haltReq) (h : ∀ m : LaneId, (s.eng m).haltReq = false)
    (m : LaneId) : ((s.upEng n f).eng m).haltReq = false := by
  by_cases hm : m = n
  · subst hm
    rw [State.eng_upEng_same, hf, h m]
  · rw [State.eng_upEng_ne _ _ hm, h m]

end

/-! ### Operations on registers -/

section
variable {s : State} {n : LaneId} {rd : Nat} {v : Word}

/-- The engine behind an operation that puts `v` into rd. -/
def Eng.retire (e : Eng) (rd : Nat) (v : Word) (skip : Bool) : Eng := { e.w rd v with pc := e.pc + 4, bpSkip := skip }

theorem State.upLane_upLane (f g : Lane → Lane) : (s.upLane n f).upLane n g = s.upLane n fun l => g (f l) := by
  rw [State.upLane, State.lane_upLane_same, State.upLane, State.upLane]
  simp only [State.setLane, Vector.set_set]

theorem State.upEng_upEng (f g : Eng → Eng) : (s.upEng n f).upEng n g = s.upEng n fun e => g (f e) := State.upLane_upLane ..

theorem State.retired_eq (h : s.engReady n = true) (hstep : (s.eng n).stepReq = false) :
    ∃ b, s.retired n rd v = s.upEng n fun e => e.retire rd v b := by
  have heng : (s.ret n rd v).eng n = { (s.eng n).w rd v with pc := (s.eng n).pc + 4 } := s.eng_upEng_same n _
  have hmon : ((s.ret n rd v).eng n).sp.psr.mon = (s.eng n).sp.psr.mon := by rw [heng]; rfl
  have hrun : ((s.ret n rd v).eng n).run ≠ .halted := by
    rw [heng]
    exact fun hhalted => EngRun.noConfusion ((State.running_of_ready h).1.symm.trans hhalted)
  obtain ⟨b, hb⟩ := State.afterInstr_unstepped hrun (by rw [heng]; exact hstep)
  refine ⟨b, ?_⟩
  rw [State.retired, ← hmon, hb, State.ret, State.upEng_upEng]
  rfl

/-- Each of the forty register and immediate operations puts one word into rd, and goes on (R396). -/
theorem exec_registerOperation {rd rs1 rs2 sh : BitVec 5} {imm : BitVec 16} (h : s.engReady n = true) (hrd : rd.toNat < 24)
    (hrs1 : rs1.toNat < 24) (hrs2 : rs2.toNat < 24) (hb : (s.eng n).r rs2.toNat ≠ 0) : ∀ c ∈ ([.addR n rd rs1 rs2, .subR n rd rs1 rs2,
      .andR n rd rs1 rs2, .orR n rd rs1 rs2, .xorR n rd rs1 rs2, .sll n rd rs1 rs2, .srl n rd rs1 rs2, .sra n rd rs1 rs2, .slt n rd rs1 rs2,
      .sltu n rd rs1 rs2, .mul n rd rs1 rs2, .mulh n rd rs1 rs2, .mulhu n rd rs1 rs2, .div n rd rs1 rs2, .divu n rd rs1 rs2,
      .rem n rd rs1 rs2, .remu n rd rs1 rs2, .fadd n rd rs1 rs2, .fsub n rd rs1 rs2, .fmul n rd rs1 rs2, .fdiv n rd rs1 rs2,
      .fmin n rd rs1 rs2, .fmax n rd rs1 rs2, .feq n rd rs1 rs2, .flt n rd rs1 rs2, .fle n rd rs1 rs2, .slli n rd rs1 sh, .srli n rd rs1 sh,
      .srai n rd rs1 sh, .clz n rd rs1, .fcvtsw n rd rs1, .fcvtws n rd rs1, .fsqrt n rd rs1, .addi n rd rs1 imm, .andi n rd rs1 imm,
      .ori n rd rs1 imm, .xori n rd rs1 imm, .slti n rd rs1 imm, .sltiu n rd rs1 imm, .lui n rd imm] : List Instr),
    ∃ v, exec c s = fin (s.retired n rd.toNat v) := by
  have alu {funct v} (hv : aluOf funct ((s.eng n).r rs1.toNat) ((s.eng n).r rs2.toNat) = some v) :
      ∃ v, fin (s.alu n funct rd.toNat rs1.toNat rs2.toNat) = fin (s.retired n rd.toNat v) :=
    ⟨v, congrArg fin (State.alu_ready h hrd hrs1 hrs2 hv)⟩
  have fpu {funct} : ∃ v, fin (s.fpu n funct rd.toNat rs1.toNat rs2.toNat) = fin (s.retired n rd.toNat v) :=
    ⟨_, congrArg fin (State.fpu_ready h hrd hrs1 hrs2 rfl)⟩
  have shift {funct} : ∃ v, fin (s.shiftImm n funct rd.toNat rs1.toNat sh.toNat) = fin (s.retired n rd.toNat v) :=
    ⟨_, congrArg fin (State.shiftImm_ready h hrd hrs1 rfl)⟩
  have unary {funct} : ∃ v, fin (s.unary n funct rd.toNat rs1.toNat) = fin (s.retired n rd.toNat v) :=
    ⟨_, congrArg fin (State.unary_ready h hrd hrs1 rfl)⟩
  have immediate {op} : ∃ v, fin (s.aluImm n op rd.toNat rs1.toNat imm) = fin (s.retired n rd.toNat v) :=
    ⟨_, congrArg fin (State.aluImm_ready h hrd hrs1 rfl)⟩
  simp only [List.forall_mem_cons]
  exact ⟨alu rfl, alu rfl, alu rfl, alu rfl, alu rfl, alu rfl, alu rfl, alu rfl, alu rfl, alu rfl, alu rfl, alu rfl, alu rfl,
    alu (if_neg hb), alu (if_neg hb), alu (if_neg hb), alu (if_neg hb), fpu, fpu, fpu, fpu, fpu, fpu, fpu, fpu, fpu, shift, shift, shift,
    unary, unary, unary, unary, immediate, immediate, immediate, immediate, immediate, immediate,
    ⟨_, congrArg fin (State.lui_ready h hrd)⟩, List.forall_mem_nil _⟩

/-- Of the registers, a result changes rd alone. -/
theorem Eng.r_retire_ne (e : Eng) (skip : Bool) {k : Nat} (h : k ≠ rd) : (e.retire rd v skip).r k = e.r k := by
  have hcwp : (e.retire rd v skip).regs.cwp = e.regs.cwp := EngRegs.cwp_wr ..
  rw [Eng.r, hcwp]
  exact EngRegs.rd_wr_code_ne e.regs v h e.regs.cwp e.regs.cwp

/-- No windowed register of another window changes. -/
theorem Eng.rd_retire_window (e : Eng) (skip : Bool) {w k : Nat} (hw : w ≠ e.regs.cwp) (hk : 8 ≤ k) :
    (e.retire rd v skip).regs.rd w k = e.regs.rd w k := by
  by_cases hrd : k = rd
  · subst hrd
    exact EngRegs.rd_wr_window_ne e.regs v hk hw k
  · exact EngRegs.rd_wr_code_ne e.regs v hrd e.regs.cwp w

end

/-- Settles O52: each operation is one result in rd, whose register is the only one that a result changes. -/
theorem registerOperationsFrame : Obligations.RegisterOperationsFrame := by
  intro s t n rd rs1 rs2 sh imm c h hrd hrs1 hrs2 hb _ hstep hreq hc hexec
  obtain ⟨v, hv⟩ := exec_registerOperation h hrd hrs1 hrs2 hb c hc
  obtain ⟨b, hretired⟩ := State.retired_eq (rd := rd.toNat) (v := v) h hstep
  rw [hv, hretired] at hexec
  obtain rfl := Host.Outcome.next.inj hexec
  have hsame := sameButRuns_settle (State.haltReq_upEng (n := n) (f := fun e => e.retire rd.toNat v b) (fun _ => rfl) hreq)
  have heng := s.eng_upEng_same n fun e => e.retire rd.toNat v b
  have hregs := hsame.engRegs n
  rw [heng] at hregs
  have hcwp : ((s.upEng n fun e => e.retire rd.toNat v b).settle.eng n).regs.cwp = (s.eng n).regs.cwp := by
    rw [hregs]
    exact EngRegs.cwp_wr ..
  refine ⟨?pc, ?sp, hcwp, rfl, fun k _ hk => ?registers, fun w k _ hw hk _ => ?windows, hsame.regs, hsame.image, hsame.quoins, hsame.sess,
    hsame.log, hsame.chase, fun m => ?memory, fun m hm => ?others⟩
  case pc => rw [hsame.engPc, heng]; rfl
  case sp => rw [hsame.engSp, heng]; rfl
  case registers =>
    rw [Eng.r, hregs]
    exact Eng.r_retire_ne (s.eng n) b hk
  case windows => rw [hregs, Eng.rd_retire_window (s.eng n) b hw hk]
  case memory => rw [hsame.mem, State.mem_upEng]
  case others => rw [hsame.engRegs, hsame.engPc, State.eng_upEng_ne _ _ hm]; exact ⟨rfl, rfl⟩

end Sys2Proof.Machine
end

section
/-! PROOFS. Loads, stores, spills, fills and the atomics of the compositor (spec/16_compositor.md R386 to R388, R399, R404, R405;
spec/17_traps_memory_dma.md R423 to R425): each where its address translates, its faults, and what a store leaves unchanged. -/

namespace Sys2Proof.Machine

section
variable {s s1 : State} {n : LaneId} {op rd rs1 rs2 va pa k : Nat} {imm : BitVec 16}

/-! ### Loads (R386, R388) -/

section
variable {sg : Bool}

theorem State.engLoad_memory (h : s.engReady n = true) (hrd : rd < 24) (hrs1 : rs1 < 24) (hva : va = s.effAddr n rs1 imm) (hk : va % k = 0)
    (hx : s.engXlate n va .load = (.ok pa, s1)) (hr : regionOf pa ≠ .regs) (he : s1.eccHit n pa k = false) :
    s.engLoad n op rd rs1 imm k sg
      = (s1.ret n rd (loadValue k sg (s1.memNat n pa k))).afterInstr n (!(s.eng n).sp.psr.mon) := by
  subst hva
  rw [State.engLoad, State.instr_ready h (by simp [hrd, hrs1])]
  simp only [hk, hx, hr, he, ne_eq, not_true_eq_false, Bool.false_eq_true, if_false]

theorem State.engLoad_misaligned (h : s.engReady n = true) (hrd : rd < 24) (hrs1 : rs1 < 24) (hva : va = s.effAddr n rs1 imm) (hk : va % k ≠ 0) :
    s.engLoad n op rd rs1 imm k sg = (s.misaligned n va false).afterInstr n (!(s.eng n).sp.psr.mon) := by
  subst hva
  rw [State.engLoad, State.instr_ready h (by simp [hrd, hrs1])]
  simp only [hk, ne_eq, not_false_eq_true, if_true]

theorem State.engLoad_fault {f : XFault} (h : s.engReady n = true) (hrd : rd < 24) (hrs1 : rs1 < 24) (hva : va = s.effAddr n rs1 imm)
    (hk : va % k = 0) (hx : s.engXlate n va .load = (.error f, s1)) :
    s.engLoad n op rd rs1 imm k sg = (s1.loadFault n va f).afterInstr n (!(s.eng n).sp.psr.mon) := by
  subst hva
  rw [State.engLoad, State.instr_ready h (by simp [hrd, hrs1])]
  simp only [hk, hx, ne_eq, not_true_eq_false, if_false]

/-- The page that a load names is one that the engine may read. (The function is unfolded before it is applied: an equation of the applied one would
have the kernel take the base of register space from an address it does not know, step by step.) -/
theorem State.regLoad_open {p : Page} {off : Nat} (hp : regPlace pa = some (p, off)) (hown : (ownPage n p || p == .mod || p == .reg) = true) :
    s.regLoad n rd va pa = s.ret n rd (s.readPage none p off) := by
  suffices key : ∀ load, load = State.regLoad → load s n rd va pa = s.ret n rd (s.readPage none p off) from key _ rfl
  intro load hload
  delta State.regLoad at hload
  simp only [hload, hp, hown, if_true]

/-- A word load from register space, of a page that the engine may read (R388). -/
theorem State.engLoad_register {p : Page} {off : Nat} (h : s.engReady n = true) (hrd : rd < 24) (hrs1 : rs1 < 24)
    (hva : va = s.effAddr n rs1 imm) (hk : va % 4 = 0) (hx : s.engXlate n va .load = (.ok pa, s1)) (hr : regionOf pa = .regs)
    (hp : regPlace pa = some (p, off)) (hown : (ownPage n p || p == .mod || p == .reg) = true) :
    s.engLoad n op rd rs1 imm 4 sg = (s1.ret n rd (s1.readPage none p off)).afterInstr n (!(s.eng n).sp.psr.mon) := by
  subst hva
  rw [State.engLoad, State.instr_ready h (by simp [hrd, hrs1])]
  simp only [hk, hx, hr, ne_eq, not_true_eq_false, if_false, if_true, State.regLoad_open hp hown]

end

/-! ### Stores -/

theorem State.engStore_memory (h : s.engReady n = true) (hrs2 : rs2 < 24) (hrs1 : rs1 < 24) (hva : va = s.effAddr n rs1 imm) (hk : va % k = 0)
    (hx : s.engXlate n va .store = (.ok pa, s1)) (hr : regionOf pa ≠ .regs) :
    s.engStore n op rs2 rs1 imm k
      = ((s1.engPut n pa (leBytes k ((s.eng n).r rs2).toNat)).nextPc n).afterInstr n (!(s.eng n).sp.psr.mon) := by
  subst hva
  rw [State.engStore, State.instr_ready h (by simp [hrs2, hrs1])]
  simp only [hk, hx, hr, ne_eq, not_true_eq_false, if_false]

/-- The page that a store names is one of the lane's own. -/
theorem State.regStore_own {p : Page} {off : Nat} {v : Word} (hp : regPlace pa = some (p, off)) (hown : ownPage n p = true) :
    s.regStore n va pa v = (s.nextPc n).pressAlone (s.engWriter n) p off v := by
  suffices key : ∀ store, store = State.regStore → store s n va pa v = (s.nextPc n).pressAlone (s.engWriter n) p off v from key _ rfl
  intro store hstore
  delta State.regStore at hstore
  simp only [hstore, hp, hown, if_true]

/-- A word store to one of the lane's pages is one write by the engine (R388). -/
theorem State.engStore_register {p : Page} {off : Nat} (h : s.engReady n = true) (hrs2 : rs2 < 24) (hrs1 : rs1 < 24)
    (hva : va = s.effAddr n rs1 imm) (hk : va % 4 = 0) (hx : s.engXlate n va .store = (.ok pa, s1)) (hr : regionOf pa = .regs)
    (hp : regPlace pa = some (p, off)) (hown : ownPage n p = true) :
    s.engStore n op rs2 rs1 imm 4
      = ((s1.nextPc n).pressAlone (s1.engWriter n) p off ((s.eng n).r rs2)).afterInstr n (!(s.eng n).sp.psr.mon) := by
  subst hva
  rw [State.engStore, State.instr_ready h (by simp [hrs2, hrs1])]
  simp only [hk, hx, hr, ne_eq, not_true_eq_false, if_false, if_true, State.regStore_own hp hown]

/-! ### Spills and fills (R423 to R425) -/

theorem State.spill_stored {w : Word} {pas : List Nat} (hres : 2 < (s.eng n).regs.wres) (hshelf : (s.eng n).shelf.length < 8)
    (hx : s.xlateWords n .store ((s.eng n).sp.ssp - 48).toNat 12 = (.ok pas, s1)) :
    s.spill n w = State.nextPc ((s1.putWords n (pas.zip ((s.eng n).regs.twelve (s.eng n).regs.wold))).upEng n Eng.spilled) n := by
  simp only [State.spill, Nat.not_le.mpr hres, Nat.not_le.mpr hshelf, if_false, hx]

theorem State.eccHit_of_no_errors (h : (s.lane n).eccBad = []) (a k : Nat) : s.eccHit n a k = false := by
  rw [State.eccHit, h, List.any_nil]

/-- A fill with an empty shelf reads memory. -/
theorem State.fill_memory {w : Word} {pas : List Nat} (hres : (s.eng n).regs.wres ≠ 12) (hshelf : (s.eng n).shelf = [])
    (hx : s.xlateWords n .load (s.eng n).sp.ssp.toNat 12 = (.ok pas, s1)) (he : (s1.lane n).eccBad = []) :
    s.fill n w = s1.upEng n fun e => e.filled (pas.map fun a => s1.memWord n a) := by
  have hgood : (pas.zip (List.range 12)).find? (fun x => s1.eccHit n x.1 4) = none :=
    List.find?_eq_none.mpr fun x _ => by rw [State.eccHit_of_no_errors he]; exact Bool.false_ne_true
  simp only [State.fill, hres, hshelf, hx, hgood, List.reverse_nil, List.find?_nil, if_false]

/-! ### SWAPW and CASW (R404) -/

theorem State.atomic_ready {s2 : State} {funct : Nat} (h : s.engReady n = true) (hrd : rd < 24) (hrs1 : rs1 < 24) (hrs2 : rs2 < 24)
    (hva : va = ((s.eng n).r rs1).toNat) (hk : va % 4 = 0) (hx : s.engXlate n va .load = (.ok pa, s1))
    (hr : regionOf pa = .store ∨ regionOf pa = .dsram) (hx2 : s1.engXlate n va .store = (.ok pa, s2)) (he : s2.eccHit n pa 4 = false) :
    s.atomic n funct rd rs1 rs2 = ((if funct = 0 ∨ s2.memWord n pa = (s.eng n).r rd then s2.engPut n pa (leBytes 4 ((s.eng n).r rs2).toNat)
      else s2).ret n rd (s2.memWord n pa)).afterInstr n (!(s.eng n).sp.psr.mon) := by
  subst hva
  have hin : ¬(regionOf pa ≠ .store ∧ regionOf pa ≠ .dsram) := fun hout => hr.elim hout.1 hout.2
  rw [State.atomic, State.instr_ready h (by simp [hrd, hrs1, hrs2])]
  simp only [hk, hx, hin, hx2, he, ne_eq, not_true_eq_false, Bool.false_eq_true, if_false]

/-! ### MOVB (R405) -/

/-- A ready engine executes a MOVB of three registers that differ and are not x0. -/
theorem State.movb_ready {rd rs1 rs2 : BitVec 5} (h : s.engReady n = true) (hcodes : rd.toNat < 24 ∧ rs1.toNat < 24 ∧ rs2.toNat < 24)
    (h0 : rd.toNat ≠ 0 ∧ rs1.toNat ≠ 0 ∧ rs2.toNat ≠ 0) (hne : rd ≠ rs1 ∧ rd ≠ rs2 ∧ rs1 ≠ rs2) :
    s.movb n rd.toNat rs1.toNat rs2.toNat = (if (s.eng n).r rd.toNat = 0 then s.nextPc n else s.movbUnit n rd.toNat rs1.toNat rs2.toNat).afterInstr n
      (!(s.eng n).sp.psr.mon) := by
  obtain ⟨hd, h1, h2⟩ := hcodes
  obtain ⟨hd0, h10, h20⟩ := h0
  have hreg (a b : BitVec 5) (hab : a ≠ b) : (a.toNat == b.toNat) = false := beq_eq_false_iff_ne.mpr fun e => hab (BitVec.eq_of_toNat_eq e)
  have hready : (s.fitted n && (s.eng n).run == .running && (s.eng n).qwait.isNone && (s.asyncNow n).isNone
      && ((s.eng n).movbUnits != 0 || !s.bpMatch n)) = true := by
    simp only [State.engReady, Bool.false_or, Bool.and_eq_true] at h
    obtain ⟨⟨⟨⟨⟨hfit, hrun⟩, hwait⟩, -⟩, hasync⟩, hbp⟩ := h
    rw [hfit, hrun, hwait, hasync, hbp, Bool.or_true]
    rfl
  have hok : ([rd.toNat, rs1.toNat, rs2.toNat].all fun c => codeOk c && c != 0) = true := by
    simp [codeOk, hd, h1, h2, hd0, h10, h20]
  simp only [State.movb, hready, hok, hreg _ _ hne.1, hreg _ _ hne.2.1, hreg _ _ hne.2.2, Bool.not_true, Bool.or_false, Bool.false_eq_true,
    if_false]

theorem State.movbUnit_moves {s2 : State} {pb : Nat} {e : Eng} (he : e = s.eng n)
    (hk : k = if (e.r rd ||| e.r rs1 ||| e.r rs2) &&& 3 = 0 then 4 else 1)
    (hx : s.engXlate n (e.r rs2).toNat .load = (.ok pa, s1)) (hr : regionOf pa ≠ .regs)
    (hx2 : s1.engXlate n (e.r rs1).toNat .store = (.ok pb, s2)) (hr2 : regionOf pb ≠ .regs) (hecc : s2.eccHit n pa k = false) :
    s.movbUnit n rd rs1 rs2 = (s2.engPut n pb (Memory.bytes (s2.lane n).mem pa k)).upEng n fun e => e.movbStep rd rs1 rs2 k := by
  subst he
  simp only [State.movbUnit, hx, hr, hx2, hr2, ← hk, hecc, Bool.false_eq_true, if_false]

end

/-- Settles O26: each row is its operation executed by a ready engine, in the case that the translation and the clause name. -/
theorem compositorMemoryCompletes : Obligations.CompositorMemoryCompletes := by
  intro s s1 n rd rs1 rs2 imm va pa h hrd hrs1 hrs2
  have atMonitor {w : Word} {body : State → State} (hmon : (s.eng n).sp.psr.mon = true) : s.monInstr n w [] body = body s :=
    State.monInstr_ready h (by simp) hmon
  refine ⟨fun c k sg hrow hva hk hx hr he => ?load, fun hva hk => congrArg fin (State.engLoad_misaligned h hrd hrs1 hva hk),
    fun f hva hk hx => congrArg fin (State.engLoad_fault h hrd hrs1 hva hk hx),
    fun p off hva hk hx hr hp hown => congrArg fin (State.engLoad_register h hrd hrs1 hva hk hx hr hp hown),
    fun c k hrow hva hk hx hr => ?store,
    fun p off hva hk hx hr hp hown => congrArg fin (State.engStore_register h hrs2 hrs1 hva hk hx hr hp hown),
    fun pas hmon hcause hres hshelf hx => ?spill, fun pas hmon hres hshelf hx he => ?fill,
    fun s2 hva hk hx hr hx2 he => ?swap, fun s2 hva hk hx hr hx2 he => ?cas,
    fun hd0 h10 h20 hd1 hd2 h12 hleft => ?moved, fun pb s2 k e he hd0 h10 h20 hd1 hd2 h12 hleft hk hx hr hx2 hr2 hecc => ?unit⟩
  case load =>
    have hload {op : Nat} : s.engLoad n op rd.toNat rs1.toNat imm k sg = _ := State.engLoad_memory h hrd hrs1 hva hk hx hr he
    simp only [List.mem_cons, Prod.mk.injEq, List.not_mem_nil, or_false] at hrow
    obtain ⟨rfl, rfl, rfl⟩ | ⟨rfl, rfl, rfl⟩ | ⟨rfl, rfl, rfl⟩ | ⟨rfl, rfl, rfl⟩ | ⟨rfl, rfl, rfl⟩ := hrow
    all_goals exact congrArg fin hload
  case store =>
    have hstore {op : Nat} : s.engStore n op rs2.toNat rs1.toNat imm k = _ := State.engStore_memory h hrs2 hrs1 hva hk hx hr
    simp only [List.mem_cons, Prod.mk.injEq, List.not_mem_nil, or_false] at hrow
    obtain ⟨rfl, rfl⟩ | ⟨rfl, rfl⟩ | ⟨rfl, rfl⟩ := hrow
    all_goals exact congrArg fin hstore
  case spill => simp only [exec, execSpillw, fin, atMonitor hmon, hcause, if_false, State.spill_stored hres hshelf hx]
  case fill => simp only [exec, execFillw, fin, atMonitor hmon, State.fill_memory hres hshelf hx he]
  case swap => exact congrArg fin (State.atomic_ready (funct := 0) h hrd hrs1 hrs2 hva hk hx hr hx2 he)
  case cas =>
    have hcas := State.atomic_ready (funct := 1) h hrd hrs1 hrs2 hva hk hx hr hx2 he
    simp only [Nat.one_ne_zero, false_or] at hcas
    exact congrArg fin hcas
  case moved =>
    have hmovb := State.movb_ready h ⟨hrd, hrs1, hrs2⟩ ⟨hd0, h10, h20⟩ ⟨hd1, hd2, h12⟩
    rw [if_pos hleft] at hmovb
    exact congrArg fin hmovb
  case unit =>
    have hmovb := State.movb_ready h ⟨hrd, hrs1, hrs2⟩ ⟨hd0, h10, h20⟩ ⟨hd1, hd2, h12⟩
    rw [← he, if_neg hleft, State.movbUnit_moves he hk hx hr hx2 hr2 hecc, he] at hmovb
    exact congrArg fin hmovb

/-! ### What a store leaves unchanged (R386, R404) -/

section
variable {s s1 : State} {n : LaneId}

/-- A store that starts no monitor service is a store of bytes. -/
theorem State.engPut_plain {pa : Nat} {bs : List Byte} (h : touchesGo pa bs.length = false) : s.engPut n pa bs = s.putMem n pa bs := by
  simp only [State.engPut, h, Bool.false_and, Bool.false_eq_true, if_false]

/-- A translation moves the TLBs alone: memories, registers of every engine and register words stay. -/
theorem State.engXlate_frame {va : Nat} {w : Way} {r : Except XFault Nat} (h : s.engXlate n va w = (r, s1)) :
    s1.regs = s.regs ∧ (∀ m, (s1.lane m).mem = (s.lane m).mem)
      ∧ (∀ m, ∃ tl dl, s1.eng m = { s.eng m with tlb := tl, dtlb := dl }) := by
  obtain ⟨tl, dl, heq⟩ := State.engXlate_state s n va w
  rw [h] at heq
  subst heq
  refine ⟨rfl, fun m => State.mem_upEng .., fun m => ?_⟩
  by_cases hm : m = n
  · subst hm
    exact ⟨tl, dl, State.eng_upEng_same ..⟩
  · exact ⟨(s.eng m).tlb, (s.eng m).dtlb, State.eng_upEng_ne _ _ hm⟩

theorem State.eng_putMem (a : Nat) (bs : List Byte) (m : LaneId) : (s.putMem n a bs).eng m = s.eng m := by
  by_cases hm : m = n
  · subst hm
    rw [State.eng, State.putMem, State.lane_upLane_same, State.eng]
  · rw [State.eng, State.lane_putMem_ne s n a bs hm, State.eng]

/-- The engine behind a store. -/
def Eng.stored (e : Eng) (skip : Bool) : Eng := { e with pc := e.pc + 4, bpSkip := skip }

theorem State.afterStore_eq {user : Bool} (hrun : (s.eng n).run ≠ .halted) (hstep : (s.eng n).stepReq = false)
    (huser : user = !(s.eng n).sp.psr.mon) : ∃ b, (s.nextPc n).afterInstr n user = s.upEng n fun e => e.stored b := by
  have heng : (s.nextPc n).eng n = { s.eng n with pc := (s.eng n).pc + 4 } := State.eng_nextPc
  obtain ⟨b, hb⟩ := State.afterInstr_unstepped (s := s.nextPc n) (n := n) (by rw [heng]; exact hrun) (by rw [heng]; exact hstep)
  refine ⟨b, ?_⟩
  rw [heng] at hb
  rw [huser, hb, State.nextPc, State.upEng_upEng]
  rfl

end

/-- Settles O54: behind the translation the store is one of bytes, and the end of the instruction moves none of memory. -/
theorem storeFrame : Obligations.StoreFrame := by
  intro s s1 t n rs1 rs2 imm c k va pa h hrs1 hrs2 hstep hreq hrow hva hk hx hr hgo hexec
  obtain ⟨hregs, hmem, heng⟩ := State.engXlate_frame hx
  let bytes := leBytes k ((s.eng n).r rs2.toNat).toNat
  have hexec' : exec c s = fin (((s1.engPut n pa bytes).nextPc n).afterInstr n (!(s.eng n).sp.psr.mon)) := by
    have hstore {op : Nat} : s.engStore n op rs2.toNat rs1.toNat imm k = _ := State.engStore_memory h hrs2 hrs1 hva hk hx hr
    simp only [List.mem_cons, Prod.mk.injEq, List.not_mem_nil, or_false] at hrow
    obtain ⟨rfl, rfl⟩ | ⟨rfl, rfl⟩ | ⟨rfl, rfl⟩ := hrow
    all_goals exact congrArg fin hstore
  have hput : s1.engPut n pa bytes = s1.putMem n pa bytes := State.engPut_plain (by rwa [length_leBytes])
  obtain ⟨tl, dl, hengn⟩ := heng n
  obtain ⟨b, hafter⟩ := State.afterStore_eq (s := s1.putMem n pa bytes) (n := n) (user := !(s.eng n).sp.psr.mon)
    (by rw [State.eng_putMem, hengn]; exact fun hhalted => EngRun.noConfusion ((State.running_of_ready h).1.symm.trans hhalted))
    (by rw [State.eng_putMem, hengn]; exact hstep) (by rw [State.eng_putMem, hengn])
  have hreq1 : ∀ m, ((s1.putMem n pa bytes).eng m).haltReq = false := fun m => by
    obtain ⟨tl, dl, hm⟩ := heng m
    rw [State.eng_putMem, hm]
    exact hreq m
  rw [hexec', hput, hafter] at hexec
  obtain rfl := Host.Outcome.next.inj hexec
  have hsame := sameButRuns_settle (State.haltReq_upEng (n := n) (f := fun e => e.stored b) (fun _ => rfl) hreq1)
  refine ⟨fun i hi => ?inside, fun a ha => ?outside, fun m hm => ?lanes, fun m => ?registers, ?pages⟩
  case inside => rw [hsame.mem, State.mem_upEng, State.rd_putMem_leBytes _ _ _ _ hi]
  case outside => rw [hsame.mem, State.mem_upEng, State.rd_putMem_outside _ _ _ _ (by rwa [length_leBytes]), hmem]
  case lanes => rw [hsame.mem, State.mem_upEng, State.lane_putMem_ne _ _ _ _ hm, hmem]
  case registers =>
    obtain ⟨tl, dl, hm⟩ := heng m
    rw [hsame.engRegs]
    by_cases hn : m = n
    · subst hn
      rw [State.eng_upEng_same, State.eng_putMem, hm]
      rfl
    · rw [State.eng_upEng_ne _ _ hn, State.eng_putMem, hm]
  case pages =>
    rw [hsame.regs]
    exact hregs

end Sys2Proof.Machine
end

section
/-! PROOFS. Branches, jumps, calls, returns, TRAP, RTT, IDLE and BRK of the compositor (spec/16_compositor.md R396, R398, R400, R410;
spec/17_traps_memory_dma.md R415, R418). -/

namespace Sys2Proof.Machine

section
variable {s : State} {n : LaneId}

/-! ### Branches and jumps -/

/-- The PC becomes a function of what it was. -/
theorem State.jump_eq (f : Eng → Word) : s.jump n (f (s.eng n)) = s.upEng n fun e => { e with pc := f e } := State.upEng_congr s n rfl

theorem State.branch_ready {op rs1 rs2 : Nat} {off : BitVec 16} {taken : Bool} (h : s.engReady n = true) (hrs1 : rs1 < 24) (hrs2 : rs2 < 24)
    (hop : branchOf op ((s.eng n).r rs1) ((s.eng n).r rs2) = taken) :
    s.branch n op rs1 rs2 off
      = (s.upEng n fun e => { e with pc := if taken then e.pc + disp16 off else e.pc + 4 }).afterInstr n (!(s.eng n).sp.psr.mon) := by
  rw [State.branch, State.instr_ready h (by simp [hrs1, hrs2])]
  simp only [hop]
  cases taken with
  | false => rfl
  | true => exact congrArg (fun t => State.afterInstr t n _) (State.jump_eq fun e => e.pc + disp16 off)

theorem State.jmp_ready (off : BitVec 26) (h : s.engReady n = true) :
    s.jmp n off = (s.upEng n fun e => { e with pc := e.pc + disp26 off }).afterInstr n (!(s.eng n).sp.psr.mon) := by
  rw [State.jmp, State.instr_ready h (by simp), State.jump_eq fun e => e.pc + disp26 off]

theorem State.jr_aligned {rs1 : Nat} {imm : BitVec 16} (h : s.engReady n = true) (hrs1 : rs1 < 24)
    (ha : aligned4 ((s.eng n).r rs1 + imm.signExtend 32) = true) :
    s.jr n rs1 imm = (s.upEng n fun e => { e with pc := (s.eng n).r rs1 + imm.signExtend 32 }).afterInstr n (!(s.eng n).sp.psr.mon) := by
  have ha' : aligned4 ((s.eng n).r rs1 + sext16 imm) = true := ha
  rw [State.jr, State.instr_ready h (by simpa using hrs1)]
  simp only [ha', if_true]
  rfl

/-! ### Calls and returns (R398) -/

theorem State.callTo_aligned (f : Eng → Word) (hres : (s.eng n).regs.wres < 11) (ha : aligned4 (f (s.eng n)) = true) :
    s.callTo n (f (s.eng n)) = s.upEng n fun e => e.call (f e) := by
  simp only [State.callTo, Nat.not_le.mpr hres, ha, Bool.not_true, Bool.false_eq_true, if_false]
  exact State.upEng_congr s n rfl

/-- A call with eleven resident windows raises the overflow trap. -/
theorem State.callTo_overflow (t : Word) (hres : 11 ≤ (s.eng n).regs.wres) : s.callTo n t = s.syncTrap n ⟨7, (s.eng n).pc, 0, 0⟩ := if_pos hres

theorem State.callw_ready (off : BitVec 26) (h : s.engReady n = true) :
    s.callw n off = (s.callTo n ((s.eng n).pc + disp26 off)).afterInstr n (!(s.eng n).sp.psr.mon) := State.instr_ready h (by simp)

theorem State.callwr_ready {rs1 : Nat} (imm : BitVec 16) (h : s.engReady n = true) (hrs1 : rs1 < 24) :
    s.callwr n rs1 imm = (s.callTo n ((s.eng n).r rs1 + imm.signExtend 32)).afterInstr n (!(s.eng n).sp.psr.mon) :=
  State.instr_ready h (by simpa using hrs1)

theorem State.retw_underflow (h : s.engReady n = true) (hwin : (s.eng n).regs.cwp = (s.eng n).regs.wold) :
    s.retw n = (s.syncTrap n ⟨8, (s.eng n).pc, 0, 0⟩).afterInstr n (!(s.eng n).sp.psr.mon) := by
  rw [State.retw, State.instr_ready h (by simp)]
  simp only [hwin, if_true]

theorem State.retw_aligned (h : s.engReady n = true) (hwin : (s.eng n).regs.cwp ≠ (s.eng n).regs.wold)
    (ha : aligned4 ((s.eng n).r 19) = true) : s.retw n = (s.upEng n Eng.retw).afterInstr n (!(s.eng n).sp.psr.mon) := by
  rw [State.retw, State.instr_ready h (by simp)]
  simp only [hwin, ha, Bool.not_true, Bool.false_eq_true, if_false]

/-! ### RTT where it does not return (R393, R418) -/

theorem State.rtt_noWindow (h : s.engReady n = true) (hmon : (s.eng n).sp.psr.mon = true) (hwin : (s.eng n).regs.cwp = (s.eng n).regs.wold) :
    s.rtt n = s.halt n 4 := by
  rw [State.rtt, State.instr_ready h (by simp)]
  simp only [hmon, hwin, Bool.not_true, Bool.false_eq_true, if_false, if_true, State.afterInstr_monitor]

theorem State.rtt_user (h : s.engReady n = true) (hmon : (s.eng n).sp.psr.mon = false) :
    s.rtt n = (s.privTrap n (encR 0x30 0 0 0 2)).afterInstr n true := by
  rw [State.rtt, State.instr_ready h (by simp)]
  simp only [hmon, Bool.not_false, if_true]

end

/-- Settles O25: each row is its operation executed by a ready engine, in the case of its condition, its windows or its privilege. -/
theorem compositorFlowCompletes : Obligations.CompositorFlowCompletes := by
  intro s n e rs1 rs2 a b h he hrs1 ha hb
  subst he ha hb
  refine ⟨fun off c taken hrs2 => ?branches, fun off => congrArg fin (State.jmp_ready off h), fun imm ha => congrArg fin (State.jr_aligned h hrs1 ha),
    fun off hres ha => ?callw, fun imm hres ha => ?callwr, fun off hres => ?overflow, fun hwin => congrArg fin (State.retw_underflow h hwin),
    fun hwin ha => congrArg fin (State.retw_aligned h hwin ha), fun imm => congrArg fin (State.trapInstr_ready h imm),
    fun hmon hwin hnone => congrArg fin (State.rtt_back h hmon hwin hnone), fun hmon hwin => congrArg fin (State.rtt_noWindow h hmon hwin),
    fun hmon => congrArg fin (State.rtt_user h hmon), congrArg fin (State.instr_ready h (by simp)),
    fun hmon hattach => congrArg fin (State.brk_user h hmon hattach)⟩
  case branches =>
    have branch {op taken} (hop : branchOf op ((s.eng n).r rs1.toNat) ((s.eng n).r rs2.toNat) = taken) :=
      congrArg fin (State.branch_ready (off := off) h hrs1 hrs2 hop)
    revert c taken
    refine forall_row ?_
    simp only [List.forall_mem_cons]
    exact ⟨branch rfl, branch rfl, branch rfl, branch rfl, branch rfl, branch rfl, List.forall_mem_nil _⟩
  case callw =>
    have hcall := State.callw_ready off h
    rw [State.callTo_aligned (fun e => e.pc + disp26 off) hres ha] at hcall
    exact congrArg fin hcall
  case callwr =>
    have hcall := State.callwr_ready imm h hrs1
    rw [State.callTo_aligned (fun _ => (s.eng n).r rs1.toNat + imm.signExtend 32) hres ha] at hcall
    exact congrArg fin hcall
  case overflow =>
    have hcall := State.callw_ready off h
    rw [State.callTo_overflow _ hres] at hcall
    exact congrArg fin hcall

end Sys2Proof.Machine
end

section
/-! PROOFS. One step of the machine: the command in front, the tick on an empty queue, and that every command answers. -/

namespace Sys2Proof.Machine

/-- Settles O36: the queue's front is what `step` matches on. -/
theorem stepRunsFrontCommand : Obligations.StepRunsFrontCommand := by
  intro c rest s h
  rw [step, h]

theorem step_empty {s : State} (h : s.pending = []) : step s = idleStep s := by rw [step, h]

theorem State.clock_ticks (s : State) (k : Nat) : (s.ticks k).clock = s.clock + k := by
  delta State.ticks
  extract_lets sum ru s1 s2
  have h : s2.clock = s.clock + k := State.put_clock s1 _ _ _
  rw [apply_ite State.clock, State.put_clock, h, ite_self]

/-- A tick within a whole second brings what time alone brings. -/
theorem State.oneTick_of_same_second {s : State} (h : s.rt64 / second = (s.ticks 1).rt64 / second) :
    s.oneTick = (s.ticks 1).settleTime := by
  rw [State.oneTick, if_neg (by omega)]

/-- The module is awake in RUN and QUIET only. -/
theorem State.not_awake {s : State} (h : s.pwr.mode = .inReset ∨ s.pwr.mode = .dormant ∨ s.pwr.mode = .off) : s.awake = false := by
  obtain h | h | h := h <;> rw [State.awake, h] <;> rfl

/-- Settles O37: the three ways in which a step idles, by the power mode. -/
theorem emptyQueueTicks : Obligations.EmptyQueueTicks := by
  intro s hempty
  refine ⟨fun hawake => ⟨?tick, s.clock_ticks 1, State.oneTick_of_same_second⟩, fun hmode => ?held, fun hoff => ?off⟩
  case tick => rw [step_empty hempty, idleStep, if_pos hawake, fin]
  case held =>
    have hsleep : s.awake = false := State.not_awake (hmode.imp_right .inl)
    have hon : s.pwr.mode ≠ .off := by rintro e; rw [e] at hmode; simp at hmode
    rw [step_empty hempty, idleStep, hsleep, if_neg Bool.false_ne_true, if_neg hon, fin]
  case off =>
    have hsleep : s.awake = false := State.not_awake (.inr (.inr hoff))
    rw [step_empty hempty, idleStep, hsleep, if_neg Bool.false_ne_true, if_pos hoff, fin]

/-- Settles O38: the decoder's table has no row, so `decodeTableWord` and what is placed by it compute. -/
theorem noWordSpellsACommand : Obligations.NoWordSpellsACommand := fun _ _ _ => ⟨rfl, rfl⟩

/-- Settles O39: every command ends in a settled state. -/
theorem everyCommandAnswers : Obligations.EveryCommandAnswers := fun c s => by
  obtain ⟨u, hu⟩ := exec_endsSettled c s
  exact ⟨u.settle, hu⟩

end Sys2Proof.Machine
end

section
/-! PROOFS. Asynchronous trap entry, illegal words, fetch faults, breakpoints, the debug controls and fatal halts (R387, R407 to R417, R427). -/

namespace Sys2Proof.Machine

section
variable {s : State} {n : LaneId} {w : Writer}

theorem State.takeAsync_due {t : TrapInfo} {irq : Option Nat} (h : s.asyncNow n = some (t, irq)) :
    s.takeAsync n = (s.consumeAsync n t.cause irq).takeTrap n { t with epc := (s.eng n).pc } := by
  rw [State.takeAsync, h]

/-! ### The ENG page's words -/

/-- No word of the ENG page is mirrored: an accepted one has its effect at once. -/
theorem engPress_taken {off : Nat} {v proof : Word} (h2 : off ≠ 2)
    (h : s.taken w (.lane n .eng) off v (engChk n off v (s.staged (.lane n .eng) off v))) :
    engPress w n off v proof s = s.nearDone (.lane n .eng) (engEff n off v proof) := pressOne_near rfl h2 h

/-- What a near word does matters at the state that it is pressed on only. -/
theorem State.nearDone_congr {p : Page} {f g : State → State} (h : f s = g s) : s.nearDone p f = s.nearDone p g := by
  rw [State.nearDone, State.nearDone, h]

theorem State.eng_storeEff (p : Page) (off : Nat) (v proof : Word) (m : LaneId) : (storeEff p off v proof s).eng m = s.eng m := s.eng_setWd _ _ m

/-- The strobe bits of DBG: HALT, RESUME and STEP are bits 0, 1 and 2, which its stored fields (0x300) do not hold. -/
theorem bitAt_dbgStrobe {bit i : Nat} (hbit : bit < 3) (hi : i < 3) : bitAt (s.dbgStrobe n bit) i = decide (i = bit) := by
  have hfields : ∀ i < 3, bitAt (0x300 : Word) i = false := by decide
  have hmasks : ∀ bit < 3, ∀ i < 3, bitAt (bitMask bit bit) i = decide (i = bit) := by decide
  have hfield := hfields i hi
  have hmask := hmasks bit hbit i hi
  unfold bitAt at hfield hmask ⊢
  rw [State.dbgStrobe, BitVec.getLsbD_or, BitVec.getLsbD_and, hfield, hmask, Bool.and_false, Bool.false_or]

theorem engEff_halt {v : Word} (hrun : (s.eng n).run ≠ .halted) (hbit : bitAt v 0 = true) :
    engEff n 0x12 v 0 s = (storeEff (.lane n .eng) 0x12 v 0 s).upEng n fun e => { e with haltReq := true } := by
  simp only [engEff, State.eng_storeEff, if_true, if_neg hrun, if_pos hbit]

theorem engEff_resume {v : Word} (hrun : (s.eng n).run = .halted) (hstep : bitAt v 2 = false) (hbit : bitAt v 1 = true) :
    engEff n 0x12 v 0 s = (storeEff (.lane n .eng) 0x12 v 0 s).dbgGo n false false := by
  simp only [engEff, State.eng_storeEff, if_true, if_pos hrun, hstep, Bool.false_eq_true, if_false, if_pos hbit]

theorem engEff_step {v : Word} (hrun : (s.eng n).run = .halted) (hbit : bitAt v 2 = true) :
    engEff n 0x12 v 0 s = (storeEff (.lane n .eng) 0x12 v 0 s).dbgGo n true (bitAt v 9) := by
  simp only [engEff, State.eng_storeEff, if_true, if_pos hrun, if_pos hbit]

theorem engEff_regval (v : Word) : engEff n 0x19 v 0 s = s.regvalSet n v := rfl

end

/-- Settles O28, clause by clause: what each command's guard lets through, and one lemma for each strobe of DBG. -/
theorem compositorTrapAndDebugRowsComplete : Obligations.CompositorTrapAndDebugRowsComplete := by
  intro s n w
  refine ⟨fun t irq hfit hdue => ?entry, fun v hv hready => ?illegal, fun f t hready hfault => ?fetch,
    fun hfit hrun hq hm ha hb => ?bp, fun v hv htaken hrun => ?halt, fun v hv htaken hrun _ => ?resume, fun v hv htaken hrun _ => ?step,
    fun v htaken => ?regval, fun hfatal htold hup => ?told, fun hfatal htold hpolicy hup htime => ?policy⟩
  case entry => rw [exec, execTrapEntry, if_pos hfit, State.takeAsync_due hdue, fin]
  case illegal =>
    rw [exec, execIllegalInstruction, hv, if_neg Bool.false_ne_true, State.instr_ready hready (by simp), fin]
    rfl
  case fetch =>
    rw [exec, execFetchPageFault, hready, hfault]
    rfl
  case bp => simp only [exec, execBpHit, hfit, hrun, hq, hm, ha, hb, fin, Option.isNone_none, beq_self_eq_true, Bool.and_self, if_true]
  case halt =>
    have hbit : bitAt v 0 = true := by rw [hv, bitAt_dbgStrobe (by decide) (by decide)]; rfl
    rw [exec, execDbgHalt, ← hv, engPress_taken (by decide) htaken]
    exact congrArg fin (State.nearDone_congr (engEff_halt hrun hbit))
  case resume =>
    have hbit : bitAt v 1 = true := by rw [hv, bitAt_dbgStrobe (by decide) (by decide)]; rfl
    have hstep : bitAt v 2 = false := by rw [hv, bitAt_dbgStrobe (by decide) (by decide)]; rfl
    rw [exec, execDbgResume, ← hv, engPress_taken (by decide) htaken]
    exact congrArg fin (State.nearDone_congr (engEff_resume hrun hstep hbit))
  case step =>
    have hbit : bitAt v 2 = true := by rw [hv, bitAt_dbgStrobe (by decide) (by decide)]; rfl
    rw [exec, execDbgStep, ← hv, engPress_taken (by decide) htaken]
    exact congrArg fin (State.nearDone_congr (engEff_step hrun hbit))
  case regval =>
    rw [exec, execRegvalWrite, engPress_taken (by decide) htaken]
    exact congrArg fin (State.nearDone_congr (engEff_regval v))
  case told => simp only [exec, execChaseHaltResponse, hfatal, htold, hup, fin, Bool.not_false, Bool.and_self, if_true]
  case policy =>
    simp only [exec, execHaltPolicyReset, hfatal, htold, hpolicy, hup, htime, fin, decide_true, Bool.and_self, if_true]

end Sys2Proof.Machine
end

section
/-! PROOFS. The thermal supervisor and the far sides' own sensors (R533 to R536). -/

namespace Sys2Proof.Machine

/-- Settles O35: each command's guard holds by its clause's conditions, and the body is what the clause says. -/
theorem thermalRowsComplete : Obligations.ThermalRowsComplete := by
  intro s n base die t ht
  subst ht
  refine ⟨fun hawake hwarm hoff => ?warn, fun hawake hcool => ?warnClear, fun hawake hhot hoff => ?shed,
    fun hawake hshed hcool hdie hquiet => ?endQuiet, fun v hv hawake hshed hcool hdie hrun => ?endRun,
    fun hup hhot hfresh htrip => ?overtemp, fun hup hhot hcool => ?cooled⟩
  case warn => simp [exec, execThermWarn, fin, hawake, hwarm, hoff]
  case warnClear => simp [exec, execThermWarnClear, fin, State.baseCool, hawake, hcool]
  case shed => simp [exec, execThermShed, State.shed, fin, hawake, hhot, hoff]
  case endQuiet => simp [exec, execShedEnd, fin, State.baseCool, hawake, hshed, hcool, hdie, hquiet]
  case endRun =>
    subst hv
    have hmode : (s.thermShow base die).pwr.mode = .run := hrun
    simp [exec, execShedEnd, fin, State.baseCool, hawake, hshed, hcool, hdie, hmode]
  case overtemp => simp [exec, execFarSideOvertemp, fin, hup, hhot, hfresh, htrip]
  case cooled => simp [exec, execFarSideCooled, fin, hup, hhot, hcool]

end Sys2Proof.Machine
end

section
/-! PROOFS. The calendar: date and time words, the first days of years and months, and dates some months on (R464, R465, R470). -/

namespace Sys2Proof.Machine

/-! ### The fields of a date word and of a time word -/

section
variable {y m d h mi sec : Nat}

theorem toNat_mkDate (hy : y < 65536) (hm : m < 256) (hd : d < 256) : (mkDate y m d).toNat = y * 65536 + m * 256 + d := by
  rw [mkDate, BitVec.toNat_ofNat, Nat.mod_eq_of_lt (by omega)]

theorem dateYear_mkDate (hy : y < 65536) (hm : m < 256) (hd : d < 256) : dateYear (mkDate y m d) = y := by
  simp only [dateYear, bitsOf, toNat_mkDate hy hm hd, Nat.shiftRight_eq_div_pow]; omega

theorem dateMonth_mkDate (hy : y < 65536) (hm : m < 256) (hd : d < 256) : dateMonth (mkDate y m d) = m := by
  simp only [dateMonth, bitsOf, toNat_mkDate hy hm hd, Nat.shiftRight_eq_div_pow]; omega

theorem dateDay_mkDate (hy : y < 65536) (hm : m < 256) (hd : d < 256) : dateDay (mkDate y m d) = d := by
  simp only [dateDay, bitsOf, toNat_mkDate hy hm hd, Nat.shiftRight_eq_div_pow]; omega

/-- A date word is its three fields. -/
theorem mkDate_fields (w : Word) : mkDate (dateYear w) (dateMonth w) (dateDay w) = w := by
  have hw : w.toNat < 2 ^ 32 := w.isLt
  apply BitVec.eq_of_toNat_eq
  simp only [mkDate, dateYear, dateMonth, dateDay, bitsOf, BitVec.toNat_ofNat, Nat.shiftRight_eq_div_pow]
  omega

theorem toNat_mkTime (hh : h < 32) (hmi : mi < 64) (hs : sec < 64) : (mkTime h mi sec).toNat = h * 65536 + mi * 256 + sec := by
  rw [mkTime, BitVec.toNat_ofNat, Nat.mod_eq_of_lt (by omega)]

theorem timeHour_mkTime (hh : h < 32) (hmi : mi < 64) (hs : sec < 64) : timeHour (mkTime h mi sec) = h := by
  simp only [timeHour, bitsOf, toNat_mkTime hh hmi hs, Nat.shiftRight_eq_div_pow]; omega

theorem timeMin_mkTime (hh : h < 32) (hmi : mi < 64) (hs : sec < 64) : timeMin (mkTime h mi sec) = mi := by
  simp only [timeMin, bitsOf, toNat_mkTime hh hmi hs, Nat.shiftRight_eq_div_pow]; omega

theorem timeSec_mkTime (hh : h < 32) (hmi : mi < 64) (hs : sec < 64) : timeSec (mkTime h mi sec) = sec := by
  simp only [timeSec, bitsOf, toNat_mkTime hh hmi hs, Nat.shiftRight_eq_div_pow]; omega

theorem timeOk_iff (t : Word) : timeOk t = true ↔ timeHour t ≤ 23 ∧ timeMin t ≤ 59 ∧ timeSec t ≤ 59 := by
  simp only [timeOk, Bool.and_eq_true, decide_eq_true_eq, and_assoc]

end

/-! ### Days, months and years -/

/-- Day `d` of month `m` of year `y` is a day of the calendar. -/
structure IsDate (y m d : Nat) : Prop where
  year : 2000 ≤ y ∧ y ≤ 2399
  month : 1 ≤ m ∧ m ≤ 12
  day : 1 ≤ d ∧ d ≤ daysIn y m

theorem dateOk_iff (w : Word) : dateOk w = true ↔ IsDate (dateYear w) (dateMonth w) (dateDay w) := by
  simp only [dateOk, Bool.and_eq_true, decide_eq_true_eq]
  exact ⟨fun ⟨⟨⟨⟨⟨h1, h2⟩, h3⟩, h4⟩, h5⟩, h6⟩ => ⟨⟨h1, h2⟩, ⟨h3, h4⟩, h5, h6⟩,
    fun ⟨⟨h1, h2⟩, ⟨h3, h4⟩, h5, h6⟩ => ⟨⟨⟨⟨⟨h1, h2⟩, h3⟩, h4⟩, h5⟩, h6⟩⟩

theorem daysIn_le (y m : Nat) : daysIn y m ≤ 31 := by unfold daysIn; (repeat' split) <;> omega
theorem daysIn_pos (y m : Nat) : 1 ≤ daysIn y m := by unfold daysIn; (repeat' split) <;> omega

/-- The days of a year. -/
def yearDays (y : Nat) : Nat := if leapYear y then 366 else 365

/-- One more step passes a multiple of `b` exactly from a multiple of `b`. -/
theorem div_step {b : Nat} (hb : 0 < b) (k : Nat) : (k + b) / b = (k + (b - 1)) / b + if k % b = 0 then 1 else 0 := by
  have hstep : k + b = k + (b - 1) + 1 := by omega
  rw [hstep, Nat.succ_div]
  have hdvd : b ∣ k + (b - 1) + 1 ↔ k % b = 0 := by
    rw [← hstep, Nat.dvd_add_left (Nat.dvd_refl b), Nat.dvd_iff_mod_eq_zero]
  simp only [hdvd]

theorem leapYear_iff (k : Nat) : leapYear (2000 + k) = true ↔ k % 4 = 0 ∧ (k % 100 ≠ 0 ∨ k % 400 = 0) := by
  have h4 : (2000 + k) % 4 = k % 4 := by omega
  have h100 : (2000 + k) % 100 = k % 100 := by omega
  have h400 : (2000 + k) % 400 = k % 400 := by omega
  simp only [leapYear, h4, h100, h400, Bool.and_eq_true, Bool.or_eq_true, beq_iff_eq, bne_iff_ne]

/-- The century rules of `leapYear` are the three quotients of `yearStart`. -/
theorem yearStart_succ {y : Nat} (h : 2000 ≤ y) : yearStart (y + 1) = yearStart y + yearDays y := by
  obtain ⟨k, rfl⟩ := Nat.exists_eq_add_of_le h
  have h4 := div_step (b := 4) (by decide) k
  have h100 := div_step (b := 100) (by decide) k
  have h400 := div_step (b := 400) (by decide) k
  simp only [yearStart, yearDays, leapYear_iff, Nat.add_sub_cancel_left, Nat.add_assoc, Nat.reduceAdd, Nat.reduceSub] at h4 h100 h400 ⊢
  split at h4 <;> split at h100 <;> split at h400 <;> split <;> omega

theorem yearStart_2000 : yearStart 2000 = 0 := by simp [yearStart]
theorem yearStart_2400 : yearStart 2400 = 146097 := by simp [yearStart]
theorem lastSec_eq : lastSec = 12622780799 := by
  unfold lastSec
  rw [yearStart_2400]

theorem yearStart_mono {y z : Nat} (hy : 2000 ≤ y) (h : y ≤ z) : yearStart y ≤ yearStart z := by
  induction h with
  | refl => exact Nat.le_refl _
  | step hz ih => rw [yearStart_succ (Nat.le_trans hy hz)]; exact Nat.le_trans ih (Nat.le_add_right _ _)

theorem monthStart_one (y : Nat) : monthStart y 1 = 0 := rfl

theorem monthStart_succ (y : Nat) {m : Nat} (h : 1 ≤ m) : monthStart y (m + 1) = monthStart y m + daysIn y m := by
  obtain ⟨k, rfl⟩ := Nat.exists_eq_add_of_le' h
  simp only [monthStart, Nat.add_sub_cancel, List.range_succ, List.foldl_append, List.foldl_cons, List.foldl_nil]

theorem monthStart_mono (y : Nat) {m k : Nat} (hm : 1 ≤ m) (h : m ≤ k) : monthStart y m ≤ monthStart y k := by
  induction h with
  | refl => exact Nat.le_refl _
  | step hk ih => rw [monthStart_succ y (Nat.le_trans hm hk)]; exact Nat.le_trans ih (Nat.le_add_right _ _)

/-- The twelve months make up the year. -/
theorem monthStart_thirteen (y : Nat) : monthStart y 13 = yearDays y := by
  cases hleap : leapYear y <;> simp [monthStart, yearDays, daysIn, hleap, List.range_succ]

/-! ### The search of `dateOf` -/

/-- Counting the starts that have passed finds the last of them. -/
theorem length_filter_starts {f : Nat → Nat} {x j N : Nat} (hj : j ≤ N) (hbelow : ∀ k, k < j → f k ≤ x) (habove : ∀ k, j ≤ k → x < f k) :
    ((List.range N).filter fun k => decide (f k ≤ x)).length = j := by
  obtain ⟨r, rfl⟩ := Nat.exists_eq_add_of_le hj
  have hlow : (List.range j).filter (fun k => decide (f k ≤ x)) = List.range j :=
    List.filter_eq_self.mpr fun k hk => decide_eq_true (hbelow k (List.mem_range.mp hk))
  have hhigh : ((List.range r).map (j + ·)).filter (fun k => decide (f k ≤ x)) = [] := by
    refine List.filter_eq_nil_iff.mpr fun k hk => ?_
    obtain ⟨i, -, rfl⟩ := List.mem_map.mp hk
    simpa using habove (j + i) (Nat.le_add_right _ _)
  rw [List.range_add, List.filter_append, hlow, hhigh, List.append_nil, List.length_range]

/-- A value from the first start on and before the last lies between two that follow each other. -/
theorem exists_between_starts {f : Nat → Nat} {x : Nat} (h0 : f 0 ≤ x) : ∀ {N : Nat}, x < f N → ∃ k, k < N ∧ f k ≤ x ∧ x < f (k + 1) := by
  intro N
  induction N with
  | zero => exact fun h => absurd h0 (Nat.not_le.mpr h)
  | succ N ih =>
    intro hN
    by_cases h : f N ≤ x
    · exact ⟨N, N.lt_succ_self, h, hN⟩
    · obtain ⟨k, hk, hfk⟩ := ih (Nat.lt_of_not_le h)
      exact ⟨k, Nat.lt_succ_of_lt hk, hfk⟩

section
variable {y m d x : Nat}

theorem IsDate.day_lt (h : IsDate y m d) : monthStart y m + d ≤ yearDays y := by
  calc monthStart y m + d ≤ monthStart y m + daysIn y m := Nat.add_le_add_left h.day.2 _
    _ = monthStart y (m + 1) := (monthStart_succ y h.month.1).symm
    _ ≤ monthStart y 13 := monthStart_mono y (Nat.le_add_left 1 m) (Nat.succ_le_succ h.month.2)
    _ = yearDays y := monthStart_thirteen y

/-- A day of year `y` lies before the next year. -/
theorem IsDate.lt_next_year (h : IsDate y m d) : yearStart y + monthStart y m + d ≤ yearStart (y + 1) := by
  rw [yearStart_succ h.year.1, Nat.add_assoc]
  exact Nat.add_le_add_left h.day_lt _

theorem years_passed (h : IsDate y m d) (hx : x + 1 = yearStart y + monthStart y m + d) :
    ((List.range 400).filter fun k => decide (yearStart (2001 + k) ≤ x)).length = y - 2000 := by
  have hnext := h.lt_next_year
  obtain ⟨⟨hy, hy'⟩, -, hd, -⟩ := h
  refine length_filter_starts (by omega) (fun k hk => ?_) fun k hk => ?_
  · have := yearStart_mono (y := 2001 + k) (z := y) (by omega) (by omega)
    omega
  · have := yearStart_mono (y := y + 1) (z := 2001 + k) (by omega) (by omega)
    omega

theorem months_passed (h : IsDate y m d) {r : Nat} (hr : r + 1 = monthStart y m + d) :
    ((List.range 12).filter fun k => decide (monthStart y (k + 2) ≤ r)).length = m - 1 := by
  obtain ⟨-, ⟨hm, hm'⟩, hd, hd'⟩ := h
  refine length_filter_starts (by omega) (fun k hk => ?_) fun k hk => ?_
  · have := monthStart_mono y (m := k + 2) (k := m) (by omega) (by omega)
    omega
  · have := monthStart_mono y (m := m + 1) (k := k + 2) (by omega) (by omega)
    have := monthStart_succ y hm
    omega

/-- The date of a second is the one whose day the second lies in. -/
theorem dateOf_eq (h : IsDate y m d) (hx : x / 86400 + 1 = yearStart y + monthStart y m + d) : dateOf x = mkDate y m d := by
  have hy : 2000 + (y - 2000) = y := Nat.add_sub_of_le h.year.1
  have hm : 1 + (m - 1) = m := Nat.add_sub_of_le h.month.1
  have hd : 1 ≤ d := h.day.1
  have hr : x / 86400 - yearStart y + 1 = monthStart y m + d := by omega
  have hday : x / 86400 - yearStart y - monthStart y m + 1 = d := by omega
  simp only [dateOf, years_passed h hx, hy, months_passed h hr, hm, hday]

/-- Every day of the calendar has a date. -/
theorem exists_date (hx : x < yearStart 2400) : ∃ y m d, IsDate y m d ∧ x + 1 = yearStart y + monthStart y m + d := by
  obtain ⟨k, hk, hlow, hhigh⟩ := exists_between_starts (f := fun k => yearStart (2000 + k)) (x := x) (N := 400)
    (by rw [Nat.add_zero, yearStart_2000]; exact Nat.zero_le x) hx
  rw [← Nat.add_assoc, yearStart_succ (Nat.le_add_right _ _), ← monthStart_thirteen] at hhigh
  obtain ⟨i, hi, hlow', hhigh'⟩ := exists_between_starts (f := fun i => monthStart (2000 + k) (i + 1)) (x := x - yearStart (2000 + k))
    (N := 12)
    (Nat.zero_le _) (by show _ < monthStart (2000 + k) 13; omega)
  rw [monthStart_succ _ (Nat.le_add_left 1 i)] at hhigh'
  exact ⟨2000 + k, i + 1, x - yearStart (2000 + k) - monthStart (2000 + k) (i + 1) + 1, ⟨by omega, by omega, by omega⟩, by omega⟩

theorem IsDate.fields (h : IsDate y m d) :
    dateYear (mkDate y m d) = y ∧ dateMonth (mkDate y m d) = m ∧ dateDay (mkDate y m d) = d := by
  have hy : y < 65536 := by have := h.year; omega
  have hm : m < 256 := by have := h.month; omega
  have hd : d < 256 := by have := h.day; have := daysIn_le y m; omega
  exact ⟨dateYear_mkDate hy hm hd, dateMonth_mkDate hy hm hd, dateDay_mkDate hy hm hd⟩

theorem dateOk_mkDate (h : IsDate y m d) : dateOk (mkDate y m d) = true := by
  obtain ⟨hy, hm, hd⟩ := h.fields
  rwa [dateOk_iff, hy, hm, hd]

end

/-! ### Seconds -/

/-- The day of a second, and the second of its day. -/
theorem secOf_split {d t : Word} (hd : 1 ≤ dateDay d) (ht : timeOk t = true) :
    secOf d t / 86400 + 1 = yearStart (dateYear d) + monthStart (dateYear d) (dateMonth d) + dateDay d
    ∧ secOf d t % 86400 = timeHour t * 3600 + timeMin t * 60 + timeSec t := by
  rw [timeOk_iff] at ht
  unfold secOf
  omega

theorem timeOf_secOf {d t : Word} (hd : 1 ≤ dateDay d) (ht : timeOk t = true) :
    timeOf (secOf d t) = mkTime (timeHour t) (timeMin t) (timeSec t) := by
  have hx := (secOf_split hd ht).2
  rw [timeOk_iff] at ht
  have hhour : secOf d t % 86400 / 3600 = timeHour t := by omega
  have hmin : secOf d t % 3600 / 60 = timeMin t := by omega
  have hsec : secOf d t % 60 = timeSec t := by omega
  rw [timeOf, hhour, hmin, hsec]

theorem time_fields (x : Nat) :
    timeHour (timeOf x) = x % 86400 / 3600 ∧ timeMin (timeOf x) = x % 3600 / 60 ∧ timeSec (timeOf x) = x % 60 := by
  have hh : x % 86400 / 3600 < 32 := by omega
  have hm : x % 3600 / 60 < 64 := by omega
  have hs : x % 60 < 64 := by omega
  exact ⟨timeHour_mkTime hh hm hs, timeMin_mkTime hh hm hs, timeSec_mkTime hh hm hs⟩

theorem timeOk_timeOf (x : Nat) : timeOk (timeOf x) = true := by
  obtain ⟨hh, hm, hs⟩ := time_fields x
  rw [timeOk_iff, hh, hm, hs]
  omega

/-- A second of the range lies in one of the calendar's days. -/
theorem day_lt_of_le_lastSec {x : Nat} (h : x ≤ lastSec) : x / 86400 < yearStart 2400 := by
  rw [lastSec_eq] at h
  rw [yearStart_2400]
  omega

theorem secOf_le_lastSec {d t : Word} (hd : dateOk d = true) (ht : timeOk t = true) : secOf d t ≤ lastSec := by
  have hdate := (dateOk_iff d).mp hd
  have hday := (secOf_split hdate.day.1 ht).1
  have hnext := hdate.lt_next_year
  have hend := yearStart_mono (y := dateYear d + 1) (Nat.le_trans hdate.year.1 (Nat.le_succ _)) (Nat.add_le_add_right hdate.year.2 1)
  rw [yearStart_2400] at hend
  rw [lastSec_eq]
  omega

/-- Settles O59: both ways through the one date whose day a second lies in (`dateOf_eq`), which exists for each second of the range. -/
theorem calendarRoundTrip : Obligations.CalendarRoundTrip := by
  refine ⟨fun d t hd ht => ?spelled, fun x hx => ?counted⟩
  case spelled =>
    have hdate := (dateOk_iff d).mp hd
    refine ⟨secOf_le_lastSec hd ht, ?_, timeOf_secOf hdate.day.1 ht⟩
    rw [dateOf_eq hdate (secOf_split hdate.day.1 ht).1, mkDate_fields]
  case counted =>
    obtain ⟨y, m, d, hdate, hday⟩ := exists_date (day_lt_of_le_lastSec hx)
    obtain ⟨hy, hm, hd⟩ := hdate.fields
    obtain ⟨hhour, hmin, hsec⟩ := time_fields x
    have hpos := hdate.day.1
    rw [dateOf_eq hdate hday]
    refine ⟨dateOk_mkDate hdate, timeOk_timeOf x, ?_⟩
    rw [secOf, hy, hm, hd, hhour, hmin, hsec]
    omega

/-! ### Dates some months on -/

/-- Month `q` counted from year 0: its year and its month. -/
theorem addMonths_eq (d : Word) (k : Nat) {q : Nat} (hq : q = dateYear d * 12 + (dateMonth d - 1) + k) :
    addMonths d k = mkDate (q / 12) (q % 12 + 1) (min (dateDay d) (daysIn (q / 12) (q % 12 + 1))) := by
  subst hq; rfl

/-- Settles O60: year and month are quotient and remainder of the count of months, and the day is the lesser of the two. -/
theorem dueDates : Obligations.DueDates := by
  intro d k hd hlast hk
  obtain ⟨⟨hyear, hyear'⟩, ⟨hmonth, hmonth'⟩, hday, hday'⟩ := (dateOk_iff d).mp hd
  obtain ⟨q, hq⟩ : ∃ q, q = dateYear d * 12 + (dateMonth d - 1) + k := ⟨_, rfl⟩
  have hmax := daysIn_le (q / 12) (q % 12 + 1)
  have hmin := daysIn_pos (q / 12) (q % 12 + 1)
  have hyears : q / 12 < 65536 := by omega
  have hmonths : q % 12 + 1 < 256 := by omega
  have hdays : min (dateDay d) (daysIn (q / 12) (q % 12 + 1)) < 256 := by omega
  have hy := dateYear_mkDate hyears hmonths hdays
  have hm := dateMonth_mkDate hyears hmonths hdays
  have hdd := dateDay_mkDate hyears hmonths hdays
  rw [addMonths_eq d k hq, hy] at hlast
  rw [addMonths_eq d k hq, hy, hm, hdd]
  exact ⟨dateOk_mkDate ⟨by omega, by omega, by omega⟩, by omega, fun h => by omega, fun h => by omega⟩

end Sys2Proof.Machine
end

section
/-! PROOFS. What becomes of a powered pod (R332 to R353). -/

namespace Sys2Proof.Machine

/-- What is done to one pod matters at that pod only. -/
theorem State.upPod_congr {s : State} {n : LaneId} {p : Fin 24} {f g : Pod → Pod} (h : f (s.pod n p) = g (s.pod n p)) :
    s.upPod n p f = s.upPod n p g := by
  have hpod : f (s.line n).pods[p] = g (s.line n).pods[p] := h
  simp only [State.line] at hpod
  simp only [State.upPod, State.upLine, State.upLane, hpod]

/-- A command of a powered pod on a fitted lane does to it what it says of the pod as it is. -/
theorem State.onPod_eq {s : State} {n : LaneId} {p : Fin 24} {f g : Pod → Pod} (h1 : s.fitted n = true) (h2 : (s.pod n p).powered = true)
    (h : f (s.pod n p) = g (s.pod n p)) : s.onPod n p f = s.upPod n p g := by
  rw [State.onPod_powered h1 h2, State.upPod_congr h]

/-- A bit of CTRL acts on a pod that is not writing its store. -/
theorem State.onPod_idle {s : State} {n : LaneId} {p : Fin 24} (g : Pod → Pod) (h1 : s.fitted n = true) (h2 : (s.pod n p).powered = true)
    (h : (s.pod n p).saving = false) : s.onPod n p (fun q => if q.saving then q else g q) = s.upPod n p g :=
  State.onPod_eq h1 h2 (by simp only [h, Bool.false_eq_true, if_false])

/-- Settles O20: each command is `onPod` of a change whose guard the pod meets. -/
theorem podRowsComplete : Obligations.PodRowsComplete := by
  intro s n p
  refine ⟨fun id fw fail hpower => ?powerUp, fun tick x y z gyro recA recG hfit hpow => ?sample, fun hfit hpow hout hframes => ?join,
    fun hfit hpow haddr hroll => ?timeout, fun a bs hfit hpow hwrite => ?apply, fun hfit hpow hidle => ⟨?save, ?defaults, ?arm, ?release, ?tilt⟩,
    fun hfit hpow hsaving => ?saved, fun tick hfit hpow hm6 hgyro hdp => ?lost, fun tick hfit hpow hm6 hgyro hdp => ?ready,
    fun m hfit hpow => ?smTimeout, fun f q hq => ⟨s.pod_upPod_ne n p q f hq, s.regs_upPod n p f⟩⟩
  case powerUp => rw [exec, execPodPowerUp, if_pos hpower, fin]
  case sample => rw [exec, execPodInternalSample, hfit, hpow, Bool.and_self, if_pos rfl, fin]
  case join => exact congrArg fin (State.onPod_eq hfit hpow (by simp [hout, Nat.not_lt.mpr hframes]))
  case timeout =>
    have hold : (s.pod n p).lastRoll + 2000000 * usTicks ≤ s.clock := hroll
    exact congrArg fin (State.onPod_eq hfit hpow (by simp [haddr, hold]))
  case apply => exact congrArg fin (State.onPod_eq hfit hpow (by simp only [hwrite]))
  case save => exact congrArg fin (State.onPod_idle Pod.save hfit hpow hidle)
  case defaults => exact congrArg fin (State.onPod_idle Pod.defaults hfit hpow hidle)
  case arm => exact congrArg fin (State.onPod_idle Pod.arm hfit hpow hidle)
  case release => exact congrArg fin (State.onPod_idle Pod.capIdle hfit hpow hidle)
  case tilt => exact congrArg fin (State.onPod_idle Pod.tiltRef hfit hpow hidle)
  case saved => exact congrArg fin (State.onPod_eq hfit hpow (by simp only [hsaving, if_true]))
  case lost => exact congrArg fin (State.onPod_eq hfit hpow (by simp [hm6, hgyro, hdp]))
  case ready => exact congrArg fin (State.onPod_eq hfit hpow (by simp [hm6, hgyro, hdp]))
  case smTimeout => exact congrArg fin (State.onPod_powered hfit hpow fun q => q.smTimeout m)

end Sys2Proof.Machine
end

section
/-! PROOFS. The colophon log (R472 to R476): erasing ahead, the clears, tokens, wear and a session's reads. -/

namespace Sys2Proof.Machine

/-! ### What PRESSED and APPLIED leave (R128) -/

section
variable (s : State) (p : Page) (b : Bool)

/-- PRESSED and APPLIED are one register word. -/
theorem State.pressedOn_regs : ∃ r, s.pressedOn p b = { s with regs := r } := by
  unfold State.pressedOn
  split
  · exact ⟨s.regs, rfl⟩
  · exact ⟨_, rfl⟩

theorem State.pressedOn_log : (s.pressedOn p b).log = s.log := by obtain ⟨r, hr⟩ := s.pressedOn_regs p b; rw [hr]
theorem State.pressedOn_clock : (s.pressedOn p b).clock = s.clock := by obtain ⟨r, hr⟩ := s.pressedOn_regs p b; rw [hr]
theorem State.pressedOn_chase : (s.pressedOn p b).chase = s.chase := by obtain ⟨r, hr⟩ := s.pressedOn_regs p b; rw [hr]

theorem State.wd_pressedOn {a : Nat} (h : a ≠ p.at_ 0xD) : (s.pressedOn p b).wd a = s.wd a := by
  unfold State.pressedOn
  split
  · rfl
  · exact (State.wd_setHw ..).trans (if_neg h)

theorem State.g_pressedOn (x : Fld) (m j : Nat) (h : x.addr m j ≠ p.at_ 0xD) : (s.pressedOn p b).g x m j = s.g x m j := by
  rw [State.g, s.wd_pressedOn p b h, State.g]

end

/-! ### Sectors and the flash -/

section
variable (s : State)

@[simp] theorem State.g_upLog (f : Colophon → Colophon) (x : Fld) (m j : Nat) : (s.upLog f).g x m j = s.g x m j := rfl
@[simp] theorem State.log_upLog (f : Colophon → Colophon) : (s.upLog f).log = f s.log := rfl
@[simp] theorem State.clock_upLog (f : Colophon → Colophon) : (s.upLog f).clock = s.clock := rfl

theorem State.sectorErased_eq (i : Nat) : ∃ r e, s.sectorErased i = { s with regs := r, log := { s.log with erases := e } } := by
  unfold State.sectorErased
  extract_lets c t
  exact ⟨_, _, rfl⟩

/-- Erasing sectors moves their counts and ERASE_MAX. -/
theorem State.sectorsErased_eq (l : List Nat) : ∃ r e, s.sectorsErased l = { s with regs := r, log := { s.log with erases := e } } := by
  induction l generalizing s with
  | nil => exact ⟨s.regs, s.log.erases, rfl⟩
  | cons i l ih =>
    obtain ⟨r, e, h⟩ := s.sectorErased_eq i
    obtain ⟨r', e', h'⟩ := ih (s.sectorErased i)
    rw [h] at h'
    exact ⟨r', e', by rw [State.sectorsErased, List.foldl_cons, h]; exact h'⟩

@[simp] theorem State.clock_sectorsErased (l : List Nat) : (s.sectorsErased l).clock = s.clock := by
  obtain ⟨r, e, h⟩ := s.sectorsErased_eq l; rw [h]
@[simp] theorem State.fault_sectorsErased (l : List Nat) : (s.sectorsErased l).log.fault = s.log.fault := by
  obtain ⟨r, e, h⟩ := s.sectorsErased_eq l; rw [h]
@[simp] theorem State.buffer_sectorsErased (l : List Nat) : (s.sectorsErased l).log.buffer = s.log.buffer := by
  obtain ⟨r, e, h⟩ := s.sectorsErased_eq l; rw [h]

/-- The end of background work raises no notice. -/
theorem State.bgLog_off : s.bgLog false = s.put MOD.BG_LOG_WEAR 0 0 := rfl

theorem State.drainBuffer_empty (h : s.log.buffer = []) : s.drainBuffer s.log.buffer.length = s := by rw [h]; rfl

@[simp] theorem State.g_flashHeld (x : Fld) (m j : Nat) : s.flashHeld.g x m j = s.g x m j := rfl
@[simp] theorem State.fault_flashHeld : s.flashHeld.log.fault = s.log.fault := rfl
@[simp] theorem State.general_flashHeld : s.flashHeld.log.general = s.log.general := rfl

/-- A clear holds the flash for 4 s at most (R473). -/
theorem State.clearTo_flashHeld : s.flashHeld.log.clearTo ≤ s.clock + 4000 * msTicks := Nat.add_le_add_left (Nat.min_le_right _ _) _

theorem State.clock_logIt (code lane origin : Nat) : (s.logIt code lane origin).clock = s.clock := by
  obtain ⟨_, _, _, _, _, _, h⟩ := (SameButLog.of_logIt s code lane origin).rest
  rw [h]

/-! ### The erase ahead (R475) -/

/-- A sector has been erased ahead, with no entry waiting for it. -/
def State.erasedAhead : State :=
  let u := (s.sectorErased s.log.nextSector).upLog fun l => { l with ahead := l.ahead + 1, granted := false }
  ((u.put LOG.STAT_ERASING 0 0).put LOG.STAT_WEAR_DUE 0 0).put MOD.BG_LOG_WEAR 0 0

theorem exec_logEraseComplete {s : State} (hup : s.chaseUp = true) (herasing : s.on LOG.STAT_ERASING 0 = true) (hbuf : s.log.buffer = []) :
    exec .logEraseComplete s = .next s.erasedAhead.settle := by
  have hdrain : s.erasedAhead.drainBuffer s.erasedAhead.log.buffer.length = s.erasedAhead := State.drainBuffer_empty _ hbuf
  have hbody : execLogEraseComplete s = fin (s.erasedAhead.drainBuffer s.erasedAhead.log.buffer.length) := by
    rw [execLogEraseComplete, hup, herasing]; rfl
  rw [exec, hbody, hdrain, fin]

theorem State.erasedAhead_log : s.erasedAhead.log.ahead = s.log.ahead + 1 ∧ s.erasedAhead.log.general = s.log.general
    ∧ s.erasedAhead.log.fault = s.log.fault := ⟨rfl, rfl, rfl⟩

theorem State.erasedAhead_status : s.erasedAhead.g LOG.STAT_ERASING 0 = 0 ∧ s.erasedAhead.g LOG.STAT_WEAR_DUE 0 = 0
    ∧ s.erasedAhead.g MOD.BG_LOG_WEAR 0 = 0 := by
  refine ⟨?_, ?_, State.g_put_same _ _ _ _ rfl⟩
  · rw [State.erasedAhead, State.g_put_ne _ _ _ _ _ _ _ rfl (.inl (by decide)), State.g_put_ne _ _ _ _ _ _ _ rfl (.inr (by decide)),
      State.g_put_same _ _ _ _ rfl]
    rfl
  · rw [State.erasedAhead, State.g_put_ne _ _ _ _ _ _ _ rfl (.inl (by decide)), State.g_put_same _ _ _ _ rfl]
    rfl

/-- The erase runs unsuspended by itself. -/
def State.wearForced : State := ((s.eraseRuns true).upLog fun l => { l with preempted := true }).bump LOG.WEAR_PREEMPTS 0

theorem State.wearForced_status : s.wearForced.g LOG.STAT_ERASING 0 = 1
    ∧ s.wearForced.g LOG.WEAR_PREEMPTS 0 = min (s.g LOG.WEAR_PREEMPTS 0 + 1) 0xFFFFFFFF := by
  constructor
  · rw [State.wearForced, State.g_bump_ne _ _ _ _ _ _ _ _ rfl (.inl (by decide)), State.g_upLog, State.eraseRuns, State.g_upLog,
      State.g_put_same _ _ _ _ rfl]
    rfl
  · rw [State.wearForced, State.g_bump_same _ _ _ _ _ rfl, State.g_upLog, State.eraseRuns, State.g_upLog,
      State.g_put_ne _ _ _ _ _ _ _ rfl (.inl (by decide))]
    rfl

/-! ### The clears (R473, R474) -/

theorem State.clearFault_done (origin : Nat) :
    (s.clearFault origin).log.fault = [] ∧ (s.clearFault origin).g LOG.STAT_FAULT_COUNT 0 = 0
    ∧ (s.clearFault origin).g LOG.STAT_FAULT_FULL 0 = 0 ∧ (s.clearFault origin).log.clearTo ≤ s.clock + 4000 * msTicks := by
  refine ⟨?_, ?_, ?_, ?_⟩
  · simp only [State.clearFault, State.fault_flashHeld, State.put_log, State.log_upLog]
  · simp only [State.clearFault, State.g_flashHeld]
    rw [State.g_put_ne _ _ _ _ _ _ _ rfl (.inr (by decide)), State.g_put_same _ _ _ _ rfl]
    rfl
  · simp only [State.clearFault, State.g_flashHeld]
    rw [State.g_put_same _ _ _ _ rfl]
    rfl
  · have hclock := State.clearTo_flashHeld
    simp only [State.clearFault]
    refine Nat.le_trans (hclock _) (Nat.le_of_eq ?_)
    simp only [State.put_clock, State.clock_upLog, State.clock_sectorsErased, State.clock_logIt]

/-- The general region has been emptied, with no entry waiting. -/
def State.generalCleared : State :=
  let u := s.sectorsErased ((List.range (generalSectors - s.log.ahead)).map fun i => (s.log.nextSector + i) % generalSectors)
  let u := u.upLog fun l =>
    { l with general := [], fullTold := false, granted := false, ahead := generalSectors,
             pos := (l.pos + sectorEntries - 1) / sectorEntries * sectorEntries % (generalSectors * sectorEntries) }
  (((u.put LOG.STAT_GEN_FULL 0 0).put LOG.STAT_WEAR_DUE 0 0).put LOG.STAT_ERASING 0 0).put MOD.BG_LOG_WEAR 0 0

theorem State.generalCleared_log : s.generalCleared.log.general = [] ∧ s.generalCleared.log.fault = s.log.fault
    ∧ s.generalCleared.log.buffer = s.log.buffer := by
  simp only [State.generalCleared, State.put_log, State.log_upLog, State.fault_sectorsErased, State.buffer_sectorsErased, and_self]

theorem State.generalCleared_status : s.generalCleared.g LOG.STAT_GEN_FULL 0 = 0 ∧ s.generalCleared.g LOG.STAT_ERASING 0 = 0 := by
  constructor
  · rw [State.generalCleared, State.g_put_ne _ _ _ _ _ _ _ rfl (.inl (by decide)), State.g_put_ne _ _ _ _ _ _ _ rfl (.inr (by decide)),
      State.g_put_ne _ _ _ _ _ _ _ rfl (.inr (by decide)), State.g_put_same _ _ _ _ rfl]
    rfl
  · rw [State.generalCleared, State.g_put_ne _ _ _ _ _ _ _ rfl (.inl (by decide)), State.g_put_same _ _ _ _ rfl]
    rfl

theorem State.clearGeneral_of_no_buffer (h : s.log.buffer = []) : s.clearGeneral = s.generalCleared.flashHeld := by
  have hdrain := s.generalCleared.drainBuffer_empty (s.generalCleared_log.2.2.trans h)
  calc s.clearGeneral = (s.generalCleared.drainBuffer s.generalCleared.log.buffer.length).flashHeld := rfl
    _ = s.generalCleared.flashHeld := by rw [hdrain]

end

/-! ### The LOG page's words (R473 to R476) -/

section
variable {s : State} {w : Writer} {v : Word}

/-- No word of the LOG page is mirrored: an accepted one has its effect at once. -/
theorem logPress_taken {off : Nat} (h2 : off ≠ 2) (h : s.taken w .log off v (logChk w off v (s.staged .log off v))) :
    logPress w off v s = s.nearDone .log (logEff w off v 0) := pressOne_near rfl h2 h

theorem logEff_grant (hdue : s.on LOG.STAT_WEAR_DUE 0 = true) : logEff w 0x11 0x10 0 s = s.eraseRuns true := by
  have h4 : bitAt (0x10 : Word) 4 = true := rfl
  have h0 : bitAt (0x10 : Word) 0 = false := rfl
  have h1 : bitAt (0x10 : Word) 1 = false := rfl
  simp only [logEff, if_true, h4, h0, h1, hdue, Bool.and_self, Bool.false_eq_true, if_false]

/-- A clear's word: its key in the upper half and one of the low bits. -/
theorem logEff_clearFault {key : Nat} (hv : v = BitVec.ofNat 32 (key * 65536 + 1)) :
    logEff w 0x11 v 0 s = s.clearFault w.holder := by
  have h4 : bitAt v 4 = false := by rw [hv, bitAt_ofNat (by decide)]; exact decide_eq_false (by omega)
  have h0 : bitAt v 0 = true := by rw [hv, bitAt_ofNat (by decide)]; exact decide_eq_true (by omega)
  have h1 : bitAt v 1 = false := by rw [hv, bitAt_ofNat (by decide)]; exact decide_eq_false (by omega)
  simp only [logEff, if_true, h4, h0, h1, Bool.false_and, Bool.false_eq_true, if_false]

theorem logEff_clearGeneral {key : Nat} (hv : v = BitVec.ofNat 32 (key * 65536 + 2)) :
    logEff w 0x11 v 0 s = s.clearGeneral := by
  have h4 : bitAt v 4 = false := by rw [hv, bitAt_ofNat (by decide)]; exact decide_eq_false (by omega)
  have h0 : bitAt v 0 = false := by rw [hv, bitAt_ofNat (by decide)]; exact decide_eq_false (by omega)
  have h1 : bitAt v 1 = true := by rw [hv, bitAt_ofNat (by decide)]; exact decide_eq_true (by omega)
  simp only [logEff, if_true, h4, h0, h1, Bool.false_and, Bool.false_eq_true, if_false]

end

/-- Settles O31, clause by clause; an erase and a clear end in a state of their own, and what the clause says of it is read off there. -/
theorem logRowsComplete : Obligations.LogRowsComplete := by
  intro s w k
  refine ⟨fun code lane origin detail hup hcode => ?entry, fun hup hdue => ?refill, fun hup hdue => ?start, fun hup herasing hbuf => ?complete,
    fun hup hdue hfor hquiet => ?notice, fun hdue htaken => ?grant, fun hup hdue hfor hgrant => ?forced, fun key v hv htaken => ?fault,
    fun key v hv htaken hbuf => ?general, fun v htaken => ?fetch, fun e hfetch hup hfound => ?found, fun hfetch hup hgone => ?gone⟩
  case entry => rw [exec, execLogEntry, hup, hcode, Bool.and_self, if_pos rfl, fin]
  case refill =>
    have hticks : s.log.bucketAt + tokenTicks ≤ s.clock := hdue
    rw [exec, execTokenRefill, hup, decide_eq_true hticks, Bool.and_self, if_pos rfl, fin]
    rfl
  case start =>
    rw [exec, execLogEraseStart, hup, hdue, Bool.and_self, if_pos rfl, fin]
    simp only [State.eraseRuns, State.upLog, Bool.false_or]
  case complete =>
    obtain ⟨hahead, hgeneral, hfault⟩ := s.erasedAhead_log
    obtain ⟨herase, hwear, hbg⟩ := s.erasedAhead_status
    exact ⟨_, exec_logEraseComplete hup herasing hbuf, herase, hwear, hahead, hgeneral, hfault, hbg⟩
  case notice => simp [exec, execWearNotice, State.wearFor, hup, hdue, hfor, hquiet, fin]
  case grant =>
    rw [exec, execWearGrant, logPress_taken (by decide) htaken]
    exact congrArg fin (State.nearDone_congr (logEff_grant hdue))
  case forced =>
    refine ⟨s.wearForced, ?_, rfl, rfl, s.wearForced_status⟩
    simp [exec, execWearForced, State.wearFor, hup, hdue, hfor, hgrant, fin, State.wearForced]
  case fault =>
    obtain ⟨hlog, hcount, hfull, hflash⟩ := s.clearFault_done w.holder
    refine ⟨(s.clearFault w.holder).pressedOn .log true, ?_, ?_, ?_, ?_, ?_⟩
    · rw [exec, execClearFault, ← hv, logPress_taken (by decide) htaken, State.nearDone, logEff_clearFault hv, fin]
    · rw [State.pressedOn_log, hlog]
    · rw [State.g_pressedOn _ _ _ _ _ _ (by decide), hcount]
    · rw [State.g_pressedOn _ _ _ _ _ _ (by decide), hfull]
    · rw [State.pressedOn_log]; exact hflash
  case general =>
    obtain ⟨hlog, hfault, -⟩ := s.generalCleared_log
    obtain ⟨hfull, herase⟩ := s.generalCleared_status
    refine ⟨s.generalCleared.flashHeld.pressedOn .log true, ?_, ?_, ?_, ?_, ?_⟩
    · rw [exec, execClearGeneral, ← hv, logPress_taken (by decide) htaken, State.nearDone, logEff_clearGeneral hv,
        s.clearGeneral_of_no_buffer hbuf, fin]
    · rw [State.pressedOn_log, State.general_flashHeld, hlog]
    · rw [State.pressedOn_log, State.fault_flashHeld, hfault]
    · rw [State.g_pressedOn _ _ _ _ _ _ (by decide), State.g_flashHeld, hfull]
    · rw [State.g_pressedOn _ _ _ _ _ _ (by decide), State.g_flashHeld, herase]
  case fetch =>
    rw [exec, execLogFetch, logPress_taken (by decide) htaken]
    exact congrArg fin (State.nearDone_congr rfl)
  case found => rw [exec, execLogFetchComplete, hfetch, hup, hfound, Bool.and_self, if_pos rfl, fin]
  case gone => rw [exec, execLogFetchComplete, hfetch, hup, hgone, Bool.and_self, if_pos rfl, fin]

end Sys2Proof.Machine
end

section
/-! PROOFS. Program-signing keys, ceilings, the end of a grant and the calendar (R453, R458 to R471). -/

namespace Sys2Proof.Machine

/-! ### Words of PKEY_CTL -/

/-- One bit of a word after a bit has been written. -/
theorem bitAt_withBit (v : Word) {i : Nat} (hi : i < 32) (b j : Nat) :
    bitAt (withBits v i i b) j = if i = j then b.testBit 0 else bitAt v j := by
  rw [bitAt, withBits_getLsbD v i i b j (Nat.le_refl i) hi]
  by_cases h : i = j
  · subst h; rw [if_pos ⟨Nat.le_refl i, Nat.le_refl i⟩, if_pos rfl, Nat.sub_self]
  · rw [if_neg (by omega), if_neg h]; rfl

section
variable {s : State} {w : Writer} {v x : Word}

/-- No word of the CHASE page is mirrored: an accepted PKEY_CTL has its effect at once. -/
theorem pkeyPress_taken {words : List Word} (h : s.taken w .chase 0x27 v (pkeyChk words v)) :
    pkeyPress w words v s = s.nearDone .chase (pkeyEff w.holder words v) := pressOne_near rfl (by decide) h

theorem pkeyEff_load {words : List Word} (hx : x = withBits (withBits v 8 8 1) 9 9 0) (h : Nat) :
    pkeyEff h words x s = ((s.putPkey (bitsOf x 1 0) words true).logIt 0x018 noLane h).raise .chase 2 := by
  have h8 : bitAt x 8 = true := by rw [hx, bitAt_withBit _ (by decide), bitAt_withBit _ (by decide)]; rfl
  simp only [pkeyEff, h8, if_true]

theorem pkeyEff_erase (hx : x = withBits (withBits v 9 9 1) 8 8 0) (h : Nat) :
    pkeyEff h [] x s = ((s.putPkey (bitsOf x 1 0) (List.replicate 8 0) false).logIt 0x018 noLane h).raise .chase 2 := by
  have h8 : bitAt x 8 = false := by rw [hx, bitAt_withBit _ (by decide)]; rfl
  have h9 : bitAt x 9 = true := by rw [hx, bitAt_withBit _ (by decide), bitAt_withBit _ (by decide)]; rfl
  simp only [pkeyEff, h8, h9, Bool.false_eq_true, if_false, if_true]

end

/-! ### The island's clock -/

/-- The island's clock stands as it stood. -/
structure SameIsland (s t : State) : Prop where
  sec : t.chase.islandSec = s.chase.islandSec
  set : t.chase.islandSet = s.chase.islandSet

namespace SameIsland

theorem refl (s : State) : SameIsland s s := ⟨rfl, rfl⟩
theorem of_chase {s t : State} (h : t.chase = s.chase) : SameIsland s t := ⟨by rw [h], by rw [h]⟩
theorem trans {s t u : State} (h : SameIsland s t) (k : SameIsland t u) : SameIsland s u := ⟨k.sec.trans h.sec, k.set.trans h.set⟩

theorem foldl {α : Type} {f : State → α → State} (h : ∀ s x, SameIsland s (f s x)) (l : List α) (s : State) : SameIsland s (l.foldl f s) := by
  induction l generalizing s with
  | nil => exact refl s
  | cons x l ih => exact (h s x).trans (ih (f s x))

variable (s : State)

theorem of_raise (p : Page) (b : Nat) : SameIsland s (s.raise p b) := of_chase (s.raise_chase p b)

/-- An entry of the log leaves what Chase keeps. -/
theorem of_log {s t : State} (h : SameButLog s t) : SameIsland s t := by
  obtain ⟨_, _, _, _, _, _, rfl⟩ := h.rest
  exact of_chase rfl

theorem of_calShow (src : Nat) (leap : Bool) : SameIsland s (s.calShow src leap) := by
  refine of_chase ?_
  unfold State.calShow
  extract_lets a b c
  have hc : c.chase = s.chase := by simp only [c, b, a, State.put_chase]
  split <;> simp only [State.put_chase, hc]

theorem of_calSourceTold (oldSrc : Nat) (oldDate oldTime : Word) : SameIsland s (s.calSourceTold oldSrc oldDate oldTime) := by
  unfold State.calSourceTold
  extract_lets src
  split
  · exact refl s
  · exact (of_log (SameButLog.of_offer ..)).trans (of_raise _ _ _)

theorem of_alarmAt : SameIsland s s.alarmAt := by
  unfold State.alarmAt
  extract_lets d t u
  split
  · split
    · exact ⟨rfl, rfl⟩
    · exact SameIsland.trans (t := u) ⟨rfl, rfl⟩ (of_raise u _ _)
  · exact refl s

theorem of_calLane (n : LaneId) : SameIsland s (s.calLane n) := by
  unfold State.calLane
  extract_lets dead old t u
  have ht : SameIsland s t := of_chase (State.put_chase ..)
  have hu : SameIsland s u := ht.trans (of_chase (State.put_chase ..))
  split
  · exact refl s
  · split
    · exact ht
    · split
      · exact hu.trans ((of_raise _ _ _).trans (of_raise _ _ _))
      · exact hu.trans (of_log (SameButLog.of_logIt ..))

theorem of_calDueSoon (n : LaneId) : SameIsland s (s.calDueSoon n) := by
  unfold State.calDueSoon
  split
  · split
    · exact SameIsland.trans (t := s.upChase _) ⟨rfl, rfl⟩ (of_raise _ _ _)
    · exact refl s
  · exact refl s

theorem of_calEvaluate : SameIsland s s.calEvaluate := by
  unfold State.calEvaluate
  split
  · exact foldl (fun s n => (of_calLane s n).trans (of_calDueSoon (s.calLane n) n)) allLanes s
  · exact refl s

/-- What follows once the clock shows a new second: the display, a change of the source, the alarm and expiry. -/
theorem of_alarmed (b : Prop) [Decidable b] : SameIsland s (if b then s else s.alarmAt).calEvaluate := by
  split
  · exact of_calEvaluate s
  · exact (of_alarmAt s).trans (of_calEvaluate s.alarmAt)

end SameIsland

/-- On the island's own clock a second advances it by one, up to the end of 2399 (R464). -/
theorem State.islandSec_calSecond {s : State} (h : s.calSource = srcIsland) :
    s.calSecond.chase.islandSec = min (s.chase.islandSec + 1) lastSec := by
  have hptp : (srcIsland == srcPtp) = false := rfl
  have hne : srcIsland ≠ srcPtp := by decide
  have hleap : s.leapDue srcIsland = false := by rw [State.leapDue, hptp]; rfl
  simp only [State.calSecond, h, hleap, hptp, hne, Bool.false_and, Bool.false_eq_true, if_false]
  rw [(SameIsland.of_alarmed _ _).sec, (SameIsland.of_calSourceTold _ _ _ _).sec, (SameIsland.of_calShow _ _ _).sec]
  rfl

/-- SET sets the island's clock (R465). -/
theorem State.island_calSet (s : State) (origin : Nat) : (s.calSet origin).chase.islandSet = true
    ∧ (s.calSet origin).chase.islandSec = secOf (s.wd (CAL.SET_DATE.addr 0 0)) (s.wd (CAL.SET_TIME.addr 0 0)) := by
  unfold State.calSet
  extract_lets oldSrc oldDate oldTime x was u1 u2 u3 u4 onward
  have hshown : SameIsland u1 u4 :=
    ((SameIsland.of_calShow u1 _ _).trans (SameIsland.of_log (SameButLog.of_offer u2 _))).trans (SameIsland.of_calSourceTold u3 _ _ _)
  have hkept : SameIsland u1 (if onward then u4.alarmAt else u4).calEvaluate := by
    split
    · exact hshown.trans ((SameIsland.of_alarmAt u4).trans (SameIsland.of_calEvaluate _))
    · exact hshown.trans (SameIsland.of_calEvaluate u4)
  exact ⟨hkept.set, hkept.sec⟩

/-- Settles O30: the words of the CHASE and CAL pages by their effect, the calendar by what its second leaves of the island's clock. -/
theorem keyGrantAndCalendarRowsComplete : Obligations.KeyGrantAndCalendarRowsComplete := by
  intro s w n
  refine ⟨fun words v x hx hlen htaken => ?load, fun v x hx htaken => ?erase, fun i v htaken => ?ceiling, fun h g hgrant hover => ?expiry,
    fun hisland => ?second, fun hisland hsrc => ⟨s.calSecond, ?island, State.islandSec_calSecond hsrc⟩, fun htaken => ?set⟩
  case load =>
    rw [exec, execPkeyLoad, ← hx, pkeyPress_taken htaken]
    exact congrArg fin (State.nearDone_congr (pkeyEff_load hx _))
  case erase =>
    rw [exec, execPkeyErase, ← hx, pkeyPress_taken htaken]
    exact congrArg fin (State.nearDone_congr (pkeyEff_erase hx _))
  case ceiling =>
    have hoff : 0x60 + 4 * n.val + i.val ≠ 2 := by omega
    exact congrArg fin (pressOne_near rfl hoff htaken)
  case expiry => simp only [exec, execGrantExpiry, hgrant, hover, if_true, fin]
  case second => rw [exec, execCalendarSecond, if_pos hisland, fin]
  case island => rw [exec, execCalendarSecond, if_pos hisland, fin]
  case set =>
    obtain ⟨hset, hsec⟩ := s.island_calSet w.holder
    refine ⟨(s.calSet w.holder).pressedOn .cal true, ?_, ?_, ?_⟩
    · have hpress : calPress w 0x15 1 s = s.nearDone .cal (calEff w.holder 0x15 1 0) := pressOne_near rfl (by decide) htaken
      rw [exec, execCalSet, hpress]
      rfl
    · rw [State.pressedOn_chase, hset]
    · rw [State.pressedOn_chase, hsec]

end Sys2Proof.Machine
end

section
/-! PROOFS. Chase's services: a GO, a monitor's GO, and each service on the request at the head of the queue (R447 to R457, R460, R461, R469). -/

namespace Sys2Proof.Machine

section
variable {s : State} {r : SvcReq}

/-- A request that is served ends with what its service comes to on the state in which it has left the queue. -/
theorem fin_serve {op : Nat} {f : SvcReq → State → (Nat × List Word) × State} {code : Nat} {res : List Word} {u : State} (h : s.serving op r)
    (hf : f r s.popped = ((code, res), u)) : fin (s.serve op f) = .next (u.served r code res).settle := by
  rw [serve_serving h, hf, fin]

/-! ### A GO (R447) -/

/-- A request for a service that there is waits. -/
theorem State.svcSkip_of_service {rest : List SvcReq} (hq : s.chase.queue = r :: rest) (hop : svcCodes.contains r.op = true) (k : Nat) :
    s.svcSkip k = s := by
  cases k with
  | zero => rfl
  | succ k => simp only [State.svcSkip, hq, hop, if_true]

/-- The first request in the queue, for a service that there is, waits there. -/
theorem State.svcPut_first (hq : s.chase.queue = []) (hop : svcCodes.contains r.op = true) :
    s.svcPut r = s.upChase fun c => { c with queue := c.queue ++ [r] } := by
  have hqueue : (s.upChase fun c => { c with queue := c.queue ++ [r] }).chase.queue = [r] := by
    simp only [State.upChase, hq, List.nil_append]
  exact State.svcSkip_of_service hqueue hop _

theorem State.box_upBox_same (k : SessId) (f : Box → Box) : (s.upBox k f).box k = f (s.box k) := by
  simp only [State.box, State.upBox, State.upChase, Fin.getElem_fin, Vector.getElem_set_self]

/-- The mailbox of session k once its GO of the word `v` is taken. -/
def State.goTaken (s : State) (k : SessId) (v : Word) : State :=
  s.upBox k fun b => { b with state := 1, outcome := 0, op := bitsOf v 7 0, seq := (b.seq + 1) % 256 }

theorem State.args_goTaken (k : SessId) (v : Word) : ((s.goTaken k v).box k).args = (s.box k).args := by
  rw [State.goTaken, State.box_upBox_same]

theorem State.svcGo_first {k : SessId} {v : Word} (hgo : bitAt v 31 = true) (hop : svcCodes.contains (bitsOf v 7 0) = true)
    (hq : s.chase.queue = []) : s.svcGo k v
      = (s.goTaken k v).upChase fun c => { c with queue := c.queue ++ [⟨k.val, bitsOf v 7 0, (s.box k).args.toList⟩] } := by
  have hbody : s.svcGo k v = (s.goTaken k v).svcPut ⟨k.val, bitsOf v 7 0, ((s.goTaken k v).box k).args.toList⟩ := if_pos hgo
  rw [hbody, State.args_goTaken]
  exact State.svcPut_first hq hop

/-- With no request in the queue no mailbox is BUSY. -/
theorem State.svcChk_of_empty (w : Writer) (v : Word) (hq : s.chase.queue = []) : s.svcChk w v = none := by
  simp only [State.svcChk, State.svcBusy, hq, List.any_nil, Bool.and_false, Bool.false_eq_true, if_false]

theorem State.chase_staged (p : Page) (off : Nat) (v : Word) : (s.staged p off v).chase = s.chase := by
  unfold State.staged
  split <;> rfl

/-! ### Where each service succeeds -/

theorem programLoad_ok {k : SessId} {n : LaneId} {b : List Byte} (hask : s.pgmAsk r = .ok (k, n, b)) (hcheck : s.pgmCheck n b = svOk) :
    programLoad r s = ((svOk, [recWord b 0xA0]), s.loadProgram n k b) := by
  simp only [programLoad, hask, hcheck, ne_eq, not_true_eq_false, if_false]

theorem friskRequest_ok {n : LaneId} {want f : Frisket} (hlane : s.friskLane r = .ok n) (hwant : want = ⟨r.arg 1, r.arg 2, r.arg 3⟩)
    (hv : limitBad (r.arg 1) hwMax.v = false) (hi : limitBad (r.arg 2) hwMax.i = false) (he : limitBad (r.arg 3) hwMax.e = false)
    (hsecs : (r.arg 4).toNat ≤ 86400)
    (hf : f = (if r.engine.isSome then Frisket.min (Frisket.min want (s.ceiling n)) (s.loaderFrisket n) else Frisket.min want (s.ceiling n))) :
    friskRequest r s = ((if f = want then svOk else svClamped, [f.v, f.i, f.e]),
      s.setGrant r.who n f (r.arg 4).toNat (if r.engine.isSome then (s.loader n).map (·.val) else none)) := by
  subst hwant hf
  simp only [friskRequest, hlane, hv, hi, he, decide_eq_false (Nat.not_lt.mpr hsecs), Bool.or_self, Bool.false_eq_true, if_false]

theorem friskRelease_ok {n : LaneId} (hlane : s.friskLane r = .ok n) : friskRelease r s = ((svOk, []), s.endGrant r.who n) := by
  simp only [friskRelease, hlane, svcEnds]

theorem calWrite_ok {n : LaneId} {b : List Byte} (hright : s.svcRight r 2 = true) (hlane : laneArg (r.arg 0) = some n)
    (hbit : s.svcLane r n none = true) (hfit : s.fitted n = true) (hlock : (s.lane n).link.locked = true)
    (hstop : s.stopped (.lane n .smu) = true) (hflash : s.flashBusy = false) (hbytes : s.stagedBytes n (r.arg 1) (r.arg 2) = some b)
    (hformat : recFormatOk b n.val = true) (hdate : s.recDateOk b = true) (hdue : dateYear (recDue b) ≤ 2399) :
    calWrite true r s = ((svOk, []), ((s.upChase fun c =>
      { c with recs := c.recs.set n (some b), dueTold := c.dueTold &&& ~~~(BitVec.twoPow 16 n.val) }).logIt 0x024 n.val r.who).calLane n) := by
  simp only [calWrite, svcEnds, hright, hlane, hbit, hfit, hlock, hstop, hflash, hbytes, hformat, hdate, Nat.not_lt.mpr hdue, Bool.not_true,
    Bool.or_self, Bool.false_eq_true, if_false]

section
variable {n : LaneId} (hwho : r.who = 0) (hlane : laneArg (r.arg 0) = some n) (hfit : s.fitted n = true)
include hwho hlane hfit

theorem State.imageAsk_busy (hflash : s.flashBusy = true) : s.imageAsk r = .error svBusy := by
  simp only [State.imageAsk, hwho, hlane, hfit, hflash, ne_eq, not_true_eq_false, Bool.not_true, Bool.false_eq_true, if_false, if_true]

/-- An image in the right form, not older than the rollback limit, is judged by its signature. -/
theorem State.imageAsk_staged {b : List Byte} (hflash : s.flashBusy = false) (hbytes : s.stagedBytes n (r.arg 1) (r.arg 2) = some b)
    (hformat : imgFormatOk b = true) (hroll : s.g MOD.BOOT_ROLLBACK 0 ≤ imgRollback b) :
    s.imageAsk r = if imgSigned b then .ok b else .error svSignature := by
  simp only [State.imageAsk, hwho, hlane, hfit, hflash, hbytes, hformat, Nat.not_lt.mpr hroll, ne_eq, not_true_eq_false, Bool.not_true,
    Bool.false_eq_true, if_false]
  cases imgSigned b <;> rfl

end

theorem imageWrite_error {e : Nat} (h : s.imageAsk r = .error e) : imageWrite true r s = ((e, []), s) := by
  simp only [imageWrite, h, svcEnds]

theorem imageWrite_ok {b : List Byte} (h : s.imageAsk r = .ok b) :
    imageWrite true r s = ((svOk, []), (s.putSlot (!s.bootedB) (imgSlot b)).logIt 0x004 noLane r.who) := by
  simp only [imageWrite, h, svcEnds, Bool.not_true, Bool.false_eq_true, if_false]

theorem rollbackAdvance_ok (hwho : r.who = 0) (hmore : s.g MOD.BOOT_ROLLBACK 0 < (r.arg 0).toNat) (hmax : (r.arg 0).toNat ≤ 63)
    (hslot : (r.arg 0).toNat ≤ (s.slot s.bootedB).rollback) (hconf : s.on MOD.BOOT_CONFIRMED 0 = true) :
    rollbackAdvance r s = ((svOk, []), (s.put MOD.BOOT_ROLLBACK 0 (r.arg 0).toNat).logIt 0x003 noLane 0) := by
  simp only [rollbackAdvance, svcEnds, hwho, hmore, hmax, hslot, hconf, ne_eq, not_true_eq_false, if_false, and_self, if_true]

theorem logNote_engine {n : LaneId} (h : r.engine = some n) : logNote r s = ((svOk, []), s.logWith 0x026 n.val r.who (r.args.take 7)) := by
  simp only [logNote, h, svcEnds]

theorem programEnd_engine {n : LaneId} (h : r.engine = some n) : programEnd false r s = ((svOk, []),
    (s.engineResetNow n r.who).logWith 0x027 n.val r.who ((r.arg 0 &&& 0xFF) :: (r.args.drop 1).take 6)) := by
  simp only [programEnd, h, svcEnds, Bool.false_eq_true, if_false]

theorem engineEnd_engine {n : LaneId} (h : r.engine = some n) : programEnd true r s = ((svOk, []),
    (s.engineResetNow n r.who).logWith 0x037 n.val r.who ((r.arg 0 &&& 0xFF) ::
      ([r.arg 7, (s.eng n).sp.epc, (s.eng n).sp.tval] ++ (r.args.drop 1).take 3))) := by
  simp only [programEnd, h, svcEnds, if_true]

end

/-- Settles O29: each service by its own lemma on the state in which its request has left the queue. -/
theorem serviceRowsComplete : Obligations.ServiceRowsComplete := by
  intro s r p hp
  subst hp
  refine ⟨fun k v hgo hop hq htaken => ?go, fun n v hfit hrun hmon hup => ?monitor,
    fun k n b hserve hask hcheck => fin_serve hserve (programLoad_ok hask hcheck),
    fun n want f hserve hlane hwant hv hi he hsecs hf => fin_serve hserve (friskRequest_ok hlane hwant hv hi he hsecs hf),
    fun n hserve hlane => fin_serve hserve (friskRelease_ok hlane),
    fun n b hserve hright hlane hbit hfit hlock hstop hflash hbytes hformat hdate hdue =>
      fin_serve hserve (calWrite_ok hright hlane hbit hfit hlock hstop hflash hbytes hformat hdate hdue),
    fun n b hserve hwho hlane hfit hflash hbytes hformat hroll => ?image,
    fun n hserve hwho hlane hfit hflash => fin_serve hserve (imageWrite_error (State.imageAsk_busy hwho hlane hfit hflash)),
    fun hserve hwho hmore hmax hslot hconf => fin_serve hserve (rollbackAdvance_ok hwho hmore hmax hslot hconf),
    fun n hserve hengine => fin_serve hserve (logNote_engine hengine), fun n hserve hengine => fin_serve hserve (programEnd_engine hengine),
    fun n hserve hengine => fin_serve hserve (engineEnd_engine hengine)⟩
  case go =>
    have hchk : (s.staged .chase 0x20 v).svcChk (.host k) v = none := State.svcChk_of_empty _ _ (by rw [State.chase_staged, hq])
    have hpress : pressOne (.host k) .chase 0x20 v 0 (fun t => t.svcChk (.host k) v) (fun t => t.svcGo k v) s
        = s.nearDone .chase fun t => t.svcGo k v := pressOne_near rfl (by decide) (by rw [hchk]; exact htaken)
    exact (congrArg fin hpress).trans (congrArg fin (State.nearDone_congr (State.svcGo_first hgo hop hq)))
  case monitor => simp only [exec, execMonitorSvcGo, hfit, hrun, hmon, hup, beq_self_eq_true, Bool.and_self, if_true, fin]
  case image =>
    have hask := State.imageAsk_staged hwho hlane hfit hflash hbytes hformat hroll
    cases hsigned : imgSigned b
    · rw [hsigned] at hask
      exact fin_serve hserve (imageWrite_error hask)
    · rw [hsigned] at hask
      have hdone := imageWrite_ok hask
      rw [hwho] at hdone
      exact fin_serve hserve hdone

end Sys2Proof.Machine
end

section
/-! PROOFS. Side-band commands that show BUSY first, the steward key, the image load, returns and the works (R482 to R493, R514 to R522). -/

namespace Sys2Proof.Machine

/-- A command of more than 100 µs, its word right and its state allowed, runs and shows BUSY (R480). -/
theorem sbCommand_later {op : Nat} {p : Byte} {arg : BitVec 16} {words : Nat} {where_ : State → Bool} {run : State → SbAnswer × State}
    {s u t : State} {a : SbAnswer} (hf : s.sbFree) (hu : u = s.sbTake op p arg) (hw : words = rcOk) (hs : where_ u = true) (hrun : run u = (a, t)) :
    sbCommand op p arg words where_ true run s = .next (t.sbLater a).settle := by
  subst hu
  rw [sbCommand_runs hf hw hs, hrun]
  rfl

section
variable (s : State)

theorem State.chase_logIt (code lane origin : Nat) : (s.logIt code lane origin).chase = s.chase := by
  obtain ⟨_, _, _, _, _, _, h⟩ := (SameButLog.of_logIt s code lane origin).rest
  rw [h]

theorem State.clock_newSbChallenge : s.newSbChallenge.clock = s.clock := rfl

/-! ### The steward key (R483) -/

/-- Telling of a key changes neither a session nor what Chase keeps. -/
theorem State.keyTold_kept (old : State) (origin : Nat) :
    (State.keyTold old s origin).sess = s.sess ∧ (State.keyTold old s origin).chase = s.chase := by
  have htold : ((s.logIt 0x014 noLane origin).raise .chase 2).sess = s.sess ∧ ((s.logIt 0x014 noLane origin).raise .chase 2).chase = s.chase :=
    ⟨by rw [State.raise_sess, State.logIt_sess], by rw [State.raise_chase, State.chase_logIt]⟩
  unfold State.keyTold State.sessionChange
  split
  · exact htold
  · exact ⟨(State.raise_sess _ .mod 6).trans htold.1, (State.raise_chase _ .mod 6).trans htold.2⟩

/-- The steward's key has become `key`. -/
def State.stewardSet (key : Option (BitVec 256)) : State :=
  State.keyTold s (((s.newSbChallenge).upChase fun c => { c with steward := Tries.reset }).upSess 0 fun x => { x with key := key }) 0x30

theorem State.stewardKey_eq (key : Option (BitVec 256)) : s.stewardKey key = ((rcOk, 0), s.stewardSet key) := rfl

theorem State.stewardSet_done (key : Option (BitVec 256)) :
    ((s.stewardSet key).session 0).key = key ∧ (s.stewardSet key).chase.steward = Tries.reset := by
  obtain ⟨hsess, hchase⟩ :=
    State.keyTold_kept (((s.newSbChallenge).upChase fun c => { c with steward := Tries.reset }).upSess 0 fun x => { x with key := key }) s 0x30
  constructor
  · rw [State.stewardSet, State.session, hsess, ← State.session, State.session_upSess_same]
  · rw [State.stewardSet, hchase]; rfl

/-- A proof has not verified. -/
def State.stewardFailed : State :=
  let t := s.newSbChallenge.logIt 0x012 noLane 0x30
  let k := t.chase.steward.fails + 1
  let t := t.upChase fun c => { c with steward := ⟨k, decide (3 ≤ k), t.clock⟩ }
  if 3 ≤ k then t.alert 3 else t

theorem State.stewardBad_eq : s.stewardBad = ((rcAuth, 0), s.stewardFailed) := rfl

theorem State.stewardFailed_done : s.stewardFailed.session 0 = s.session 0
    ∧ s.stewardFailed.chase.steward = ⟨s.chase.steward.fails + 1, decide (3 ≤ s.chase.steward.fails + 1), s.clock⟩ := by
  have hsess : (s.newSbChallenge.logIt 0x012 noLane 0x30).session 0 = s.session 0 := State.session_logIt ..
  have hsteward : (s.newSbChallenge.logIt 0x012 noLane 0x30).chase.steward = s.chase.steward := by rw [State.chase_logIt]; rfl
  have hclock : (s.newSbChallenge.logIt 0x012 noLane 0x30).clock = s.clock := State.clock_logIt ..
  unfold State.stewardFailed
  extract_lets t k v
  have hk : k = s.chase.steward.fails + 1 := by rw [← hsteward]
  have hv : v.session 0 = s.session 0 ∧ v.chase.steward = ⟨s.chase.steward.fails + 1, decide (3 ≤ s.chase.steward.fails + 1), s.clock⟩ := by
    refine ⟨hsess, ?_⟩
    simp only [v, t, State.upChase, hk, hclock]
  split
  · exact ⟨(congrArg (·[0]) (v.put_sess ..)).trans hv.1, (congrArg Chase.steward (v.put_chase ..)).trans hv.2⟩
  · exact hv

section
variable {s : State} {k : BitVec 256} (hopen : s.chase.steward.locked = false)
include hopen

theorem stewardRun_first (hkey : (s.session 0).key = none) :
    stewardRun false s = ((rcOk, 0), s.stewardSet (some (BitVec.ofNat 256 (beNat (s.sbIn 0 32))))) := by
  simp only [stewardRun, hopen, hkey, Bool.false_and, Bool.false_eq_true, if_false, State.stewardKey_eq]

variable (hkey : (s.session 0).key = some k)
include hkey

theorem stewardRun_install (hproof : hmacSha256 (beBytes 32 k.toNat) (beBytes 32 s.chase.sbChallenge.toNat ++ s.sbIn 0 32 ++ [0]) = s.sbIn 32 32) :
    stewardRun false s = ((rcOk, 0), s.stewardSet (some (BitVec.ofNat 256 (beNat (s.sbIn 0 32))))) := by
  simp only [stewardRun, hopen, hkey, hproof, Bool.false_and, Bool.false_eq_true, if_false, if_true, State.stewardKey_eq]

theorem stewardRun_erase (hzero : (s.sbIn 0 32).all (fun b => b == 0) = true)
    (hproof : hmacSha256 (beBytes 32 k.toNat) (beBytes 32 s.chase.sbChallenge.toNat ++ s.sbIn 0 32 ++ [1]) = s.sbIn 32 32) :
    stewardRun true s = ((rcOk, 0), s.stewardSet none) := by
  simp only [stewardRun, hopen, hkey, hproof, hzero, Bool.not_true, Bool.and_false, Bool.false_eq_true, if_false, if_true, State.stewardKey_eq]

theorem stewardRun_bad (hproof : hmacSha256 (beBytes 32 k.toNat) (beBytes 32 s.chase.sbChallenge.toNat ++ s.sbIn 0 32 ++ [0]) ≠ s.sbIn 32 32) :
    stewardRun false s = ((rcAuth, 0), s.stewardFailed) := by
  simp only [stewardRun, hopen, hkey, hproof, Bool.false_and, Bool.false_eq_true, if_false, State.stewardBad_eq]

end

/-! ### Returns (R514, R522) -/

/-- PREPARE_RETURN freezes the log. -/
theorem State.prepareReturn_frozen : s.prepareReturn.g LOG.STAT_FROZEN 0 = 1 ∧ s.prepareReturn.g MOD.RETURN_FROZEN 0 = 1
    ∧ s.prepareReturn.g MOD.RETURN_RECORD_VALID 0 = 1 := by
  unfold State.prepareReturn State.alert
  extract_lets note t r v
  refine ⟨?_, ?_, ?_⟩
  · rw [State.g_put_ne _ _ _ _ _ _ _ rfl (.inl (by decide)), State.g_put_ne _ _ _ _ _ _ _ rfl (.inl (by decide)), State.g_put_same _ _ _ _ rfl]
    rfl
  · rw [State.g_put_ne _ _ _ _ _ _ _ rfl (.inl (by decide)), State.g_put_same _ _ _ _ rfl]
    rfl
  · rw [State.g_put_ne _ _ _ _ _ _ _ rfl (.inl (by decide)), State.g_put_ne _ _ _ _ _ _ _ rfl (.inr (by decide)),
      State.g_put_ne _ _ _ _ _ _ _ rfl (.inl (by decide)), State.g_put_same _ _ _ _ rfl]
    rfl

/-- The works have been left. -/
def State.worksLeft : State :=
  let t := (((s.logIt 0x062 noLane 0x20).put MOD.RETURN_WORKS 0 0).put MOD.RETURN_FROZEN 0 0).put MOD.RETURN_RECORD_VALID 0 0
  (t.put LOG.STAT_FROZEN 0 0).bump MOD.RETURN_RETURNS 0

theorem State.worksLeft_done : s.worksLeft.g MOD.RETURN_WORKS 0 = 0 ∧ s.worksLeft.g MOD.RETURN_FROZEN 0 = 0
    ∧ s.worksLeft.g LOG.STAT_FROZEN 0 = 0 ∧ s.worksLeft.g MOD.RETURN_RECORD_VALID 0 = 0 := by
  unfold State.worksLeft
  refine ⟨?_, ?_, ?_, ?_⟩
  · rw [State.g_bump_ne _ _ _ _ _ _ _ _ rfl (.inr (by decide)), State.g_put_ne _ _ _ _ _ _ _ rfl (.inl (by decide)),
      State.g_put_ne _ _ _ _ _ _ _ rfl (.inr (by decide)), State.g_put_ne _ _ _ _ _ _ _ rfl (.inr (by decide)), State.g_put_same _ _ _ _ rfl]
    rfl
  · rw [State.g_bump_ne _ _ _ _ _ _ _ _ rfl (.inr (by decide)), State.g_put_ne _ _ _ _ _ _ _ rfl (.inl (by decide)),
      State.g_put_ne _ _ _ _ _ _ _ rfl (.inr (by decide)), State.g_put_same _ _ _ _ rfl]
    rfl
  · rw [State.g_bump_ne _ _ _ _ _ _ _ _ rfl (.inl (by decide)), State.g_put_same _ _ _ _ rfl]
    rfl
  · rw [State.g_bump_ne _ _ _ _ _ _ _ _ rfl (.inr (by decide)), State.g_put_ne _ _ _ _ _ _ _ rfl (.inl (by decide)), State.g_put_same _ _ _ _ rfl]
    rfl

end

/-- Settles O33: each command is taken, its word is right and its state is allowed, so that it runs and shows BUSY; the other rows act without a
command. -/
theorem sideBandSlowAndReturnRowsComplete : Obligations.SideBandSlowAndReturnRowsComplete := by
  intro s u hf
  refine ⟨fun p arg e hp hu he => ?shelf, fun p arg e hp hu he => ?log, fun p arg hp hu he => ?gone, fun hu hr => ?challenge,
    fun arg hu hr hopen hkey => ?first, fun arg k hu hr hopen hkey hproof => ?install, fun arg k hu hr hopen hkey hzero hproof => ?erase,
    fun arg k hu hr hopen hkey hproof => ?bad, fun p arg hp hu hb => ?imageBegin, fun p arg b m harg hu hb hload => ?imageChunk,
    fun b m hu hb hload hformat hroll => ?imageEnd, fun hu hr hfrozen => ?prepare, fun hu hr hopen => ?token, fun t rsp ht => ?complete,
    fun hlocked hdue => ?stewardEnd, fun hlocked hdue => ?worksEnd, fun hawake hstage hdue => ?resume, fun hup hworks => ?exit⟩
  case shelf =>
    rw [exec, execSbShelfRead]
    exact sbCommand_later hf hu (upTo_le hp) rfl (by simp only [he, Option.map_some, State.sbEntry])
  case log =>
    rw [exec, execSbLogRead]
    exact sbCommand_later hf hu (upTo_le hp) rfl (by simp only [he, State.sbEntry])
  case gone =>
    rw [exec, execSbLogRead]
    exact sbCommand_later hf hu (upTo_le hp) rfl (by simp only [he, State.sbEntry])
  case challenge =>
    rw [exec, execSbChallenge]
    exact sbCommand_later hf hu rfl hr rfl
  case first =>
    rw [exec, execSbStewardKeyInstall]
    exact ⟨_, sbCommand_later hf hu rfl hr (stewardRun_first hopen hkey), u.stewardSet_done _⟩
  case install =>
    rw [exec, execSbStewardKeyInstall]
    exact ⟨_, sbCommand_later hf hu rfl hr (stewardRun_install hopen hkey hproof), u.stewardSet_done _⟩
  case erase =>
    rw [exec, execSbStewardKeyErase]
    exact ⟨_, sbCommand_later hf hu rfl hr (stewardRun_erase hopen hkey hzero hproof), u.stewardSet_done _⟩
  case bad =>
    obtain ⟨hsess, hsteward⟩ := u.stewardFailed_done
    rw [exec, execSbStewardKeyInstall]
    exact ⟨_, sbCommand_later hf hu rfl hr (stewardRun_bad hopen hkey hproof), by rw [hsess, hkey], hsteward⟩
  case imageBegin =>
    rw [exec, execSbImageBegin]
    refine ⟨_, sbCommand_later hf hu (upTo_le hp) hb rfl, rfl, ?_⟩
    cases (p == 1) <;> rfl
  case imageChunk =>
    rw [exec, execSbImageChunk]
    exact sbCommand_later hf hu (if_pos harg) hb (by simp only [hload, if_true, sbOk])
  case imageEnd =>
    have hrun : ∀ a t, (if imgSigned (loadedImage m) then sbOk (u.putSlot b (imgSlot (loadedImage m))) else ((rcVerify, 0), u)) = (a, t) →
        exec (.sbImageEnd 0 0) s = .next (t.sbLater a).settle := fun a t hat => by
      rw [exec, execSbImageEnd]
      refine sbCommand_later hf hu rfl hb ?_
      simp only [hload, hformat, hroll, decide_true, Bool.true_and, Bool.and_true]
      exact hat
    cases hsigned : imgSigned (loadedImage m)
    · exact hrun _ _ (by rw [hsigned]; rfl)
    · exact hrun _ _ (by rw [hsigned]; rfl)
  case prepare =>
    rw [exec, execSbPrepareReturn]
    refine ⟨u.prepareReturn, sbCommand_later hf hu rfl hr ?_, u.prepareReturn_frozen⟩
    simp only [hfrozen, Bool.false_eq_true, if_false]
  case token =>
    rw [exec, execSbWorksToken]
    cases htoken : u.tokenOk (u.sbIn 0 128)
    · exact sbCommand_later hf hu rfl hr (by simp only [tokenRun, hopen, htoken, State.tokenBad, Bool.not_false, Bool.false_eq_true, if_false, if_true])
    · exact sbCommand_later hf hu rfl hr (by simp only [tokenRun, hopen, htoken, sbOk, Bool.not_true, Bool.false_eq_true, if_false])
  case complete =>
    subst ht
    rfl
  case stewardEnd => rw [exec, execStewardLockoutEnd, hlocked, decide_eq_true hdue, Bool.and_self, if_pos rfl, fin]
  case worksEnd => rw [exec, execWorksLockoutEnd, hlocked, decide_eq_true hdue, Bool.and_self, if_pos rfl, fin]
  case resume => simp only [exec, execWorksEraseResume, hawake, hstage, hdue, beq_self_eq_true, Bool.and_self, if_true, fin]
  case exit =>
    refine ⟨s.worksLeft, ?_, s.worksLeft_done⟩
    rw [exec, execWorksExit, hup, hworks, Bool.and_self, if_pos rfl, fin]
    rfl

end Sys2Proof.Machine
end

section
/-! PROOFS. The galley and the DMA channels D0 and D1 (R434 to R443). -/

namespace Sys2Proof.Machine

section
variable {s t : State} {n : LaneId} {x : Slug} {pa : Nat}

/-! ### One slug into the next slot (R436, R437) -/

/-- The virtual address and the place of the slot that WCOUNT names. -/
def State.slotVa (s : State) (n : LaneId) : Nat := (s.g LANE.GAL_VBASE n * 4096 + 16 * ((s.gal n).wcount % s.g LANE.GAL_SIZE n)) % 2 ^ 32
def State.slotPa (s : State) (n : LaneId) : Nat := s.g LANE.GAL_PBASE n * 4096 + 16 * ((s.gal n).wcount % s.g LANE.GAL_SIZE n)

/-- How D0 reaches a slot. -/
def slotAccess : Access := ⟨.store, true, true, false⟩

theorem State.galPut_fault {f : XFault} (h : s.translate n (s.slotVa n) slotAccess = (.error f, t)) :
    s.galPut n x = (false, t.d0Fault n (s.slotVa n) f) := by
  unfold State.slotVa slotAccess at h
  simp only [State.galPut, h, State.slotVa]

theorem State.galPut_mismatch (h : s.translate n (s.slotVa n) slotAccess = (.ok pa, t)) (hpa : pa ≠ s.slotPa n) :
    s.galPut n x = (false, t.d0Fault n (s.slotVa n) ⟨fkMismatch, 0⟩) := by
  unfold State.slotVa slotAccess at h
  unfold State.slotPa at hpa
  simp only [State.galPut, h, State.slotVa]
  rw [if_pos hpa]

/-- A galley that is not full takes the slug into its next slot, a folio completed. -/
theorem State.galPut_ok (h : s.translate n (s.slotVa n) slotAccess = (.ok (s.slotPa n), t))
    (hroom : (s.gal n).wcount - (s.gal n).rcount < s.g LANE.GAL_SIZE n) {y : Slug} (hy : y = x.complete (s.gal n).folioSeq (s.gal n).sinceFolio) :
    s.galPut n x = (true, (t.putMem n (s.slotPa n)
      (leBytes 4 y.w0.toNat ++ leBytes 4 y.w1.toNat ++ leBytes 4 y.w2.toNat ++ leBytes 4 y.w3.toNat)).galWritten n y) := by
  subst hy
  have hgal := (State.translate_keeps h).2
  have hfull : decide (s.g LANE.GAL_SIZE n ≤ (s.gal n).wcount - (s.gal n).rcount) = false := decide_eq_false (Nat.not_le.mpr hroom)
  unfold State.slotVa slotAccess State.slotPa at h
  simp only [State.galPut, h, hgal, hfull, State.slotPa, ne_eq, not_true_eq_false, Bool.false_eq_true, if_false]

theorem Slug.complete_of_not_folio (h : x.isFolio = false) (seq disc : Nat) : x.complete seq disc = x := by
  rw [Slug.complete, h, if_neg Bool.false_ne_true]

/-! ### What D0 writes next (R436, R440, R443) -/

/-- D0 can write the slug that waits first. -/
structure State.D0Runs (s : State) (n : LaneId) (x : Slug) (rest : List Slug) : Prop where
  running : s.on LANE.GAL_STAT_RUNNING n = true
  sound : (s.gal n).d0Faulted = false
  unpaused : (s.gal n).d0Paused = false
  sized : s.g LANE.GAL_SIZE n ≠ 0
  waits : (s.gal n).buf = x :: rest

variable {rest : List Slug}

theorem State.d0Write_full (h : s.D0Runs n x rest) (hmode : s.on LANE.GAL_CTL_MODE n = true)
    (hfull : s.g LANE.GAL_SIZE n ≤ (s.gal n).wcount - (s.gal n).rcount) :
    s.d0Write n = (((s.upGal n fun g => { g with buf := rest, resumeFolio := true }).galDiscard n).galLoss n).galShow n := by
  obtain ⟨hrun, hsound, hpause, hsize, hbuf⟩ := h
  simp only [State.d0Write, hrun, hsound, hpause, hbuf, hmode, decide_eq_true hfull, beq_eq_false_iff_ne.mpr hsize, Bool.not_true,
    Bool.or_self, Bool.and_self, Bool.false_eq_true, if_false, if_true]

/-- With room in the galley an owed RESUME folio goes first, else the slug. -/
theorem State.d0Write_room (h : s.D0Runs n x rest) (hroom : (s.gal n).wcount - (s.gal n).rcount < s.g LANE.GAL_SIZE n) :
    s.d0Write n = if (s.gal n).resumeFolio then
        State.galShow (if (s.galPut n (folioMark 5 0 s.rtLo (BitVec.ofNat 32 (s.rt64 / 2 ^ 32)))).1 then
          (s.galPut n (folioMark 5 0 s.rtLo (BitVec.ofNat 32 (s.rt64 / 2 ^ 32)))).2.upGal n fun g => { g with resumeFolio := false }
          else (s.galPut n (folioMark 5 0 s.rtLo (BitVec.ofNat 32 (s.rt64 / 2 ^ 32)))).2) n
      else State.galShow (if (s.galPut n x).1 then (s.galPut n x).2.upGal n fun g => { g with buf := rest } else (s.galPut n x).2) n := by
  obtain ⟨hrun, hsound, hpause, hsize, hbuf⟩ := h
  simp only [State.d0Write, hrun, hsound, hpause, hbuf, decide_eq_false (Nat.not_le.mpr hroom), beq_eq_false_iff_ne.mpr hsize, Bool.not_true,
    Bool.or_self, Bool.and_false, Bool.false_eq_true, if_false]

section
variable (h : s.D0Runs n x rest) (hroom : (s.gal n).wcount - (s.gal n).rcount < s.g LANE.GAL_SIZE n)
include h hroom

/-- The slug itself goes next, and is in its slot. -/
theorem State.d0Write_slug {u : State} (hfolio : (s.gal n).resumeFolio = false) (hput : s.galPut n x = (true, u)) :
    s.d0Write n = (u.upGal n fun g => { g with buf := rest }).galShow n := by
  rw [State.d0Write_room h hroom, hfolio, if_neg Bool.false_ne_true, hput, if_pos rfl]

/-- The slug itself goes next, and waits on. -/
theorem State.d0Write_waits {u : State} (hfolio : (s.gal n).resumeFolio = false) (hput : s.galPut n x = (false, u)) : s.d0Write n = u.galShow n := by
  rw [State.d0Write_room h hroom, hfolio, if_neg Bool.false_ne_true, hput, if_neg Bool.false_ne_true]

/-- The owed RESUME folio goes next, and is in its slot. -/
theorem State.d0Write_folio {u : State} (hfolio : (s.gal n).resumeFolio = true)
    (hput : s.galPut n (folioMark 5 0 s.rtLo (BitVec.ofNat 32 (s.rt64 / 2 ^ 32))) = (true, u)) :
    s.d0Write n = (u.upGal n fun g => { g with resumeFolio := false }).galShow n := by
  rw [State.d0Write_room h hroom, hfolio, if_pos rfl, hput, if_pos rfl]

end

/-! ### D1 (R434, R435) -/

/-- D1 takes the valid descriptor at HEAD. -/
theorem State.d1Start_valid (hrun : s.on LANE.D1_CTL_RUN n = true) (hbusy : s.on LANE.D1_STAT_BUSY n = false)
    (hsound : s.on LANE.D1_STAT_FAULTED n = false) (hidle : (s.gal n).d1Idle = false) (hhalt : s.fatalHalt n = false)
    (htr : s.translate n (s.d1Desc n) (ringAccess .load) = (.ok pa, t)) (hecc : t.eccHit n pa 16 = false)
    (hvalid : bitAt (t.memWord n (pa + 12)) 31 = true) (hres : d1Reserved (t.memWord n (pa + 8)) (t.memWord n (pa + 12)) = false)
    (hlen : bitsOf (t.memWord n (pa + 8)) 23 0 ≠ 0) :
    s.d1Start n = (((((t.upGal n fun g => { g with d1Left := bitsOf (t.memWord n (pa + 8)) 23 0, d1Word3 := t.memWord n (pa + 12), d1End := 0 }).put
      LANE.D1_CUR_SRC n (t.memWord n pa).toNat).put LANE.D1_CUR_DST n (t.memWord n (pa + 4)).toNat).put
      LANE.D1_CUR_LEN n (bitsOf (t.memWord n (pa + 8)) 23 0)).put LANE.D1_STAT_TAG n (bitsOf (t.memWord n (pa + 12)) 15 0)).put
      LANE.D1_STAT_BUSY n 1 := by
  simp only [State.d1Start, hrun, hbusy, hsound, hidle, hhalt, htr, hecc, hvalid, hres, beq_eq_false_iff_ne.mpr hlen, State.memWord_upGal,
    Bool.not_true, Bool.or_self, Bool.false_eq_true, if_false]

/-- A burst is due. -/
structure State.BurstDue (s : State) (n : LaneId) : Prop where
  run : s.on LANE.D1_CTL_RUN n = true
  busy : s.on LANE.D1_STAT_BUSY n = true
  sound : s.on LANE.D1_STAT_FAULTED n = false
  left : (s.gal n).d1Left ≠ 0
  live : s.fatalHalt n = false

/-- A source that does not translate leaves the burst undone. -/
theorem State.d1Burst_sourceFault (h : s.BurstDue n) {f : XFault}
    (htr : s.translate n (s.g LANE.D1_CUR_SRC n) ⟨.load, !bitAt (s.gal n).d1Word3 29, true, false⟩ = (.error f, t)) :
    s.d1Burst n = t.d1Fault n (s.g LANE.D1_CUR_SRC n) f false (!bitAt (s.gal n).d1Word3 29) := by
  obtain ⟨hrun, hbusy, hsound, hleft, hlive⟩ := h
  simp only [State.d1Burst, hrun, hbusy, hsound, hlive, beq_eq_false_iff_ne.mpr hleft, htr, Bool.not_true, Bool.or_self, Bool.false_eq_true,
    if_false]

/-- A burst whose sides both translate reads all before it writes, and the restart point moves. -/
theorem State.d1Burst_done (h : s.BurstDue n) {src dst k ps pd : Nat} {t1 t2 : State} (hsrc : src = s.g LANE.D1_CUR_SRC n)
    (hdst : dst = s.g LANE.D1_CUR_DST n) (hk : k = burstLen src dst (s.gal n).d1Left)
    (htr1 : s.translate n src ⟨.load, !bitAt (s.gal n).d1Word3 29, true, false⟩ = (.ok ps, t1))
    (htr2 : t1.translate n dst ⟨.store, !bitAt (s.gal n).d1Word3 29, true, false⟩ = (.ok pd, t2)) (hecc : t2.eccHit n ps k = false) :
    s.d1Burst n = ((((t2.putMem n pd (Memory.bytes (t2.lane n).mem ps k)).upGal n fun g => { g with d1Left := g.d1Left - k }).put
      LANE.D1_CUR_SRC n ((src + k) % 2 ^ 32)).put LANE.D1_CUR_DST n ((dst + k) % 2 ^ 32)).put LANE.D1_CUR_LEN n ((s.gal n).d1Left - k) := by
  obtain ⟨hrun, hbusy, hsound, hleft, hlive⟩ := h
  subst hsrc hdst hk
  simp only [State.d1Burst, hrun, hbusy, hsound, hlive, beq_eq_false_iff_ne.mpr hleft, htr1, htr2, hecc, Bool.not_true, Bool.or_self,
    Bool.false_eq_true, if_false]

/-- A descriptor that ends is written back, HEAD moves on, and BUSY clears. -/
theorem State.d1Finish_quiet (hbusy : s.on LANE.D1_STAT_BUSY n = true) (hsound : s.on LANE.D1_STAT_FAULTED n = false)
    (hleft : (s.gal n).d1Left = 0) (hirq : bitAt (s.gal n).d1Word3 30 = false) (hlive : s.fatalHalt n = false)
    (htr : s.translate n ((s.d1Desc n + 12) % 2 ^ 32) (ringAccess .store) = (.ok pa, t)) :
    s.d1Finish n = ((t.putWord n pa (withBits (withBits (s.gal n).d1Word3 31 31 0) 27 24 (s.gal n).d1End)).put LANE.D1_HEAD n
      ((s.g LANE.D1_HEAD n + 1) % max 1 (s.g LANE.D1_CTL_RING_LEN n))).put LANE.D1_STAT_BUSY n 0 := by
  have hregs := (State.translate_keeps htr).1
  have hnone : ((s.gal n).d1Left != 0) = false := by rw [hleft]; rfl
  simp only [State.d1Finish, hbusy, hsound, hnone, hirq, hlive, htr, State.g_putWord, hregs, Bool.not_true, Bool.or_self, Bool.false_eq_true,
    if_false]

/-! ### The words of the LANE page -/

/-- No galley or DMA word is mirrored: an accepted one has its effect at once. -/
theorem galPress_taken {w : Writer} {off : Nat} {v : Word} (hoff : 0x1A ≤ off)
    (h : s.taken w (.lane n .lane) off v (galChk s n off v (s.staged (.lane n .lane) off v))) :
    galPress w n off v s = s.nearDone (.lane n .lane) (galEff n off v 0) := by
  have hnear : (Page.lane n .lane).mirrorAt off = false := decide_eq_false (by omega)
  exact pressOne_near hnear (by omega) h

theorem State.d0Resume_stopped (h : (s.gal n).d0Faulted = true ∨ (s.gal n).d0Paused = true) :
    s.d0Resume n =
      (((s.upGal n fun g => { g with d0Faulted := false, d0Paused := false, resumeFolio := true }).d0Write n).d0Write n).galShow n := by
  have hstopped : ((s.gal n).d0Faulted || (s.gal n).d0Paused) = true := Bool.or_eq_true_iff.mpr h
  rw [State.d0Resume, if_pos hstopped]

end

/-- Settles O23: D0's rows by what `galPut` comes to, D1's by one lemma for each step, and the LANE page's words by their effect. -/
theorem galleyAndDmaRowsComplete : Obligations.GalleyAndDmaRowsComplete := by
  intro s n w
  refine ⟨fun x rest va pa t hrun hsound hpause hsize hbuf hfolio hroom hx hva hpa htr => ?slug,
    fun x rest f t hrun hsound hpause hsize hbuf hfolio hroom htr => ?fault,
    fun x rest pa t hrun hsound hpause hsize hbuf hfolio hroom hpa htr => ?mismatch,
    fun x rest hrun hsound hpause hsize hbuf hmode hfull => ?full,
    fun x rest pa t hrun hsound hpause hsize hbuf hfolio hroom hpa htr => ?owed,
    fun hstopped htaken => ?resume, fun v htaken => ?run, fun v htaken hcount hrel hwrit => ?release,
    fun pa t hrun hbusy hsound hidle hhalt htr hecc hvalid hres hlen => ?start,
    fun src dst k ps pd t1 t2 hrun hbusy hsound hleft hlive hsrc hdst hk htr1 htr2 hecc => ?burst,
    fun f t hrun hbusy hsound hleft hlive htr => ?undone, fun pa t hbusy hsound hleft hirq hlive htr => ?finish,
    fun v hv htaken => ?kick, fun v hv htaken => ?resume1, fun v hv htaken => ?abort⟩
  case slug =>
    subst hva hpa
    exact congrArg fin (State.d0Write_slug ⟨hrun, hsound, hpause, hsize, hbuf⟩ hroom hfolio
      (State.galPut_ok htr hroom (Slug.complete_of_not_folio hx _ _).symm))
  case fault => exact congrArg fin (State.d0Write_waits ⟨hrun, hsound, hpause, hsize, hbuf⟩ hroom hfolio (State.galPut_fault htr))
  case mismatch => exact congrArg fin (State.d0Write_waits ⟨hrun, hsound, hpause, hsize, hbuf⟩ hroom hfolio (State.galPut_mismatch htr hpa))
  case full => exact congrArg fin (State.d0Write_full ⟨hrun, hsound, hpause, hsize, hbuf⟩ hmode hfull)
  case owed =>
    subst hpa
    have hput := State.galPut_ok (x := folioMark 5 0 s.rtLo (BitVec.ofNat 32 (s.rt64 / 2 ^ 32))) htr hroom rfl
    rw [exec, execD0SlugWrite, State.d0Write_folio ⟨hrun, hsound, hpause, hsize, hbuf⟩ hroom hfolio hput, hput, fin]
  case resume =>
    rw [exec, execD0Resume, galPress_taken (by decide) htaken, galEff_resume]
    exact congrArg fin (State.nearDone_congr (State.d0Resume_stopped hstopped))
  case run => rw [exec, execGalRun, galPress_taken (by decide) htaken, galEff_ctl, fin]
  case release =>
    rw [exec, execGalRelease, galPress_taken (by decide) htaken, galEff_release]
    exact congrArg fin (State.nearDone_congr (galRelease_up s n v hcount hrel hwrit))
  case start => exact congrArg fin (State.d1Start_valid hrun hbusy hsound hidle hhalt htr hecc hvalid hres hlen)
  case burst => exact congrArg fin (State.d1Burst_done ⟨hrun, hbusy, hsound, hleft, hlive⟩ hsrc hdst hk htr1 htr2 hecc)
  case undone => exact congrArg fin (State.d1Burst_sourceFault ⟨hrun, hbusy, hsound, hleft, hlive⟩ htr)
  case finish => exact congrArg fin (State.d1Finish_quiet hbusy hsound hleft hirq hlive htr)
  case kick => rw [exec, execD1Kick, ← hv, galPress_taken (by decide) htaken, galEff_d1, fin]
  case resume1 => rw [exec, execD1Resume, ← hv, galPress_taken (by decide) htaken, galEff_d1, fin]
  case abort => rw [exec, execD1Abort, ← hv, galPress_taken (by decide) htaken, galEff_d1, fin]

end Sys2Proof.Machine
end

section
/-! PROOFS. The Duncol line (R297 to R351): its commands where they act, the words of the DUNC page, and what crosses the line. -/

namespace Sys2Proof.Machine

section
variable {s : State} {n : LaneId}

/-! ### Changes of the line and of one address -/

/-- What is done to a line matters at that line only, and so it does of one address. -/
theorem State.upLine_congr {f g : Line → Line} (h : f (s.line n) = g (s.line n)) : s.upLine n f = s.upLine n g := by
  simp only [State.line] at h
  simp only [State.upLine, State.upLane, h]

theorem State.upLa_congr {k : Fin 24} {f g : LineAddr → LineAddr} (h : f (s.la n k) = g (s.la n k)) : s.upLa n k f = s.upLa n k g :=
  State.upLine_congr (congrArg (fun a => { s.line n with addrs := (s.line n).addrs.set k a }) h)

/-! ### What falls due -/

theorem exec_censusDue (hup : s.lineUp n = true) (hstart : (s.line n).startDue = false)
    (hdue : (s.line n).censusAt / 250000000 < s.laneTime n / 250000000) :
    exec (.censusDue n) s = .next (s.upLine n fun l => { l with censusDue := true, censusAt := s.laneTime n }).settle := by
  have hpassed : (s.line n).censusAt / censusNs < s.laneTime n / censusNs := hdue
  simp only [exec, execCensusDue, hup, hstart, decide_eq_true hpassed, Bool.not_false, Bool.and_self, Bool.true_or, Bool.or_true, if_true, fin]

theorem exec_pollDue {k : Fin 24} {g : Bool} {i : Fin 2} {p : Nat} (hi : i = if g then 1 else 0)
    (hp : p = 200 * max (s.g DUNC.STREAM_POLL_US n k) 1) (hup : s.lineUp n = true) (hlive : s.streamLive n k g = true)
    (hdue : ((s.la n k).polledAt[i] - (s.la n k).arrived) / p < (s.clock - (s.la n k).arrived) / p)
    (hnone : (s.la n k).due[streamIx g] = none) :
    exec (.pollDue n k g) s = .next (s.upLa n k fun a =>
      { a with polledAt := a.polledAt.set i s.clock,
               due := a.due.set (streamIx g) (some (a.arrived + (s.clock - a.arrived) / p * p)) }).settle := by
  subst hi hp
  have hguard : (s.lineUp n && s.streamLive n k g && decide (((s.la n k).polledAt[if g then (1 : Fin 2) else 0] - (s.la n k).arrived)
      / (usTicks * max (s.g DUNC.STREAM_POLL_US n k) 1) < (s.clock - (s.la n k).arrived) / (usTicks * max (s.g DUNC.STREAM_POLL_US n k) 1)))
      = true := by
    rw [hup, hlive, Bool.and_self, Bool.true_and]
    exact decide_eq_true hdue
  refine (congrArg fin (if_pos hguard)).trans (congrArg fin (State.upLa_congr ?_))
  simp only [hnone, Option.getD_none, usTicks]

theorem exec_attnDue (hup : s.lineUp n = true) (hnone : (s.line n).attnDue = none)
    (hdue : (s.line n).attnAt + 200 * max (s.g DUNC.CFG_ATTN_US n) 1 ≤ s.clock) :
    exec (.attnDue n) s = .next (s.upLine n fun l =>
      { l with attnDue := some (l.attnAt + 200 * max (s.g DUNC.CFG_ATTN_US n) 1),
               attnAt := l.attnAt + (s.clock - l.attnAt) / (200 * max (s.g DUNC.CFG_ATTN_US n) 1) * (200 * max (s.g DUNC.CFG_ATTN_US n) 1) }).settle := by
  have hguard : (s.lineUp n && decide ((s.line n).attnAt + usTicks * max (s.g DUNC.CFG_ATTN_US n) 1 ≤ s.clock)) = true := by
    rw [hup, Bool.true_and]
    exact decide_eq_true hdue
  refine (congrArg fin (if_pos hguard)).trans (congrArg fin (State.upLine_congr ?_))
  simp only [hnone, Option.getD_none, usTicks]

/-! ### Frames -/

/-- A frame that DL stuck low ends is the line fault; another one has its effect. -/
theorem fin_frame {b : Bool} {e : Wire} {u : State} (h : b = true) :
    fin (if b then (if e.stuck then s.cutFrame n e else u) else s) = .next (if e.stuck then (s.attempt n false e).lineStuck n else u).settle := by
  rw [h, if_pos rfl, fin]
  rfl

/-- An attempt that no pod answers, and no noise either (R321). -/
theorem State.ask_noAck {k op : Nat} {args : List Byte} {again : Bool} {len : Nat → Option Nat} {e : Wire} {t : State} {rs : List (List Byte)}
    (hstuck : e.stuck = false) (hack : e.ack = false)
    (hacts : (s.attempt n again e).podsAct n (parseCmd (flipBytes (duncCmd k op args) e.cmd)) = (t, rs)) (hrs : rs = []) :
    s.ask n k op args again len e = (.noAck, t.bump DUNC.NO_ACKS n) := by
  subst hrs
  simp only [State.ask, hstuck, hacts, hack, Bool.false_eq_true, if_false, List.isEmpty_nil, bne_iff_ne, ne_eq, not_false_eq_true, if_true,
    reduceCtorEq]

/-- Every pod that hears a broadcast UNASSIGN gives up its address. -/
theorem State.unassignAll_heard {e : Wire} (h : heardAll 7 0x1F [2] e = true) :
    s.unassignAll n e = (s.frameSeen n).upLine n fun l =>
      { l with bcastDue := false, pods := l.pods.map fun p => if p.powered then { p with addr := none, answered := false } else p } := by
  simp only [State.unassignAll, h, Bool.and_true]

/-- A search has been due for so long (R323). -/
theorem State.searchDueFor_ticks {ms d : Nat} (hd : ms * msTicks = d) (hup : s.lineUp n = true) (hdue : s.on DUNC.STAT_SEARCH_DUE n = true)
    (hfor : (s.line n).searchAt + d ≤ s.clock) : s.searchDueFor n ms = true := by
  subst hd
  rw [State.searchDueFor, hup, hdue, decide_eq_true hfor]
  rfl

/-! ### The words of the DUNC page (R310, R318, R320, R322) -/

/-- Every DUNC word from 0x10 on is mirrored: an accepted one sets out. -/
theorem duncPress_taken {w : Writer} {off : Nat} {v proof : Word} (hoff : 0x10 ≤ off)
    (h : s.taken w (.lane n .dunc) off v (duncChk s n off v (s.staged (.lane n .dunc) off v))) :
    duncPress w n off v proof s = s.farSent n w (.lane n .dunc) off v proof := by
  have hmirror : (Page.lane n .dunc).mirrorAt off = true := by
    show (off == 2 || decide (0x10 ≤ off)) = true
    rw [decide_eq_true hoff, Bool.or_true]
  exact pressOne_far rfl hmirror (fun e => absurd e (by omega)) h

/-- The far side applies a DUNC word alone. -/
theorem exec_farDunc {w : Writer} {off : Nat} {v : Word} {since q : Nat} {eff : State → State}
    (h : s.arrived n ⟨w, .lane n .dunc, off, v, 0, since⟩ q) (heff : ∀ t, duncEff n off v 0 t = eff t) :
    exec (.farSideApply n) s = .next (s.farDone n (.lane n .dunc) q eff).settle := by
  rw [exec_farSideApply_zero h]
  exact congrArg (fun f => fin (s.farDone n (.lane n .dunc) q f)) (funext heff)

theorem duncEff_go {v : Word} (h : bitAt v 31 = true) (t : State) : duncEff n 0x28 v 0 t = (storeEff (.lane n .dunc) 0x28 v 0 t).reqStart n := by
  simp [duncEff, h]

theorem duncEff_grant (t : State) :
    duncEff n 0x10 1 0 t = if t.on DUNC.STAT_SEARCH_DUE n then t.upLine n fun l => { l with searchFree := true } else t := by
  have h0 : bitAt (1#32) 0 = true := rfl
  have h1 : bitAt (1#32) 1 = false := rfl
  simp [duncEff, h0, h1]

theorem duncEff_forget (t : State) :
    duncEff n 0x10 2 0 t = (List.range 24).foldl (fun s k =>
      if s.bind n k = 1 ∧ s.on DUNC.BIND_CTL_PIN n k = false then (s.setBindId n k 0).setBind n k 0 else s) t := by
  have h0 : bitAt (2#32) 0 = false := rfl
  have h1 : bitAt (2#32) 1 = true := rfl
  simp [duncEff, h0, h1]

theorem duncEff_stream (k : Fin 24) (v : Word) (t : State) :
    duncEff n (0x40 + k.val) v 0 t = ((storeEff (.lane n .dunc) (0x40 + k.val) v 0 t).put DUNC.LOAD n
      ((storeEff (.lane n .dunc) (0x40 + k.val) v 0 t).load6 n / 1000000)).restream n k := by
  have hk : 0x40 ≤ 0x40 + k.val ∧ 0x40 + k.val - 0x40 < 24 := ⟨Nat.le_add_right _ _, by omega⟩
  have hix : (⟨0x40 + k.val - 0x40, hk.2⟩ : Fin 24) = k := Fin.ext (Nat.add_sub_cancel_left ..)
  rw [duncEff, if_neg (by omega), if_neg (by omega), if_neg (by omega), if_neg (by omega), dif_pos hk, hix]

end

/-! ### Commands on the wire (R302, R304) -/

/-- The length that a command's bytes ask for rests on no byte behind them. -/
theorem argCount_append {op : Nat} {args : List Byte} (h : argCount op args = some args.length) (c : Byte) :
    argCount op (args ++ [c]) = some args.length := by
  rw [← h]
  unfold argCount at h ⊢
  split at h
  case h_3 =>
    have hlen : 1 < args.length := by rw [Option.some.injEq] at h; omega
    rw [List.getElem?_append_left hlen]
  all_goals rfl

theorem parseCmd_duncCmd {a op : Nat} {args : List Byte} (ha : a < 32) (hop : op < 8) (hcount : argCount op args = some args.length) :
    parseCmd (duncCmd a op args) = some ⟨a, op, args⟩ := by
  have hb : (BitVec.ofNat 8 (a * 8 + op)).toNat = a * 8 + op := by rw [BitVec.toNat_ofNat]; omega
  have hop' : (a * 8 + op) % 8 = op := by omega
  have ha' : (a * 8 + op) / 8 = a := by omega
  have hlen : (args ++ [crc8 (BitVec.ofNat 8 (a * 8 + op) :: args)]).length - 1 = args.length := by simp
  simp only [duncCmd, parseCmd, List.cons_append, hb, hop', ha', hlen, argCount_append hcount, List.getLast?_concat, List.dropLast_concat,
    ne_eq, List.append_eq_nil_iff, List.cons_ne_nil, and_false, not_false_eq_true, and_self, if_true]

theorem parseCmd_of_bad_crc {b c : Byte} {args : List Byte} (h : c ≠ crc8 (b :: args)) : parseCmd (b :: args ++ [c]) = none := by
  simp only [parseCmd, List.cons_append, List.getLast?_concat, List.dropLast_concat, Option.some.injEq, h, and_false, if_false]

/-! ### Records on the wire (R338, R350) -/

theorem toNat_append {m k : Nat} (x : BitVec m) (y : BitVec k) : (x ++ y).toNat = x.toNat * 2 ^ k + y.toNat := by
  rw [BitVec.toNat_append, ← Nat.shiftLeft_add_eq_or_of_lt y.isLt, Nat.shiftLeft_eq]

theorem recOfBytes_bytes (r : PodRec) : recOfBytes (PodRec.bytes r) = r := by
  obtain ⟨tick, x, y, z⟩ := r
  have htick := tick.isLt
  have hx := x.isLt
  have hy := y.isLt
  have hz := z.isLt
  have hv : beNat (PodRec.bytes ⟨tick, x, y, z⟩) = ((tick.toNat * 2 ^ 16 + x.toNat) * 2 ^ 16 + y.toNat) * 2 ^ 16 + z.toNat := by
    rw [PodRec.bytes, beNat_beBytes_toNat _ rfl, toNat_append, toNat_append, toNat_append]
  unfold recOfBytes
  simp only [hv, PodRec.mk.injEq]
  refine ⟨?_, ?_, ?_, ?_⟩ <;> apply BitVec.eq_of_toNat_eq <;> rw [BitVec.toNat_ofNat] <;> omega

/-- Reading on from a number is reading from 0, with that number in front. -/
theorem foldl_bytes (bs : List Byte) (a : Nat) :
    bs.foldl (fun a b => a * 256 + b.toNat) a = a * 256 ^ bs.length + bs.foldl (fun a b => a * 256 + b.toNat) 0 := by
  induction bs generalizing a with
  | nil => simp only [List.foldl_nil, List.length_nil, Nat.pow_zero, Nat.mul_one, Nat.add_zero]
  | cons b bs ih =>
    simp only [List.foldl_cons, List.length_cons]
    rw [ih (a * 256 + b.toNat), ih (0 * 256 + b.toNat), Nat.pow_succ, Nat.add_mul, Nat.zero_mul, Nat.zero_add, Nat.mul_assoc,
      Nat.mul_comm 256, Nat.add_assoc]

theorem beNat_append (as bs : List Byte) : beNat (as ++ bs) = beNat as * 256 ^ bs.length + beNat bs := by
  rw [beNat, List.foldl_append, foldl_bytes, beNat, beNat]

theorem evtOfBytes_bytes (r : PodEvt) (hkind : r.kind < 256) (hinfo : r.info < 256) : evtOfBytes (PodEvt.bytes r) = r := by
  obtain ⟨tick, kind, info, arg⟩ := r
  change kind < 256 at hkind
  change info < 256 at hinfo
  have htick := tick.isLt
  have harg := arg.isLt
  have hmid : beNat [BitVec.ofNat 8 kind, BitVec.ofNat 8 info] = kind * 256 + info := by
    simp only [beNat, List.foldl_cons, List.foldl_nil, BitVec.toNat_ofNat]
    omega
  have hv : beNat (PodEvt.bytes ⟨tick, kind, info, arg⟩) = ((tick.toNat * 256 + kind) * 256 + info) * 2 ^ 32 + arg.toNat := by
    rw [PodEvt.bytes, beNat_append, beNat_append, beNat_beBytes_toNat _ rfl, beNat_beBytes_toNat _ rfl, hmid, length_beBytes]
    simp only [List.length_cons, List.length_nil]
    omega
  unfold evtOfBytes
  simp only [hv, PodEvt.mk.injEq]
  refine ⟨?_, by omega, by omega, ?_⟩ <;> apply BitVec.eq_of_toNat_eq <;> rw [BitVec.toNat_ofNat] <;> omega

/-- Settles O19, clause by clause: each command's guard holds, each word of the DUNC page sets out and is applied, and what crosses the line
arrives. -/
theorem duncolRowsComplete : Obligations.DuncolRowsComplete := by
  intro s w n
  refine ⟨fun hup hstart => ?lineStart, fun hup hstart hdue => exec_censusDue hup hstart hdue, fun e hup hcensus hstart hbcast => ?rollcall,
    fun turns e hup hticks hcensus => ?ticks, fun k g i p hi hp hup hlive hdue hnone => exec_pollDue hi hp hup hlive hdue hnone,
    fun k g e hsends => ?poll, fun hup hnone hdue => exec_attnDue hup hnone hdue, fun e hsends => ?attn, fun k e hsends => ?event,
    fun k e hsends hown => ?ownRead, fun k e hsends hreq => ?reqRead, fun k e hsends hreq => ?reqWrite, fun k e f hsends hown hf => ?ownWrite,
    fun k e hsends haddr hreq => ?identify, fun k op args again len e t rs hstuck hack hacts hrs => State.ask_noAck hstuck hack hacts hrs,
    fun e hpass => ?search, fun e hup hbcast hstuck hheard => ?unassignAll, fun k e hfree hhead => ?unassignOne,
    fun hup hdue hfor hnew => ?notice, fun hup hdue hfor hnew => ?forced, fun job late hup hdue => ?deadline, fun hup hfault hfor => ?recovery,
    fun hup hfault => ?dpFault, fun hup => ?dpFaultEnd, fun v v' hv' htaken => ?reqGo, fun v since q hgo harr => exec_farDunc harr (duncEff_go hgo),
    fun htaken => ?grant, fun since q harr => exec_farDunc harr duncEff_grant, fun htaken => ?forget,
    fun since q harr => exec_farDunc harr duncEff_forget, fun k v htaken => ?stream, fun k v since q harr => exec_farDunc harr (duncEff_stream k v),
    fun a op args ha hop hcount => parseCmd_duncCmd ha hop hcount, fun b c args hc => parseCmd_of_bad_crc hc, recOfBytes_bytes, evtOfBytes_bytes⟩
  case lineStart => rw [exec, execLineStart, hup, hstart, Bool.and_self, if_pos rfl, fin]
  case rollcall => exact fin_frame (by rw [hup, hcensus, hstart, hbcast]; rfl)
  case ticks => exact fin_frame (by rw [hup, hticks, hcensus]; rfl)
  case poll => rw [exec, execPoll, if_pos hsends, fin]
  case attn => exact fin_frame hsends
  case event => rw [exec, execEvent, if_pos hsends, fin]
  case ownRead => simp only [exec, execPodRead, hsends, hown, beq_self_eq_true, Bool.and_self, if_true, fin]
  case reqRead => simp only [exec, execPodRead, hsends, hreq, Bool.false_eq_true, if_false, Bool.and_self, if_true, fin]
  case reqWrite => simp only [exec, execPodWrite, hsends, hreq, Bool.false_eq_true, if_false, Bool.and_self, if_true, fin]
  case ownWrite => simp only [exec, execPodWrite, hsends, hown, bne_iff_ne.mpr hf, Bool.and_self, if_true, fin]
  case identify => simp only [exec, execIdentify, hsends, haddr, hreq, Bool.and_self, if_true, fin]
  case search => exact fin_frame hpass
  case unassignAll =>
    simp only [exec, execUnassign, hup, hbcast, hstuck, Bool.and_self, Bool.false_eq_true, if_false, if_true, State.unassignAll_heard hheard, fin]
  case unassignOne => simp only [exec, execUnassign, hfree, hhead, beq_self_eq_true, Bool.and_self, if_true, fin]
  case notice =>
    rw [exec, execSearchNotice, State.searchDueFor_ticks rfl hup hdue hfor, hnew]
    rfl
  case forced =>
    rw [exec, execSearchForced, State.searchDueFor_ticks rfl hup hdue hfor, hnew]
    rfl
  case deadline => rw [exec, execDuncolDeadline, hup, hdue, Bool.and_self, if_pos rfl, fin]
  case recovery =>
    have hten : (s.line n).faultAt + 10000 * usTicks ≤ s.clock := hfor
    rw [exec, execLineFaultRecovery, hup, hfault, decide_eq_true hten, Bool.and_self, Bool.and_self, if_pos rfl, fin]
  case dpFault =>
    rw [exec, execDpFault, hup, hfault]
    rfl
  case dpFaultEnd => rw [exec, execDpFaultEnd, if_pos hup, fin]
  case reqGo => rw [exec, execReqGo, ← hv', duncPress_taken (by decide) htaken, fin]
  case grant => rw [exec, execSearchGrant, duncPress_taken (by decide) htaken, fin]
  case forget => rw [exec, execForget, duncPress_taken (by decide) htaken, fin]
  case stream => rw [exec, execStreamWrite, duncPress_taken (by omega) htaken, fin]

end Sys2Proof.Machine
end

section
/-! PROOFS. The lane timers and the DIO pins (R354 to R368): the words of the TMR page, reloads, matches and captures, pins, the freeze on halt, and the
launches. -/

namespace Sys2Proof.Machine

section
variable {s : State} {n : LaneId} {t : Fin 4}

/-! ### A word of a far side's page (R24, R127) -/

/-- From 0x10 on every word of these pages is mirrored. -/
theorem Page.mirrorAt_far {k : LaneKind} {off : Nat} (hl : k ≠ .lane) (he : k ≠ .eng) (hoff : 0x10 ≤ off) :
    (Page.lane n k).mirrorAt off = true := by
  cases k
  case lane => exact absurd rfl hl
  case eng => exact absurd rfl he
  all_goals exact Bool.or_eq_true_iff.mpr (.inr (decide_eq_true hoff))

/-- The far side applies a single word that clears nothing its proof saw, and the word's effect is `eff`. -/
theorem exec_farSideApply_eff {w : Writer} {k : LaneKind} {off : Nat} {v : Word} {since q : Nat} {eff : State → State}
    (h : s.arrived n ⟨w, .lane n k, off, v, 0, since⟩ q)
    (heff : ∀ t, farEffect w n k off v 0 (if k = .smu then [off] else []) t = eff t) :
    exec (.farSideApply n) s = .next (s.farDone n (.lane n k) q eff).settle := by
  rw [exec_farSideApply_zero h, funext heff]

/-! ### The words of the TMR page -/

theorem tmrPress_taken {w : Writer} {off : Nat} {v proof : Word} (hoff : 0x10 ≤ off)
    (h : s.taken w (.lane n .tmr) off v (tmrChk s n off v (s.staged (.lane n .tmr) off v))) :
    tmrPress w n off v proof s = s.farSent n w (.lane n .tmr) off v proof :=
  pressOne_far rfl (Page.mirrorAt_far nofun nofun hoff) (fun e => absurd e (by omega)) h

theorem tmrEff_strobe (v p : Word) (u : State) : tmrEff n 0x10 v p u = u.tStrobe n (bitsOf v 3 0) (bitsOf v 11 8) := rfl

theorem tmrEff_faultClear (v p : Word) (u : State) : tmrEff n 0x15 v p u = storeEff (.lane n .tmr) 0x15 v p u := rfl

/-! ### Reloads, matches and captures (R355, R358) -/

theorem State.tReload_due (hfree : s.tFree n t = true) (hdue : s.tInstant n t (s.tMax n t + 1) ≤ s.laneClk) :
    s.tReload n t = ((s.tMatch n t).tWrap n t ((s.tMatch n t).tInstant n t ((s.tMatch n t).tMax n t + 1))).cueRun n := by
  rw [State.tReload, hfree, decide_eq_true hdue, Bool.and_self, if_pos rfl]

theorem State.tMatch_due (hfree : s.tFree n t = true) (hhit : (s.tmr n t).hit = false) (hmax : (s.tmr n t).cmp ≤ s.tMax n t)
    (hdue : s.tInstant n t (s.tmr n t).cmp ≤ s.laneClk) :
    s.tMatch n t = (s.tHit n t (s.tInstant n t (s.tmr n t).cmp)).cueRun n := by
  have hmatch : s.hitDue n t = true := by
    rw [State.hitDue, hfree, hhit, decide_eq_true hmax, decide_eq_true hdue]
    rfl
  rw [State.tMatch, if_pos hmatch]

end

/-- Settles O21, clause by clause: each row's guard holds, each word of the TMR page sets out and is applied, and the launches are on time. -/
theorem timerRowsComplete : Obligations.TimerRowsComplete := by
  intro s w n t
  refine ⟨fun m v hv htaken => ?start, fun m v hv htaken => ?stop, fun v since q harr => exec_farSideApply_eff harr (tmrEff_strobe v 0),
    fun hup hfree hdue => ?reload, fun hup hfree hhit hmax hdue => ?compare, fun hup hcap hhigh => ?leading,
    fun hup hcap hlow hlead htrail => ?trailing, fun p rising hup hedge => ?edge, fun p hdrives => ?overcurrent,
    fun v proof htaken => ?faultClear, fun v proof since q x hx harr => ?faultCleared, fun hup hhalt hsome hnone => ?freeze,
    fun hup hruns hfrozen => ?unfreeze, fun x hup hx ha hl => ?dioSet, fun x hup hx ha hl => ?tmrCtl⟩
  case start => rw [exec, execTimerStart, ← hv, tmrPress_taken (by decide) htaken, fin]
  case stop => rw [exec, execTimerStop, ← hv, tmrPress_taken (by decide) htaken, fin]
  case reload => rw [exec, execTimerReload, if_pos hup, State.tReload_due hfree hdue, fin]
  case compare => rw [exec, execCompareMatch, if_pos hup, State.tMatch_due hfree hhit hmax hdue, fin]
  case leading => rw [exec, execCaptureLeadingEdge, hup, hcap, hhigh, Bool.and_self, Bool.and_self, if_pos rfl, fin]
  case trailing =>
    rw [exec, execCaptureTrailingEdge, hup, hcap, hlow, hlead, htrail]
    rfl
  case edge => rw [exec, execDioEdge, hup, bne_iff_ne.mpr hedge, Bool.and_self, if_pos rfl, fin]
  case overcurrent => rw [exec, execDioOvercurrent, if_pos hdrives, fin]
  case faultClear => rw [exec, execDioFaultClear, tmrPress_taken (by decide) htaken, fin]
  case faultCleared =>
    subst hx
    rw [exec_farSideApply_one harr]
    exact congrArg (fun f => fin (s.farDone n (.lane n .tmr) q f)) (funext fun t => tmrEff_faultClear v _ t)
  case freeze =>
    rw [exec, execTimerFreeze, hup, hhalt, bne_iff_ne.mpr hsome, hnone]
    rfl
  case unfreeze =>
    rw [exec, execTimerUnfreeze, hup, bne_iff_ne.mpr hruns, bne_iff_ne.mpr hfrozen]
    rfl
  case dioSet =>
    rw [exec, execDioSet, if_pos hup, State.launchNext_unrefused
      (fun x s => s.put TMR.DIO_OUT n ((s.g TMR.DIO_OUT n &&& (255 - bitsOf x.arg 7 0)) ||| (bitsOf x.arg 15 8 &&& bitsOf x.arg 7 0))) hx ha hl, fin]
  case tmrCtl =>
    rw [exec, execTmrCtl, if_pos hup, State.launchNext_unrefused (fun x s => s.tStrobe n (bitsOf x.arg 3 0) (bitsOf x.arg 7 4)) hx ha hl, fin]

end Sys2Proof.Machine
end

section
/-! PROOFS. The CAN FD port (R369 to R385): the words of the CAN page, attempts, receptions and recovery, and the launches. -/

namespace Sys2Proof.Machine

section
variable {s : State} {w : Writer} {n : LaneId}

/-! ### The words of the CAN page (R371, R372, R381) -/

/-- Only a refused TXB_REQ does more than the press of its word. -/
theorem canPress_unrefused {off : Nat} {v proof : Word}
    (h : s.taken w (.lane n .can) off v (canChk s n off v (s.staged (.lane n .can) off v))) :
    canPress w n off v proof s = pressOne w (.lane n .can) off v proof (canChk s n off v) (canEff n off v proof) s := by
  obtain ⟨_, hjudge⟩ := h
  have hnone : ¬(s.judge w (.lane n .can) off v (canChk s n off v (s.staged (.lane n .can) off v))).isSome = true := by rw [hjudge]; nofun
  exact if_neg fun hrefused => hnone hrefused.2.2

theorem canPress_taken {off : Nat} {v proof : Word} (hoff : 0x10 ≤ off)
    (h : s.taken w (.lane n .can) off v (canChk s n off v (s.staged (.lane n .can) off v))) :
    canPress w n off v proof s = s.farSent n w (.lane n .can) off v proof := by
  rw [canPress_unrefused h]
  exact pressOne_far rfl (Page.mirrorAt_far nofun nofun hoff) (fun e => absurd e (by omega)) h

theorem canEff_keep {v : Word} (h : bitAt v 30 = true) (t : State) : canEff n 2 v 0 t = t := if_pos h

theorem canEff_run {v : Word} (h : bitAt v 30 = false) (t : State) : canEff n 2 v 0 t = t.canRunSet n (bitAt v 0) := by
  rw [canEff, if_pos rfl, h]
  rfl

theorem canPress_ctl {v : Word} (h : s.taken w (.lane n .can) 2 v (canChk s n 2 v (s.staged (.lane n .can) 2 v))) :
    canPress w n 2 v 0 s = s.ctlTaken n w (.lane n .can) v := by
  rw [canPress_unrefused h]
  exact pressOne_ctl rfl rfl rfl canEff_keep h

/-- A refused TXB_REQ is recorded in PG_ERR, and WORST_NS of its buffers is computed (R372). -/
theorem canPress_reqRefused {v : Word} {c : Nat} (hwritable : s.writable w (.lane n .can) 0x18 = true)
    (hjudge : s.judge w (.lane n .can) 0x18 v (canChk s n 0x18 v (s.staged (.lane n .can) 0x18 v)) = some c) :
    canPress w n 0x18 v 0 s = canWorst n v s (s.recordErr w (.lane n .can) 0x18 c false) := by
  have hrefused : (s.judge w (.lane n .can) 0x18 v (canChk s n 0x18 v (s.staged (.lane n .can) 0x18 v))).isSome = true := by rw [hjudge]; rfl
  have hpress : pressOne w (.lane n .can) 0x18 v 0 (canChk s n 0x18 v) (canEff n 0x18 v 0) s = s.recordErr w (.lane n .can) 0x18 c false :=
    pressAdj_refused _ _ _ _ _ _ _ _ _ _ hwritable hjudge
  rw [canPress, hpress, if_pos ⟨rfl, hwritable, hrefused⟩]

theorem canEff_req (v : Word) (t : State) : canEff n 0x18 v 0 t = t.txbReq n v := rfl
theorem canEff_cancel (v : Word) (t : State) : canEff n 0x19 v 0 t = t.txbCancel n v := rfl
theorem canEff_release (v : Word) (t : State) : canEff n 0x11 v 0 t = t.rxRelease n (bitsOf v 6 0) := rfl

theorem canEff_recover (t : State) : canEff n 0x10 1 0 t = if t.canState n = 4 then t.setCan n 5 else t := by
  have hbit : bitAt (1 : Word) 0 = true := rfl
  rw [canEff, if_neg (by decide), if_pos rfl, hbit, Bool.true_and]
  exact if_congr beq_iff_eq rfl rfl

/-! ### The launches (R221) -/

theorem State.canLaunch_head {q b : Nat} {r : List Nat} (h : (s.canSt n).queues[q]?.getD [] = b :: r) :
    s.canLaunch n q = (none, ((s.upCan n fun c => { c with queues := c.queues.setIfInBounds q r }).txPend n b).canQueues n) := by
  rw [State.canLaunch, h]

theorem State.canLaunch_empty {q : Nat} (h : (s.canSt n).queues[q]?.getD [] = []) : s.canLaunch n q = (some errAbsent, s) := by
  rw [State.canLaunch, h]

end

/-- Settles O22, clause by clause: each word of the CAN page sets out and is applied, each row's guard holds, and a launch takes the head of its
queue. -/
theorem canRowsComplete : Obligations.CanRowsComplete := by
  intro s w n
  refine ⟨fun v htaken => ?run, fun v since q hrun harr => exec_farSideApply_eff harr (canEff_run hrun), fun v htaken => ?req,
    fun v since q harr => exec_farSideApply_eff harr (canEff_req v), fun v htaken => ?cancel,
    fun v since q harr => exec_farSideApply_eff harr (canEff_cancel v), fun v htaken => ?release,
    fun v since q harr => exec_farSideApply_eff harr (canEff_release v), fun htaken => ?recover,
    fun since q harr => exec_farSideApply_eff harr canEff_recover, fun v c hwritable hjudge => ?refused, fun hruns hst hrun => ?integration,
    fun hup hst hauto hdelay => ?delay, fun hruns hst => ?recovered, fun b hsends hwins => ?attempt, fun ok lec dataPhase hup => ?attemptEnd,
    fun b hup hpending hlate hidle => ?deadline, fun hdr0 dlc rtr esi data stamp hup hon hop hfd => ?receive,
    fun lec dataPhase step8 hup hon hop => ?busError, fun x b r hup hx ha hl hqueue => ?launch, fun x hup hx ha hqueue => ?absent⟩
  case run => rw [exec, execCanRun, canPress_ctl htaken, fin]
  case req => rw [exec, execTxbReq, canPress_taken (by decide) htaken, fin]
  case cancel => rw [exec, execTxbCancel, canPress_taken (by decide) htaken, fin]
  case release => rw [exec, execRxRelease, canPress_taken (by decide) htaken, fin]
  case recover => rw [exec, execRecover, canPress_taken (by decide) htaken, fin]
  case refused => rw [exec, execTxbReq, canPress_reqRefused hwritable hjudge, fin]
  case integration =>
    rw [exec, execCanIntegration, hruns, hst, hrun]
    rfl
  case delay =>
    have hover : (s.canSt n).offAt + s.g CAN.BUSOFF_DELAY_MS n * msTicks ≤ s.clock := hdelay
    rw [exec, execBusoffDelayExpiry, hup, hst, hauto, decide_eq_true hover]
    rfl
  case recovered =>
    rw [exec, execRecoveryComplete, hruns, hst]
    rfl
  case attempt => rw [exec, execCanAttemptStart, if_pos hsends, hwins, fin]
  case attemptEnd => rw [exec, execCanAttemptEnd, if_pos hup, fin]
  case deadline =>
    rw [exec, execCanDeadline, hup, hpending, hlate, bne_iff_ne.mpr hidle]
    rfl
  case receive =>
    have htakes : (!bitAt hdr0 30 || s.on CAN.MODE_FD_EN n) = true := by
      rcases hfd with h | h <;> rw [h]
      · rfl
      · exact Bool.or_true _
    rw [exec, execCanFrameRx, hup, hon, bne_iff_ne.mpr hop, htakes]
    rfl
  case busError =>
    rw [exec, execCanBusError, hup, hon, bne_iff_ne.mpr hop]
    rfl
  case launch =>
    have htook := State.canLaunch_head hqueue
    have hkind : s.launchKind (s.canLaunch n (bitsOf x.arg 1 0)).1 (s.slotDiff n.val x) = .onTime := by rw [htook, State.launchKind_onTime hl]
    rw [exec, execCanLaunch, if_pos hup, launchNext_onTime hx ha hkind, htook, fin]
  case absent => rw [exec, execCanLaunch, if_pos hup, launchNext_refused hx ha (State.canLaunch_empty hqueue), fin]

end Sys2Proof.Machine
end

section
/-! PROOFS. The filter chains (R254 to R273) and the coarse path (R265): the words of the CHAIN page, launches, restarts, outputs and coarse
samples. -/

namespace Sys2Proof.Machine

section
variable {s : State} {w : Writer} {n : LaneId}

/-! ### The words of the CHAIN page -/

/-- An accepted CHAIN word but PG_CTL and SWAP sets out. -/
theorem chainPress_taken {off : Nat} {v : Word} (hoff : 0x10 ≤ off) (hswap : off ≠ 0x24)
    (h : s.taken w (.lane n .chain) off v (chainChk s n off v (s.staged (.lane n .chain) off v))) :
    chainPress w n off v 0 s = s.farSent n w (.lane n .chain) off v 0 := by
  rw [chainPress_far (Page.mirrorAt_far nofun nofun hoff) (fun e => absurd e (by omega)) h, chainNear_other _ _ _ _ hswap]

theorem chainEff_tap (v : Word) (t : State) :
    chainEff n 0x11 v 0 t = allChains.foldl (fun s (c : Fin 4) => if (s.chain n c).tap = s.g (tapFld c) n then s
      else s.upChain n c fun x => { x with since := s.tapFrom n c }) (storeEff (.lane n .chain) 0x11 v 0 t) := rfl

theorem chainEff_sel (v : Word) (t : State) : chainEff n 0x25 v 0 t = storeEff (.lane n .chain) 0x25 v 0 t := rfl

/-! ### What a restart leaves of time (R199, R215) -/

/-- The words of the common pages and lane n's time offset are the same: what is told from registration time is. -/
def SameTime (n : LaneId) (s t : State) : Prop := (∀ a, a < 0x4000 → t.wd a = s.wd a) ∧ (t.lane n).timeOff = (s.lane n).timeOff

theorem SameTime.trans {t u : State} (h : SameTime n s t) (k : SameTime n t u) : SameTime n s u :=
  ⟨fun a ha => (k.1 a ha).trans (h.1 a ha), k.2.trans h.2⟩

theorem SameTime.of_upLane (s : State) {f : Lane → Lane} (hf : (f (s.lane n)).timeOff = (s.lane n).timeOff) : SameTime n s (s.upLane n f) :=
  ⟨fun _ _ => rfl, by rw [State.lane_upLane_same, hf]⟩

theorem SameTime.of_setWd (s : State) {b : Nat} (v : Word) (hb : 0x4000 ≤ b) : SameTime n s (s.setWd b v) :=
  ⟨fun _ ha => State.wd_setWd_ne _ _ (by omega), rfl⟩

/-- The words of the lanes' pages lie behind those of the common pages. -/
theorem Fld.addr_lane {f : Fld} (hf : 0x40 ≤ f.page) (i : Nat) : 0x4000 ≤ f.addr n i := by rw [Fld.addr]; omega

theorem Page.at_lane (k : LaneKind) (off : Nat) : 0x4000 ≤ (Page.lane n k).at_ off := by rw [Page.at_, Page.num]; omega

theorem SameTime.of_p (s : State) {f : Fld} (hf : 0x40 ≤ f.page) (i v : Nat) : SameTime n s (s.p f n i v) :=
  .of_setWd s _ (Fld.addr_lane hf i)

theorem SameTime.of_put (s : State) {f : Fld} (hf : 0x40 ≤ f.page) (v : Nat) : SameTime n s (s.put f n v) := .of_p s hf 0 v

theorem SameTime.of_bump (s : State) {f : Fld} (hf : 0x40 ≤ f.page) : SameTime n s (s.bump f n) := .of_p s hf 0 _

theorem SameTime.of_farRaise (s : State) (k : LaneKind) (b : Nat) : SameTime n s (s.farRaise n k b) := .of_upLane s rfl

theorem SameTime.of_upChain (s : State) (c : Fin 4) (f : Chain → Chain) : SameTime n s (s.upChain n c f) := .of_upLane s rfl

theorem SameTime.g {t : State} (h : SameTime n s t) (f : Fld) (hf : f.addr 0 0 < 0x4000) : t.g f 0 = s.g f 0 := by
  rw [State.g, State.g, h.1 _ hf]

theorem SameTime.laneTime {t : State} (h : SameTime n s t) : t.laneTime n = s.laneTime n := by
  rw [State.laneTime, State.laneTime, State.rt64, State.rt64, h.g REG.RT_HI (by decide), h.g REG.WRAP_PENDING (by decide),
    h.g REG.RT_LO (by decide), h.2]

/-- The instant of a launch rests on lane time and LATE_TOL. -/
theorem SameTime.launchAt {t : State} (h : SameTime n s t) (x : Impression) : t.launchAt n x = s.launchAt n x := by
  have htol : t.lateTol = s.lateTol := by rw [State.lateTol, State.lateTol, h.g IMP.LATE_TOL (by decide)]
  simp only [State.launchAt, State.slotDiff, State.slotTime, htol, n.isLt, dif_pos, Fin.eta, h.laneTime]

theorem SameTime.of_chainStat (s : State) : SameTime n s (s.chainStat n) :=
  (SameTime.of_setWd _ _ (Page.at_lane .chain 3)).trans (.of_setWd _ _ (Page.at_lane .chain 3))

theorem SameTime.of_chainRestart (s : State) (c : Fin 4) (e : Nat) : SameTime n s (s.chainRestart n c e) := by
  have hpage : 0x40 ≤ 0x42 := by decide
  unfold State.chainRestart
  refine (SameTime.of_upChain s c _).trans ((SameTime.of_p _ ?_ c 1).trans ((SameTime.of_p _ ?_ c 1).trans ((SameTime.of_put _ ?_ _).trans
    ((SameTime.of_bump _ ?_).trans ((SameTime.of_farRaise _ .chain 3).trans (SameTime.of_chainStat _))))))
  all_goals exact hpage

theorem State.launchAt_restartOnce (s : State) (c : Fin 4) (e : Nat) (x : Impression) : (s.restartOnce n c e).launchAt n x = s.launchAt n x := by
  rw [State.restartOnce]
  split
  · rfl
  · exact (SameTime.of_chainRestart s c e).launchAt x

/-- The chains that a SYNC_RESET restarts all restart on the edge of one instant. -/
theorem syncRestarts_at {x : Impression} {cs : List (Fin 4)} {e : Nat} (h : s.launchAt n x = e) :
    cs.foldl (fun s (c : Fin 4) => if bitAt x.arg c && s.on CHAIN.STAT_RUNNING n c then s.restartOnce n c (gridEdge (s.launchAt n x)) else s) s
      = cs.foldl (fun s (c : Fin 4) => if bitAt x.arg c && s.on CHAIN.STAT_RUNNING n c then s.restartOnce n c (gridEdge e) else s) s := by
  induction cs generalizing s with
  | nil => rw [List.foldl_nil, List.foldl_nil]
  | cons c cs ih =>
    rw [List.foldl_cons, List.foldl_cons, h]
    apply ih
    split
    · rw [State.launchAt_restartOnce, h]
    · exact h

/-! ### Coarse samples (R265) -/

theorem blockClear_iff {d e : Nat} : blockClear d e = true ↔ d + 29500 ≤ e := by
  rw [blockClear, decide_eq_true_iff]
  unfold coarseReach coarseBlock
  omega

theorem State.coarseValid_all {e : Nat} (hown : (s.lane n).coarseFrom + 29500 ≤ e) (hrange : (s.lane n).rangeFrom + 29500 ≤ e) :
    s.coarseValid n e = 7 := by
  rw [State.coarseValid, blockClear_iff.mpr hown, blockClear_iff.mpr hrange]
  rfl

theorem State.coarseValid_aux {e : Nat} (hown : (s.lane n).coarseFrom + 29500 ≤ e) (hrange : e < (s.lane n).rangeFrom + 29500) :
    s.coarseValid n e = 4 := by
  have hdisturbed : blockClear (s.lane n).rangeFrom e = false := by rw [Bool.eq_false_iff, ne_eq, blockClear_iff]; omega
  rw [State.coarseValid, blockClear_iff.mpr hown, hdisturbed]
  rfl

section
variable {bv bi ba : Nat} {v i : Word} {comp plim : Bool}

theorem exec_coarseSample_valid (hup : s.farUp n = true) (hready : s.phase n = 3) (hat : (s.lane n).coarseAt < s.blockEnd n)
    (hloop : s.loop n (s.coarseValue n 0 bv) (s.coarseValue n 1 bi) = (v, i, comp, plim)) (hvalid : s.coarseValid n (s.blockEnd n) = 7) :
    exec (.coarseSample n bv bi ba) s = .next (((s.coarseTaken n bv bi ba).coarseRegs n v i (s.coarseValue n 2 ba)
      (BitVec.ofNat 32 (s.blockEnd n)) 7).coarse n v i (BitVec.ofNat 32 (s.blockEnd n)) comp plim).settle := by
  rw [exec, execCoarseSample, hup, hready, decide_eq_true hat, hloop, hvalid]
  rfl

theorem exec_coarseSample_disturbed {t u : State} (hup : s.farUp n = true) (hready : s.phase n = 3) (hat : (s.lane n).coarseAt < s.blockEnd n)
    (hloop : s.loop n (s.coarseValue n 0 bv) (s.coarseValue n 1 bi) = (v, i, comp, plim)) (hvalid : s.coarseValid n (s.blockEnd n) = 4)
    (hu : u = (s.coarseTaken n bv bi ba).coarseRegs n v i (s.coarseValue n 2 ba) (BitVec.ofNat 32 (s.blockEnd n)) 4)
    (hadd : u.energyAdd n (u.smu n).lastPower = (false, t)) :
    exec (.coarseSample n bv bi ba) s = .next t.settle := by
  have hstep : exec (.coarseSample n bv bi ba) s
      = fin (if (u.energyAdd n (u.smu n).lastPower).1 then ((u.energyAdd n (u.smu n).lastPower).2.farSmu n 5).endCycle n 12
        else (u.energyAdd n (u.smu n).lastPower).2) := by
    subst hu
    rw [exec, execCoarseSample, hup, hready, decide_eq_true hat, hloop, hvalid]
    rfl
  rw [hstep, hadd]
  rfl

end

end

/-- Settles O17, clause by clause: each word of the CHAIN page sets out and is applied, the launches are on time, and each row's guard holds. -/
theorem chainRowsComplete : Obligations.ChainRowsComplete := by
  intro s w n
  refine ⟨fun v htaken => ?ctl, fun v since q hrun harr => ?run, fun v htaken => ?en, fun v since q harr => ?enApplied, fun v htaken => ?tap,
    fun v since q harr => ?tapApplied, fun v htaken => ?src,
    fun v since q harr => exec_farSideApply_eff harr fun _ => rfl, fun i v htaken => ?coef, fun i v since q harr => ?coefApplied,
    fun v htaken => ?sel, fun v since q harr => exec_farSideApply_eff harr (chainEff_sel v), fun v htaken => ?swap,
    fun v since q harr => ?swapApplied, fun x hup hx ha hl => ?winOpen, fun x hup hx ha hl => ?winClose, fun x hup hx ha hl => ?sync,
    fun c e hdue hruns hwanted hat => ?restart, fun c bits hc hruns hon hat => ?output, fun bits hruns hon => ?outputM,
    fun bv bi ba e v i comp plim hup hready he hat hloop => ?coarse⟩
  case ctl => exact congrArg fin (chainPress_ctl htaken)
  case run => exact exec_farSideApply_eff harr fun t => congrFun (chainEff_ctl n v 0 hrun) t
  case en => exact congrArg fin (chainPress_taken (by decide) (by decide) htaken)
  case enApplied => exact exec_farSideApply_eff harr fun t => congrFun (chainEff_en n v 0) t
  case tap => exact congrArg fin (chainPress_taken (by decide) (by decide) htaken)
  case tapApplied => exact exec_farSideApply_eff harr (chainEff_tap (n := n) v)
  case src => exact congrArg fin (chainPress_taken (by decide) (by decide) htaken)
  case coef => exact congrArg fin (chainPress_taken (by omega) (by omega) htaken)
  case coefApplied => exact exec_farSideApply_eff harr fun t => congrFun (chainEff_coef n i v 0) t
  case sel => exact congrArg fin (chainPress_taken (by decide) (by decide) htaken)
  case swap => exact congrArg fin (chainPress_far (Page.mirrorAt_far nofun nofun (by decide)) nofun htaken)
  case swapApplied => exact exec_farSideApply_eff harr fun t => congrFun (chainEff_swap n v 0) t
  case winOpen =>
    rw [exec, execWindowOpen, if_pos hup, State.launchNext_unrefused
      (fun x s => s.setWin n (s.g CHAIN.WIN n ||| bitsOf x.arg 3 0) (64 * s.launchAt n x)) hx ha hl, State.launchAt_onTime hl, fin]
  case winClose =>
    rw [exec, execWindowClose, if_pos hup, State.launchNext_unrefused
      (fun x s => s.setWin n (s.g CHAIN.WIN n &&& (15 - bitsOf x.arg 3 0)) (64 * s.launchAt n x)) hx ha hl, State.launchAt_onTime hl, fin]
  case sync =>
    rw [exec, execSyncReset, if_pos hup, State.launchNext_unrefused
      (fun x s => allChains.foldl (fun s (c : Fin 4) =>
        if bitAt x.arg c && s.on CHAIN.STAT_RUNNING n c then s.restartOnce n c (gridEdge (s.launchAt n x)) else s) s) hx ha hl,
      syncRestarts_at (State.launchAt_onTime hl), fin]
  case restart =>
    have hedge : e ≤ s.laneFine n := hat
    have hguard : (s.farRuns n && s.chainWanted n c && decide (e ≤ s.laneFine n)) = true := by
      rw [hruns, hwanted, decide_eq_true hedge, Bool.and_self, Bool.and_self]
    rw [exec, execChainRestart, hdue]
    exact congrArg fin (if_pos hguard)
  case output => rw [exec, execChainOutput, hruns, hon, Bool.and_self, if_pos rfl, if_neg hc, fin]
  case outputM =>
    have hon' : s.on CHAIN.STAT_RUNNING n ((3 : Fin 4) : Nat) = true := hon
    rw [exec, execChainOutput, hruns, hon']
    rfl
  case coarse =>
    subst he
    exact ⟨fun hown hrange => exec_coarseSample_valid hup hready hat hloop (State.coarseValid_all hown hrange),
      fun t u hown hrange hu hadd => exec_coarseSample_disturbed hup hready hat hloop (State.coarseValid_aux hown hrange) hu hadd⟩

end Sys2Proof.Machine
end

section
/-! PROOFS. The ultrasonic unit (R274 to R295): the words of the USND page, cadence pairs and launched pairs, the end of a pair, and the electronic
zero. -/

namespace Sys2Proof.Machine

section
variable {s : State} {w : Writer} {n : LaneId}

/-! ### The words of the USND page -/

theorem usndPress_taken {off : Nat} {v proof : Word} (hoff : 0x10 ≤ off)
    (h : s.taken w (.lane n .usnd) off v (usndChk s n off v (s.staged (.lane n .usnd) off v))) :
    usndPress w n off v proof s = s.farSent n w (.lane n .usnd) off v proof :=
  pressOne_far rfl (Page.mirrorAt_far nofun nofun hoff) (fun e => absurd e (by omega)) h

theorem usndEff_keep {v : Word} (h : bitAt v 30 = true) (t : State) : usndEff n 2 v 0 t = t := if_pos h

theorem usndEff_run {v : Word} (h : bitAt v 30 = false) (t : State) :
    usndEff n 2 v 0 t
      = if bitAt v 0 then (if t.run (.lane n .usnd) then t else t.usStart n) else if t.run (.lane n .usnd) then t.usHalt n else t := by
  rw [usndEff, if_pos rfl, h]
  rfl

/-- The bits of CMD, one by one. -/
theorem State.usCmd_bits (t : State) : t.usCmd n 2 = t.usShot n (t.laneTime n) ∧ t.usCmd n 4 = t.zeroStart n
    ∧ t.usCmd n 8 = (if t.run (.lane n .usnd) then t.seed n else t)
    ∧ t.usCmd n 16 = if t.on USND.STAT_ZC_DUE n then t.zcBound n else t := ⟨rfl, rfl, rfl, rfl⟩

/-! ### Pairs (R279 to R282, R292) -/

theorem Usnd.busy_of_pair {u : Usnd} (h : u.pair ≠ none) : u.busy = true := by
  rw [Usnd.busy, Option.isSome_iff_ne_none.mpr h]
  rfl

/-- While a pair is in progress nothing that waits starts. -/
theorem State.usPass_of_pair (h : (s.us n).pair ≠ none) : s.usPass n = s := by
  rw [State.usPass]
  split
  · exact if_neg fun ⟨_, hnone⟩ => h hnone
  · split
    · rw [State.usNext, if_pos (Usnd.busy_of_pair h)]
    · rfl

theorem State.usPass_of_idle (htail : (s.us n).tail = none) (hshot : (s.us n).shotWaits = 0) (hcad : (s.us n).cadWaits = false) :
    s.usPass n = s := by
  rw [State.usPass, htail]
  exact if_neg fun hwaits => hwaits.elim (fun h => h hshot) fun h => Bool.false_ne_true (hcad.symm.trans h)

/-- A launched pair waits for the end of the pair in progress (R282). -/
theorem State.usShot_delayed {t : Nat} (hrun : s.run (.lane n .usnd) = true) (hfar : s.farRuns n = true) (hpair : (s.us n).pair ≠ none) :
    s.usShot n t = (((s.upUs n fun u => { u with shotWaits := u.shotWaits + 1 }).bump USND.LAUNCH_DELAYS n).farUsnd n 8) := by
  rw [State.usShot, State.usPass_of_pair hpair, hrun, hfar, Usnd.busy_of_pair hpair]
  rfl

/-- The next instant of the lattice moves no register and no time. -/
theorem SameTime.of_cadStep (s : State) (d : Nat) : SameTime n s (s.cadStep n d) := .of_upLane s rfl

/-- With nothing in progress a cadence pair that is due starts. -/
theorem State.cadPair_starts {d : Nat} (hshot : (s.us n).shotWaits = 0) (hpair : (s.us n).pair = none) (htail : (s.us n).tail = none)
    (hzero : s.on USND.STAT_ZC_RUNNING n = false) : s.cadPair n d = (s.cadStep n d).startPair n (max d (s.us n).earliest) false := by
  have hidle : (s.us n).busy = false := by rw [Usnd.busy, hpair, htail]; rfl
  have hzero' : (s.cadStep n d).on USND.STAT_ZC_RUNNING n = false := hzero
  rw [State.cadPair, hzero', hshot, hpair, hidle, State.zcAbandon, hzero']
  rfl

/-- A cadence pair that falls due while a launched pair is in progress is skipped, and the lattice goes on from the launched pair (R282). -/
theorem State.cadPair_skipped {d : Nat} {p : Pair} (hshot : (s.us n).shotWaits = 0) (hpair : (s.us n).pair = some p) (hp : p.launched = true)
    (hforced : (s.us n).zcForced = false) :
    s.cadPair n d = ((s.cadStep n d).skipPair n).upUs n fun u =>
      { u with cadBase := u.lastStart, cadDue := cadNext (s.g USND.STAT_CADENCE n) u.lastStart (s.laneTime n) } := by
  rw [← (SameTime.of_cadStep s d).laneTime, State.cadPair, hforced, hshot, hpair, Bool.and_false]
  simp only [hp, bne_self_eq_false, Bool.false_eq_true, if_false, if_true]
  rfl

theorem exec_cadencePairStart {d : Nat} (hfar : s.farRuns n = true) (hrun : s.run (.lane n .usnd) = true)
    (hinit : (s.us n).zcInitial = false) (hdue : (s.us n).cadDue = some d) (hd : d ≤ s.laneTime n) (hpass : s.usPass n = s) :
    exec (.cadencePairStart n) s = .next (s.cadPair n d).settle := by
  have hguard : (s.farRuns n && s.run (.lane n .usnd) && !(s.us n).zcInitial && decide (d ≤ s.laneTime n)) = true := by
    rw [hfar, hrun, hinit, decide_eq_true hd]
    rfl
  rw [exec, execCadencePairStart, hpass, hdue]
  exact congrArg fin (if_pos hguard)

/-- The up window of the pair in progress ends with both signals there. -/
theorem State.pairEnd_seen {down up : Shot} {p : Pair} {au ad : Nat} {s1 s2 t : State} {tu td : Int} (hpair : (s.us n).pair = some p)
    (hup : s.someAmp n up = (au, s1)) (hdown : s1.someAmp n down = (ad, s2)) (ht : t = (s2.put USND.AMP_UP n au).put USND.AMP_DN n ad)
    (htu : t.signal n up = some tu) (htd : t.signal n down = some td) :
    s.pairEnd n down up = (((t.pairSeen n p tu td (b2n p.preempted * 0x40 + b2n p.flow * 0x80)).upUs n fun u => { u with pair := none }).agc n
      (min au ad)).usPass n := by
  subst ht
  simp only [State.pairEnd, hpair, hup, hdown, htu, htd]

/-- It ends with a signal missing. -/
theorem State.pairEnd_quiet {down up : Shot} {p : Pair} {au ad : Nat} {s1 s2 t : State} (hpair : (s.us n).pair = some p)
    (hup : s.someAmp n up = (au, s1)) (hdown : s1.someAmp n down = (ad, s2)) (ht : t = (s2.put USND.AMP_UP n au).put USND.AMP_DN n ad)
    (hmissing : t.signal n up = none ∨ t.signal n down = none) :
    s.pairEnd n down up = (((t.pairQuiet n p down up (b2n p.preempted * 0x40 + b2n p.flow * 0x80)).upUs n fun u => { u with pair := none }).agc n
      (min au ad)).usPass n := by
  subst ht
  simp only [State.pairEnd, hpair, hup, hdown]
  rcases hmissing with h | h
  · rw [h]
  · rw [h]
    split
    · contradiction
    · rfl

/-! ### The electronic zero (R280, R291, R292) -/

/-- What is done to the unit matters at the unit that is there. -/
theorem State.upUs_congr {f g : Usnd → Usnd} (h : f (s.us n) = g (s.us n)) : s.upUs n f = s.upUs n g := by
  have h' : f (s.lane n).usnd = g (s.lane n).usnd := h
  simp only [State.upUs, State.upLane, h']

/-- The registers that a completed run of the electronic zero sets. -/
def State.zcMeasured (s : State) (n : LaneId) (dtEl : Int) : State :=
  ((((((s.put USND.DT_EL n (wrapInt 32 dtEl)).dtOffSet n).put USND.STAT_ZC_RUNNING n 0).put USND.STAT_ZC_DUE n 0).put USND.ZC_AGE_S n 0).put
    USND.ZC_OVERDUE_S n 0)

theorem SameTime.of_zcMeasured (s : State) (dtEl : Int) : SameTime n s (s.zcMeasured n dtEl) :=
  have hpage : 0x40 ≤ USND.DT_EL.page := by decide
  ((((SameTime.of_p s hpage 0 _).trans (.of_p _ (f := USND.DT_OFF) hpage 0 _)).trans (.of_p _ (f := USND.STAT_ZC_RUNNING) hpage 0 _)).trans
    (.of_p _ (f := USND.STAT_ZC_DUE) hpage 0 _)).trans ((SameTime.of_p _ (f := USND.ZC_AGE_S) hpage 0 _).trans
      (.of_p _ (f := USND.ZC_OVERDUE_S) hpage 0 _))

theorem State.us_zcMeasured (s : State) (dtEl : Int) : (s.zcMeasured n dtEl).us n = s.us n := by
  simp only [State.zcMeasured, State.dtOffSet, State.putPs, State.us, State.lane_put]

/-- Two fields of one page of one lane that lie in different words. -/
theorem Fld.apart_of_off (f x : Fld) (m : Nat) (hpage : f.page = x.page) (hstep : f.step = x.step) (hoff : f.off ≠ x.off) :
    f.apart m 0 x m 0 := .inl (by simp only [Fld.addr, hpage, hstep]; omega)

/-- A run leaves the cadence in force. -/
theorem State.cadence_zcMeasured (s : State) (dtEl : Int) : (s.zcMeasured n dtEl).g USND.STAT_CADENCE n = s.g USND.STAT_CADENCE n := by
  have keeps {f : Fld} (hok : f.ok = true) (h : f.apart n 0 USND.STAT_CADENCE n 0) (u : State) (v : Nat) :
      (u.put f n v).g USND.STAT_CADENCE n = u.g USND.STAT_CADENCE n := State.g_put_ne _ _ _ _ _ _ _ hok h
  rw [State.zcMeasured, keeps (f := USND.ZC_OVERDUE_S) rfl (Fld.apart_of_off USND.ZC_OVERDUE_S _ _ rfl rfl (by decide)),
    keeps (f := USND.ZC_AGE_S) rfl (Fld.apart_of_off USND.ZC_AGE_S _ _ rfl rfl (by decide)), keeps (f := USND.STAT_ZC_DUE) rfl (.inr (by decide)),
    keeps (f := USND.STAT_ZC_RUNNING) rfl (.inr (by decide)), State.dtOffSet, State.putPs,
    keeps (f := USND.DT_OFF) rfl (Fld.apart_of_off USND.DT_OFF _ _ rfl rfl (by decide)),
    keeps (f := USND.DT_EL) rfl (Fld.apart_of_off USND.DT_EL _ _ rfl rfl (by decide))]

/-- What the unit notes of a completed run, at lane time `now` and temperature `t`; `paced` says that the cadence in force has a lattice. -/
def Usnd.zcDone (now : Nat) (t : Int) (paced : Bool) (u : Usnd) : Usnd :=
  { u with zcInitial := false, zcForced := false, zcNoticed := false, zcTemp := t, zcFrom := now,
           cadDue := if u.zcInitial && paced then some now else u.cadDue }

theorem exec_zcRunComplete {dtEl : Int} {t : BitVec 16} (hup : s.farUp n = true) (hrun : s.on USND.STAT_ZC_RUNNING n = true)
    (hover : (s.us n).zcFrom + 3200000 ≤ s.laneTime n) :
    exec (.zcRunComplete n dtEl t) s = .next (((((s.zcMeasured n dtEl).upUs n (Usnd.zcDone (s.laneTime n) t.toInt
      (s.g USND.STAT_CADENCE n == 1 || s.g USND.STAT_CADENCE n == 2))).bgFollow n).farUsnd n 6).usNext n).settle := by
  have hguard : (s.farUp n && s.on USND.STAT_ZC_RUNNING n && decide ((s.us n).zcFrom + zcRun ≤ s.laneTime n)) = true := by
    have hrest : (s.us n).zcFrom + zcRun ≤ s.laneTime n := hover
    rw [hup, hrun, decide_eq_true hrest]
    rfl
  rw [exec, execZcRunComplete, if_pos hguard, ← State.cadence_zcMeasured s dtEl, ← (SameTime.of_zcMeasured s dtEl).laneTime]
  rfl

end

/-- Settles O18, clause by clause: each word of the USND page sets out and is applied, each row's guard holds, and a pair in progress keeps what waits
from starting. -/
theorem ultrasonicRowsComplete : Obligations.UltrasonicRowsComplete := by
  intro s w n
  refine ⟨fun v htaken => ?run, fun v since q hrun harr => exec_farSideApply_eff harr (usndEff_run (n := n) hrun), fun v htaken => ?cadence,
    fun v since q harr => exec_farSideApply_eff harr fun _ => rfl, fun c v hc htaken => ?cmd,
    fun v since q harr => exec_farSideApply_eff harr fun _ => rfl, State.usCmd_bits, fun t hst => if_neg hst,
    fun t hrun hfar hpair => State.usShot_delayed hrun hfar hpair, fun d hfar hrun hinit hdue hd hshot => ?pair,
    fun x hfar hx ha hl => ?shot, fun down up p au ad s1 s2 t hup hpair hover hau had ht => ?pairEnd, fun hup hrun hauto hflow htime => ?autoIdle,
    fun t hup hrun hdue => ?zcDue, fun hfar hrun hdue hidle hfree => ?zcStart, fun dtEl t hup hrun hover hinit => ?zcDone,
    fun dtEl t hup hrun hover hinit hcad => ?zcFirst, fun hup hdue hover => ?zcNotice, fun hup hrun hdue hover => ?zcForced⟩
  case run => exact congrArg fin (pressOne_ctl rfl rfl rfl usndEff_keep htaken)
  case cadence => rw [exec, execCadenceWrite, usndPress_taken (by decide) htaken, fin]
  case cmd =>
    simp only [List.mem_cons, Prod.mk.injEq, List.not_mem_nil, or_false] at hc
    rcases hc with ⟨rfl, rfl⟩ | ⟨rfl, rfl⟩ | ⟨rfl, rfl⟩ | ⟨rfl, rfl⟩ <;> exact congrArg fin (usndPress_taken (by decide) htaken)
  case pair =>
    refine ⟨fun hpair htail hwaits hzero => ?_, fun p hpair hp hforced => ?_⟩
    · rw [exec_cadencePairStart hfar hrun hinit hdue hd (State.usPass_of_idle htail hshot hwaits),
        State.cadPair_starts hshot hpair htail hzero]
    · have hsome : (s.us n).pair ≠ none := by rw [hpair]; nofun
      rw [exec_cadencePairStart hfar hrun hinit hdue hd (State.usPass_of_pair hsome), State.cadPair_skipped hshot hpair hp hforced]
  case shot =>
    rw [exec, execUsndShot, if_pos hfar, State.launchNext_unrefused (fun x s => s.usShot n (s.launchAt n x)) hx ha hl,
      State.launchAt_onTime hl, fin]
  case pairEnd =>
    have hguard : (s.farUp n && s.upWindowOver n) = true := by rw [hup, hover, Bool.and_self]
    refine ⟨fun tu td htu htd => ?_, fun hmissing => ?_⟩
    · rw [exec, execPairEnd, if_pos hguard, State.pairEnd_seen hpair hau had ht htu htd, fin]
    · rw [exec, execPairEnd, if_pos hguard, State.pairEnd_quiet hpair hau had ht hmissing, fin]
  case autoIdle =>
    have hover : (s.us n).offAt + 2 * second ≤ s.laneTime n := htime
    rw [exec, execAutoIdleReturn, hup, hrun, hauto, hflow, decide_eq_true hover]
    rfl
  case zcDue =>
    have hcond : (decide (300 ≤ s.g USND.ZC_AGE_S n) || decide (20 < (t.toInt - (s.us n).zcTemp).natAbs)) = true := by
      simpa only [Bool.or_eq_true, decide_eq_true_eq] using hdue
    rw [exec, execZcDue, hup, hrun, hcond]
    rfl
  case zcStart =>
    rw [exec, execZcRunStart, hfar, hrun, hdue, hidle, hfree]
    rfl
  case zcDone =>
    rw [exec_zcRunComplete hup hrun hover]
    refine congrArg (fun u : State => fin (((u.bgFollow n).farUsnd n 6).usNext n)) (State.upUs_congr (s := s.zcMeasured n dtEl) ?_)
    rw [State.us_zcMeasured, Usnd.zcDone, hinit]
    rfl
  case zcFirst =>
    have hpaced : (s.g USND.STAT_CADENCE n == 1 || s.g USND.STAT_CADENCE n == 2) = true := by
      simpa only [Bool.or_eq_true, beq_iff_eq] using hcad
    rw [exec_zcRunComplete hup hrun hover, hpaced]
    refine congrArg (fun u : State => fin (((u.bgFollow n).farUsnd n 6).usNext n)) (State.upUs_congr (s := s.zcMeasured n dtEl) ?_)
    rw [State.us_zcMeasured, Usnd.zcDone, hinit]
    rfl
  case zcNotice =>
    have hsecond : zcBoundS ≤ s.g USND.ZC_OVERDUE_S n + 1 := Nat.succ_le_succ hover
    rw [exec, execZcNotice, hup, hdue, decide_eq_true hsecond]
    rfl
  case zcForced =>
    have hbound : zcBoundS ≤ s.g USND.ZC_OVERDUE_S n := hover
    rw [exec, execZcForced, hup, hrun, hdue, decide_eq_true hbound]
    rfl

end Sys2Proof.Machine
end

section
/-! PROOFS. The gatherer's commands (R159 to R173) and the night watch (R175, R176): bitmaps, claims and completions, source entries, coalescers, the
gaps of the FIRQ lines. -/

namespace Sys2Proof.Machine

section
variable {s : State} {w : Writer} {i : Nat} {v : Word}

/-! ### Words of the EVG page -/

/-- A word of the EVG page that its checks accept takes effect at once. -/
theorem pressOne_evg {off : Nat} {proof : Word} {chk : Option Nat} {eff : State → State} (hoff : off ≠ 2) (h : s.taken w .evg off v chk) :
    pressOne w .evg off v proof (fun _ => chk) eff s = s.nearDone .evg eff := pressOne_near rfl hoff h

/-- A word of a bitmap acts on the sources of its word. -/
theorem exec_bitmap {base : Nat} {proof : Word} {eff : State → State} (hbase : 2 < base) (hi : i < 32) (h : s.taken w .evg (base + i) v none) :
    fin (if 32 ≤ i then s else pressOne w .evg (base + i) v proof (fun _ => none) eff s) = .next (s.nearDone .evg eff).settle := by
  rw [if_neg (Nat.not_le.mpr hi), pressOne_evg (by omega) h, fin]

/-- A table of source entries has no header: an accepted word of it is its effect. -/
theorem pressOne_table {j : Fin 4} {off : Nat} {proof : Word} {chk : State → Option Nat} {eff : State → State}
    (h : s.taken w (.table j) off v (chk (s.staged (.table j) off v))) : pressOne w (.table j) off v proof chk eff s = eff s := by
  rw [pressOne, pressAdj_accepted _ _ _ _ _ _ _ _ _ h.1 h.2, State.acceptWord, if_neg fun ⟨_, _, hheader⟩ => Bool.false_ne_true hheader]
  rfl

theorem claimEff_set (t : Nat) (h : bitAt v 31 = true) : claimEff t v = fun s => s.claim t (bitsOf v 9 0) := funext fun _ => if_pos h
theorem doneEff_set (t : Nat) (h : bitAt v 31 = true) : doneEff t v = fun s => s.complete t (bitsOf v 9 0) := funext fun _ => if_pos h
theorem forceDoneEff_set (h : bitAt v 31 = true) : forceDoneEff v = fun s => s.complete (bitsOf v 20 16) (bitsOf v 9 0) := funext fun _ => if_pos h

/-! ### Source entries (R161) -/

/-- An accepted source entry stores TARGET, PRIO and COAL and keeps the enable. -/
theorem src_entryEff (i : Nat) (v : Word) (s : State) : ((entryEff i v s).src i).target = bitsOf v 31 27
    ∧ ((entryEff i v s).src i).prio = bitsOf v 26 24 ∧ ((entryEff i v s).src i).coal = bitsOf v 23 20
    ∧ ((entryEff i v s).src i).en = (s.src i).en := by
  rw [entryEff]
  split
  · rw [State.makePending]
    simp only [State.src_setSrc_same, and_self]
  · simp only [State.src_setSrc_same, and_self]

theorem src_entryEff_ne {m : Nat} (v : Word) (s : State) (h : m ≠ i) : (entryEff i v s).src m = s.src m := by
  rw [entryEff]
  split
  · rw [State.makePending, State.src_setSrc_ne _ _ h, State.src_setSrc_ne _ _ h]
  · exact State.src_setSrc_ne _ _ h

/-- It changes sources alone. -/
theorem entryEff_frame (i : Nat) (v : Word) (s : State) : (entryEff i v s).regs = s.regs ∧ (entryEff i v s).lanes = s.lanes := by
  rw [entryEff]
  split <;> exact ⟨rfl, rfl⟩

theorem exec_sourceEntryWrite {j : Fin 4} (hi : i < 1024) (hj : j.val = i / 256)
    (h : s.taken w (.table j) (i % 256) v ((s.staged (.table j) (i % 256) v).entryChk i v)) :
    exec (.sourceEntryWrite w i v) s = .next (entryEff i v s).settle := by
  have htable : (⟨i / 256 % 4, Nat.mod_lt _ (by decide)⟩ : Fin 4) = j := Fin.ext (by simp only [hj]; omega)
  rw [exec, execSourceEntryWrite, if_neg (Nat.not_le.mpr hi), htable, pressOne_table (chk := fun s => s.entryChk i v) h, fin]

/-! ### Coalescers (R169) -/

theorem State.coalTimeUp_of_held {at_ : Nat} (hheld : (s.coal i).firstHeld = some at_) (hover : at_ + s.g EVG.COAL_TIME 0 i * 200 ≤ s.clock) :
    s.coalTimeUp i = true := by
  have hticks : at_ + s.coalTicks i ≤ s.clock := hover
  rw [State.coalTimeUp, hheld]
  exact decide_eq_true hticks

/-! ### FIRQ gaps (R173) -/

theorem Firq.back_over {f : Firq} {now : Nat} (h : f.gapAt + 40 ≤ now) : f.back now = { f with gap := false } := if_pos h

end

/-- Settles O11, clause by clause: each word acts at once through its near-side effect, and each event's guard holds. -/
theorem gathererRowsComplete : Obligations.GathererRowsComplete := by
  intro s w i v
  refine ⟨fun hi htaken => exec_bitmap (by decide) hi htaken, fun proof hi htaken => exec_bitmap (by decide) hi htaken,
    fun hi htaken => exec_bitmap (by decide) hi htaken, fun proof hi htaken => exec_bitmap (by decide) hi htaken,
    fun t htaken hset => ?claim, fun t htaken hset => ?done, fun htaken hset => ?forceDone, fun j hi hj htaken => ?entry,
    fun hlow hhigh htaken => ?coal, fun at_ hheld hover => ?fire, fun hgap => ?gapA, fun hgap => ?gapB, fun x hmode hfind halarm => ?watch⟩
  case claim => rw [exec, execClaim, pressOne_evg (by omega) htaken, claimEff_set _ hset, fin]
  case done => rw [exec, execDone, pressOne_evg (by omega) htaken, doneEff_set _ hset, fin]
  case forceDone => rw [exec, execForceDone, pressOne_evg (by decide) htaken, forceDoneEff_set hset, fin]
  case entry =>
    obtain ⟨htarget, hprio, hcoal, hen⟩ := src_entryEff i v s
    obtain ⟨hregs, hlanes⟩ := entryEff_frame i v s
    exact ⟨entryEff i v s, exec_sourceEntryWrite hi hj htaken, htarget, hprio, hcoal, hen, fun m => src_entryEff_ne v s, hregs, hlanes⟩
  case coal =>
    have hthere : ¬(i = 0 ∨ 16 ≤ i) := by omega
    rw [exec, execCoalWrite, if_neg hthere, pressOne_evg (by omega) htaken, fin]
  case fire => rw [exec, execCoalescerTimeFire, if_pos (State.coalTimeUp_of_held hheld hover), fin]
  case gapA => rw [exec, execFirqEdgeReassert, if_neg Bool.false_ne_true, Firq.back_over hgap, fin]
  case gapB => rw [exec, execFirqEdgeReassert, if_pos rfl, Firq.back_over hgap, fin]
  case watch => rw [exec, execNightWatchWake, hfind]; exact congrArg fin (if_pos ⟨hmode, .inl halarm⟩)

end Sys2Proof.Machine
end

section
/-! PROOFS. The words of the SMU page (R227 to R247): the bits of CMD and what they do from each HV state, CFG, LEVEL with the frisket's clamp, IRANGE
and RUN. -/

namespace Sys2Proof.Machine

section
variable {s : State} {w : Writer} {n : LaneId} {v : Word}

/-! ### Register words -/

/-- A field of 32 bits takes a word whole. -/
theorem withBits_full (w v : Word) : withBits w 31 0 v.toNat = v := by
  have hall : bitMask 31 0 = BitVec.allOnes 32 := by decide
  have hlow : v.toNat % 2 ^ 32 = v.toNat := Nat.mod_eq_of_lt v.isLt
  rw [withBits, hall, hlow, BitVec.not_allOnes, BitVec.and_zero, BitVec.zero_or, Nat.shiftLeft_zero, BitVec.ofNat_toNat, BitVec.setWidth_eq]

/-- Two fields of one page of one lane that lie in different words. -/
theorem Fld.addr_ne_of_off {f x : Fld} (m : Nat) (hpage : f.page = x.page) (hstep : f.step = x.step) (hoff : f.off ≠ x.off) :
    x.addr m 0 ≠ f.addr m 0 := by simp only [Fld.addr, hpage, hstep]; omega

/-- Two fields of one page of one lane that lie in different words: a write of the first keeps the second. -/
theorem State.wd_put_fld (f x : Fld) {u : Nat} (hpage : f.page = x.page) (hstep : f.step = x.step) (hoff : f.off ≠ x.off) :
    (s.put f n u).wd (x.addr n 0) = s.wd (x.addr n 0) := State.wd_setWd_ne s _ (Fld.addr_ne_of_off n hpage hstep hoff)

theorem State.wd_bump_fld (f x : Fld) (hpage : f.page = x.page) (hstep : f.step = x.step) (hoff : f.off ≠ x.off) :
    (s.bump f n).wd (x.addr n 0) = s.wd (x.addr n 0) := State.wd_setWd_ne s _ (Fld.addr_ne_of_off n hpage hstep hoff)

theorem State.wd_put_ne {f : Fld} {m u a : Nat} (h : a ≠ f.addr m 0) : (s.put f m u).wd a = s.wd a := State.wd_setWd_ne s _ h

theorem State.wd_bump_ne {f : Fld} {m a : Nat} (h : a ≠ f.addr m 0) : (s.bump f m).wd a = s.wd a := State.wd_setWd_ne s _ h

theorem State.fw_put_same {f : Fld} {m : Nat} (hhi : f.hi = 31) (hlo : f.lo = 0) : (s.put f m v.toNat).fw f m = v := by
  rw [State.fw, State.put, State.wd_p, if_pos rfl, hhi, hlo, withBits_full]

/-! ### START (R236, R239) -/

/-- A change of the HV state moves STAT.STATE and PG_STAT, and no other word. -/
theorem State.wd_setHv_ne {a st : Nat} (hstate : a ≠ SMU.STAT_STATE.addr n 0) (hstat : a ≠ (Page.lane n .smu).at_ 3) :
    (s.setHv n st).wd a = s.wd a := by
  rw [State.setHv, State.smuStopped, State.setStopped, State.wd_setHw, if_neg hstat, State.setPgStat, State.wd_setHw, if_neg hstat,
    State.wd_put_ne hstate]
  rfl

/-- The header words of the SMU page are no words of its own fields. -/
theorem Fld.addr_ne_smuHeader {f : Fld} {o : Nat} (hpage : f.page = 0x41) (hstep : f.step = 8) (hoff : o ≠ f.off) :
    f.addr n 0 ≠ (Page.lane n .smu).at_ o := by
  have hnum : (Page.lane n .smu).num = 0x41 + 8 * n := by rw [Page.num, LaneKind.num]; omega
  rw [Page.at_, hnum, Fld.addr, hpage, hstep]
  omega

theorem State.g_setHv_state {st : Nat} (hst : st < 16) : (s.setHv n st).g SMU.STAT_STATE n = st := by
  have hstat : SMU.STAT_STATE.addr n 0 ≠ (Page.lane n .smu).at_ 3 := Fld.addr_ne_smuHeader rfl rfl (by decide)
  rw [State.g, State.setHv, State.smuStopped, State.setStopped, State.wd_setHw, if_neg hstat, State.setPgStat, State.wd_setHw, if_neg hstat,
    ← State.g, State.g_put_same _ _ _ _ rfl]
  exact Nat.mod_eq_of_lt hst

/-- A word that a change of the HV state does not move. -/
theorem State.wd_setHv_fld {f : Fld} {st : Nat} (hpage : f.page = 0x41) (hstep : f.step = 8) (hstate : f.off ≠ 0x11) (hstat : 3 ≠ f.off) :
    (s.setHv n st).wd (f.addr n 0) = s.wd (f.addr n 0) :=
  State.wd_setHv_ne (Fld.addr_ne_of_off n hpage.symm hstep.symm hstate.symm) (Fld.addr_ne_smuHeader hpage hstep hstat)

/-- What START leaves from OFF before an HV-off that is held is looked at. -/
def State.arming (s : State) (n : LaneId) (h : Nat) : State :=
  (((((((s.put SMU.F_VMAX n (s.frisket h n).v.toNat).put SMU.F_IMAX n (s.frisket h n).i.toNat).put SMU.F_EMAX n (s.frisket h n).e.toNat).put
    SMU.E_USED n 0).upSmu n fun x =>
      { x with starter := some h, energy := 0, arcs := 0, inArc := false, maxI := 0, resultDue := false, tripped := false, measFlags := 0,
               ended := none }).bump SMU.HV_CYCLES n).setHv n 1)

theorem State.wd_arming_ne {h a : Nat} (hstate : a ≠ SMU.STAT_STATE.addr n 0) (hstat : a ≠ (Page.lane n .smu).at_ 3)
    (hcycles : a ≠ SMU.HV_CYCLES.addr n 0) (hused : a ≠ SMU.E_USED.addr n 0) (he : a ≠ SMU.F_EMAX.addr n 0) (hi : a ≠ SMU.F_IMAX.addr n 0)
    (hv : a ≠ SMU.F_VMAX.addr n 0) : (s.arming n h).wd a = s.wd a := by
  rw [State.arming, State.wd_setHv_ne hstate hstat, State.wd_bump_ne hcycles, State.upSmu, State.wd_upLane, State.wd_put_ne hused,
    State.wd_put_ne he, State.wd_put_ne hi, State.wd_put_ne hv]

/-- Fields of two pages of a lane lie in different words. -/
theorem Fld.addr_ne_of_page {f x : Fld} (m : Nat) (hpage : f.page ≠ x.page) (hstep : f.step = x.step) (hf : f.off < 256) (hx : x.off < 256) :
    x.addr m 0 ≠ f.addr m 0 := by simp only [Fld.addr, hstep]; omega

/-- START asks nothing of an HV-off, and moves none. -/
theorem State.on_arming_hwOff {h : Nat} : (s.arming n h).on LANE.ILK_HW_OFF n = s.on LANE.ILK_HW_OFF n := by
  have apart {f : Fld} (hpage : f.page = 0x41) (hstep : f.step = 8) (hoff : f.off < 256) : LANE.ILK_HW_OFF.addr n 0 ≠ f.addr n 0 :=
    Fld.addr_ne_of_page (f := f) (x := LANE.ILK_HW_OFF) n (by rw [hpage]; decide) hstep hoff (by decide)
  have hstat : LANE.ILK_HW_OFF.addr n 0 ≠ (Page.lane n .smu).at_ 3 := by
    rw [Page.at_, Page.num, Fld.addr]
    simp only [LANE.ILK_HW_OFF, LaneKind.num]
    omega
  rw [State.on, State.g, State.wd_arming_ne (apart rfl rfl (by decide)) hstat (apart rfl rfl (by decide)) (apart rfl rfl (by decide))
    (apart rfl rfl (by decide)) (apart rfl rfl (by decide)) (apart rfl rfl (by decide))]
  rfl

theorem State.hvStart_arms {h : Nat} (hoff : s.g SMU.STAT_STATE n = 0) (hhw : s.on LANE.ILK_HW_OFF n = false) : s.hvStart n h = s.arming n h := by
  have hheld : ¬(s.arming n h).on LANE.ILK_HW_OFF n = true := by rw [State.on_arming_hwOff, hhw]; exact Bool.false_ne_true
  rw [State.hvStart, if_neg (not_not_intro hoff)]
  exact if_neg hheld

/-- The starter's frisket, E_USED and HV_CYCLES as START leaves them. -/
theorem State.arming_words {h : Nat} : (s.arming n h).g SMU.STAT_STATE n = 1 ∧ (s.arming n h).g SMU.E_USED n = 0
    ∧ (s.arming n h).fw SMU.F_VMAX n = (s.frisket h n).v ∧ (s.arming n h).fw SMU.F_IMAX n = (s.frisket h n).i
    ∧ (s.arming n h).fw SMU.F_EMAX n = (s.frisket h n).e
    ∧ (s.arming n h).g SMU.HV_CYCLES n = min (s.g SMU.HV_CYCLES n + 1) (2 ^ SMU.HV_CYCLES.width - 1) := by
  refine ⟨State.g_setHv_state (by decide), ?used, ?volts, ?amps, ?energy, ?cycles⟩
  case used =>
    rw [State.g, State.arming, State.wd_setHv_fld rfl rfl (by decide) (by decide),
      State.wd_bump_fld SMU.HV_CYCLES SMU.E_USED rfl rfl (by decide), State.upSmu, State.wd_upLane, ← State.g, State.g_put_same _ _ _ _ rfl]
    rfl
  case volts =>
    rw [State.fw, State.arming, State.wd_setHv_fld rfl rfl (by decide) (by decide),
      State.wd_bump_fld SMU.HV_CYCLES SMU.F_VMAX rfl rfl (by decide), State.upSmu, State.wd_upLane,
      State.wd_put_fld SMU.E_USED SMU.F_VMAX rfl rfl (by decide), State.wd_put_fld SMU.F_EMAX SMU.F_VMAX rfl rfl (by decide),
      State.wd_put_fld SMU.F_IMAX SMU.F_VMAX rfl rfl (by decide), ← State.fw, State.fw_put_same rfl rfl]
  case amps =>
    rw [State.fw, State.arming, State.wd_setHv_fld rfl rfl (by decide) (by decide),
      State.wd_bump_fld SMU.HV_CYCLES SMU.F_IMAX rfl rfl (by decide), State.upSmu, State.wd_upLane,
      State.wd_put_fld SMU.E_USED SMU.F_IMAX rfl rfl (by decide), State.wd_put_fld SMU.F_EMAX SMU.F_IMAX rfl rfl (by decide),
      ← State.fw, State.fw_put_same rfl rfl]
  case energy =>
    rw [State.fw, State.arming, State.wd_setHv_fld rfl rfl (by decide) (by decide),
      State.wd_bump_fld SMU.HV_CYCLES SMU.F_EMAX rfl rfl (by decide), State.upSmu, State.wd_upLane,
      State.wd_put_fld SMU.E_USED SMU.F_EMAX rfl rfl (by decide), ← State.fw, State.fw_put_same rfl rfl]
  case cycles =>
    rw [State.g, State.arming, State.wd_setHv_fld rfl rfl (by decide) (by decide), ← State.g, State.g_bump_same _ _ _ _ _ rfl, State.g_upSmu,
      State.g, State.wd_put_fld SMU.E_USED SMU.HV_CYCLES rfl rfl (by decide), State.wd_put_fld SMU.F_EMAX SMU.HV_CYCLES rfl rfl (by decide),
      State.wd_put_fld SMU.F_IMAX SMU.HV_CYCLES rfl rfl (by decide), State.wd_put_fld SMU.F_VMAX SMU.HV_CYCLES rfl rfl (by decide), ← State.g]

/-! ### CFG and LEVEL (R227, R234) -/

/-- An accepted CFG word is noted by nothing; with another CFG the image of the words that hang on it is reset. -/
theorem smuPress_cfg (h : s.taken w (.lane n .smu) 0x14 v (smuChk w n 0x14 v (s.staged (.lane n .smu) 0x14 v))) :
    smuPress w n 0x14 v 0 s
      = if s.imageWd (.lane n .smu) 0x14 = (s.farSent n w (.lane n .smu) 0x14 v 0).imageWd (.lane n .smu) 0x14
        then s.farSent n w (.lane n .smu) 0x14 v 0 else (s.farSent n w (.lane n .smu) 0x14 v 0).cfgResetImage n [] := by
  rw [smuPress_far (Page.mirrorAt_far nofun nofun (by decide)) (fun e => absurd e (by decide)) (smuAdj_other _ _ _ _ _ (by decide) (by decide)) h,
    if_pos rfl]
  simp only [State.noteClamp, Nat.reduceEqDiff, if_false, true_and, ne_eq, ite_not]

theorem smuPress_level {a : Word} (h : s.taken w (.lane n .smu) 0x16 v (smuChk w n 0x16 v (s.staged (.lane n .smu) 0x16 v)))
    (ha : (s.staged (.lane n .smu) 0x16 v).smuAdj w.holder n 0x16 v = a) :
    smuPress w n 0x16 v 0 s = (let t := (s.farSent n w (.lane n .smu) 0x16 a 0).noteClamp n 0x16 v a
      if v = a then t else t.frisketTrap w n 0x16 false) := by
  rw [smuPress_far (Page.mirrorAt_far nofun nofun (by decide)) (fun e => absurd e (by decide)) ha h]
  simp only [Nat.reduceEqDiff, false_and, if_false]

theorem State.noteClamp_level_kept (t : State) : t.noteClamp n 0x16 v v
    = ((t.upSmu n fun x => { x with clampLevel := false }).showClamp n).put SMU.LAST_REQ_LEVEL n v.toNat := by
  simp only [State.noteClamp, if_true, bne_self_eq_false]

theorem State.noteClamp_level_clamped {a : Word} (t : State) (ha : v ≠ a) : t.noteClamp n 0x16 v a
    = (((t.upSmu n fun x => { x with clampLevel := true }).showClamp n).put SMU.LAST_REQ_LEVEL n v.toNat).farSmu n 5 := by
  simp only [State.noteClamp, if_true, bne_iff_ne.mpr ha, if_neg ha]

end

/-- Settles O15, clause by clause: each word of the SMU page sets out as the frisket leaves it, and its effect is what the far side applies; START
from OFF arms with the starter's frisket. -/
theorem smuPressesComplete : Obligations.SmuPressesComplete := by
  intro s w n
  refine ⟨fun c v hc htaken => ?cmd, fun v since q harr => exec_farSideApply_eff harr fun _ => rfl, fun t hramp => State.hvStop_drives (.inl hramp),
    fun t hin => State.endCycle_aborts hin (by decide), fun t hoff hhw => ?start, fun v htaken hsame => ?cfgSame, fun v htaken hother => ?cfgOther,
    fun v since q harr => exec_farSideApply_eff harr fun _ => rfl, fun v t hother => if_neg hother, fun v htaken hadj => ?level,
    fun v a htaken hadj hclamped => ?levelClamped, fun a since q harr => exec_farSideApply_eff harr fun _ => rfl, fun v htaken => ?irange,
    fun v since q harr => exec_farSideApply_eff harr fun _ => rfl, fun v htaken => congrArg fin (smuPress_ctl htaken),
    fun v since q hkeep harr => exec_farSideApply_eff harr fun t => congrFun (smuEff_ctl w.holder n v 0 [2] hkeep) t⟩
  case cmd =>
    have hpress {v : Word} (htaken : s.taken w (.lane n .smu) 0x10 v (smuChk w n 0x10 v (s.staged (.lane n .smu) 0x10 v))) :
        smuPress w n 0x10 v 0 s = s.farSent n w (.lane n .smu) 0x10 v 0 :=
      smuPress_far_plain (Page.mirrorAt_far nofun nofun (by decide)) (fun e => absurd e (by decide)) (by decide) (by decide) (by decide) htaken
    simp only [List.mem_cons, Prod.mk.injEq, List.not_mem_nil, or_false] at hc
    rcases hc with ⟨rfl, rfl⟩ | ⟨rfl, rfl⟩ | ⟨rfl, rfl⟩ | ⟨rfl, rfl⟩ | ⟨rfl, rfl⟩ <;> exact congrArg fin (hpress htaken)
  case start =>
    have hcmd : t.smuCmd n w.holder 1 = t.arming n w.holder := State.hvStart_arms hoff hhw
    rw [hcmd]
    exact State.arming_words
  case cfgSame => rw [exec, execSmuCfgWrite, smuPress_cfg htaken, if_pos hsame.symm, fin]
  case cfgOther => rw [exec, execSmuCfgWrite, smuPress_cfg htaken, if_neg (Ne.symm hother), fin]
  case level => rw [exec, execSmuLevelWrite, smuPress_level htaken hadj, State.noteClamp_level_kept]; exact congrArg fin (if_pos rfl)
  case levelClamped =>
    rw [exec, execSmuLevelWrite, smuPress_level htaken hadj, State.noteClamp_level_clamped _ hclamped]
    exact congrArg fin (if_neg hclamped)
  case irange =>
    rw [exec, execSmuIrangeWrite, smuPress_far_plain (Page.mirrorAt_far nofun nofun (by decide)) (fun e => absurd e (by decide)) (by decide)
      (by decide) (by decide) htaken, fin]

end Sys2Proof.Machine
end

section
/-! PROOFS. The interlock loops and the permit pair (R49 to R53), a silent permit channel (R50), and the isolated converter (R44). -/

namespace Sys2Proof.Machine

section
variable {s : State} {n : LaneId} {p : IlkPair} {mv mvA mvB : Int} {us : Nat} {x : Ilk}

/-! ### What an input reads (R49) -/

theorem pairReads_loop_open {last : Bool} (h : 8000 < mv) : pairReads (.loop n) mv last = false := if_pos h

theorem pairReads_loop_closed {last : Bool} (h : mv < 2000) : pairReads (.loop n) mv last = true := by
  rw [pairReads, if_neg (by omega), if_pos h]

theorem pairReads_permit_open {last : Bool} (h : mv < 5000) : pairReads .permit mv last = false := if_pos h

theorem pairReads_permit_closed {last : Bool} (h : 15000 ≤ mv) : pairReads .permit mv last = true := by
  rw [pairReads, if_neg (by omega), if_pos h]

theorem State.readPair_eq {a b : Bool} (ha : pairReads p mvA (s.ilk p).readA = a) (hb : pairReads p mvB (s.ilk p).readB = b) :
    s.readPair p mvA mvB = { s.ilk p with readA := a, readB := b } := by rw [State.readPair, ha, hb]

/-! ### What writing a pair's channels leaves -/

@[simp] theorem State.ilk_setIlk : (s.setIlk p x).ilk p = x := by
  cases p with
  | loop n => simp only [State.setIlk, State.ilk, State.lane_put, State.lane_upLane_same]
  | permit => rfl

@[simp] theorem State.awake_setIlk : (s.setIlk p x).awake = s.awake := by
  have hmode : (s.setIlk p x).pwr.mode = s.pwr.mode := by cases p <;> rfl
  rw [State.awake, hmode, State.awake]

theorem State.on_setIlk_loop : (s.setIlk (.loop n) x).on LANE.ILK_DISCREPANCY n = s.on LANE.ILK_DISCREPANCY n := by
  rw [State.on, State.setIlk, State.g_put_ne _ LANE.ILK_B _ _ _ _ _ rfl (.inr (by decide)),
    State.g_put_ne _ LANE.ILK_A _ _ _ _ _ rfl (.inr (by decide)), State.g_upLane, State.on]

theorem State.on_setIlk_permit : (s.setIlk .permit x).on MOD.PERMIT_DISCREPANCY 0 = s.on MOD.PERMIT_DISCREPANCY 0 := by
  rw [State.on, State.setIlk, State.g_put_ne _ MOD.PERMIT_B _ _ _ _ _ rfl (.inr (by decide)),
    State.g_put_ne _ MOD.PERMIT_A _ _ _ _ _ rfl (.inr (by decide)), State.on]
  rfl

/-! ### Openings (R49, R50) -/

theorem exec_interlockOpening (hmon : s.monitored p = true) (hopen : (x.a && !x.readA || x.b && !x.readB) = true) (hus : 1500 ≤ us)
    (hread : s.readPair p mvA mvB = x) :
    exec (.interlockOpening p mvA mvB us) s = .next ((s.setIlk p x).opening p (x.a && !x.readA) (x.b && !x.readB)).settle := by
  have hcounts (t : State) : t.openCounts us = (true, t) := by rw [State.openCounts, if_neg (by omega), if_pos hus]
  rw [exec, execInterlockOpening, hread, if_pos hmon, hopen]
  simp only [hcounts, if_true, fin]

/-- A reading that stands up to 1.0 ms opens nothing. -/
theorem exec_interlockOpening_short (hmon : s.monitored p = true) (hus : us ≤ 1000) :
    exec (.interlockOpening p mvA mvB us) s = .next (s.setIlk p (s.readPair p mvA mvB)).settle := by
  have hcounts (t : State) : t.openCounts us = (false, t) := if_pos hus
  rw [exec, execInterlockOpening, if_pos hmon]
  simp only [hcounts, Bool.false_eq_true, if_false, ite_self, fin]

/-- Channel A of a loop opens alone. -/
theorem State.opening_loop (hawake : s.awake = true) (hx : s.ilk (.loop n) = x) : s.opening (.loop n) true false
    = (((s.setIlk (.loop n) { x with a := false, counted := false, bothClosed := false, bothOpened := x.bothOpened || !x.b }).bump LANE.ILK_OPENS
        n).farRaise n .lane 3).pairEval (.loop n) 1 := by
  simp only [State.opening, hx, State.awake_setIlk, hawake, Bool.not_true, Bool.not_false, Bool.and_false, Bool.and_true, Bool.true_and, if_true]

/-- Input B of the permit pair opens alone. -/
theorem State.opening_permit (hx : s.ilk .permit = x) : s.opening .permit false true
    = ((s.setIlk .permit { x with b := false, counted := false, bothClosed := false, bothOpened := x.bothOpened || !x.a }).bump
        MOD.PERMIT_OPENS_COUNT 0).pairEval .permit 4 := by
  simp only [State.opening, hx, Bool.not_true, Bool.not_false, Bool.and_false, Bool.and_true]

/-! ### Discrepancies (R51) -/

/-- Channel A of a loop has read open and B closed for more than 50 ms. -/
theorem exec_channelDiscrepancy_loop (hmon : s.monitored (.loop n) = true) (hawake : s.awake = true)
    (hread : s.readPair (.loop n) mvA mvB = { s.ilk (.loop n) with readA := false, readB := true }) (hus : 50000 < us)
    (hclear : s.on LANE.ILK_DISCREPANCY n = false) :
    exec (.channelDiscrepancy (.loop n) mvA mvB us) s
      = .next ((((s.setIlk (.loop n) ⟨false, true, false, false, false, false, true⟩).setW1c LANE.ILK_DISCREPANCY n 0 1).farRaise n .lane
          7).pairEval (.loop n) 3).settle := by
  rw [exec, execChannelDiscrepancy, hread, hmon, decide_eq_true hus]
  simp only [State.on_setIlk_loop, State.awake_setIlk, hclear, hawake]
  rfl

theorem exec_channelDiscrepancy_permit (hmon : s.monitored .permit = true)
    (hread : s.readPair .permit mvA mvB = { s.ilk .permit with readA := false, readB := true }) (hus : 50000 < us)
    (hclear : s.on MOD.PERMIT_DISCREPANCY 0 = false) :
    exec (.channelDiscrepancy .permit mvA mvB us) s
      = .next (((((s.setIlk .permit ⟨false, true, false, false, false, false, true⟩).strike (MOD.PERMIT_DISCREPANCY.addr 0 0) 8).put
          MOD.PERMIT_DISCREPANCY 0 1).raiseMod 3).pairEval .permit 4).settle := by
  have hmask : bitMask 3 3 = 8 := by decide
  have hstill (a : Nat) (m : Word) (y : Ilk) : ((s.setIlk .permit y).strike a m).on MOD.PERMIT_DISCREPANCY 0 = false := by
    rw [State.on, State.g_strike, ← State.on, State.on_setIlk_permit, hclear]
  rw [exec, execChannelDiscrepancy, hread, hmon, decide_eq_true hus]
  simp only [hstill, hmask]
  rfl

/-- The far side takes the clear of a DISCREPANCY bit that the proof of the write saw set. -/
theorem laneFarEff_discrepancyClear {y : FarWrite} (hseen : bitAt (s.proofNow n y) 4 = true) :
    laneFarEff n 0x16 0x10 ((s.turned n).proofNow n y) (s.turned n) = (s.turned n).discrepancyClear (.loop n) := by
  have hsame : (s.turned n).proofNow n y = s.proofNow n y := by
    rw [State.proofNow, State.proofNow, State.turned, State.upLink, State.lane_upLane_same]
  rw [laneFarEff, if_pos rfl, hsame, hseen]
  rfl

end

/-- Settles O3, clause by clause: the voltages fix what the inputs read, and the times what of it counts. -/
theorem interlockRowsComplete : Obligations.InterlockRowsComplete := by
  intro s n
  refine ⟨fun mvA mvB us x hmon hawake hA hB hus hclosed hx => ?openLoop, fun mvA mvB us x hmon hA hB hus hclosed hx => ?openPermit,
    fun p mvA mvB us hmon hus => exec_interlockOpening_short hmon hus, fun hup => congrArg fin (if_pos hup),
    fun mvA mvB us x hmon hawake hA hB hus hclear hx => ?discLoop, fun mvA mvB us x hmon hA hB hus hclear hx => ?discPermit,
    fun p mvA mvB us x hmon hx hreadA hreadB hus => ?closing, fun p mvA mvB us x hmon hx hus => ?closingEarly, fun w htaken => ?clearPermit,
    fun w htaken => ?clearLoop, fun w since q harr hseen => ?clearApplied, fun hup htripped => ?trip, fun w htaken => ?rearm,
    fun w since q harr => exec_farSideApply_eff harr fun _ => rfl⟩
  case openLoop =>
    have hread : s.readPair (.loop n) mvA mvB = { (s.lane n).ilk with readA := false, readB := true } :=
      State.readPair_eq (pairReads_loop_open hA) (pairReads_loop_closed hB)
    rw [hx, exec_interlockOpening hmon (by simp only [hclosed, Bool.not_false, Bool.and_true, Bool.true_or]) hus hread]
    simp only [hclosed, Bool.not_true, Bool.not_false, Bool.and_true, Bool.and_false]
    rw [State.opening_loop (by rw [State.awake_setIlk, hawake]) State.ilk_setIlk]
  case openPermit =>
    have hread : s.readPair .permit mvA mvB = { s.pwr.permits with readA := true, readB := false } :=
      State.readPair_eq (pairReads_permit_closed hA) (pairReads_permit_open hB)
    rw [hx, exec_interlockOpening hmon (by simp only [hclosed, Bool.not_false, Bool.and_true, Bool.or_true]) hus hread]
    simp only [hclosed, Bool.not_true, Bool.not_false, Bool.and_true, Bool.and_false]
    rw [State.opening_permit State.ilk_setIlk]
  case discLoop =>
    rw [hx, exec_channelDiscrepancy_loop hmon hawake (State.readPair_eq (pairReads_loop_open hA) (pairReads_loop_closed hB)) hus hclear]
  case discPermit =>
    rw [hx, exec_channelDiscrepancy_permit hmon (State.readPair_eq (pairReads_permit_open hA) (pairReads_permit_closed hB)) hus hclear]
  case closing =>
    rw [exec, execChannelClosing, if_pos hmon, ← hx]
    simp only [hreadA, hreadB, decide_eq_true hus, Bool.or_true, Bool.and_true, if_true, fin]
  case closingEarly =>
    have hshort : decide (20000 ≤ us) = false := decide_eq_false (Nat.not_le.mpr hus)
    rw [exec, execChannelClosing, if_pos hmon, ← hx]
    simp only [hshort, Bool.and_false, Bool.false_eq_true, if_false, fin]
  case clearPermit => exact congrArg fin (pressOne_near rfl (by decide) htaken)
  case clearLoop => exact congrArg fin (pressOne_far rfl rfl (fun e => absurd e (by decide)) htaken)
  case clearApplied =>
    rw [exec_farSideApply_one harr]
    exact congrArg (fun t : State => fin (State.farApply 1 n (t.sendUp n (.applied (.lane n .lane) q)))) (laneFarEff_discrepancyClear hseen)
  case trip => rw [exec, execConverterTrip, hup, htripped]; rfl
  case rearm => exact congrArg fin (pressOne_far rfl rfl (fun e => absurd e (by decide)) htaken)

end Sys2Proof.Machine
end

section
/-! PROOFS. Power states (R27) and the resets of every scope (R57 to R62, R78, R82, R413). -/

namespace Sys2Proof.Machine

section
variable {s : State} {n : LaneId} {w : Writer} {v : Word}

/-! ### A word of the MOD page, and LANE.RST -/

theorem modPress_taken {off : Nat} {proof : Word} (hoff : off ≠ 2) (h : s.taken w .mod off v (modChk off v (s.staged .mod off v))) :
    pressOne w .mod off v proof (modChk off v) (modEff off v proof) s = s.nearDone .mod (modEff off v proof) := pressOne_near rfl hoff h

theorem modEff_softReset (h : bitAt v 0 = true) : modEff 0x1C v 0 = fun s => { s with pwr := { s.pwr with softReset := true } } :=
  funext fun _ => if_pos h

theorem rstPress_lane (hlane : bitAt v 0 = true) (h : s.taken w (.lane n .lane) 0x1A v (rstChk v s)) :
    rstPress w n v s = (s.laneReset n w.holder).doneAll (3 + n.val) := by
  obtain ⟨hwritable, hjudge⟩ := h
  rw [rstPress, hlane, hwritable, hjudge]
  rfl

theorem rstPress_engine (hlane : bitAt v 0 = false) (heng : bitAt v 1 = true) (h : s.taken w (.lane n .lane) 0x1A v (rstChk v s)) :
    rstPress w n v s = s.nearDone (.lane n .lane) fun s => (s.engineReset n w.holder).doneAll (3 + n.val) := by
  have hpress := pressOne_near (proof := 0) (chk := rstChk v)
    (eff := fun s => if bitAt v 1 then (s.engineReset n w.holder).doneAll (3 + n.val) else s) rfl (by decide) h
  rw [rstPress, hlane]
  refine hpress.trans (congrArg (s.nearDone _) (funext fun t => if_pos heng))

/-! ### Power states (R27) -/

theorem State.awake_of_run (h : s.pwr.mode = .run) : s.awake = true := by rw [State.awake, h]; rfl
theorem State.awake_of_quiet (h : s.pwr.mode = .quiet) : s.awake = true := by rw [State.awake, h]; rfl

theorem exec_powerStateChange_run (hmode : s.pwr.mode = .quiet) (hreq : s.g MOD.PWR_REQ 0 = 0) :
    exec .powerStateChange s = .next ((if (s.toPower .run 0).on THERM.STAT_SHED 0 then s.toPower .run 0
      else (s.toPower .run 0).forLanes allLanes fun m s => if s.fitted m && !(s.lane m).link.farPowered then s.powerUp m else s)).settle := by
  rw [exec, execPowerStateChange, State.awake_of_quiet hmode, hreq, hmode]
  rfl

/-! ### Release (R57, R58, R78) -/

/-- A lane that is held in reset for its millisecond is released. -/
theorem exec_resetRelease_lane (hawake : s.awake = true) (hfit : s.fitted n = true) (hphase : s.phase n = phReset)
    (hover : (s.lane n).link.huntFrom + msTicks ≤ s.clock) :
    exec (.resetRelease (some n)) s = .next (if s.pwr.mode = .run ∧ s.on THERM.STAT_SHED 0 = false
      then (s.upLink n fun l => { l with huntFrom := s.clock }).powerUp n
      else (s.upLink n fun l => { l with huntFrom := s.clock }).setPhase n phOff).settle := by
  have hguard : ¬(!s.awake || !s.fitted n) = true := by rw [hawake, hfit]; exact Bool.false_ne_true
  rw [exec, execResetRelease]
  simp only [if_neg hguard, if_pos hphase, if_neg (Nat.not_lt.mpr hover)]
  rfl

/-! ### What a module reset leaves of the power state (R57, R59) -/

/-- A fold whose steps keep a part of the state keeps it. -/
theorem foldl_keeps {β γ : Type} (part : State → γ) (f : State → β → State) (hkeep : ∀ t b, part (f t b) = part t) (l : List β) (t : State) :
    part (l.foldl f t) = part t := by
  induction l generalizing t with
  | nil => rfl
  | cons b l ih => rw [List.foldl_cons, ih, hkeep]

/-- Showing the calendar keeps what a write of a register keeps. -/
theorem calShow_keeps {γ : Type} (part : State → γ) (hput : ∀ (t : State) (f : Fld) (m u : Nat), part (t.put f m u) = part t) (t : State)
    (src : Nat) (leap : Bool) : part (t.calShow src leap) = part t := by
  unfold State.calShow
  split <;> simp only [hput]

/-- So does showing the supplies. -/
theorem supplyShow_keeps {γ : Type} (part : State → γ) (hput : ∀ (t : State) (f : Fld) (m u : Nat), part (t.put f m u) = part t) (t : State) :
    part t.supplyShow = part t := by simp only [State.supplyShow, hput]

@[simp] theorem State.pwr_calShow (src : Nat) (leap : Bool) : (s.calShow src leap).pwr = s.pwr := calShow_keeps State.pwr State.put_pwr s src leap

@[simp] theorem State.pwr_sessionsReset : s.sessionsReset.pwr = s.pwr := foldl_keeps State.pwr _ (fun _ _ => State.upSess_pwr _ _ _) allSess s

@[simp] theorem State.pwr_quoinsReset : s.quoinsReset.pwr = s.pwr := by rw [State.quoinsReset]

@[simp] theorem State.pwr_supplyShow : s.supplyShow.pwr = s.pwr := supplyShow_keeps State.pwr State.put_pwr s

@[simp] theorem State.pwr_alert (c : Nat) : (s.alert c).pwr = s.pwr := State.put_pwr ..

@[simp] theorem State.pwr_offNoted (c : Nat) : (s.offNoted n c).pwr = s.pwr := by rw [State.offNoted, State.upLane_pwr, State.put_pwr]

/-- A module reset holds the module in reset; a watchdog expiry leaves its mark. -/
theorem State.pwr_moduleReset (s : State) (cause hv : Nat) : (s.moduleReset cause hv).pwr.mode = .inReset
    ∧ (s.moduleReset cause hv).pwr.watchdog = (s.imageCut.sbCut.pwr.watchdog || cause == 5) := by
  rw [State.moduleReset]
  split <;> simp only [State.pwr_alert, State.bump_pwr, State.put_pwr, foldl_keeps State.pwr _ (fun _ _ => State.pwr_offNoted _),
    State.pwr_calShow, State.pwr_supplyShow, State.pwr_quoinsReset, State.pwr_sessionsReset, and_self]

end

/-- Settles O4, clause by clause: each command's guard holds, and what it takes is the reset or the power state of its row. -/
theorem resetRowsComplete : Obligations.ResetRowsComplete := by
  intro s n w
  refine ⟨fun v htaken => ?pwrReq, fun hmode hreq => ?quiet, fun hawake hreq => ?dormant, fun hmode hreq hshed => ?backShed,
    fun hmode hreq hshed => ?back, fun hmode hmrst hbrown hvin htime => ?module, fun hmode hfit hphase hshed hover => ?lane,
    fun hmode hfit hphase hover => ?laneQuiet, fun hawake hfit hphase hrun hpaused hchase htime => ?engine, fun v htaken hset => ?soft,
    fun pc hawake hover => ?watchdog, fun v hlane htaken => ?laneReset, fun v hlane heng htaken => ?engineReset⟩
  case pwrReq => exact congrArg fin (modPress_taken (by decide) htaken)
  case quiet => rw [exec, execPowerStateChange, State.awake_of_run hmode, hreq, hmode]; rfl
  case dormant => rw [exec, execPowerStateChange, hawake, hreq]; rfl
  case backShed => rw [exec_powerStateChange_run hmode hreq, if_pos hshed]
  case back => rw [exec_powerStateChange_run hmode hreq, if_neg (by rw [hshed]; exact Bool.false_ne_true)]
  case module => rw [exec, execResetRelease, State.releasable, hmode, hmrst, hbrown, hvin, decide_eq_true htime]; rfl
  case lane => rw [exec_resetRelease_lane (State.awake_of_run hmode) hfit hphase hover, if_pos ⟨hmode, hshed⟩]
  case laneQuiet =>
    have hnotRun : ¬(s.pwr.mode = .run ∧ s.on THERM.STAT_SHED 0 = false) := fun ⟨hrun, _⟩ => nomatch hmode.symm.trans hrun
    rw [exec_resetRelease_lane (State.awake_of_quiet hmode) hfit hphase hover, if_neg hnotRun]
  case engine =>
    have hguard : ¬(!s.awake || !s.fitted n) = true := by rw [hawake, hfit]; exact Bool.false_ne_true
    have hdue : (s.eng n).run = .reset ∧ (s.gal n).d0Paused = true ∧ s.chaseUp = true ∧ (s.eng n).since + 20000 ≤ s.clock :=
      ⟨hrun, hpaused, hchase, htime⟩
    rw [exec, execResetRelease]
    simp only [if_neg hguard, if_neg hphase, if_pos hdue, fin]
  case soft => rw [exec, execSoftReset, modPress_taken (by decide) htaken, modEff_softReset hset]; rfl
  case watchdog =>
    rw [exec, execWatchdogExpiry, hawake, decide_eq_true hover, Bool.and_self, if_pos rfl]
    refine ⟨_, rfl, (State.pwr_moduleReset _ 5 5).1, (State.pwr_moduleReset _ 5 5).2.trans (Bool.or_true _)⟩
  case laneReset => rw [exec, execLaneReset, if_pos hlane, rstPress_lane hlane htaken, fin, State.laneResetNow]
  case engineReset =>
    rw [exec, execEngineReset, if_neg (by rw [hlane]; exact Bool.false_ne_true), rstPress_engine hlane heng htaken, fin]

end Sys2Proof.Machine
end

section
/-! PROOFS. Supplies and pins (R29 to R42, R56): VIO and MRST#, the supplies that start and end the module and its island, and the fixture's pins
(R35, R495). -/

namespace Sys2Proof.Machine

section
variable {s : State} {mv vin aux : Nat}

/-! ### Supplies shown -/

@[simp] theorem State.lanes_supplyShow : s.supplyShow.lanes = s.lanes := supplyShow_keeps State.lanes State.put_lanes s
@[simp] theorem State.sb_supplyShow : s.supplyShow.sb = s.sb := supplyShow_keeps State.sb State.put_sb s
@[simp] theorem State.evg_supplyShow : s.supplyShow.evg = s.evg := supplyShow_keeps State.evg State.put_evg s
@[simp] theorem State.chase_supplyShow : s.supplyShow.chase = s.chase := supplyShow_keeps State.chase State.put_chase s

@[simp] theorem State.sb_calShow (src : Nat) (leap : Bool) : (s.calShow src leap).sb = s.sb := calShow_keeps State.sb State.put_sb s src leap
@[simp] theorem State.evg_calShow (src : Nat) (leap : Bool) : (s.calShow src leap).evg = s.evg := calShow_keeps State.evg State.put_evg s src leap
@[simp] theorem State.chase_calShow (src : Nat) (leap : Bool) : (s.calShow src leap).chase = s.chase :=
  calShow_keeps State.chase State.put_chase s src leap

theorem vioLevel_lt : vioLevel mv < 4 := by
  rw [vioLevel]
  split
  · decide
  · split <;> decide

/-- SUPPLY.VIO shows the window of VIO (R29). -/
theorem State.g_supplyShow_vio : s.supplyShow.g MOD.SUPPLY_VIO_LEVEL 0 = vioLevel s.pwr.vio := by
  rw [State.supplyShow, State.g_put_ne _ MOD.PWR_AUX_PRESENT _ _ _ _ _ rfl (.inl (by decide)), State.g_put_same _ _ _ _ rfl, State.put_pwr,
    State.put_pwr]
  exact Nat.mod_eq_of_lt vioLevel_lt

/-! ### VIO and MRST# (R29, R31) -/

/-- What a voltage at VIO leaves of the power state. -/
def State.vioAt (s : State) (mv : Nat) : State :=
  { s with pwr := { s.pwr with vio := mv, mrstLow := s.pwr.mrstLow && !(vioLevel mv == 0 && s.pwr.mrstLow),
                               heldFrom := if vioLevel mv == 0 && s.pwr.mrstLow then s.clock else s.pwr.heldFrom } }

theorem exec_vioWindowChange (hmode : s.pwr.mode ≠ .off) : exec (.vioWindowChange mv) s = .next (s.vioAt mv).supplyShow.settle :=
  congrArg fin (if_neg hmode)

theorem State.vioAt_mrstLow : (s.vioAt mv).pwr.mrstLow = (s.pwr.mrstLow && vioLevel mv != 0) := by
  have hlow : (s.vioAt mv).pwr.mrstLow = (s.pwr.mrstLow && !(vioLevel mv == 0 && s.pwr.mrstLow)) := rfl
  rw [hlow, bne]
  cases s.pwr.mrstLow <;> cases vioLevel mv == 0 <;> rfl

/-- A falling edge of MRST# with the module powered: out of DORMANT it wakes, else it resets. -/
theorem exec_mrstLow_falls (hvio : vioLevel s.pwr.vio ≠ 0) (hhigh : s.pwr.mrstLow = false) (hmode : s.pwr.mode ≠ .off) :
    exec (.mrstLow true) s = .next (if s.pwr.mode = .dormant then State.wakeDormant { s with pwr := { s.pwr with mrstLow := true } } 3 0 0 3
      else State.moduleReset { s with pwr := { s.pwr with mrstLow := true } } 3 5).settle := by
  rw [exec, execMrstLow, if_neg hvio, hhigh]
  simp only [Bool.not_false, Bool.and_self, Bool.not_true, Bool.false_eq_true, if_false, fin]
  cases hm : s.pwr.mode
  case off => exact absurd hm hmode
  all_goals simp only [reduceCtorEq, if_false, if_true]

/-! ### Brown-outs (R56) -/

theorem exec_brownout (hawake : s.awake = true) (hnone : s.pwr.brownout = false) (hlow : vin < 16500) :
    ∃ t : State, exec (.brownout vin) s = .next (State.settle { t.moduleReset 2 7 with pwr := { (t.moduleReset 2 7).pwr with brownout := true } }) := by
  have hpowered : ¬(16500 ≤ vin ∨ s.pwr.mode = .off) := by
    rintro (hhigh | hoff)
    · omega
    · rw [State.awake, hoff] at hawake
      exact Bool.false_ne_true hawake
  have hup : s.pwr.mode ≠ .dormant := by
    intro hdormant
    rw [State.awake, hdormant] at hawake
    exact Bool.false_ne_true hawake
  have hnone' : ¬s.pwr.brownout = true := by rw [hnone]; exact Bool.false_ne_true
  rw [exec, execBrownout, if_neg hpowered, if_neg hup, if_neg hnone']
  exact ⟨_, rfl⟩

/-! ### The island's power (R41, R42) -/

theorem islandFed_of_aux (h : auxOk aux = true) : islandFed vin aux = true := by rw [islandFed, h, Bool.true_or]

/-- AUX_5V has another voltage that feeds the island, the module being awake. -/
theorem exec_auxSourceChange (hon : s.pwr.islandOn = true) (hawake : s.awake = true) (haux : auxOk aux = true) :
    exec (.auxSourceChange aux) s
      = .next (if s.on MOD.PWR_AUX_PRESENT 0 then State.supplyShow { s with pwr := { s.pwr with aux := aux } }
          else (State.supplyShow { s with pwr := { s.pwr with aux := aux } }).raiseMod 4).settle := by
  have hguard : ¬(!s.pwr.islandOn || !islandFed s.pwr.vin aux) = true := by rw [hon, islandFed_of_aux haux]; exact Bool.false_ne_true
  have hstays : (State.supplyShow { s with pwr := { s.pwr with aux := aux } }).awake = true := by
    rw [State.awake, State.pwr_supplyShow]
    exact hawake
  rw [exec, execAuxSourceChange, if_neg hguard, haux]
  simp only [hstays, beq_true, if_true, fin]

/-- What is left once the island has no supply: the island's own record is gone. -/
theorem exec_islandPowerLoss (hmode : s.pwr.mode ≠ .off) : ∃ t : State, exec .islandPowerLoss s = .next t.settle ∧ t.pwr.mode = .off
    ∧ t.pwr.islandOn = false ∧ t.chase.islandSet = false ∧ t.chase.alarmArmed = false ∧ t.chase.calLost = true ∧ t.sb = Sb.reset
    ∧ t.evg.nwCopy = [] := by
  rw [exec, execIslandPowerLoss, if_neg hmode]
  refine ⟨_, rfl, ?_⟩
  simp only [State.pwr_supplyShow, State.pwr_calShow, State.put_pwr, State.chase_supplyShow, State.chase_calShow, State.put_chase,
    State.sb_supplyShow, State.sb_calShow, State.put_sb, State.evg_supplyShow, State.evg_calShow, State.put_evg, State.upChase, and_self]

theorem State.pwr_islandAlone (adr : Nat) : (s.islandAlone vin aux adr).pwr = { s.pwr with
    islandOn := true, adrStraps := adr, adrSampled := adr, mode := .dormant, aux := aux, vin := vin, brownout := false } := by
  rw [State.islandAlone, State.pwr_alert, State.put_pwr, State.pwr_supplyShow, State.islandStart]

/-- The island alone, with what its supplies are. -/
theorem State.islandAlone_leaves (s : State) (vin aux adr : Nat) : (s.islandAlone vin aux adr).pwr.mode = .dormant
    ∧ (s.islandAlone vin aux adr).pwr.islandOn = true ∧ (s.islandAlone vin aux adr).pwr.vin = vin ∧ (s.islandAlone vin aux adr).pwr.aux = aux
    ∧ (s.islandAlone vin aux adr).pwr.adrSampled = adr ∧ (s.islandAlone vin aux adr).sb = Sb.reset
    ∧ (s.islandAlone vin aux adr).g MOD.PWR_STATE 0 = 2 := by
  rw [State.pwr_islandAlone]
  refine ⟨rfl, rfl, rfl, rfl, rfl, ?_, ?_⟩
  · rw [State.islandAlone, State.alert, State.put_sb, State.put_sb, State.sb_supplyShow, State.islandStart]
  · rw [State.islandAlone, State.alert, State.g_put_ne _ SB.STAT_PENDING _ _ _ _ _ rfl (.inl (by decide)), State.g_put_same _ _ _ _ rfl]
    rfl

/-! ### The fixture's pins (R35, R495) -/

theorem State.fxOn_of_awake (h : s.awake = true) : s.fxOn = true := by rw [State.fxOn, h, Bool.true_or]

end

/-- Settles O2, clause by clause: each command's guard holds, and the supplies and pins are shown as they stand. -/
theorem supplyRowsComplete : Obligations.SupplyRowsComplete := by
  intro s
  refine ⟨fun mv hmode => ?vio, fun hvio hhigh hoff hdormant => ?mrstReset, fun hvio hhigh hdormant => ?mrstWake, fun hvio hlow => ?mrstRise,
    fun vin aux adr hoff hvin => ?on, fun vin aux adr hoff hvin hfed => ?onAlone, fun vin aux adr hdormant hvin hwas => ?onWake,
    fun vin hawake hnone hlow => ?brownout, fun vin hdormant hlow hfed => ?brownoutDormant, fun vin hbrown hvin => ?recovery,
    fun aux hon hawake haux habsent => ?auxRises, fun aux hon hawake haux hthere => ?auxStays, fun hmode => exec_islandPowerLoss hmode,
    fun aux adr hoff haux => ?islandUp, fun hawake habsent => ?fxIn, fun hawake hthere => ?fxOut, fun hawake hclear => ?fxLimit,
    fun hawake hset => ?fxLimitEnds⟩
  case vio =>
    refine ⟨(s.vioAt mv).supplyShow, exec_vioWindowChange hmode, ?_, State.g_supplyShow_vio, ?_, State.lanes_supplyShow, fun hgone => ?_, fun hin => ?_⟩
    · rw [State.pwr_supplyShow]; rfl
    · rw [State.pwr_supplyShow]; rfl
    · rw [State.pwr_supplyShow, State.vioAt_mrstLow, hgone]; exact Bool.and_false _
    · rw [State.pwr_supplyShow, State.vioAt_mrstLow, bne_iff_ne.mpr hin, Bool.and_true]
  case mrstReset => rw [exec_mrstLow_falls hvio hhigh hoff, if_neg hdormant]
  case mrstWake => rw [exec_mrstLow_falls hvio hhigh (by rw [hdormant]; nofun), if_pos hdormant]
  case mrstRise => rw [exec, execMrstLow, if_neg hvio, hlow]; rfl
  case on => rw [exec, execPowerOn, hoff]; exact congrArg fin (if_pos hvin)
  case onAlone =>
    have hdead : ¬vinOk vin = true := by rw [hvin]; exact Bool.false_ne_true
    rw [exec, execPowerOn, hoff]
    exact congrArg fin ((if_neg hdead).trans (if_pos hfed))
  case onWake =>
    have hfed : islandFed vin aux = true := by
      have hnine : decide (9000 < vin) = true := decide_eq_true (Nat.lt_trans (by decide) (of_decide_eq_true hvin))
      rw [islandFed, hnine, Bool.or_true]
    rw [exec, execPowerOn, hdormant, hfed, hvin, hwas]
    rfl
  case brownout =>
    obtain ⟨t, ht⟩ := exec_brownout hawake hnone hlow
    exact ⟨_, ht, rfl, (t.pwr_moduleReset 2 7).1⟩
  case brownoutDormant =>
    have hpowered : ¬(16500 ≤ vin ∨ s.pwr.mode = .off) := by
      rintro (hhigh | hoff)
      · omega
      · exact nomatch hdormant.symm.trans hoff
    rw [exec, execBrownout, if_neg hpowered, if_pos hdormant, if_pos hfed, fin]
  case recovery => rw [exec, execBrownoutRecovery, hbrown, hvin]; rfl
  case auxRises => rw [exec_auxSourceChange hon hawake haux, if_neg (by rw [habsent]; exact Bool.false_ne_true)]
  case auxStays => rw [exec_auxSourceChange hon hawake haux, if_pos hthere]
  case islandUp => exact ⟨_, congrArg fin (if_pos ⟨hoff, haux⟩), s.islandAlone_leaves 0 aux adr.val⟩
  case fxIn =>
    rw [exec, execFxPresentChange, State.fxOn_of_awake hawake, habsent, if_neg (by decide)]
    simp only [State.awake_put, hawake, Bool.not_true, Bool.false_eq_true, if_false, if_true, fin]
    rfl
  case fxOut =>
    rw [exec, execFxPresentChange, State.fxOn_of_awake hawake, hthere, if_neg (by decide)]
    simp only [State.awake_put, hawake, Bool.not_true, Bool.false_eq_true, if_false, fin]
    rfl
  case fxLimit =>
    rw [exec, execFxCurrentLimit, State.fxOn_of_awake hawake, hclear, if_pos (by decide)]
    simp only [State.awake_put, hawake, if_true, fin]
    rfl
  case fxLimitEnds =>
    rw [exec, execFxCurrentLimit, State.fxOn_of_awake hawake, hset, if_pos (by decide)]
    simp only [State.awake_put, hawake, Bool.false_eq_true, if_true, if_false, fin]
    rfl

end Sys2Proof.Machine
end

section
/-! PROOFS. The gutter link (R6 to R16, R69 to R73): frames that set out, what a locked receiver finds in its bits, resends, the safe state, and the
apply boundary of the far side (R24). -/

namespace Sys2Proof.Machine

section
variable {s : State} {n : LaneId} {up : Bool} {x : Rx}

/-! ### The link's own record -/

@[simp] theorem State.link_upLink (f : Link → Link) : ((s.upLink n f).lane n).link = f (s.lane n).link := by
  rw [State.upLink, State.lane_upLane_same]

theorem State.side_setSide (y : Side) : (s.setSide n up y).side n up = y := by
  cases up <;> simp only [State.setSide, State.side, State.link_upLink, Bool.false_eq_true, if_false, if_true]

theorem State.side_bump {f : Fld} {m : Nat} : (s.bump f m).side n up = s.side n up := by rw [State.side, State.lane_bump, State.side]

theorem State.g_setSide (y : Side) (f : Fld) (m i : Nat) : (s.setSide n up y).g f m i = s.g f m i := by
  rw [State.setSide, State.g_upLink]

/-! ### Sending (R6, R8) -/

/-- The frame that has just set out is the last of those that the model remembers as on their way. -/
theorem getLast?_flight (fs : List Frame) (f : Frame) : ((fs ++ [f]).drop (fs.length + 1 - flightMax)).getLast? = some f := by
  have hlen : ¬(fs ++ [f]).length ≤ fs.length + 1 - flightMax := by
    rw [List.length_append, List.length_singleton, flightMax]
    omega
  rw [List.getLast?_drop, if_neg hlen, List.getLast?_concat]

theorem Side.loadDown_frame (y : Side) (num : Nat) : (y.loadDown num).1.frame = y.frame := by
  rw [Side.loadDown]
  split
  split <;> rfl

/-- What the near side of lane n loads into its next frame, and the side that this leaves. -/
def State.downLoad (s : State) (n : LaneId) : Side × List (Nat × Item) :=
  let l := (s.lane n).link
  if l.locked && l.farPowered && l.near.rx.locked then l.near.loadDown l.near.frame else (l.near, [])

theorem State.downLoad_frame (s : State) (n : LaneId) : (s.downLoad n).1.frame = (s.lane n).link.near.frame := by
  rw [State.downLoad]
  split
  · exact Side.loadDown_frame _ _
  · rfl

theorem State.downLoad_unlocked (h : (s.lane n).link.locked = false) : (s.downLoad n).2 = [] := by
  rw [State.downLoad, h]
  rfl

/-- The frame that the near side sends next. -/
def State.downFrame (s : State) (n : LaneId) : Frame :=
  ⟨(s.lane n).link.near.frame, (s.lane n).link.near.rx.lastGood, if (s.downLoad n).2.isEmpty then .idle else .data, false,
   (s.downLoad n).2.any fun e => e.2.isReplay, (s.downLoad n).2, [], s.rtLo⟩

theorem State.sendDownFrame_eq (s : State) (n : LaneId) : s.sendDownFrame n = s.upLink n fun l =>
    { l with near := { (s.downLoad n).1 with frame := ((s.downLoad n).1.frame + 1) % 4096, sent := (s.downLoad n).1.sent + 1 },
             down := (l.down ++ [s.downFrame n]).drop (l.down.length + 1 - flightMax) } := rfl

/-- The frame that an unlocked far side sends: IDLE, with nothing in it. -/
def State.upIdle (s : State) (n : LaneId) : Frame :=
  ⟨(s.lane n).link.far.frame, (s.lane n).link.far.rx.lastGood, .idle, (s.lane n).link.farSafe, false, [], [], s.laneStatus n⟩

theorem State.sendUpFrame_unlocked (h : (s.lane n).link.locked = false) : s.sendUpFrame n = s.upLink n fun l =>
    { l with far := { (s.lane n).link.far with frame := ((s.lane n).link.far.frame + 1) % 4096, sent := (s.lane n).link.far.sent + 1 },
             up := (l.up ++ [s.upIdle n]).drop (l.up.length + 1 - flightMax), telemAge := l.telemAge + 1, telemDue := l.telemetryDue } := by
  unfold State.sendUpFrame
  simp only [h, Bool.false_and, Bool.false_eq_true, if_false, Bool.not_false, Bool.and_true, List.isEmpty_nil, if_true, State.upIdle]

/-! ### Receiving (R7, R71) -/

/-- A receiver with 1,024 bits more. -/
def Rx.more (x : Rx) (b : Nat) : Rx := { x with bits := x.bits * 2 ^ 1024 + b, len := x.len + 1024 }

theorem Rx.feed_more (b : Nat) : x.feed b = Rx.scan (4 * (x.len + 1024) + 6 + 1 + 1) (x.more b) := rfl

/-- More bits alone do not end a lock, nor does the end of a frame. -/
theorem Rx.locked_more (b : Nat) : (x.more b).locked = x.locked := by rw [Rx.more]

theorem Rx.locked_skip (k : Nat) : (x.skip k).locked = x.locked := by rw [Rx.skip]

theorem Rx.badRun_more (b : Nat) : (x.more b).badRun = x.badRun := by rw [Rx.more]

theorem Rx.len_more (b : Nat) : (x.more b).len = x.len + 1024 := by rw [Rx.more]

/-- The bits that came last. -/
theorem Rx.take_more {b : Nat} (hb : b < 2 ^ 1024) : (x.more b).take x.len 1024 = b := by
  have hshift : x.len + 1024 - x.len - 1024 = 0 := by omega
  rw [Rx.take, Rx.more, hshift, Nat.pow_zero, Nat.div_one, Nat.mul_comm, Nat.mul_add_mod, Nat.mod_eq_of_lt hb]

/-- A locked receiver finds nothing before the frame at its position is whole. -/
theorem Rx.scan_short (k : Nat) (hlock : x.locked = true) (hshort : x.len < 992 + 1024 * x.badRun + 1024) : Rx.scan (k + 1) x = ([], x) := by
  rw [Rx.scan, hlock, if_pos rfl]
  exact if_pos hshort

/-- It finds a good frame there, and goes on after it. -/
theorem Rx.scan_good {at_ w : Nat} (k : Nat) (hlock : x.locked = true) (hat : 992 + 1024 * x.badRun = at_) (hwhole : at_ + 1024 ≤ x.len)
    (htake : x.take at_ 1024 = w) (hgood : frameOk w = true) :
    Rx.scan (k + 1) x = (.good w :: (Rx.scan k (x.skip (at_ + 32))).1, (Rx.scan k (x.skip (at_ + 32))).2) := by
  subst hat htake
  rw [Rx.scan, hlock, if_pos rfl]
  exact (if_neg (Nat.not_lt.mpr hwhole)).trans (if_pos hgood)

/-- A frame there that is not good, fewer than three before it, leaves the lock. -/
theorem Rx.scan_bad {at_ w : Nat} (k : Nat) (hlock : x.locked = true) (hat : 992 + 1024 * x.badRun = at_) (hwhole : at_ + 1024 ≤ x.len)
    (htake : x.take at_ 1024 = w) (hbad : frameOk w = false) (hrun : x.badRun ≠ 3) :
    Rx.scan (k + 1) x = (.bad :: (Rx.scan k { x with badRun := x.badRun + 1 }).1, (Rx.scan k { x with badRun := x.badRun + 1 }).2) := by
  subst hat htake
  rw [Rx.scan, hlock, if_pos rfl]
  exact ((if_neg (Nat.not_lt.mpr hwhole)).trans (if_neg (by rw [hbad]; exact Bool.false_ne_true))).trans (if_neg hrun)

section
variable {b : Nat} (hlock : x.locked = true) (hlen : x.len = 992) (hrun : x.badRun = 0) (hb : b < 2 ^ 1024)
include hlock hlen hrun hb

/-- The bits that make the frame at a locked receiver's position whole, the frame being good. -/
theorem Rx.feed_good (hgood : frameOk b = true) : x.feed b = ([.good b], (x.more b).skip 1024) := by
  have hlocked : (x.more b).locked = true := by rw [Rx.locked_more, hlock]
  have hat : 992 + 1024 * (x.more b).badRun = 992 := by rw [Rx.badRun_more, hrun]
  have hwhole : 992 + 1024 ≤ (x.more b).len := by rw [Rx.len_more, hlen]
  have htake : (x.more b).take 992 1024 = b := by rw [← hlen, Rx.take_more hb]
  have hshort : ((x.more b).skip 1024).len < 992 + 1024 * ((x.more b).skip 1024).badRun + 1024 := by
    have hrest : ((x.more b).skip 1024).len = (x.more b).len - 1024 := by rw [Rx.skip]
    rw [hrest, Rx.len_more, Nat.add_sub_cancel, hlen]
    exact Nat.lt_add_left _ (by decide)
  have hnext : (x.more b).skip (992 + 32) = (x.more b).skip 1024 := rfl
  rw [Rx.feed_more, Rx.scan_good _ hlocked hat hwhole htake hgood, hnext, Rx.scan_short _ (by rw [Rx.locked_skip, hlocked]) hshort]

/-- The same with a frame that is not good: it is the first that is not. -/
theorem Rx.feed_bad (hbad : frameOk b = false) : x.feed b = ([.bad], { x.more b with badRun := 1 }) := by
  have hlocked : (x.more b).locked = true := by rw [Rx.locked_more, hlock]
  have hat : 992 + 1024 * (x.more b).badRun = 992 := by rw [Rx.badRun_more, hrun]
  have hwhole : 992 + 1024 ≤ (x.more b).len := by rw [Rx.len_more, hlen]
  have htake : (x.more b).take 992 1024 = b := by rw [← hlen, Rx.take_more hb]
  have hfirst : (x.more b).badRun = 0 := by rw [Rx.badRun_more, hrun]
  have hshort : (x.more b).len < 992 + 1024 * 1 + 1024 := by
    rw [Rx.len_more, hlen]
    decide
  rw [Rx.feed_more, Rx.scan_bad _ hlocked hat hwhole htake hbad (by rw [hfirst]; decide), hfirst,
    Rx.scan_short (x := { x.more b with badRun := 1 }) _ hlocked hshort]

end

theorem exec_gutterFrameReceive {b : BitVec 1024} {es : List RxEvent} {y : Rx} (hruns : s.linkRuns n = true)
    (hfeed : (s.side n up).rx.feed b.toNat = (es, y)) :
    exec (.gutterFrameReceive n up b) s
      = .next ((es.foldl (fun t e => t.rxEvent n up e) (s.setSide n up { s.side n up with rx := y })).lockCheck n).settle := by
  rw [exec, execGutterFrameReceive, if_pos hruns, State.receive, hfeed]
  rfl

/-- A frame that is not good is counted, and the receiver's run of acknowledgements ends. -/
theorem State.rxEvent_bad : s.rxEvent n up .bad
    = (s.bump LANE.BAD_FRAMES n).setSide n up { s.side n up with rx := { (s.side n up).rx with ackRun := 0 } } := by
  have hquiet : s.rxEvent n up .bad = (s.bump LANE.BAD_FRAMES n).setSide n up
      { (s.bump LANE.BAD_FRAMES n).side n up with rx := ((s.bump LANE.BAD_FRAMES n).side n up).rx.noRun } := rfl
  rw [hquiet, State.side_bump, Rx.noRun]

/-- A receiver finds one good frame in its bits. -/
theorem exec_gutterFrameReceive_good {b : BitVec 1024} {w : Nat} {y : Rx} (hruns : s.linkRuns n = true)
    (hfeed : (s.side n up).rx.feed b.toNat = ([.good w], y)) :
    exec (.gutterFrameReceive n up b) s
      = .next (((s.setSide n up { s.side n up with rx := y }).goodFrame n up w).lockCheck n).settle := by
  rw [exec_gutterFrameReceive hruns hfeed, List.foldl_cons, List.foldl_nil, State.rxEvent]

/-- It finds one frame that is not good. -/
theorem exec_gutterFrameReceive_bad {b : BitVec 1024} {y : Rx} (hruns : s.linkRuns n = true)
    (hfeed : (s.side n up).rx.feed b.toNat = ([.bad], y)) :
    ∃ t : State, exec (.gutterFrameReceive n up b) s = .next (t.lockCheck n).settle
      ∧ t.g LANE.BAD_FRAMES n = min (s.g LANE.BAD_FRAMES n + 1) (2 ^ LANE.BAD_FRAMES.width - 1)
      ∧ (t.side n up).rx = { y with ackRun := 0 } := by
  refine ⟨(s.setSide n up { s.side n up with rx := y }).rxEvent n up .bad, ?_, ?_, ?_⟩
  · rw [exec_gutterFrameReceive hruns hfeed, List.foldl_cons, List.foldl_nil]
  · rw [State.rxEvent_bad, State.g_setSide, State.g_bump_same _ _ _ _ _ rfl, State.g_setSide]
  · rw [State.rxEvent_bad, State.side_setSide, State.side_setSide]

/-! ### Resending (R8) -/

theorem exec_itemResend {u : Sent} (hlocked : (s.lane n).link.locked = true) (hrx : (s.side n (!up)).rx.locked = true)
    (hover : (s.side n (!up)).overdue = some u) :
    exec (.itemResend n up) s = .next (if 4 ≤ u.sends then (s.linkLost n).bothHunt n else (s.bump LANE.RESENDS n).setSide n (!up)
      { s.side n (!up) with
        unacked := (s.side n (!up)).unacked.map fun v => if v.id = u.id then { v with due := true, sends := v.sends + 1 } else v }).settle := by
  rw [exec, execItemResend, hlocked, hrx, Bool.and_self, if_pos rfl, State.resend, hover]
  rfl

end

/-- Settles O1, clause by clause: the frame that sets out is the last on its way, a locked receiver finds the one frame that is whole, and the other
commands' guards hold. -/
theorem gutterLinkRowsComplete : Obligations.GutterLinkRowsComplete := by
  intro s n
  refine ⟨fun hruns => ?sendDown, fun hruns hlost => ?sendUp, fun up b x hruns hx hlock hlen hrun hgood => ?good,
    fun up b x hruns hx hlock hlen hrun hbad => ?bad, fun up u hlocked hrx hover hfew => ?resend, fun up u hlocked hrx hover hmany => ?resendLost,
    fun hup hsafe htime => ?safe, fun hage => congrArg fin (if_pos hage), fun htakes => congrArg fin (if_pos htakes),
    fun w k off v proof since q x hx harr => ?apply, fun hlocked => congrArg fin (if_pos hlocked)⟩
  case sendDown =>
    have hlink := State.link_upLink (s := s) (n := n) fun l =>
      { l with near := { (s.downLoad n).1 with frame := ((s.downLoad n).1.frame + 1) % 4096, sent := (s.downLoad n).1.sent + 1 },
               down := (l.down ++ [s.downFrame n]).drop (l.down.length + 1 - flightMax) }
    rw [← State.sendDownFrame_eq] at hlink
    refine ⟨s.sendDownFrame n, congrArg fin (if_pos hruns), ?_, s.downFrame n, ?_, rfl, rfl, rfl, fun hlost => ?_⟩
    · rw [hlink, State.downLoad_frame]
    · rw [hlink, getLast?_flight]
    · have hnone := State.downLoad_unlocked hlost
      exact ⟨hnone, by rw [State.downFrame, hnone]; rfl⟩
  case sendUp =>
    refine ⟨s.sendUpFrame n, congrArg fin (if_pos hruns), ?_, s.upIdle n, ?_, rfl, rfl, rfl, rfl, rfl⟩
    · rw [State.sendUpFrame_unlocked hlost, State.link_upLink]
    · rw [State.sendUpFrame_unlocked hlost, State.link_upLink, getLast?_flight]
  case good =>
    have hmore : x.more b.toNat = { x with bits := x.bits * 2 ^ 1024 + b.toNat, len := 2016 } := by rw [Rx.more, hlen]
    have hfeed := Rx.feed_good hlock hlen hrun b.isLt hgood
    rw [hmore, hx] at hfeed
    rw [hx]
    exact exec_gutterFrameReceive_good hruns hfeed
  case bad =>
    have hmore : { x.more b.toNat with badRun := 1 } = { x with bits := x.bits * 2 ^ 1024 + b.toNat, len := 2016, badRun := 1 } := by
      rw [Rx.more, hlen]
    have hfeed := Rx.feed_bad hlock hlen hrun b.isLt hbad
    rw [hmore, hx] at hfeed
    rw [hx]
    exact exec_gutterFrameReceive_bad hruns hfeed
  case resend => rw [exec_itemResend hlocked hrx hover, if_neg (Nat.not_le.mpr hfew)]
  case resendLost => rw [exec_itemResend hlocked hrx hover, if_pos hmany]
  case safe =>
    have hover : (s.lane n).link.goodAt + safeTicks ≤ s.clock := htime
    rw [exec, execFarSideSafe, hup, hsafe, decide_eq_true hover]
    rfl
  case apply =>
    subst hx
    exact exec_farSideApply_one harr

end Sys2Proof.Machine
end
